-- ==== Sys2Proof/Word.lean ====
section
/-! DEFINITION. The widths that the spec's numbers have (R6 to R8), the indices of the units, and the shape of a sparse table. -/

namespace Sys2Proof

/-- R8: the unit of every byte-counted layout. -/
abbrev Byte := BitVec 8
/-- A 32-bit register or record field. -/
abbrev Word := BitVec 32
/-- A 64-bit register or an address (R105). -/
abbrev DWord := BitVec 64
/-- R51, R94: one 64-byte sector. Byte i stands in bits [8i+7:8i] (R8). -/
abbrev Sector := BitVec 512

/-- R21: physical cores and their stations. -/
abbrev Core := Fin 256
/-- R21: clusters; cluster c holds cores 16c to 16c+15. -/
abbrev Cluster := Fin 16
/-- R42: engine queues of a core: 0 matrix, 1 vector, 2 mover M0, 3 mover M1. -/
abbrev Queue := Fin 4
/-- R35, R218: gate points: 0 to 35 the fabric ports, 36 PCIe, 37 the remote sync path. -/
abbrev Gate := Fin 38
/-- R42: fabric ports. -/
abbrev Port := Fin 36
/-- R304: context ids. -/
abbrev CtxId := BitVec 12
/-- R301: chip ids. -/
abbrev ChipId := BitVec 14

/-- A sparse table: keys strictly rising, and no entry equal to what an unlisted key reads as (`Tab.wf`).
Memory, OTP and every indexed group of registers are held so, which keeps equal states equal data. -/
abbrev Tab (α : Type) := List (Nat × α)

end Sys2Proof
end

