-- ==== Sys2Proof/Syntax.lean ====
section
/-! DEFINITION. The commands: one constructor per row of the spec's table of operations and events, in the table's order, with what the outside world supplies at that step. Log entries 1 and 2 say how operands were chosen. -/

namespace Sys2Proof

/-- R81, R414: the agents that write registers. -/
inductive Requester where
  | host | hostG1 | ccp | caller | bc
deriving DecidableEq, Repr

/-- A dyadic rational m·2^e: how exact values (R129, R235) travel as operands. -/
structure Dy where
  m : Int
  e : Int
deriving DecidableEq, Repr

/-- R101, R103: an OP_START record. Bits that the record holds at zero are kept, so that a breach can be seen. -/
structure OpStart where
  queue    : Queue
  inserted : Bool
  opid     : BitVec 16
  fmt      : Byte
  mode     : Byte
  ttag     : BitVec 16
  deadline : BitVec 24
  extra    : Byte
  len      : Word
deriving DecidableEq, Repr

/-- R105: an OPDESC record. -/
structure OpDesc where
  role : BitVec 3
  res  : BitVec 2
  len  : Word
  addr : DWord
deriving DecidableEq, Repr

/-- R94: one sector lane of a beat: 512 data bits, VALID, POISON and 8 bits of even parity. -/
structure Lane where
  valid  : Bool
  poison : Bool
  parity : Byte
  data   : Sector
deriving DecidableEq, Repr

/-- R94: a data beat of an engine port with the side band of every port (a port uses its own fields). -/
structure Beat where
  lanes  : List Lane
  kind   : Fin 4
  scale  : BitVec 128
  row    : Fin 128
  c0     : Bool
  srcLo  : Fin 4
  srcHi  : Fin 4
  offset : Word
deriving DecidableEq, Repr

/-- R160: a residue that an X lane reports wrong to its S lane for its last operation: of the operands (0), of the exact value
(1), of the kept part (2) or of the discarded part (3). -/
structure LaneFault where
  index    : Fin 32
  lane     : Fin 16
  part     : Fin 4
  observed : Byte
deriving DecidableEq, Repr

/-- R109, R110: the stamp of an OP_START, and the queues, its own among them, whose job OP_STARTs the station takes in the same
core cycle. -/
structure Stamp where
  time     : Nat
  together : BitVec 4
deriving DecidableEq, Repr

/-- R161, R162: a lattice cell under a known-answer pattern, with the residues that a failure reports. -/
structure ResFault where
  ctype    : Fin 6
  index    : Fin 32
  lane     : Fin 16
  expected : Byte
  observed : Byte
deriving DecidableEq, Repr

/-- What arrives on a tap port in one step: a beat, or a control record that breaks R101 to R107. -/
inductive TapIn where
  | beat (b : Beat)
  | badRecord (type : Byte) (queue : Queue) (opid : BitVec 16)
deriving DecidableEq, Repr

/-- R94, R113: the tap of a station at which a record or beat arrives, and the fill of the FIFO that it finds. -/
structure Intake where
  core : Core
  fill : Nat
deriving DecidableEq, Repr

/-- R94, R113, R160: the tap at which a record arrives whose cells act, the fill of its FIFO, and a residue that a lane of an S
cell sees wrong meanwhile. -/
structure FaultIntake where
  core  : Core
  fill  : Nat
  fault : Option LaneFault
deriving DecidableEq, Repr

/-- R283, R285, R449: what the regulators read back at B2, in mV, and what those read back that were repeated. -/
structure Readback where
  first : List Nat
  again : List Nat
deriving DecidableEq, Repr

/-- R284: the frames of a domain's AVSBus port. -/
inductive FrameKind where
  | voltage | rate | vout | current | status | version
deriving DecidableEq, Repr

/-- R285: the frame that fails, and whether by its CRC or without a response. -/
structure FrameFailure where
  frame  : FrameKind
  crcBad : Bool
deriving DecidableEq, Repr

/-- R29, R55: whether the timebase locks at B2, and by how many ticks each cluster's replica starts behind the master. -/
structure TimebaseStart where
  locked : Bool
  lags   : List (Fin 3)
deriving DecidableEq, Repr

/-- R308, R366: the queue of a sync operation that does not wait, and its descriptor's DEADLINE in µs. -/
structure SyncIssue where
  queue    : Queue
  deadline : BitVec 24
deriving DecidableEq, Repr

/-- R319: a watch slot whose timeout has expired, and the value that the home's reply to the cancel supplies where the object is
another chip's. -/
structure Expiry where
  slot  : Fin 16
  reply : Word
deriving DecidableEq, Repr

/-- R346: where a sector from the fabric goes: an address of memory or of a scratchpad. -/
structure SectorAddr where
  scratchpad : Bool
  addr       : DWord
deriving DecidableEq, Repr

/-- R63: a sector with its poison mark. -/
structure MarkedSector where
  data   : Sector
  poison : Bool
deriving DecidableEq, Repr

/-- R340: the fields of a sync message after its TYPE, which the command's own name gives. -/
structure SyncMsg where
  sub   : Byte
  name  : Word
  party : Word
  arg   : Word
  tally : Word
  start : DWord
  crc   : Word
deriving DecidableEq, Repr

/-- R196: the kinds of gated item, in the row order of R196. -/
inductive ItemKind where
  | fabricPush | hostPush | signal | arrival | completion | hostSignal
deriving DecidableEq, Repr

/-- R196, R198: a sector of an item as it arrives at a gate point. -/
structure ItemIn where
  kind     : ItemKind
  core     : Core
  queue    : Queue
  transfer : BitVec 16
  start    : Nat
  gated    : Bool
  dest     : ChipId
  addr     : DWord
  data     : List Byte
  poisoned : Nat
  last     : Bool
  lastItem : Bool
  kit      : Bool
deriving DecidableEq, Repr

/-- R458: what a trained fabric port reports. -/
structure PortReport where
  width    : Byte
  peerUid  : BitVec 128
  peerPort : Byte
  offer    : BitVec 2
deriving DecidableEq, Repr

/-- R455: what the screen of one memory stack found. -/
structure StackScreen where
  failed   : Bool
  repaired : Nat
deriving DecidableEq, Repr

/-- R237: the re-executions. -/
inductive ExecName where
  | u | v | h
deriving DecidableEq, Repr

/-- R91, R58: what happens to a fabric link. -/
inductive LinkEvent where
  | lost
  | retrained (width : Byte) (offer : BitVec 2)
deriving DecidableEq, Repr

/-- R451: the unit to which a stage's overrun can be tied. -/
inductive StageUnit where
  | none
  | stacks (trained : Byte)
  | ports (reports : List (Option PortReport))
  | cores (gaveResult : BitVec 256)
deriving DecidableEq, Repr

/-- The commands of the table. `t` is everywhere the timebase value at which the step happens (log entry 2). -/
inductive Instr where
  -- bring-up
  | pwrOkRise
  | supplyLoss
  | stageB0Supply (t : Nat) (ctl core hbm io : Bool)
  | stageB1Caller (t : Nat)
  | stageB2Clocks (t : Nat) (regulators : BitVec 16) (readback : Readback) (timebase : TimebaseStart)
      (tracePll : Bool)
  | stageB3Memtrain (t : Nat)
  | memtrainDone (t : Nat) (r : Requester) (value : Word)
  | stageB4Memscreen (t : Nat) (found : List StackScreen)
  | stageB5Cores (t : Nat) (patternFail katFail : BitVec 256)
  | lbistSliceComplete (t : Nat) (slice : Fin 316) (expected observed : Word)
  | lbistSliceTimeout (t : Nat) (slice : Fin 316) (expected held : Word)
  | stageB6Fabric (t : Nat) (ports : List (Option PortReport))
  | stageB7Topology (t : Nat)
  | stageB8Charter (t : Nat)
  | stageB9Ready (t : Nat)
  | stageLimitReached (t : Nat) (dropped : StageUnit)
  -- charter and transactions
  | charterLoadGo (t : Nat) (r : Requester) (value : Word)
  | charterVerified (t : Nat)
  | txnBegin (t : Nat) (r : Requester) (id : BitVec 16)
  | txnCommit (t : Nat) (r : Requester) (id : BitVec 16)
  | txnRollback (t : Nat) (r : Requester) (id : BitVec 16)
  | txnExpired (t : Nat)
  | commitValidated (t : Nat)
  | shadowWrite (t : Nat) (r : Requester) (offset : Fin 0x400000) (value : Word)
  | stationEpochTake (t : Nat) (core : Core)
  | hostGenOffer (t : Nat) (r : Requester) (value : Word)
  | functionLevelReset (t : Nat)
  -- the I3C target
  | i3cDynamicAddress (t : Nat) (entdaa : Bool) (addr : BitVec 7)
  | i3cHdrDdrTransfer (t : Nat)
  | i3cRstdaa (t : Nat)
  | i3cFrameAbort (t : Nat)
  | i3cResponseRead (t : Nat)
  | i3cStatus (t : Nat) (tag : Byte) (crc : Word)
  | i3cRegRead (t : Nat) (tag : Byte) (offset : Word) (count : Byte) (crc : Word)
  | i3cEvtRead (t : Nat) (tag : Byte) (era : Byte) (seq : Word) (crc : Word)
  | i3cDkRead (t : Nat) (tag : Byte) (page : Byte) (offset : Word) (len : BitVec 16) (crc : Word)
  | oobFetch (t : Nat) (tag : Byte) (crc : Word)
  | oobAck (t : Nat) (tag : Byte) (oseq : BitVec 16) (crc : Word)
  | i3cReset (t : Nat) (tag : Byte) (level queue index : Byte) (crc : Word)
  | i3cTableau (t : Nat) (tag : Byte) (op : Byte) (crc : Word)
  | i3cShutdown (t : Nat) (tag : Byte) (budget : Byte) (crc : Word)
  | i3cChallenge (t : Nat) (tag : Byte) (crc : Word)
  | i3cClear (t : Nat) (tag : Byte) (hmac : BitVec 256) (crc : Word)
  | i3cOtpProgram (t : Nat) (tag : Byte) (type : Byte) (content : BitVec 480) (hmac : BitVec 256) (crc : Word)
  | storePut (t : Nat) (tag : Byte) (object : Byte) (offset : Word) (bytes : List Byte) (crc : Word)
  | storeEnd (t : Nat) (tag : Byte) (object : Byte) (len : Word) (crc : Word)
  | storeGet (t : Nat) (tag : Byte) (object : Byte) (offset : Word) (len : BitVec 16) (crc : Word)
  | storeDone (t : Nat) (tag : Byte) (object : Byte) (crc : Word)
  | storeNeedTimeout (t : Nat) (object : Byte)
  | storeOfferTimeout (t : Nat) (object : Byte)
  | oobInterruptRepeat (t : Nat)
  -- the event recorder
  | evtReadLatch (t : Nat) (r : Requester) (seq : Word) (upper : Option Word)
  | evtChallenge (t : Nat) (r : Requester)
  | evtClear (t : Nat) (r : Requester)
  | nonceExpiry (t : Nat) (r : Requester)
  | logClearComplete (t : Nat)
  | eventOccurrence (t : Nat) (code source : BitVec 16) (p1 p2 p3 : Word)
  | recordWrite (t : Nat)
  | tokenRefill (t : Nat) (code : BitVec 16)
  -- register actions of the seal, reset, trace, tableau, shutdown, OTP and barrier blocks
  | sealRearm (t : Nat) (r : Requester) (value : Word)
  | resetRequest (t : Nat) (r : Requester) (value : Word)
  | peerDown (t : Nat) (r : Requester) (chip : ChipId) (seq : BitVec 16)
  | peerUp (t : Nat) (r : Requester) (chip : ChipId) (seq : BitVec 16)
  | counterSnap (t : Nat) (r : Requester)
  | counterSnapshotLatch (t : Nat)
  | traceMarkWrite (t : Nat) (r : Requester) (upper : Word) (lower : Option Word)
  | traceBufRdWrite (t : Nat) (r : Requester) (value : Word)
  | traceRdyChange (t : Nat) (ready : Bool)
  | tableauHalt (t : Nat) (r : Requester)
  | stopInAsserted (t : Nat)
  | tableauHalted (t : Nat) (latency : Nat)
  | tableauRelease (t : Nat) (r : Requester)
  | tableauScan (t : Nat) (r : Requester)
  | scanImageComplete (t : Nat)
  | shutdown (t : Nat) (r : Requester) (value : Word)
  | shutdownDrainDone (t : Nat)
  | shutdownDrainTimeout (t : Nat)
  | shutdownSlicesDone (t : Nat)
  | otpProgram (t : Nat) (r : Requester) (value : Word)
  | barrierArm (t : Nat) (r : Requester) (b : Byte)
  | barrierDisarm (t : Nat) (r : Requester) (b : Byte)
  | workListConfigWrite (t : Nat) (r : Requester) (ring : Fin 2) (value : DWord)
  | g1ForceGo (t : Nat) (value : Word)
  | registerWrite (t : Nat) (r : Requester) (offset : Fin 0x400000) (wide : Bool) (value : DWord)
  -- taps and stations
  | tapOffer (t : Nat) (core : Core) (mask : Byte)
  | tapReady (t : Nat) (core : Core)
  | issueFail (t : Nat) (core : Core) (queue : Queue) (opid : BitVec 16) (cause : BitVec 4)
  | opStart (t : Nat) (tap : FaultIntake) (start : Stamp) (rec : OpStart)
  | opdesc (t : Nat) (tap : Intake) (queue : Queue) (opid : BitVec 16) (d : OpDesc)
  | tapDataBeat (t : Nat) (core : Core) (port : Fin 6) (arrival : TapIn) (fill : Nat) (fault : Option LaneFault)
      (teeLost : Bool)
  | inbBeat (t : Nat) (tap : Intake) (addr : BitVec 21) (srcChip : ChipId) (srcCore : Core) (srcOpid : BitVec 16)
      (lanes : List Lane) (callerMover : Bool)
  | opRetire (t : Nat) (tap : FaultIntake) (queue : Queue) (opid : BitVec 16) (retire : Nat) (sectors : Word)
      (poisoned : BitVec 16)
  | opAbandon (t : Nat) (tap : Intake) (queue : Queue) (opid : BitVec 16) (cause : Byte)
  | writeDone (t : Nat) (tap : FaultIntake) (queue : Queue) (opid : BitVec 16) (crc : Word) (valid : Bool) (bytes : Word)
  | feed (t : Nat) (tap : Intake) (queue : Queue) (opid fed : BitVec 16) (role : Byte)
  | verdictGiven (t : Nat) (core : Core) (tag : Word) (cycles : Nat)
  | verdictLate (t : Nat) (core : Core) (tag : Word) (cycles : Nat)
  | verdictForcedFail (t : Nat) (core : Core) (tag : Word) (cycles : Nat)
  | stationPatternRun (t : Nat) (core : Core) (cell : ResFault) (passed : Bool)
  | selfcheckInjection (t : Nat) (core : Core) (cell : ResFault) (seen : Bool)
  | selfcheckRetestDone (t : Nat) (core : Core) (passes : Fin 4)
  | coreStopped (t : Nat) (core : Core)
  -- adjudication, reprise and rehearsal
  | adjExecutionOutcome (t : Nat) (slot : Fin 8) (which : ExecName) (gave : Bool)
  | adjTimeout (t : Nat) (slot : Fin 8)
  | containmentAcksComplete (t : Nat) (ctx : CtxId)
  | pinExpired (t : Nat) (core : Core) (entry : Fin 4)
  | capsuleComplete (t : Nat) (core : Core) (tag : Word)
  | replayStart (t : Nat) (core : Core) (tag : Word) (emptyQueues : BitVec 256)
  | repriseForce (t : Nat) (core : Core) (tag : Word) (emptyQueues : BitVec 256)
  | repriseAbandon (t : Nat) (core : Core) (tag : Word) (cause : BitVec 4)
  | repriseCompareDone (t : Nat) (core : Core) (tag : Word) (results : List Byte) (redLen : Nat) (sums : List Dy)
  | rehearsalGapStart (t : Nat) (core : Core)
  | rehearsalSegmentEnd (t : Nat) (core : Core) (jobWaits : Bool) (result : List Byte)
  | rehearsalBudgetOverrun (t : Nat) (core : Core)
  | rehearsalLate (t : Nat) (core : Core)
  | rehearsalRecheckDone (t : Nat) (core runner : Core) (signature : DWord)
  | rehearsalRecheckTimeout (t : Nat) (core : Core)
  -- horizon, gate and seal
  | horizonForward (t : Nat) (cluster : Cluster) (lag : Fin 3)
  | vhBroadcast (t : Nat)
  | gateVhUpdate (t : Nat) (point : Gate) (parityOk : Bool)
  | gateItemArrival (t : Nat) (point : Gate) (item : ItemIn)
  | gateBroadcastTimeout (t : Nat) (point : Gate)
  | vhStall (t : Nat)
  | sealIssue (t : Nat) (ctx : CtxId)
  -- synchronisation operations
  | syncSet (t : Nat) (core : Core) (issue : SyncIssue) (name operand : Word)
  | syncClear (t : Nat) (core : Core) (issue : SyncIssue) (name : Word)
  | syncAdd (t : Nat) (core : Core) (issue : SyncIssue) (name operand : Word)
  | syncSub (t : Nat) (core : Core) (issue : SyncIssue) (name operand : Word)
  | syncWaitEq (t : Nat) (core : Core) (queue : Queue) (name operand : Word) (timeout : BitVec 24)
  | syncWaitGe (t : Nat) (core : Core) (queue : Queue) (name operand : Word) (timeout : BitVec 24)
  | syncWaitFlag (t : Nat) (core : Core) (queue : Queue) (name : Word) (timeout : BitVec 24)
  | syncWatch (t : Nat) (core : Core) (issue : SyncIssue) (cond : BitVec 2) (name operand : Word) (timeout : BitVec 24)
      (raddr : DWord)
  | barrierArrive (t : Nat) (core : Core) (queue : Queue) (b : Byte) (timeout : BitVec 24)
  | subscriptionArrival (t : Nat) (core : Core) (slot : Fin 16)
  | syncReleaseDelivery (t : Nat) (core : Core) (slot : Fin 16)
  | waitTimeout (t : Nat) (core : Core) (expiry : Expiry)
  | barrierTimeout (t : Nat) (core : Core) (slot : Fin 16)
  | cancelArrival (t : Nat) (core : Core) (slot : Fin 16)
  -- messages and memory
  | signalMessage (t : Nat) (port : Port) (msg : SyncMsg)
  | subscribeMessage (t : Nat) (port : Port) (msg : SyncMsg)
  | cancelMessage (t : Nat) (port : Port) (msg : SyncMsg)
  | releaseMessage (t : Nat) (port : Port) (msg : SyncMsg)
  | arriveMessage (t : Nat) (port : Port) (msg : SyncMsg)
  | breleaseMessage (t : Nat) (port : Port) (msg : SyncMsg)
  | carryMessage (t : Nat) (port : Port) (msg : SyncMsg)
  | fabricSectorCommit (t : Nat) (port : Port) (party : Word) (addr : SectorAddr) (data : MarkedSector)
  | tallyStall (t : Nat) (party : Word)
  | writeNotify (t : Nat) (addr : DWord) (data : MarkedSector) (holds : Nat)
  | contextStart (t : Nat) (ring : Fin 2)
  | contextEnd (t : Nat) (ring : Fin 2)
  | objectOp (t : Nat) (ring : Fin 2)
  | monArm (t : Nat) (ring : Fin 2)
  | monDisarm (t : Nat) (ring : Fin 2)
  -- deadlines and the ladder
  | deadlineMiss (t : Nat) (core : Core) (queue : Queue)
  | callerWatchdogExpiry (t : Nat)
  | resetContainAcked (t : Nat) (seq : Word)
  | resetAssert (t : Nat) (seq : Word)
  | resetLevelComplete (t : Nat) (seq : Word)
  | resetLevelOverrun (t : Nat) (seq : Word)
  | hangSnapshotCopyDone (t : Nat) (bufferOk : Bool)
  | responderResettingNak (t : Nat) (port : Port) (chip : ChipId) (request : BitVec 16) (sync : Bool) (retryAfter : Nat)
  | nakRetry (t : Nat) (port : Port) (request : BitVec 16)
  | fabricLinkRetrain (t : Nat) (port : Port) (ev : LinkEvent)
  -- tempo and ledger
  | limitActiveChange (t : Nat) (active : Bool)
  | frequencyChangeNotice (t : Nat) (cluster : Cluster) (mhz : Nat) (at_ : Nat)
  | canaryReport (t : Nat) (domain : Cluster) (canary : Nat) (slack : Int)
  | tempoEvaluation (t : Nat)
  | tempoStep (t : Nat) (domain : Cluster)
  | tempoHoldEnd (t : Nat) (domain : Cluster)
  | learnedFloorExpiry (t : Nat) (domain : Cluster)
  | avsSettleExpiry (t : Nat) (domain : Cluster) (vout : Nat)
  | avsFrameFail (t : Nat) (domain : Cluster) (failure : FrameFailure)
  | ledgerIntervalEnd (t : Nat)
  | drainLimitExpiry (t : Nat)
  | drained (t : Nat)
  -- completions
  | resetRelease (t : Nat) (seq : Word)
  | zeroisationComplete (t : Nat)
  | traceBufferFlushed (t : Nat)
  | otpSlotProgrammed (t : Nat)
  | clearLockoutExpiry (t : Nat)
  | i3cUnknownCommand (t : Nat) (cmd tag : Byte) (arg : List Byte) (crc : Word)
  | endToEndAcknowledgement (t : Nat) (core : Core) (queue : Queue) (chip : ChipId) (sectors : Nat)
  | responderNotReadyNak (t : Nat) (port : Port) (chip : ChipId) (request : BitVec 16)
  | testInstructionLoad (t : Nat) (value : Byte)
deriving DecidableEq, Repr

end Sys2Proof
end

