-- ==== Sys2Proof/Config.lean ====
section
/-! DEFINITION. What an implementation fixes, and the free values: constants without a body, of which nothing can be proved but what holds for every value (log entry 3). -/

namespace Sys2Proof.Config

/-- R222, R259: one draw of a station's random generator, which no agent can read or seed. -/
opaque draw : Nat → BitVec 16
/-- R414: one nonce drawn from the chip's entropy source. -/
opaque nonce : Nat → BitVec 128
/-- R133: how far an E operation's result lies above the least step that rounds upward: 0 or 1 step, or 2 when the
least step is exact. -/
opaque lvSlack : Nat → Fin 3
/-- R167: how far a BAND output lies above the exact value of its expression, in units of 2^-21 of it;
1,420 units stay below the factor 2^(4/4096). -/
opaque bandSlack : Nat → Fin 1420
/-- R383, R384: bytes of a hang snapshot for which the spec gives no layout (cluster networks, fabric ports,
the caller part, native descriptors): the snapshot's serial and the byte's offset. -/
opaque snapByte : Nat → Nat → Byte
/-- R416, R418: bytes of a crash-dump slot while its copy is in progress: the capture time and the byte's offset. -/
opaque halfCopied : Nat → Nat → Byte
/-- R406: the severity that a product note gives a VENDOR code. -/
opaque vendorSev : Nat → Fin 5
/-- R474: TRIM content belongs to the maker; R486, R500: the MIPI and JEP106 manufacturer numbers. -/
opaque mipiId : BitVec 15
/-- R500: bits [11:1] of IDCODE. -/
opaque jep106 : BitVec 11
/-- R433: length in bytes of a scan segment (0 to 527); the scan map is not in the spec. -/
opaque scanLen : Nat → Nat
/-- R433: a byte of a scan segment at the scan numbered by the first argument. -/
opaque scanByte : Nat → Nat → Nat → Byte
/-- R433: the segment number in the trace records that carry a scan image's header and directory. -/
opaque scanHead : BitVec 16
/-- R432: a word that a station or bank shows once scan shifting has destroyed its state: the scan's number, the offset. -/
opaque shifted : Nat → Nat → BitVec 32
/-- R453: the address at which the caller places the charter store, for the trained stack of lowest number. -/
opaque storeBase : Nat → DWord
/-- R224, R453: the 512 MiB aligned address [63:29] at which the caller places the capsule region in a stack. -/
opaque capsuleBase : Nat → BitVec 35
/-- R61: an undefined scratchpad location after an abandoned write (draw number, location). -/
opaque undefByte : Nat → Byte
/-- R61: the scratchpad ranges (offset, length) that an abandoned operation without an output OPDESC was writing (draw number). -/
opaque lostRanges : Nat → List (Nat × Nat)
/-- R424: a queue of a core stands still for a cause (counter 16, 17, 18, 21 or 22) that no command shows: core, counter, the
number of the core cycle since the last reset among those in which the cause could hold. -/
opaque stalls : Nat → Nat → Nat → Bool

/-- R339, R341: the first fabric port of the deterministic route to a chip; the fabric's routing is outside the complex. -/
opaque routePort : Nat → Fin 36

/-- R136: amax of an INT32 magnitude that FP32 cannot hold exactly; the spec gives the conversion only of exact ones. -/
opaque amaxInt : Nat → BitVec 32

/-- R183, R233: Σ|terms| of a softmax row, whose terms the spec does not define: the format of the source, the row's bytes;
answers mantissa and exponent. -/
opaque softmaxTerms : Nat → List Byte → Nat × Int

/-- R67: how long the copy of an image of some length takes, in ns, before its checks begin; the spec bounds both together. -/
opaque copyNs : Nat → Nat

/-- R308: where an address lies for a core: 0 in this chip's HBM, 1 in the core's scratchpad, 2 in neither; the address map of
the chip is not in the spec. -/
opaque place : Nat → BitVec 64 → Fin 3

end Sys2Proof.Config
end

