-- ==== Sys2Proof/Machine/Bytes.lean ====
section
/-! DEFINITION. Little-endian layouts (R8), bit fields (R7) and the CRCs of R137. -/

namespace Sys2Proof.Machine

/-- Bits [hi:lo] of a number (R7). -/
def bits (v hi lo : Nat) : Nat := v / 2 ^ lo % 2 ^ (hi + 1 - lo)

/-- Bit n of a number (R7). -/
def bit (v n : Nat) : Bool := v.testBit n

/-- A bit as a number. -/
def b2n (b : Bool) : Nat := if b then 1 else 0

/-- The number that bytes spell, least significant first (R8). -/
def leNat : List Byte → Nat
  | [] => 0
  | b :: t => b.toNat + 256 * leNat t

/-- The number that bytes spell, most significant first (R72). -/
def beNat (l : List Byte) : Nat := l.foldl (fun n b => 256 * n + b.toNat) 0

/-- `n` bytes of a number, least significant first (R8). -/
def toLe : Nat → Nat → List Byte
  | 0, _ => []
  | n + 1, v => BitVec.ofNat 8 v :: toLe n (v / 256)

/-- `n` bytes of a number, most significant first. -/
def toBe (n v : Nat) : List Byte := (toLe n v).reverse

/-- `n` bytes from offset `o`; past the end of the list there are none. -/
def slice (o n : Nat) (l : List Byte) : List Byte := (l.drop o).take n

/-- The little-endian field of `n` bytes at offset `o` (R8). -/
def fieldLe (o n : Nat) (l : List Byte) : Nat := leNat (slice o n l)

/-- `n` bytes: those of a list, padded with zeros. -/
def padTo (n : Nat) (l : List Byte) : List Byte := l.take n ++ List.replicate (n - l.length) 0

/-- Whether bytes `o` to `o + n - 1` are all zero. -/
def zeroAt (o n : Nat) (l : List Byte) : Bool := (slice o n l).all (· == 0)

/-- The 64 bytes of a sector: byte i stands in bits [8i+7:8i]. -/
def sectorBytes (s : Sector) : List Byte := toLe 64 s.toNat

/-- One bit of a reflected CRC. -/
def crcBit (poly c : Nat) : Nat := if c % 2 = 1 then (c / 2) ^^^ poly else c / 2

/-- One byte of a reflected CRC. -/
def crcByte (poly c : Nat) (b : Byte) : Nat :=
  let x := c ^^^ b.toNat
  crcBit poly (crcBit poly (crcBit poly (crcBit poly (crcBit poly (crcBit poly (crcBit poly (crcBit poly x)))))))

/-- R137: CRC-32C, polynomial 0x1EDC6F41, reflected, preset and final inversion all ones. -/
def crc32c (l : List Byte) : Word :=
  BitVec.ofNat 32 ((l.foldl (crcByte 0x82F63B78) 0xFFFFFFFF) ^^^ 0xFFFFFFFF)

/-- The polynomial of R137's CRC-64, reflected. -/
def poly64 : Nat := 0xC96C5795D7870F42

/-- R137: CRC-64 of ECMA-182, in the reflected form with preset and final inversion all ones. -/
def crc64 (l : List Byte) : Nat :=
  (l.foldl (crcByte poly64) 0xFFFFFFFFFFFFFFFF) ^^^ 0xFFFFFFFFFFFFFFFF

/-- Saturating sum (R12, R412 and every count with a ceiling). -/
def satAdd (top a b : Nat) : Nat := min top (a + b)

end Sys2Proof.Machine
end

