-- ==== Sys2Proof/Machine/Formats.lean ====
section
/-! DEFINITION. Exact values (R131), the element formats (R47, R104), and the element-by-element comparison of R183 and R233. -/

namespace Sys2Proof.Machine

/-! ### Dyadic rationals -/

/-- The mantissa of a value at a lower exponent. -/
def dyAt (d : Dy) (e : Int) : Int := d.m * 2 ^ (d.e - e).toNat

def dyAdd (a b : Dy) : Dy :=
  if a.m = 0 then b else if b.m = 0 then a
  else
    let e := min a.e b.e
    ⟨dyAt a e + dyAt b e, e⟩
def dyNeg (a : Dy) : Dy := ⟨-a.m, a.e⟩
def dySub (a b : Dy) : Dy := dyAdd a (dyNeg b)
def dyMul (a b : Dy) : Dy := if a.m = 0 ∨ b.m = 0 then ⟨0, 0⟩ else ⟨a.m * b.m, a.e + b.e⟩
def dyAbs (a : Dy) : Dy := ⟨(a.m.natAbs : Int), a.e⟩
/-- 2^n times a value. -/
def dyScale (n : Int) (a : Dy) : Dy := ⟨a.m, a.e + n⟩
/-- a ≤ b. -/
def dyLe (a b : Dy) : Bool :=
  let e := min a.e b.e
  decide (dyAt a e ≤ dyAt b e)
/-- The sum of values. -/
def dySum (l : List Dy) : Dy := l.foldl dyAdd ⟨0, 0⟩
def dyOfNat (n : Nat) : Dy := ⟨(n : Int), 0⟩
def dyMax (a b : Dy) : Dy := if dyLe a b then b else a

/-- The exponent of the leading bit of a value that is not zero. -/
def dyTop (a : Dy) : Int := a.e + (Nat.log2 a.m.natAbs : Int)

/-! ### Elements (R47, R104) -/

/-- An element: a value, an infinity, or NaN. -/
inductive Elem where
  | fin (v : Dy)
  | inf (neg : Bool)
  | nan
deriving DecidableEq, Repr

/-- Width in bits of a format's element. -/
def fmtWidth : Nat → Nat
  | 0 => 8 | 1 => 8 | 2 => 6 | 3 => 6 | 4 => 4 | 5 => 16 | 6 => 8 | 7 => 32 | 8 => 32 | _ => 8

/-- Exponent bits, fraction bits and bias of a floating-point format. -/
def fmtShape : Nat → Nat × Nat × Nat
  | 0 => (4, 3, 7) | 1 => (5, 2, 15) | 2 => (3, 2, 3) | 3 => (2, 3, 1) | 4 => (2, 1, 1) | 5 => (8, 7, 127) | 7 => (8, 23, 127)
  | _ => (0, 0, 0)

def fmtIsInt (f : Nat) : Bool := f == 6 || f == 8
/-- MX element types carry block scales. -/
def fmtIsMx (f : Nat) : Bool := decide (f ≤ 4)

/-- A two's complement number of w bits. -/
def signedOf (w n : Nat) : Int := if n < 2 ^ (w - 1) then (n : Int) else (n : Int) - 2 ^ w

/-- R131: the exact value of an element. E4M3 has NaN and no infinity; the FP6 and FP4 types have neither (R47). -/
def decodeElem (f n : Nat) : Elem :=
  if fmtIsInt f then .fin ⟨signedOf (fmtWidth f) n, 0⟩
  else
    let (eb, mb, bias) := fmtShape f
    let neg := n.testBit (eb + mb)
    let e := n / 2 ^ mb % 2 ^ eb
    let m := n % 2 ^ mb
    if f = 0 ∧ e = 15 ∧ m = 7 then .nan
    else if (f = 1 ∨ f = 5 ∨ f = 7) ∧ e = 2 ^ eb - 1 then (if m = 0 then .inf neg else .nan)
    else
      let mag : Int := if e = 0 then (m : Int) else (m : Int) + 2 ^ mb
      .fin ⟨if neg then -mag else mag, (max e 1 : Int) - (bias : Int) - (mb : Int)⟩

/-- R47: an E8M0 scale: none for NaN. -/
def scaleExp (b : Byte) : Option Int := if b.toNat = 255 then none else some ((b.toNat : Int) - 127)

/-- The largest finite magnitude of a format (R136, R179). -/
def fmtMax : Nat → Dy
  | 0 => ⟨448, 0⟩ | 1 => ⟨57344, 0⟩ | 2 => ⟨28, 0⟩ | 3 => ⟨15, -1⟩ | 4 => ⟨6, 0⟩ | 5 => ⟨255, 120⟩ | 6 => ⟨128, 0⟩
  | 7 => ⟨16777215, 104⟩ | _ => ⟨2147483648, 0⟩

/-- R136: the magnitude at which an element counts as saturated: the largest finite value of its format. -/
def fmtSat : Nat → Dy
  | 6 => ⟨127, 0⟩ | 8 => ⟨2147483647, 0⟩ | f => fmtMax f

/-- The elements that bytes hold, without gaps, in order (R96). -/
def elems6 : List Byte → List Nat
  | a :: b :: c :: r =>
    let n := a.toNat + 256 * b.toNat + 65536 * c.toNat
    n % 64 :: n / 64 % 64 :: n / 4096 % 64 :: n / 262144 :: elems6 r
  | [a, b] => let n := a.toNat + 256 * b.toNat; [n % 64, n / 64 % 64]
  | [a] => [a.toNat % 64]
  | [] => []
def elems16 : List Byte → List Nat
  | a :: b :: r => (a.toNat + 256 * b.toNat) :: elems16 r
  | _ => []
def elems32 : List Byte → List Nat
  | a :: b :: c :: d :: r => (a.toNat + 256 * b.toNat + 65536 * c.toNat + 16777216 * d.toNat) :: elems32 r
  | _ => []
def elems4 : List Byte → List Nat
  | [] => []
  | a :: r => a.toNat % 16 :: a.toNat / 16 :: elems4 r

def elemsOf (f : Nat) (l : List Byte) : List Nat :=
  match fmtWidth f with
  | 4 => elems4 l
  | 6 => elems6 l
  | 16 => elems16 l
  | 32 => elems32 l
  | _ => l.map (·.toNat)

/-! ### The pairwise band (R183) -/

/-- One ulp of a format at a magnitude. -/
def ulpOf (f : Nat) (x : Dy) : Dy :=
  if fmtIsInt f then ⟨1, 0⟩
  else
    let (_, mb, bias) := fmtShape f
    let low : Int := 1 - (bias : Int)
    let top : Int := if x.m = 0 then low else max low (dyTop x)
    ⟨1, top - (mb : Int)⟩

/-- R183: the difference term of a vector class. `n` is the reduction length and `sum` is Σ|terms|. -/
def diffTerm (cls n : Nat) (sum mag : Dy) : Dy :=
  match cls with
  | 1 => dyScale 2 (ulpOf 7 mag)
  | 2 => dyMul (dyMul (dyOfNat (2 * n)) ⟨8193, -37⟩) sum
  | 3 => dyMul (dyMul (dyOfNat (2 * n)) ⟨8193, -37⟩) sum
  | _ => ⟨0, 0⟩

/-- R183: the store term: none for FP32, and ulps of the stored format otherwise. -/
def storeTerm (cls fmt : Nat) (sr : Bool) (mag : Dy) : Dy :=
  if fmt = 7 ∨ cls = 6 ∨ cls = 7 then ⟨0, 0⟩
  else if sr then dyScale 1 (ulpOf fmt mag)
  else if cls = 1 ∨ cls = 2 ∨ cls = 3 then ulpOf fmt mag
  else ⟨0, 0⟩

/-- R233: two stored elements of a vector result agree. -/
def elemAgrees (cls fmt : Nat) (sr : Bool) (n : Nat) (sum : Dy) (x y : Nat) : Bool :=
  if fmt = 8 then x == y
  else
    match decodeElem fmt x, decodeElem fmt y with
    | .nan, .nan => true
    | .inf a, .inf b => a == b
    | .fin a, .fin b =>
      let mag := dyMax (dyAbs a) (dyAbs b)
      let band := dyAdd (diffTerm cls n sum mag) (storeTerm cls fmt sr mag)
      if band.m = 0 then x == y else dyLe (dyAbs (dySub a b)) band
    | _, _ => false

/-- R233: the indices of the elements that do not agree. -/
def mismatches (cls fmt : Nat) (sr : Bool) (n : Nat) : Nat → List Dy → List Nat → List Nat → List Nat
  | i, sums, x :: xs, y :: ys =>
    let rest := mismatches cls fmt sr n (i + 1) sums.tail xs ys
    if elemAgrees cls fmt sr n (sums.headD ⟨0, 0⟩) x y then rest else i :: rest
  | i, _, x :: xs, [] => i :: mismatches cls fmt sr n (i + 1) [] xs []
  | i, _, [], y :: ys => i :: mismatches cls fmt sr n (i + 1) [] [] ys
  | _, _, [], [] => []

/-- R103: the operation code of a vector operation. -/
def opCode (op : OpStart) : Nat := op.len.toNat / 2 ^ 24

/-- R183, R233: a term of a reduction: the element's square under operation code 3, else its magnitude. -/
def redTerm (op : OpStart) (code : Nat) : Dy :=
  match decodeElem (op.fmt.toNat % 16) code with
  | .fin v => if opCode op = 3 then dyMul v v else dyAbs v
  | .inf _ | .nan => ⟨0, 0⟩

/-- R183, R233: the reduction length N and Σ|terms| of each of a number of result elements, from the bytes of source 0. Result
element i of REDUCE takes the i-th of as many equal parts of the source; one of SOFTMAX takes its row of (operation code + 1)
sectors (log entry 136). -/
def reduction (op : OpStart) (src : List Byte) (outs : Nat) : Nat × List Dy :=
  let f := op.fmt.toNat % 16
  match op.extra.toNat % 8 with
  | 2 =>
    let xs := (elemsOf f src).map (redTerm op)
    let n := max 1 (xs.length / max 1 outs)
    (n, (List.range outs).map fun i => dySum ((xs.drop (i * n)).take n))
  | 3 =>
    let bytes := 64 * (opCode op + 1)
    let n := max 1 (bytes * 8 / max 1 (fmtWidth f))
    (n, (List.range outs).map fun i =>
      let x := Config.softmaxTerms f (slice (i / n * bytes) bytes src)
      ⟨x.1, x.2⟩)
  | _ => (0, [])

/-- R233: the comparison of two executions' results, from the operation's OP_START: the elements that differ. -/
def compareResults (op : OpStart) (n : Nat) (sums : List Dy) (a b : List Byte) : List Nat :=
  let fmt := op.mode.toNat % 16
  mismatches (op.extra.toNat % 8) fmt (bits op.mode.toNat 5 4 == 1) n 0 sums (elemsOf fmt a) (elemsOf fmt b)

end Sys2Proof.Machine
end

