-- ==== Sys2Proof/Machine/Binary64.lean ====
section
/-! DEFINITION. Binary64 with directed rounding, as the ledger's arithmetic uses it (R264, R265): values are far from the ends of the range, and only a difference and a product may be negative. -/

namespace Sys2Proof.Machine

/-- The binary64 next to num / den, below it or above it. -/
def roundQ (up : Bool) (num den : Nat) : Dy :=
  if num = 0 ∨ den = 0 then ⟨0, 0⟩
  else
    let e0 : Int := (Nat.log2 num : Int) - (Nat.log2 den : Int) - 52
    let e : Int := if num * 2 ^ (-e0).toNat / (den * 2 ^ e0.toNat) < 2 ^ 52 then e0 - 1 else e0
    let a := num * 2 ^ (-e).toNat
    let b := den * 2 ^ e.toNat
    let q := a / b
    let q' := if up ∧ a % b ≠ 0 then q + 1 else q
    ⟨q', e⟩

/-- A dyadic that is not negative as a fraction. -/
def dyNum (d : Dy) : Nat := d.m.toNat * 2 ^ d.e.toNat
def dyDen (d : Dy) : Nat := 2 ^ (-d.e).toNat

/-- The binary64 next to a signed num / den: a negative one rises toward zero. -/
def roundZ (up : Bool) (num : Int) (den : Nat) : Dy :=
  if num < 0 then (let x := roundQ (!up) num.natAbs den; ⟨-x.m, x.e⟩) else roundQ up num.toNat den

/-- The numerator of a dyadic with its sign. -/
def dyInt (d : Dy) : Int := d.m * 2 ^ d.e.toNat

def f64OfNat (up : Bool) (n : Nat) : Dy := roundQ up n 1
def f64Add (up : Bool) (a b : Dy) : Dy := roundQ up (dyNum a * dyDen b + dyNum b * dyDen a) (dyDen a * dyDen b)
def f64Sub (up : Bool) (a b : Dy) : Dy := roundZ up (dyInt a * dyDen b - dyInt b * dyDen a) (dyDen a * dyDen b)
def f64Mul (up : Bool) (a b : Dy) : Dy := roundZ up (dyInt a * dyInt b) (dyDen a * dyDen b)
def f64Div (up : Bool) (a b : Dy) : Dy := roundQ up (dyNum a * dyDen b) (dyDen a * dyNum b)

/-- The floor of a square root, bit by bit from bit `k`. -/
def isqrt (n : Nat) : Nat → Nat → Nat
  | 0, r => if (r + 1) * (r + 1) ≤ n then r + 1 else r
  | k + 1, r => isqrt n k (if (r + 2 ^ (k + 1)) * (r + 2 ^ (k + 1)) ≤ n then r + 2 ^ (k + 1) else r)

/-- The square root, rounded upward. -/
def f64SqrtUp (a : Dy) : Dy :=
  let n := dyNum a * 2 ^ 240 / dyDen a
  let r := isqrt n 200 0
  roundQ true (if r * r = n ∧ dyNum a * 2 ^ 240 % dyDen a = 0 then r else r + 1) (2 ^ 120)

/-- a < b. -/
def dyLt (a b : Dy) : Bool := decide (dyNum a * dyDen b < dyNum b * dyDen a)

/-- n times the value, rounded up to a whole number. -/
def ceilTimes (n : Nat) (a : Dy) : Nat := (n * dyNum a + dyDen a - 1) / dyDen a

/-- The encoding of a binary64. -/
def f64Bits (d : Dy) : BitVec 64 :=
  if d.m = 0 then 0
  else
    let l := Nat.log2 d.m.natAbs
    let m : Nat := d.m.natAbs * 2 ^ (52 - l) / 2 ^ (l - 52)
    let exp : Int := d.e + (l : Int) + 1023
    BitVec.ofNat 64 ((if d.m < 0 then 2 ^ 63 else 0) + exp.toNat * 2 ^ 52 + m % 2 ^ 52)

/-- The value of an encoding. -/
def f64Val (w : BitVec 64) : Dy :=
  let e := bits w.toNat 62 52
  let m : Nat := w.toNat % 2 ^ 52
  let v : Dy := if e = 0 then ⟨(m : Int), -1074⟩ else ⟨((m + 2 ^ 52 : Nat) : Int), (e : Int) - 1075⟩
  if w.getLsbD 63 then ⟨-v.m, v.e⟩ else v

/-- R265: the ROM table: the 0.95 quantile for ν = 2, 4, ..., 512 in units of 10^-4, rounded up at the fifth significant
digit. -/
def chiTable : List Nat :=
  ([59915, 94878, 125920, 155080, 183080, 210270, 236850, 262970, 288700, 314110, 339250, 364160, 388860, 413380, 437730, 461950] ++
   [486030, 509990, 533840, 557590, 581250, 604810, 628300, 651710, 675050, 698330, 721540, 744690, 767780, 790820, 813820, 836760] ++
   [859650, 882510, 905320, 928090, 950820, 973510, 996170, 1018800, 1041400, 1064000, 1086500, 1109000, 1131500, 1153900, 1176400, 1198800] ++
   [1221100, 1243500, 1265800, 1288100, 1310400, 1332600, 1354900, 1377100, 1399300, 1421400, 1443600, 1465700, 1487800, 1509900, 1532000, 1554100] ++
   [1576100, 1598200, 1620200, 1642200, 1664200, 1686200, 1708100, 1730100, 1752000, 1773900, 1795900, 1817800, 1839600, 1861500, 1883400, 1905200] ++
   [1927100, 1948900, 1970700, 1992500, 2014300, 2036100, 2057800, 2079600, 2101300, 2123100, 2144800, 2166500, 2188300, 2210000, 2231700, 2253300] ++
   [2275000, 2296700, 2318300, 2340000, 2361600, 2383300, 2404900, 2426500, 2448100, 2469700, 2491300, 2512900, 2534500, 2556100, 2577600, 2599200] ++
   [2620700, 2642300, 2663800, 2685400, 2706900, 2728400, 2749900, 2771400, 2792900, 2814400, 2835900, 2857400, 2878900, 2900300, 2921800, 2943300] ++
   [2964700, 2986200, 3007600, 3029000, 3050500, 3071900, 3093300, 3114700, 3136100, 3157500, 3178900, 3200300, 3221700, 3243100, 3264500, 3285900] ++
   [3307200, 3328600, 3349900, 3371300, 3392700, 3414000, 3435300, 3456700, 3478000, 3499300, 3520700, 3542000, 3563300, 3584600, 3605900, 3627200] ++
   [3648500, 3669800, 3691100, 3712400, 3733700, 3755000, 3776200, 3797500, 3818800, 3840000, 3861300, 3882600, 3903800, 3925100, 3946300, 3967600] ++
   [3988800, 4010000, 4031300, 4052500, 4073700, 4094900, 4116200, 4137400, 4158600, 4179800, 4201000, 4222200, 4243400, 4264600, 4285800, 4307000] ++
   [4328200, 4349300, 4370500, 4391700, 4412900, 4434000, 4455200, 4476400, 4497500, 4518700, 4539900, 4561000, 4582200, 4603300, 4624500, 4645600] ++
   [4666700, 4687900, 4709000, 4730100, 4751300, 4772400, 4793500, 4814600, 4835800, 4856900, 4878000, 4899100, 4920200, 4941300, 4962400, 4983500] ++
   [5004600, 5025700, 5046800, 5067900, 5089000, 5110100, 5131200, 5152200, 5173300, 5194400, 5215500, 5236500, 5257600, 5278700, 5299700, 5320800] ++
   [5341900, 5362900, 5384000, 5405000, 5426100, 5447100, 5468200, 5489200, 5510300, 5531300, 5552400, 5573400, 5594400, 5615500, 5636500, 5657500])

/-- R264, R265: the Wilson–Hilferty form, for ν above 512: every step is rounded upward. -/
def chiLarge (nu : Nat) : Dy :=
  let a := roundQ true 2 (9 * nu)
  let b := f64SqrtUp a
  let z := f64Mul true (roundQ true 16449 10000) b
  let x := f64Add true (f64Sub true ⟨1, 0⟩ a) z
  f64Mul true (roundQ true 1001 1000) (f64Mul true (f64OfNat true nu) (f64Mul true x (f64Mul true x x)))

/-- R265: CHI2_95. -/
def chi95 (nu : Nat) : Dy :=
  if nu ≤ 512 then roundQ true (chiTable.getD (nu / 2 - 1) 0) 10000 else chiLarge nu

end Sys2Proof.Machine
end

