-- ==== Sys2Proof/Machine/State.lean ====
section
/-! DEFINITION. The state of the complex as plain data, and the state under power-on reset. Every field's docstring begins with [rule; width; reset value]. 'model' in the place of the rule marks a field that is the model's own. DC(n) and P(n) mark a reset value that the spec does not give: log entry n. -/

namespace Sys2Proof.Machine

/-- Why a step can stop with a fault. No meaning of this model raises one: every command has its effect (log entry 1). -/
inductive Fault where
  /-- Raised by nobody; safe. Kept so that the type of faults is not empty. -/
  | none
deriving DecidableEq, Repr

/-- Why a step can be refused. -/
inductive Refusal where
  /-- Raised by an arm of `exec` whose command has no meaning yet; safe. No arm is left that raises it. -/
  | notModelled (mnemonic : String)
deriving DecidableEq, Repr

/-! ### The event recorder (in DK) -/

/-- An occurrence on its way to the ring: what R398 says of a record but its SEQ, ERA and forwarding. -/
structure Ev where
  /-- [R398; 64; -] -/ time : Nat
  /-- [R398; 16; -] -/ code : BitVec 16
  /-- [R401; 16; -] -/ source : BitVec 16
  /-- [R398; 32; -] -/ p1 : Word
  /-- [R398; 32; -] -/ p2 : Word
  /-- [R398; 32; -] -/ p3 : Word
  /-- [R400; 1; -] -/ coarse : Bool
  /-- [R400; 1; -] -/ deferred : Bool
deriving DecidableEq, Repr

/-- A record of the ring (R398). -/
structure Rec where
  /-- [R402; 40; -] ERA × 2^32 + SEQ -/ pos : Nat
  /-- [R398; -; -] -/ ev : Ev
  /-- [R28; 1; -] an uncorrectable DK error lies in the record -/ damaged : Bool
deriving DecidableEq, Repr

/-- An entry of EVENT_LIMITS (R408), defaults taken. -/
structure Limit where
  /-- [R408; 16; -] -/ code : Nat
  /-- [R408; 8; -] -/ depth : Nat
  /-- [R408; 32; -] -/ refillUs : Nat
deriving DecidableEq, Repr

/-- A token bucket (R409), and the virtual bucket of a U code (R410). -/
structure Bucket where
  /-- [R409; 8; 16] tokens held; capped at the depth when read -/ tokens : Nat := 16
  /-- [R409; 64; none] when the next token arrives, while below the depth -/ next : Option Nat := none
  /-- [R409; 32; 0] occurrences suppressed -/ suppressed : Nat := 0
  /-- [R410; 1; 0] the bucket suppressed one -/ byBucket : Bool := false
  /-- [R410; 1; 0] the data-plane FIFO refused one -/ byFifo : Bool := false
  /-- [R410; 64; 0] TIME of the first one suppressed -/ first : Nat := 0
deriving DecidableEq, Repr

/-- One requester's PHL_EVT_READ and PHL_EVT_READ_DATA (R421, R514). -/
structure ReadLatch where
  /-- [R421; 8; 0] -/ era : Byte := 0
  /-- [R421; 32; 0] -/ seq : Word := 0
  /-- [R421; 2; 0] -/ result : Nat := 0
  /-- [R413; 256; none] -/ data : Option Rec := none
deriving DecidableEq, Repr

/-- An outstanding log-clear nonce (R414). -/
structure NonceRec where
  /-- [R414; 128; -] -/ value : BitVec 128
  /-- [R414; 64; -] -/ drawn : Nat
  /-- [R414; 32; -] the bound PHL_EVT_HEAD.NEXT_SEQ -/ bound : Word
  /-- [R414; 1; 0] its 10 s have passed -/ expired : Bool
deriving DecidableEq, Repr

/-- The recorder (R398 to R423). -/
structure Recorder where
  /-- [R36, R404; 256 records; empty] data-plane ingress FIFO -/ fifoData : List Ev := []
  /-- [R36, R404; 256 records; empty] control-plane ingress FIFO -/ fifoCtl : List Ev := []
  /-- [R36, R404; 256 records; empty] management-plane ingress FIFO -/ fifoMgmt : List Ev := []
  /-- [R36; -; empty] control-plane records whose senders wait for space -/ waitCtl : List Ev := []
  /-- [R36; -; empty] management-plane records whose senders wait for space -/ waitMgmt : List Ev := []
  /-- [R404; 2; 0] the FIFO whose turn is next -/ turn : Nat := 0
  /-- [R419; 40; 0] PHL_EVT_HEAD -/ head : Nat := 0
  /-- [R419; 40; 0] PHL_EVT_TAIL -/ tail : Nat := 0
  /-- [R415; 40; 0] position of the first record since the last clear -/ cleared : Nat := 0
  /-- [R413; 40; 0] records written since the last clear, saturating -/ since : Nat := 0
  /-- [R404; 65,536 x 32 bytes; empty] the ring, by entry -/ ring : Tab Rec := []
  /-- [R420; 1; 0] -/ wrapped : Bool := false
  /-- [R420; 16; 0] -/ corrected : Nat := 0
  /-- [R420; 8; 0] -/ damagedCount : Nat := 0
  /-- [R410; -; empty] summaries made and not yet written -/ summaries : List Ev := []
  /-- [R408, R411; -; none] the EVENT_LIMITS entries in force -/ limits : List Limit := []
  /-- [R409; -; full] by code -/ buckets : Tab Bucket := []
  /-- [R412, R422; 24 each; 0] PHL_EVT_COUNT, by index -/ counts : Tab Nat := []
  /-- [R420; 3; 3] PHL_EVT_FWD.THRESHOLD -/ threshold : BitVec 3 := 3
  /-- [R421, R514; -; 0] by requester -/ latches : Tab ReadLatch := []
  /-- [R421, R518; 7 each; 0] PHL_EVT_DK_SEL, by requester -/ dkSel : Tab Nat := []
  /-- [R414; -; none] by requester -/ nonces : Tab NonceRec := []
  /-- [R423; 32 bytes; 0] PHL_EVT_RESPONSE -/ response : Tab Byte := []
  /-- [R414; 32; 0] consecutive MISMATCH results -/ fails : Nat := 0
  /-- [R414; 64 each; empty] times of the consecutive MISMATCH results, newest first -/ failTimes : List Nat := []
  /-- [R420; 1; none] the clear in progress: its requester and when it began -/ clearing : Option (Nat × Nat) := none
  /-- [R423; 3 each; 0] PHL_EVT_CLEAR.RESULT, by requester -/ clearResults : Tab Nat := []
deriving DecidableEq, Repr

/-! ### The hang snapshot and the crash dump (in DK) -/

/-- A queue record of a snapshot (R384). -/
structure QRec where
  /-- [R384; 3; 0] -/ state : Nat := 0
  /-- [R384; 16; 0] -/ head : BitVec 16 := 0
  /-- [R384; 16; 0] -/ tail : BitVec 16 := 0
  /-- [R384; 12; 0] -/ ctx : CtxId := 0
  /-- [R384; 32; 0] -/ tag : Word := 0
  /-- [R384; 24; 0] -/ deadline : Nat := 0
  /-- [R384; 4; 0] -/ status : Nat := 0
  /-- [R384; 64; 0] -/ start : Nat := 0
  /-- [R384; 64; 0] -/ lastRetire : Nat := 0
deriving DecidableEq, Repr

/-- A watch slot (R316, R330). -/
structure Watch where
  /-- [R330; 32; 0] -/ name : Word := 0
  /-- [R330; 32; 0] -/ target : Word := 0
  /-- [R330; 4; 0] OP -/ op : Nat := 0
  /-- [R330; 2; 0] COND -/ cond : Nat := 0
  /-- [R330; 2; 0] -/ queue : Nat := 0
  /-- [R330; 1; 0] the slot is taken -/ valid : Bool := false
  /-- [R330; 12; 0] -/ ctx : CtxId := 0
  /-- [R319; 64; 0] when the timeout expires -/ expires : Nat := 0
  /-- [R308; 64; 0] RADDR of a WATCH -/ raddr : DWord := 0
  /-- [R353; 9; none] the barrier context, for an ARRIVE -/ barrier : Option Nat := none
  /-- [R319; 32; 0] the last value that the home reported -/ lastValue : Word := 0
  /-- [R317; 1; 0] the subscription has not reached the home yet -/ travelling : Bool := false
  /-- [R312; 16; 0] OPID of the operation that took it: the program order of registrations -/ opid : BitVec 16 := 0
deriving DecidableEq, Repr

/-- A gate point's entry of a snapshot (R383). -/
structure GateSum where
  /-- [R383; -; 0] -/ items : Nat := 0
  /-- [R383; -; 0] -/ bytes : Nat := 0
  /-- [R383; 64; 0] -/ oldest : Nat := 0
deriving DecidableEq, Repr

/-- A hang snapshot (R383, R384). -/
structure Snapshot where
  /-- [R384; 8; -] -/ trigger : Byte
  /-- [R384; 4; -] service state at the capture -/ state : Nat
  /-- [R384; 1; -] -/ incomplete : Bool
  /-- [R384; 1; -] -/ noEvt : Bool
  /-- [R384; 8; -] -/ index : Byte
  /-- [R384; 2; -] -/ queue : Nat
  /-- [R384; 64; -] -/ tcap : Nat
  /-- [R384; 32; -] the record that triggered the capture, until its SEQ is known -/ evtOf : Option Ev
  /-- [R384; 32; -] -/ evtSeq : Word
  /-- [R384; 32; -] -/ epoch : Word
  /-- [R384; 32; -] -/ rstSeq : Word
  /-- [R383; 1,024 x 64 bytes; -] by core and queue -/ queues : Tab QRec
  /-- [R330, R383; 4,096 x 16 bytes; -] the taken slots' records, by core and slot -/ waits : Tab (List Byte)
  /-- [R383; 38 x 16 bytes; -] -/ gates : Tab GateSum
deriving DecidableEq, Repr

/-- A slot of the crash dump (R416, R417). -/
structure DumpSlot where
  /-- [R417; 8; 0] 0 EMPTY, 1 WRITING, 2 VALID, 3 PARTIAL -/ state : Nat := 0
  /-- [R417; -; none] -/ snap : Option Snapshot := none
  /-- [R416; 256 records; empty] the event tail -/ tail : List Rec := []
  /-- [R417; 32; 0] -/ serial : Nat := 0
deriving DecidableEq, Repr

/-- The crash-dump area and the snapshot buffer (R382, R416 to R418). -/
structure Crash where
  /-- [R417; 40 slots; EMPTY] -/ slots : Tab DumpSlot := []
  /-- [R417; 8; 1] NEXT -/ next : Nat := 1
  /-- [R418; 1; 0] slot 0 has been filled since the last clear -/ firstUsed : Bool := false
  /-- [R417; 64; 0] CLEARED -/ cleared : Nat := 0
  /-- [R417; 32; 0] TAKEN -/ taken : Nat := 0
  /-- [R417; 32; 0] SKIPPED -/ skipped : Nat := 0
  /-- [R417; 32; 0] snapshots copied since power-on -/ serial : Nat := 0
  /-- [R382; -; none] the snapshot buffer: a capture not yet copied, and its slot -/ buffer : Option (Snapshot × Nat) := none
  /-- [R382; 1; 0] the copy was interrupted by a caller reset -/ redo : Bool := false
deriving DecidableEq, Repr

/-! ### The charter -/

/-- A cell word (R144). -/
structure CellWord where
  /-- [R144; 3; -] -/ type : Nat
  /-- [R144; 5; -] -/ vcell : Nat
  /-- [R144; 7; -] -/ op : Nat
  /-- [R144; 1; -] -/ clr : Bool
  /-- [R144; 12; -] -/ srcA : BitVec 12
  /-- [R144; 12; -] -/ srcB : BitVec 12
  /-- [R144; 12; -] -/ srcC : BitVec 12
  /-- [R144; 4; -] -/ trig : Nat
  /-- [R144; 4; -] -/ neg : Nat
  /-- [R144; 8; -] -/ lbase : Nat
  /-- [R144; 4; -] -/ lstride : Nat
  /-- [R144; 4; -] -/ estride : Nat
  /-- [R144; 4; -] -/ nelem : Nat
  /-- [R144; 12; -] -/ scaleA : BitVec 12
  /-- [R144; 12; -] -/ scaleB : BitVec 12
  /-- [R144; 6; -] -/ param : Nat
  /-- [R144; 18; -] the bits that must be zero -/ rest : Nat
deriving DecidableEq, Repr

/-- An output descriptor (R147). -/
structure OutDesc where
  /-- [R147; 8; -] -/ kind : Nat
  /-- [R147; 3; -] -/ type : Nat
  /-- [R147; 5; -] -/ vcell : Nat
  /-- [R147; 8; -] -/ index : Nat
deriving DecidableEq, Repr

/-- A figure image (R143). -/
structure Figure where
  /-- [R143; 16; -] FIG_ID -/ id : Nat
  /-- [R143; 8; -] FIG_VER -/ ver : Nat
  /-- [R143; 4; -] -/ queues : Nat
  /-- [R143; 8; -] -/ classes : Nat
  /-- [R143; 16; -] -/ formats : Nat
  /-- [R143; 12; -] -/ ttagLo : Nat
  /-- [R143; 12; -] -/ ttagHi : Nat
  /-- [R143; 5 x 8; -] DEMAND of X, E, T, N, C -/ demand : List Nat
  /-- [R143; 1; -] -/ verdict : Bool
  /-- [R143; 1; -] -/ alt : Bool
  /-- [R143; 1; -] -/ sample : Bool
  /-- [R143; 1; -] -/ census : Bool
  /-- [R143; 16; -] -/ imports : Nat
  /-- [R142; -; -] -/ cells : List CellWord
  /-- [R142; 64 each; -] -/ params : List DWord
  /-- [R142; -; -] -/ outs : List OutDesc
deriving DecidableEq, Repr

/-- The COVERAGE section (R258), with its defaults taken. -/
structure Coverage where
  /-- [R258; 8; -] -/ mode : Nat
  /-- [R258; 8; -] the byte as stored -/ repriseExp : Nat
  /-- [R258; 8; -] the byte as stored -/ matrixExp : Nat
  /-- [R258; 32; -] the field as stored -/ rehInterval : Nat
deriving DecidableEq, Repr

/-- An object entry of a SYNC_TEMPLATE (R305). -/
structure ObjEntry where
  /-- [R305; 13; -] -/ object : Nat
  /-- [R305; 1; -] -/ count : Bool
  /-- [R305; 1; -] -/ host : Bool
  /-- [R305; 32; -] -/ init : Word
  /-- [R305; 64; -] -/ hostAddr : DWord
deriving DecidableEq, Repr

/-- A monitor entry (R324). -/
structure MonEntry where
  /-- [R324; 64; -] -/ addr : Nat
  /-- [R324; 32; -] -/ compare : Word
  /-- [R324; 13; -] -/ object : Nat
  /-- [R324; 3; -] -/ cond : Nat
  /-- [R324; 1; -] -/ oneshot : Bool
  /-- [R324; 4; -] -/ action : Nat
  /-- [R324; 8; -] -/ addn : Nat
  /-- [R324; 12; -] the context to which the entry belongs -/ ctx : CtxId
  /-- [R324; 32; -] the value last seen, for CHANGED -/ last : Word
deriving DecidableEq, Repr

/-- A SYNC_TEMPLATE section (R305). -/
structure Template where
  /-- [R305; 12; -] -/ ctx : CtxId
  /-- [R305; 32; -] DEFAULT_TIMEOUT_MS, default taken -/ timeoutMs : Nat
  /-- [R305; -; -] -/ objects : List ObjEntry
  /-- [R305; -; -] -/ monitors : List MonEntry
deriving DecidableEq, Repr

/-- An entry of the GUARD_WINDOW section (R349). -/
structure Guard where
  /-- [R349; 12; -] -/ ctx : CtxId
  /-- [R349; 32; -] -/ name : Word
  /-- [R349; -; -] (BASE, LEN) -/ ranges : List (Nat × Nat)
deriving DecidableEq, Repr

/-- The RESET_POLICY section (R392), defaults taken. -/
structure ResetPolicy where
  /-- [R392; 1; -] -/ startL1 : Bool
  /-- [R392; 8; -] -/ oosCount : Nat
  /-- [R392; 16; -] -/ repeatMs : Nat
  /-- [R392; 32; -] -/ oosWindowS : Nat
  /-- [R392; 32; -] -/ floorUs : Nat
deriving DecidableEq, Repr

/-- A port entry of TOPOLOGY (R459). -/
structure TopoPort where
  /-- [R459; 8; -] -/ port : Nat
  /-- [R459; 1; -] -/ optional : Bool
  /-- [R459; 1; -] -/ anyPeer : Bool
  /-- [R459; 8; -] -/ width : Nat
  /-- [R459; 8; -] -/ floor : Nat
  /-- [R459; 128; -] -/ peerUid : Nat
  /-- [R459; 8; -] -/ peerPort : Nat
deriving DecidableEq, Repr

/-- The TOPOLOGY section (R459), defaults taken. -/
structure Topology where
  /-- [R459; 14; -] -/ chip : ChipId
  /-- [R459; 1; -] -/ degradedOk : Bool
  /-- [R459; 8; -] -/ minStacks : Nat
  /-- [R459; -; -] -/ ports : List TopoPort
deriving DecidableEq, Repr

/-- A segment of a kit (R250). -/
structure Segment where
  /-- [R250; 32; -] offset of its first descriptor -/ descOff : Nat
  /-- [R250; 16; -] -/ descs : Nat
  /-- [R250; 16; -] BUDGET in µs -/ budget : Nat
  /-- [R250; 32; -] -/ resOff : Nat
  /-- [R250; 32; -] -/ resLen : Nat
deriving DecidableEq, Repr

/-- A REHEARSAL_KIT section (R250). -/
structure Kit where
  /-- [R250; 16; -] -/ id : Nat
  /-- [R250; 8; -] KIT_VER -/ ver : Nat
  /-- [R250; 4; -] -/ flags : Nat
  /-- [R250; 64; -] -/ signature : Nat
  /-- [R250; -; -] the data image -/ data : List Byte
  /-- [R250; -; -] the descriptor block -/ block : List Byte
  /-- [R250; 16 bytes; -] NAME -/ name : List Byte
  /-- [R250; -; -] -/ segs : List Segment
deriving DecidableEq, Repr

/-- The TEMPO_POLICY section (R296), defaults taken. -/
structure TempoPolicy where
  /-- [R296; 1; -] -/ enable : Bool
  /-- [R296; 8; -] in 0.5 mV -/ stepDown : Nat
  /-- [R296; 8; -] in mV -/ stepUp : Nat
  /-- [R296; 8; -] in mV -/ floorMargin : Nat
  /-- [R296; 16; -] -/ domains : Nat
  /-- [R296; 8; -] in mV -/ maxHarvest : Nat
  /-- [R296; 8; -] -/ canaryMin : Nat
  /-- [R296; 8; -] -/ canaryTrip : Nat
  /-- [R296; 8; -] -/ failMax : Nat
  /-- [R296; 16; -] -/ evalS : Nat
  /-- [R296; 32; -] -/ holdS : Nat
  /-- [R296; 32; -] -/ failWindowS : Nat
  /-- [R296; 32; -] -/ learnS : Nat
  /-- [R296; 8; -] -/ lockCount : Nat
  /-- [R296; 16; -] -/ settleUs : Nat
  /-- [R296; 16; -] -/ spacingMs : Nat
  /-- [R296; 16; -] -/ evidence : Nat
  /-- [R296; 32; -] -/ lockWindowS : Nat
deriving DecidableEq, Repr

/-- The LEDGER_POLICY section (R269), defaults taken. -/
structure LedgerPolicy where
  /-- [R269; 16; -] -/ alpha0 : Nat
  /-- [R269; 32; -] -/ beta0 : Nat
  /-- [R269; 16; -] -/ fMatrix : Nat
  /-- [R269; 16; -] -/ fVector : Nat
  /-- [R269; 16; -] -/ fMover : Nat
  /-- [R269; 16; -] -/ fResidual : Nat
  /-- [R269; 16; -] -/ eVf : Nat
  /-- [R269; 16; -] -/ eR : Nat
  /-- [R269; 16; -] -/ rehRefS : Nat
  /-- [R269; 8; -] -/ suspectCount : Nat
  /-- [R269; 8; -] -/ stationCount : Nat
  /-- [R269; 32; -] -/ windowS : Nat
  /-- [R269; 16; -] -/ drainMs : Nat
  /-- [R269; 1; -] -/ carry : Bool
  /-- [R269; 32; -] -/ target : Nat
  /-- [R269; 14; -] -/ fmChip : ChipId
  /-- [R269; 64; -] -/ fmAddr : DWord
deriving DecidableEq, Repr

/-- An entry of SEAL (R204), default taken. -/
structure SealEntry where
  /-- [R204; 12; -] -/ ctx : CtxId
  /-- [R204; 13; -] -/ request : Nat
  /-- [R204; 13; -] -/ object : Nat
  /-- [R204; 1; -] -/ enabled : Bool
  /-- [R204; 32; -] -/ lateUs : Nat
deriving DecidableEq, Repr

/-- An entry of NUMERICS (R159). -/
structure NumEntry where
  /-- [R159; 12; -] -/ ctx : CtxId
  /-- [R159; 13; -] -/ object : Nat
  /-- [R159; 1; -] -/ writePages : Bool
  /-- [R159; 1; -] -/ signal : Bool
  /-- [R159; 32; -] -/ satThresh : Nat
  /-- [R159; 64; -] -/ page : Nat
deriving DecidableEq, Repr

/-- A charter whose content has been read (R69, R74). -/
structure Charter where
  /-- [R69; 32; -] -/ serial : Word
  /-- [R69; 8; -] -/ keygen : Nat
  /-- [R304; -; -] (context, CORE_MASK) -/ partition : List (CtxId × BitVec 256)
  /-- [R142; -; -] (STATION_MASK of logical cores, image) -/ figures : List (BitVec 256 × Figure)
  /-- [R258; -; -] -/ coverage : Coverage
  /-- [R305; -; -] -/ templates : List Template
  /-- [R349; -; -] -/ guards : List Guard
  /-- [R392; -; -] -/ reset : ResetPolicy
  /-- [R408; -; -] -/ limits : List Limit
  /-- [R459; -; -] -/ topology : Topology
  /-- [R250; -; -] in KIT_ID order -/ kits : List Kit
  /-- [R296; -; -] -/ tempo : Option TempoPolicy
  /-- [R269; -; -] -/ ledger : LedgerPolicy
  /-- [R204; -; -] -/ seals : List SealEntry
  /-- [R159; -; -] -/ numerics : List NumEntry
  /-- [R93; 3 x 8; -] TAP_FLOOR, SYNC_FLOOR, HOST_FLOOR, defaults taken -/ floors : Nat × Nat × Nat
  /-- [R77; -; -] the PARTITION, TOPOLOGY and NEGOTIATION sections byte for byte, each after its type and FLAGS -/ fixed : List (List Byte)
  /-- [R82; -; -] section indices of the FIGURE sections -/ figSections : List Nat := []
deriving DecidableEq, Repr

/-! ### Configuration -/

/-- The transaction in progress (R78, R79). -/
structure Txn where
  /-- [R78; 16; -] -/ id : BitVec 16
  /-- [R81; 3; -] -/ owner : Requester
  /-- [R79; 64; -] BEGIN time -/ began : Nat
  /-- [R78; 1; -] COMMITTING -/ committing : Bool
  /-- [R81, R513; 4,096 entries; -] staged register writes: (offset, value), oldest first -/ shadow : List (Nat × Word)
  /-- [R76; -; -] the staged charter and its image -/ staged : Option (Charter × List Byte)
  /-- [R76; 1; -] a load of this transaction is in progress -/ loading : Bool
deriving DecidableEq, Repr

/-- The configuration unit (R66 to R93, R510 to R513). -/
structure Cfg where
  /-- [R67; 64; 0] PHL_CFG_CHARTER_ADDR -/ charterAddr : DWord := 0
  /-- [R67; 8; 0xFF] SECTION -/ section_ : Byte := 0xFF
  /-- [R67; 8; 0] REASON -/ reason : Byte := 0
  /-- [R67; 4; 0] STATE -/ state : Nat := 0
  /-- [R67; 32; 0] PHL_CFG_CHARTER_SERIAL -/ serial : Word := 0
  /-- [R71; 3; none] the requester of the load in progress -/ loader : Option Requester := none
  /-- [R66, R86; -; none] the charter in force -/ active : Option Charter := none
  /-- [R66; 32 MiB; empty] the active image in the charter store -/ image : List Byte := []
  /-- [R461; -; none] the first charter, verified and waiting for B8 -/ first : Option (Charter × List Byte) := none
  /-- [R71; 3; caller] who loaded it -/ firstBy : Requester := .caller
  /-- [R66; 32 MiB; none] the copy of a load in progress -/ copy : Option (List Byte) := none
  /-- [R78; -; none] -/ txn : Option Txn := none
  /-- [R83; 32; 0] PHL_CFG_EPOCH, in DK -/ epoch : Word := 0
  /-- [R85, R196; -; empty] whether egress gating is on, by the instant from which it is, newest first -/ gatings : List (Nat × Bool) := []
  /-- [R67; 64; 0] when the load in progress began -/ loadAt : Nat := 0
  /-- [R513; 32; 0] PHL_CFG_COV_OVR -/ covOvr : Word := 0
  /-- [R513; 32; 0] PHL_CFG_TEMPO_OVR -/ tempoOvr : Word := 0
  /-- [R502; 3; 0] PHL_CFG_HOST_GEN.OFFER -/ hostOffer : BitVec 3 := 0
  /-- [R502; 3; 0] PHL_CFG_HOST_GEN.SETTLED -/ hostGen : Nat := 0
  /-- [R93; 3 x 8; 1] the floors in force -/ floors : Nat × Nat × Nat := (1, 1, 1)
  /-- [R506; 3 each; 0] RESULT fields of the caller domain, by register and requester -/ results : Tab Nat := []
  /-- [R507; 32 each; none] held lower words, by offset and requester -/ held : Tab Word := []
  /-- [R17; 32 each; none] latched upper words of counts and timestamps, by offset and requester -/ latched : Tab Word := []
  /-- [R515; 12 each; 0] PHL_SEAL_SEL, by requester -/ sealSel : Tab CtxId := []
  /-- [R520; 58 each; 0] PHL_SYNC_BAR_ADDR, by requester -/ barAddr : Tab DWord := []
  /-- [R517; 64 bytes each; 0] PHL_BOOT_OTP_DATA, by requester and byte -/ otpData : Tab Byte := []
  /-- [R394; 19; 0] RW fields of PHL_RST_CMD -/ rstCmd : Word := 0
  /-- [R396; 30; 0] RW fields of PHL_RST_PEER -/ rstPeer : Word := 0
  /-- [R363; 8; 0] BARRIER of PHL_SYNC_BAR_CMD -/ barCmd : Byte := 0
  /-- [R481; 8; 0] BUDGET_MS of PHL_BOOT_SHUTDOWN -/ budget : Byte := 0
  /-- [R482; 3; 0] RECORD of PHL_BOOT_OTP -/ otpRecord : BitVec 3 := 0
  /-- [R331; 14; 0] VALUE and OBJECT of PHL_G1_FORCE -/ g1Force : Word := 0
  /-- [R331; 1; 0] APPLIED of PHL_G1_FORCE -/ g1Applied : Bool := false
deriving DecidableEq, Repr

/-! ### Stations -/

/-- One checked quantity of an execution (R235). -/
structure Quantity where
  /-- [R235; 113; -] prediction -/ p : Dy
  /-- [R235; 113; -] result -/ r : Dy
  /-- [R235; 113; -] band -/ b : Dy
  /-- [R172; -; -] the checker margin M -/ m : Dy
deriving DecidableEq, Repr

/-- What one re-execution gives (R237 to R241). -/
structure ExecOutcome where
  /-- [R239; 1; -] it gave an outcome -/ gave : Bool
  /-- [R239; -; -] -/ quants : List Quantity
  /-- [R239; 1; -] its own check failed -/ fails : Bool
  /-- [R240; -; -] result bytes -/ results : List Byte
  /-- [R241; 32; -] CRC of the source -/ srcCrc : Word
  /-- [R241; 32; none] CRC of the destination -/ dstCrc : Option Word
deriving DecidableEq, Repr

/-- What the caller inserts an operation for (R108): a copy of its own, a kit, the replay of a CU, or a re-execution of the
adjudication that a core, a tag and a start time name: that of a reprise mismatch, or that of a FAIL. -/
inductive Use where
  | copy
  | kit
  | replay (core : Core) (tag : Word)
  | exec (core : Core) (tag : Word) (start : Nat) (mismatch : Bool) (which : ExecName)
deriving DecidableEq, Repr

/-- An insertion notice of the caller (R108): the operation is due in a queue, with figures that the station runs on it. -/
structure Notice where
  /-- [R108; 2; -] -/ queue : Queue
  /-- [R108, R237; -; -] -/ figs : List Figure
  /-- [R108; -; -] -/ use : Use
  /-- [R229; 128; none] the descriptor fields of the original, which the operation has -/ op : Option OpStart
deriving DecidableEq, Repr

/-- A W96 accumulator with its flags (R127, R129). -/
structure Acc where
  /-- [R129; 113; +0] -/ v : Dy := ⟨0, 0⟩
  /-- [R131; 1; 0] -/ nf : Bool := false
  /-- [R130; 1; 0] -/ inx : Bool := false
  /-- [R130; 1; 0] -/ ovf : Bool := false
deriving DecidableEq, Repr

/-- A log-domain value of an E lane: the exact linear sum that it bounds (R133, R167), and NF. -/
structure Lv where
  /-- [R133; 32; 0] -/ sum : Dy := ⟨0, 0⟩
  /-- [R131; 1; 0] -/ nf : Bool := false
deriving DecidableEq, Repr

/-- Zero, saturation and non-finite counts, and amax: of a lane (R136), and of a tensor tag (R156). -/
structure Census where
  /-- [R156; 32; 0] -/ zeros : Nat := 0
  /-- [R156; 32; 0] -/ sats : Nat := 0
  /-- [R156; 32; 0] -/ nonfinite : Nat := 0
  /-- [R156; 32; 0] -/ amax : Nat := 0
deriving DecidableEq, Repr

/-- The residues modulo 255 that an X lane reports to its S lane for an operation (R160). -/
structure Residues where
  /-- [R160; 8; 0] of the accumulator and the products, from those of the operands -/ operands : Nat := 0
  /-- [R160; 8; 0] of the exact value before rounding -/ exact : Nat := 0
  /-- [R160; 8; 0] of the part that rounding keeps -/ kept : Nat := 0
  /-- [R160; 8; 0] of the part that it discards -/ lost : Nat := 0
deriving DecidableEq, Repr

/-- The registers of one virtual cell in one bank (R127). Lane l of sweep step s of a T cell is entry 16s + l. -/
structure CellRegs where
  /-- [R127; 16 lanes; +0] ACC -/ acc : Tab Acc := []
  /-- [R127; 16 lanes; 0] L0 -/ l0 : Tab Lv := []
  /-- [R127; 16 lanes; 0] L1 -/ l1 : Tab Lv := []
  /-- [R133; 16 lanes; 0] the output of BAND -/ band : Tab Acc := []
  /-- [R127, R135; -; 0] result codes: 1 EXEMPT, 2 PASS, 3 FAIL -/ res : Tab Nat := []
  /-- [R235; -; empty] prediction, result and band of each T lane -/ evid : Tab Quantity := []
  /-- [R137; -; empty] bytes folded into CRC0, by position -/ crc0 : Tab Byte := []
  /-- [R137; -; 0] bytes covered by CRC0 -/ crc0Len : Nat := 0
  /-- [R137; -; empty] joined CRCs of CRC1: (CRC, bytes) -/ crc1 : List (Word × Nat) := []
  /-- [R127; 1; 0] the CRC0 register is a CRC-64 -/ wide : Bool := false
  /-- [R127, R136; 16 lanes; 0] zero, saturation and non-finite counts, and amax as FP32 -/ counts : Tab Census := []
  /-- [R127, R160; 16 lanes; 0] the S lanes' residues of the X lanes' last operations -/ residue : Tab Residues := []
deriving DecidableEq, Repr

/-- A bank of a figure that a CU holds (R138). -/
structure LatticeBank where
  /-- [R149; 2; -] -/ slot : Nat
  /-- [R138; 2; -] -/ queue : Nat
  /-- [R138; 2; -] OPID[1:0] -/ bank : Nat
  /-- [R138; 32; -] tag of the CU that holds the bank, or held it last -/ holder : Word
  /-- [R138; 1; -] the bank is held -/ held : Bool
  /-- [R127; -; -] by type × 32 + VCELL -/ regs : Tab CellRegs
deriving DecidableEq, Repr

/-- A figure slot (R149, R163). -/
structure Slot where
  /-- [R163; -; -] -/ fig : Figure
  /-- [R163; 2; -] 1 LOADING, 2 ACTIVE, 3 RETIRING -/ state : Nat
  /-- [R149; -; -] virtual to physical cells, by type × 32 + number -/ bind : List (Nat × Nat)
  /-- [R149; 1; -] a cell of the figure cannot be rebound -/ broken : Bool
  /-- [R149; -; empty] cells to rebind at the figure's next CU boundary: (marked faulty, its substitute) -/ moves : List (Nat × Nat) := []
deriving DecidableEq, Repr

/-- An operation that has started at a station and is not settled (R108 to R110, R192). -/
structure Cu where
  /-- [R103; 128; -] -/ op : OpStart
  /-- [R109; 32; -] tag, or 0 for an inserted operation -/ tag : Word
  /-- [R108; 1; -] -/ inserted : Bool
  /-- [R108; -; copy] what it was inserted for -/ use : Use := .copy
  /-- [R237, R241; -; empty] of an inserted operation: the results, or the source of a mover, by position -/ got : Tab Byte := []
  /-- [R172; -; empty] checker margin by column, and by row from 128 on -/ margins : Tab Dy := []
  /-- [R110; 64; -] -/ start : Nat
  /-- [R85; 32; -] -/ epoch : Word
  /-- [R44; 12; -] -/ ctx : CtxId
  /-- [R156, R205; 32; -] -/ step : Nat
  /-- [R105; -; -] -/ descs : List OpDesc := []
  /-- [R64; 1; 0] a poisoned operand sector was read -/ poison : Bool := false
  /-- [R407; 32; 0] poisoned sectors seen -/ poisonCount : Nat := 0
  /-- [R131; 1; 0] -/ inputNf : Bool := false
  /-- [R115; 2; 0] cause of the first tap gap, or 0 -/ gap : Nat := 0
  /-- [R187; 3; 0] reason of a waiver at the start, or 0 -/ waive : Nat := 0
  /-- [R259; 1; 1] -/ sampled : Bool := true
  /-- [R222; 1; 0] sampled for reprise and not skipped -/ reprise : Bool := false
  /-- [R150; 4; -] slots of the figures that attach -/ attached : List Nat := []
  /-- [R88; 4; -] slots retiring at the start that would have attached (R187) -/ figsOff : Bool := false
  /-- [R139; 4; 0] slots that gave NONE because the bank was busy -/ busy : List Nat := []
  /-- [R162, R189, R190; 16; 0] code of a forced FAIL -/ forced : Nat := 0
  /-- [R154; 16; 0] FIG_ID of a forced FAIL -/ forcedFig : Nat := 0
  /-- [R110; 64; none] -/ retire : Option Nat := none
  /-- [R30; 1; 0] in the pending list -/ pending : Bool := false
  /-- [R186; 2; none] -/ verdict : Option Nat := none
  /-- [R189; 1; 0] VERDICT_LATE was recorded -/ late : Bool := false
  /-- [R366; 1; 0] a DEADLINE_MISS was recorded -/ missed : Bool := false
  /-- [R106; -; empty] WRITE_DONE completions: (CRC, valid, bytes) -/ writes : List (Word × Bool × Nat) := []
  /-- [R96; 32; 0] operand data beats taken -/ beats : Nat := 0
  /-- [R107; 2; 0] how far its records and beats have come: 1 after a SCALE beat, 2 after a data beat -/ phase : Nat := 0
  /-- [R106, R107; 32; 0] result sectors shown on the result port -/ resSectors : Nat := 0
  /-- [R61; -; empty] sectors that it has written into other cores' scratchpads: (core, offset) -/ wrote : List (Nat × Nat) := []
  /-- [R96; -; none] the A beat of a BF16 index, waiting for its B beat -/ half : Option Beat := none
  /-- [R97; 2 x 128 bytes; 0] scales of the block in progress, A then B -/ scales : List Byte := []
  /-- [R97; 2 x 128 bytes; 0] scales of the next block -/ nextScales : List Byte := []
  /-- [R135; 8; 0] largest A scale -/ maxA : Nat := 0
  /-- [R135; 8; 0] largest B scale -/ maxB : Nat := 0
  /-- [R98; 8; 0] C0 rows taken -/ c0Rows : Nat := 0
  /-- [R198; 1; 0] an item of the transfer was dropped -/ itemDropped : Bool := false
  /-- [R225; 1; 0] the capsule tee has begun -/ capsule : Bool := false
  /-- [R367; 64; 0] time since the start for which tableau held the chip -/ held : Nat := 0
deriving DecidableEq, Repr

/-- A verdict record (R191). -/
structure VRec where
  /-- [R191; 32; 0] -/ tag : Word := 0
  /-- [R191; 32; 0] -/ retireLo : Word := 0
  /-- [R191; 8; 0] -/ kind : Byte := 0
  /-- [R191; 8; 0] -/ disp : Byte := 0
  /-- [R191; 8; 0] -/ figs : Byte := 0
  /-- [R191; 16; 0] -/ epoch : BitVec 16 := 0
  /-- [R191; 16; 0] -/ latency : BitVec 16 := 0
deriving DecidableEq, Repr

/-- A write into a core's scratchpad that PIN holds, or that has landed (R118, R119). -/
structure InbWrite where
  /-- [R94; 21; -] -/ addr : BitVec 21
  /-- [R94; 512; -] -/ data : Sector
  /-- [R63; 1; -] -/ poison : Bool
  /-- [R94; 14; -] -/ chip : ChipId
  /-- [R94; 8; -] -/ core : Core
  /-- [R94; 16; -] -/ opid : BitVec 16
deriving DecidableEq, Repr

/-- A pin entry (R118). -/
structure Pin where
  /-- [R118; 32; -] -/ tag : Word
  /-- [R118; -; -] pinned (offset, length) -/ ranges : List (Nat × Nat)
  /-- [R118; -; -] sources of transfers that FEED ties to the CU -/ sources : List OpDesc
  /-- [R119; 64; -] -/ loaded : Nat
  /-- [R119; -; -] writes held by this entry -/ held : Nat
  /-- [R429; 64; 0] time for which tableau held the chip -/ paused : Nat := 0
deriving DecidableEq, Repr

/-- A sync or barrier operation of a queue in flight (R308, R353, R366): a wait, a WATCH of a remote object that its home has not
released, or a signal that has not left its gate point. -/
structure SyncOp where
  /-- [R101; 16; -] -/ opid : BitVec 16
  /-- [R309; 4; -] opcode; 16 for ARRIVE -/ op : Nat
  /-- [R366; 64; -] -/ start : Nat
  /-- [R308, R366; 24; -] DEADLINE; TIMEOUT of a wait or an ARRIVE, whose place it takes, in µs -/ deadline : Nat
  /-- [R366; 1; 0] a DEADLINE_MISS was recorded -/ missed : Bool := false
  /-- [R367; 64; 0] time since the start for which tableau held the chip -/ held : Nat := 0
deriving DecidableEq, Repr

/-- An engine queue as the complex sees it (R42, R311, R384). -/
structure QState where
  /-- [R311; 1; 0] -/ halted : Bool := false
  /-- [R384; 16; 0] OPID of the next operation to start -/ nextOpid : BitVec 16 := 0
  /-- [R101; 1; 0] the queue has shown an OPID since its core last left reset -/ opidKnown : Bool := false
  /-- [R384; 16; 0] OPID of the last operation retired -/ lastOpid : BitVec 16 := 0
  /-- [R384; 4; 0] -/ status : Nat := 0
  /-- [R384; 64; 0] -/ lastRetire : Nat := 0
  /-- [R205; 32; 0] the queue's step number -/ step : Nat := 0
  /-- [R316; 4; none] slot of the blocking wait -/ wait : Option Nat := none
  /-- [R366, R384; -; empty] sync and barrier operations in flight, oldest first -/ syncOps : List SyncOp := []
  /-- [R115; 1; 0] a protocol error waives every CU until the next OP_RETIRE -/ gapOpen : Bool := false
deriving DecidableEq, Repr

/-- An entry of a tally table (R343). -/
structure Tally where
  /-- [R343; 14; -] -/ chip : ChipId
  /-- [R343; 32; -] -/ count : Nat
  /-- [R345; -; -] order of the last increment -/ stamp : Nat
deriving DecidableEq, Repr

/-- A mover transfer that FEED ties to a streamed operand of a matrix operation (R106, R118). -/
structure FeedTie where
  /-- [R106; 16; -] OPID of the matrix operation fed -/ fed : BitVec 16
  /-- [R106; 2; -] the mover's queue -/ queue : Queue
  /-- [R106; 16; -] OPID of the transfer -/ opid : BitVec 16
  /-- [R118; -; -] the transfer's sources -/ sources : List OpDesc
deriving DecidableEq, Repr

/-- A capsule of a core's ring (R225, R226). -/
structure Capsule where
  /-- [R225; 32; -] -/ tag : Word
  /-- [R225; 15; -] position in 64-byte units -/ pos : Nat
  /-- [R225; 15; -] units claimed, header included -/ units : Nat
  /-- [R225; 4 x 16; -] sectors of source 0, 1, 2 and the results -/ sects : List Nat
  /-- [R225; 8; -] 0 WRITING, 1 COMPLETE, 2 HELD, 3 PAD -/ state : Nat
  /-- [R225; 12; -] -/ ctx : CtxId
  /-- [R225; 64; -] -/ start : Nat
  /-- [R225; 64; -] -/ retire : Nat
  /-- [R225; 128; -] -/ op : OpStart
  /-- [R225; 32; -] -/ epoch : Word
  /-- [R225; 32; -] -/ step : Nat
  /-- [R226; 3; -] the reprise verdict (R232) -/ verdict : Option Nat
  /-- [R89, R231; 2; -] attempts made -/ attempts : Nat
  /-- [R231; 8; none] the understudy whose reset ended an attempt -/ lost : Option Core := none
  /-- [R260; 1; -] a figure gave PASS or FAIL -/ checked : Bool
  /-- [R230, R232; 64; -] the instant from which its limits run: the retire time, and later by what tableau held -/ limitFrom : Nat
  /-- [R381; 1; 0] kept over a cluster reset, which emptied the ring that held it -/ old : Bool := false
deriving DecidableEq, Repr

/-- The rehearsal of a core (R247 to R256). -/
structure Rehearsal where
  /-- [R256; 16; 0] LAST_KIT -/ lastKit : Nat := 0
  /-- [R247; 16; 0] KIT_ID of the kit that was taken last -/ turn : Nat := 0
  /-- [R256; 8; 0] FAILS -/ fails : Nat := 0
  /-- [R256; 2; 0] STATE -/ state : Nat := 0
  /-- [R256; 1; 0] OVERDUE -/ overdue : Bool := false
  /-- [R247; 16; 0] KIT_ID of the kit in progress or suspended -/ kit : Nat := 0
  /-- [R248; 6; 0] next segment -/ seg : Nat := 0
  /-- [R86, R250; -; none] that kit, as its charter gave it -/ image : Option Kit := none
  /-- [R253; 8; none] the run is a recheck for this core -/ runFor : Option Core := none
  /-- [R253; 64; none] signature of a recheck run that has ended -/ sig : Option Nat := none
  /-- [R251; -; empty] result bytes so far -/ bytes : List Byte := []
  /-- [R248; 64; 0] start of the segment -/ segStart : Nat := 0
  /-- [R248; 1; 0] the region was overwritten since the kit was suspended -/ stale : Bool := false
  /-- [R249; 64; 0] last completed rehearsal -/ lastDone : Nat := 0
  /-- [R260; 64; none] last completed rehearsal that passed -/ lastPass : Option Nat := none
  /-- [R249; 1; 0] REHEARSAL_LATE was recorded for this period -/ lateDone : Bool := false
  /-- [R253; 64; 0] signature observed first -/ observed : Nat := 0
  /-- [R253; 64; none] when the recheck began -/ recheck : Option Nat := none
  /-- [R253; 1; none] whether the same core's second run matches -/ again : Option Bool := none
  /-- [R253; 1; none] whether the other core's run matches -/ other : Option Bool := none
  /-- [R54; 1; 0] the core is in REH mode: a segment runs -/ rehMode : Bool := false
deriving DecidableEq, Repr

/-- A station with its core's bank of watch slots (R22, R23). -/
structure Station where
  /-- [R125; 8; 0] OFFER -/ tapOffer : Byte := 0
  /-- [R125; 8; 1] FLOOR -/ tapFloor : Nat := 1
  /-- [R125; 1; 0] READY -/ tapReady : Bool := false
  /-- [R125; 3; 0] SETTLED -/ tapVer : Nat := 0
  /-- [R126; 8; 0] GAPS -/ gaps : Nat := 0
  /-- [R126; 8; 0] PIN_OVERWRITES -/ pinOverwrites : Nat := 0
  /-- [R126; 4; 0] FIFO_PEAK -/ fifoPeak : Nat := 0
  /-- [R126; 1; 0] STOPPED -/ stopped : Bool := false
  /-- [R126; 1; 0] STOP_REQ -/ stopReq : Bool := false
  /-- [R117; 64; 0] when STOP was asserted -/ stopAt : Nat := 0
  /-- [R123; 1; 0] the tap version has been settled since the core last left reset -/ tapSettled : Bool := false
  /-- [R108; -; empty] insertion notices that wait for their OP_START -/ notices : List Notice := []
  /-- [R118; -; empty] transfers that FEED has tied to matrix operations -/ feeds : List FeedTie := []
  /-- [R243; 1; 0] a PERSISTENT class keeps STOP until the chip is drained -/ keepStop : Bool := false
  /-- [R118; 4 entries; empty] -/ pins : Tab Pin := []
  /-- [R119; -; empty] writes held by PIN, in order of arrival -/ heldWrites : List InbWrite := []
  /-- [R109; 24; 0] next sequence number, or the first of the core cycle whose OP_STARTs are being taken -/ seq : Nat := 0
  /-- [R109; 2 x 4; 0] the core cycle whose OP_STARTs are being taken: its queues, and those of them taken -/ cycle : BitVec 4 × BitVec 4 := (0, 0)
  /-- [R61, R106; -; empty] operations that a reset has abandoned and whose OP_ABANDON has not come -/ abandoned : List (Queue × BitVec 16) := []
  /-- [R85; 32; 0] the epoch the station holds -/ epoch : Word := 0
  /-- [R163; 4 slots; FREE] -/ slots : Tab Slot := []
  /-- [R378; -; empty] figures that were still retiring at a cluster reset -/ retiring : List Figure := []
  /-- [R163; -; empty] cells marked faulty, by type × 32 + index -/ faulty : List Nat := []
  /-- [R163; 8; 0] LAST_CELL -/ lastCell : Byte := 0
  /-- [R163; 16; 0] FAILS -/ selfFails : Nat := 0
  /-- [R162; -; empty] cells under retest, by type × 32 + index, oldest first -/ retests : List Nat := []
  /-- [R138; 4 per figure and queue; empty] -/ banks : List LatticeBank := []
  /-- [R30, R190; 128 pending; empty] operations in flight and CUs not settled, oldest first -/ cus : List Cu := []
  /-- [R30; 64; 0] the station horizon last formed -/ horizon : Nat := 0
  /-- [R221; 64 entries; 0] PHL_ST_VHIST -/ vhist : Tab VRec := []
  /-- [R42; 4 queues] -/ queues : Tab QState := []
  /-- [R330; 16 slots; free] -/ watches : Tab Watch := []
  /-- [R319, R330; -; empty] cancels sent whose replies have not come: (slot, name, party) -/ cancels : List (Nat × Word × Word) := []
  /-- [R343; 32 per queue; empty] -/ tallies : Tab (List Tally) := []
  /-- [R341; 32 each; 0] sectors that a queue has sent to a chip and that are not acknowledged end to end, by queue × 2^14 + chip -/ unacked : Tab Nat := []
  /-- [R156; 4,096 per step; 0] by step × 4,096 + tag -/ census : Tab Census := []
  /-- [R226; -; empty] capsules from the ring's head on -/ capsules : List Capsule := []
  /-- [R254; 15; 0] TAIL -/ capTail : Nat := 0
  /-- [R254; 16; 0] SKIPS -/ skips : Nat := 0
  /-- [R424; 16 x 64; 0] PHL_ST_CNT 0 to 15 -/ counters : Tab Nat := []
  /-- [R443; 24 x 64; 0] PHL_ST_CNT_SNAP -/ counterSnap : Tab Nat := []
  /-- [R256; -; -] -/ reh : Rehearsal := {}
  /-- [R85, R86; -; 0] coverage of the epoch that the station holds, overrides taken -/ cov : Coverage := ⟨0, 0, 0, 0⟩
  /-- [R42; 1.5 MiB; DC(6)] scratchpad bytes written through the complex's sight -/ spad : Tab Byte := []
  /-- [R63; 1 per sector; 0] poison marks of scratchpad sectors -/ spadPoison : Tab Bool := []
  /-- [R337; -; empty] read-cache ranges invalidated by guard windows: (base, length), newest first -/ invalidated : List (Nat × Nat) := []
deriving DecidableEq, Repr

/-! ### Horizon and egress gate -/

/-- An item at a gate point (R196). -/
structure GItem where
  /-- [R196; -; -] -/ kind : ItemKind
  /-- [R196; 8; -] -/ core : Core
  /-- [R199; 2; -] -/ queue : Queue
  /-- [R198; 16; -] -/ transfer : BitVec 16
  /-- [R196; 64; -] S -/ start : Nat
  /-- [R196; 1; -] -/ gated : Bool
  /-- [R196; 14; -] -/ dest : ChipId
  /-- [R196; 64; -] -/ addr : DWord
  /-- [R196; -; -] content so far -/ data : List Byte
  /-- [R196; 9; -] sectors arrived -/ sectors : Nat
  /-- [R198; 64; none] arrival of the last sector -/ whole : Option Nat
  /-- [R196; 1; -] last item of its transfer -/ lastItem : Bool
  /-- [R340; 256; none] the sync message that the item is: (TYPE, message) -/ msg : Option (Byte × SyncMsg)
  /-- [R341; 32; 0] sectors still to be acknowledged before an S1 signal leaves -/ ackNeed : Nat
  /-- [R322; 13; none] the host-mapped object that the item reports -/ object : Option Nat
deriving DecidableEq, Repr

/-- A containment entry as the broadcast word carries it (R194, R201, R210). -/
structure ContEntry where
  /-- [R194; 64; none] Tc, while the containment is in force -/ tc : Option Nat := none
  /-- [R210; -; empty] what rearms left: items with S from Tc up to Tr stay dropped -/ past : List (Nat × Nat) := []
deriving DecidableEq, Repr

/-- A gate point (R34, R198). -/
structure GatePoint where
  /-- [R199; -; empty] items in order of arrival -/ items : List GItem := []
  /-- [R200; -; empty] items whose senders wait for credit, in order -/ waiting : List GItem := []
  /-- [R31; 64; 0] the VH last received -/ vh : Nat := 0
  /-- [R34; 2; 0] why the point is held closed (R218), or 0 -/ closed : Nat := 0
  /-- [R34; 1; 0] it has taken a valid broadcast since it last lost its broadcasts -/ opened : Bool := false
  /-- [R34; 64; 0] arrival of the last valid broadcast -/ heard : Nat := 0
  /-- [R194; 257 contexts; none] containment entries applied, by context -/ entries : Tab ContEntry := []
  /-- [R198; -; empty] transfers with a poisoned item: (core, queue, transfer) -/ poisoned : List (Nat × Nat × Nat) := []
deriving DecidableEq, Repr

/-- The caller's view of a containment (R194, R210). -/
structure Containment where
  /-- [R194; -; none] -/ entry : ContEntry := {}
  /-- [R194; 38; 0] gate points that have acknowledged -/ acked : BitVec 38 := 0
  /-- [R194; -; empty] CUs that leave their pending lists when all have: (core, tag) -/ waiting : List (Nat × Word) := []
  /-- [R376; -; empty] resets that wait for the acknowledgements -/ resets : List Word := []
  /-- [R210; 32; 0] items dropped -/ drops : Nat := 0
deriving DecidableEq, Repr

/-- The horizon unit and the gate (R31, R216 to R218). -/
structure Horizon where
  /-- [R216; 16 x 64; 0] PHL_VH_CLUSTER -/ clusters : Tab Nat := []
  /-- [R371; 16; 0] clusters whose reducers have forwarded since their last reset -/ forwarding : BitVec 16 := 0
  /-- [R216; 64; 0] PHL_VH_NOW -/ vh : Nat := 0
  /-- [R217; 64; 0] when VH took its present value -/ since : Nat := 0
  /-- [R217; 1; 0] VH_STALL was recorded for this stall -/ stalled : Bool := false
  /-- [R21; 38] -/ gates : Tab GatePoint := []
  /-- [R194; 257 contexts; none] by context -/ contained : Tab Containment := []
  /-- [R218; 3; 0] CAUSE, in DK -/ cause : Nat := 0
  /-- [R218; 6; 0] POINT, in DK -/ point : Nat := 0
  /-- [R218; 16; 0] POISON, in DK -/ dropPoison : Nat := 0
  /-- [R218; 16; 0] CONTAIN, in DK -/ dropContain : Nat := 0
deriving DecidableEq, Repr

/-! ### Contexts, seals -/

/-- An incident (R203). -/
structure Incident where
  /-- [R203; 3; -] -/ reason : Nat
  /-- [R203; 32; -] -/ step : Nat
  /-- [R209; 32; -] -/ tag : Word
  /-- [R209; 1; -] SEAL_WITHHELD was recorded -/ reported : Bool
deriving DecidableEq, Repr

/-- A running context (R306). -/
structure Ctx where
  /-- [R305; 32; -] default timeout in µs -/ timeoutUs : Nat
  /-- [R204; -; -] the SEAL entry it started with -/ seal_ : Option SealEntry
  /-- [R350; -; -] its guard windows -/ guards : List Guard
  /-- [R207; 32; 0] steps sealed -/ sealed : Nat := 0
  /-- [R205; -; empty] outstanding requests: (first step, steps, Tq) -/ requests : List (Nat × Nat × Nat) := []
  /-- [R205; 32; 0] step of the next request -/ nextReq : Nat := 0
  /-- [R206; 64; none] Tz of the lowest unsealed step -/ tz : Option Nat := none
  /-- [R203; -; empty] -/ incidents : List Incident := []
  /-- [R207; 64; 0] retire of the last CU of each step, by step -/ lastRetire : Tab Nat := []
  /-- [R206; 32; 0] steps whose census pages are written -/ pages : Nat := 0
  /-- [R302; 32; 0] party that started it -/ starter : Word := 0
  /-- [R304; 256; -] its logical cores -/ cores : BitVec 256 := 0
  /-- [R275; 1; 0] it has reached its step boundary while draining -/ draining : Bool := false
  /-- [R306; 64; 0] when it started -/ began : Nat := 0
deriving DecidableEq, Repr

/-! ### Reprise, adjudication -/

/-- A replay in flight (R229). -/
structure Replay where
  /-- [R229; 8; -] -/ core : Core
  /-- [R229; 32; -] -/ tag : Word
  /-- [R229; 8; -] the understudy -/ under : Core
  /-- [R89; 32; -] the epoch stamped on the replay at its first operand read -/ epoch : Word
  /-- [R229; -; none] results, once it has retired -/ results : Option (List Byte) := none
  /-- [R229; 64; -] -/ began : Nat
  /-- [R230; 1; -] its sample was abandoned -/ discarded : Bool
deriving DecidableEq, Repr

/-- An adjudication (R235 to R246). -/
structure Adj where
  /-- [R235; 8; -] -/ core : Core
  /-- [R235; 32; -] -/ tag : Word
  /-- [R235; 64; -] -/ start : Nat
  /-- [R110; 64; -] -/ retire : Nat
  /-- [R235; 2; -] -/ queue : Queue
  /-- [R235; 12; -] -/ ctx : CtxId
  /-- [R203; 32; -] -/ step : Nat
  /-- [R90; 32; -] -/ epoch : Word
  /-- [R244; 2; -] 0 matrix FAIL, 1 vector or mover FAIL, 2 reprise mismatch -/ opening : Nat
  /-- [R244; 64; -] -/ opened : Nat
  /-- [R242; 64; -] when it took its slot, less the time for which tableau held the chip -/ slotted : Nat
  /-- [R235; -; -] the evidence of the original -/ evid : List Quantity
  /-- [R235; -; -] the original's results, for a reprise mismatch -/ results : List Byte
  /-- [R241; 32; -] CRC of the original's source, for a mover -/ srcCrc : Word
  /-- [R103; 128; -] -/ op : OpStart
  /-- [R237; -; -] figures that U and V must hold -/ figs : List Figure
  /-- [R237; -; empty] executions that have ended and whose outcomes the caller has not taken -/ runs : List (ExecName × ExecOutcome) := []
  /-- [R237; -; empty] the original's ranges -/ descs : List OpDesc := []
  /-- [R237; 8; -] -/ u : Option Core
  /-- [R237; 8; -] -/ v : Option Core
  /-- [R237; -; -] -/ uOut : Option ExecOutcome
  /-- [R237; -; -] -/ vOut : Option ExecOutcome
  /-- [R237; -; -] -/ hOut : Option ExecOutcome
  /-- [R239; 1; -] one understudy has been replaced -/ replaced : Bool
  /-- [R238; 1; -] H is wanted -/ needH : Bool
  /-- [R246; 1; -] H is omitted -/ noH : Bool
  /-- [R244; 1; -] -/ reread : Bool
  /-- [R244; 1; -] -/ pinLost : Bool
  /-- [R233; -; 0] reduction length, for a reprise mismatch of V2 or V3 -/ redLen : Nat := 0
  /-- [R233; -; empty] Σ|terms| of each result element, for a reprise mismatch of V2 or V3 -/ terms : List Dy := []
  /-- [R243; -; none] class, charged core and row, once it waits for containment -/ closing : Option (Nat × Option Core × Nat)
deriving DecidableEq, Repr

/-- The reprise scheduler and adjudicator (R222 to R246, R255). -/
structure Adjudicator where
  /-- [R230; 64; empty] -/ replays : List Replay := []
  /-- [R228; -; empty] replays assigned: (core, time) -/ assigned : List (Nat × Nat) := []
  /-- [R236; 8 slots; free] -/ slots : Tab Adj := []
  /-- [R236; 64; empty] openings that wait -/ queue : List Adj := []
  /-- [R255; 4; 0] LAST_CLASS -/ lastClass : Nat := 0
  /-- [R243; -; empty] closed without a slot, and waiting for their containment -/ closing : List Adj := []
  /-- [R254; 35; 0] PHL_LEDGER_CAPSULE_BASE.BASE -/ capsuleBase : BitVec 35 := 0
deriving DecidableEq, Repr

/-! ### Ledger and service state -/

/-- The ledger (R260 to R282). -/
structure Ledger where
  /-- [R272, R280; 4; 0] service state, in DK -/ state : Nat := 0
  /-- [R280; 4; 0] CAUSE, in DK -/ cause : Nat := 0
  /-- [R280; 3; 0] UNIT, in DK -/ unit : Nat := 0
  /-- [R280; 8; 0] CORE, in DK -/ core : Nat := 0
  /-- [R275; 4; 0] engines charged by the first trigger, in DK -/ engines : Nat := 0
  /-- [R280; 2; 0] FLAG, in DK -/ flag : Nat := 0
  /-- [R280; 1; 0] FLAG_BC, in DK -/ flagBc : Bool := false
  /-- [R280; 1; 0] ABOVE_TARGET, in DK -/ aboveTarget : Bool := false
  /-- [R280; 4; 0] RETURNS, in DK -/ returns : Nat := 0
  /-- [R280; 1; 0] QUIESCENT, in DK -/ quiescent : Bool := false
  /-- [R275; 64; 0] E, in DK -/ e : Nat := 0
  /-- [R276; 32; 0] epoch in force at E, in DK -/ eEpoch : Word := 0
  /-- [R266; 1; 0] the first interval has started -/ running : Bool := false
  /-- [R275; 64; 0] drain time that has elapsed while tableau held the chip -/ drainHeld : Nat := 0
  /-- [R275; 16; 0] contexts ended at the drain limit -/ limitEnded : Nat := 0
  /-- [R260; 64; 0] MT -/ mt : Nat := 0
  /-- [R260; 64; 0] MC -/ mc : Nat := 0
  /-- [R260; 32; 0] VT -/ vt : Nat := 0
  /-- [R260; 32; 0] VC -/ vc : Nat := 0
  /-- [R260; 32; 0] VF -/ vf : Nat := 0
  /-- [R260; 64; 0] BT -/ bt : Nat := 0
  /-- [R260; 64; 0] BC -/ bc : Nat := 0
  /-- [R263; 64; 0] X as binary64 -/ x : DWord := 0
  /-- [R263; 32; 0] k -/ k : Nat := 0
  /-- [R264; 32; 0] confirmed faults of the interval -/ kInterval : Nat := 0
  /-- [R270; 32; 0] cumulative station faults -/ stationFaults : Nat := 0
  /-- [R267; 1; 0] -/ carried : Bool := false
  /-- [R266; 64; 0] start of the interval -/ began : Nat := 0
  /-- [R263; 64; 0] ns SERVING in the interval before the last change of state -/ served : Nat := 0
  /-- [R263; 64; none] since when the chip is SERVING -/ servingSince : Option Nat := none
  /-- [R270; 32; 0] next report's SEQ -/ seq : Nat := 0
  /-- [R270; 7 x 16; 0] DET_* and REH_* counts of the interval -/ det : Tab Nat := []
  /-- [R281; 64; 0] PHL_LEDGER_UWR -/ uwr : DWord := 0
  /-- [R281; 128 bytes; 0] PHL_LEDGER_REPORT -/ report : List Byte := []
  /-- [R266; 1; 0] UWR_ABOVE_TARGET was recorded for this run -/ aboveRun : Bool := false
  /-- [R273, R282; -; empty] event times by core × 8 + unit, newest first -/ windows : Tab (List Nat) := []
  /-- [R282; 256; 0] CHARGED -/ charged : BitVec 256 := 0
  /-- [R270, R386; 78; none] FM_CHIP and FM_ADDR of the policy that was in force before the caller restarted -/ fm : Option (ChipId × DWord) := none
  /-- [R252; -; empty] KIT_IDs disabled until a charter replaces them -/ badKits : List Nat := []
deriving DecidableEq, Repr

/-! ### Tempo -/

/-- An AVSBus command in progress (R284, R285). -/
structure AvsCmd where
  /-- [R284; 12; -] mV written -/ mv : Nat
  /-- [R284; 64; -] when it was written -/ since : Nat
  /-- [R284, R294; -; -] SETTLE_US of the policy under which it was written, in ns -/ settle : Nat
  /-- [R285; 1; -] the readback was repeated -/ again : Bool
  /-- [R297; 2; -] 0 a return to nominal, 1 a descent, 2 a rise to the floor, 3 a backoff -/ kind : Nat
  /-- [R297; 12; -] set-point before -/ old : Nat
  /-- [R294, R297; -; -] cause, P2 and merged triggers of a backoff -/ cause : Nat
  /-- [R297; 32; -] -/ p2 : Word
  /-- [R297; 8; -] -/ merged : Nat
  /-- [R294; 64; -] last_descent before a descent -/ prev : Nat
deriving DecidableEq, Repr

/-- A tempo domain (R283 to R299). -/
structure Domain where
  /-- [R299; 12; 1500] SETPOINT, in DK -/ setpoint : Nat := 1500
  /-- [R299; 12; 0] READBACK, in DK -/ readback : Nat := 0
  /-- [R299; 8; 0] CANARY of the last interval, in DK -/ canary : Int := 0
  /-- [R287; 8; 100] minimum slack of the interval in progress -/ slack : Int := 100
  /-- [R293; 64; 0] hold_end, in DK -/ holdEnd : Nat := 0
  /-- [R293; 12; 0] learned floor, in DK -/ learned : Nat := 0
  /-- [R293; 64; 0] learned_end, in DK -/ learnedEnd : Nat := 0
  /-- [R293; -; empty] times of backoffs, newest first, in DK -/ backoffs : List Nat := []
  /-- [R299; 4; 0] CAUSE, in DK -/ cause : Nat := 0
  /-- [R299; 3; 0] STATE, in DK -/ state : Nat := 0
  /-- [R293; -; empty] set-points that ended: (time, value), newest first -/ history : List (Nat × Nat) := []
  /-- [R293; 1; 0] the lock, in DK; STATE shows LOCKED while the domain is enabled -/ locked : Bool := false
  /-- [R284; -; none] -/ cmd : Option AvsCmd := none
  /-- [R285; -; none] the frame that fails: which, when it failed first, and how often -/ frame : Option (FrameKind × Nat × Nat) := none
  /-- [R283; -; 0] Vout transition rate of the regulator as written, in mV/µs -/ rate : Nat := 0
  /-- [R298; 1; 0] NEGOTIATED -/ negotiated : Bool := false
  /-- [R298; 1; 0] FAULT -/ fault : Bool := false
  /-- [R289; 32; 0] PASS verdicts of the interval -/ passes : Nat := 0
  /-- [R289; -; empty] matrix FAILs: (time, tag) -/ fails : List (Nat × Word) := []
  /-- [R290; 1; 0] eligible at the last interval end and waiting for its spacing -/ chosen : Bool := false
deriving DecidableEq, Repr

/-- The tempo controller (R283 to R299). -/
structure Tempo where
  /-- [R299; 16] -/ doms : Tab Domain := []
  /-- [R298; 1; 0] LIMIT_ACTIVE -/ limit : Bool := false
  /-- [R291; 1; 0] LIMIT_ACTIVE was seen in the interval -/ limitSeen : Bool := false
  /-- [R290; 64; 0] last_descent -/ lastDescent : Nat := 0
  /-- [R290; 64; 0] start of the evaluation interval -/ began : Nat := 0
  /-- [R299; -; none] the last TEMPO_POLICY section in force, whose values FLOOR and BACKOFFS show, in DK -/ section_ : Option TempoPolicy := none
  /-- [R285; 1; 0] an AVS fault disabled tempo until power-on -/ off : Bool := false
  /-- [R497; 1; 1] VSAFE_N asserted -/ vsafe : Bool := true
  /-- [R298; 1; 0] ABOVE_HALF -/ aboveHalf : Bool := false
  /-- [R289; 1; 0] a report was made since the chip last entered SERVING -/ reported : Bool := false
  /-- [R58; 16 x 11; DC(5) 1100] cluster frequencies in MHz -/ freq : Tab Nat := []
  /-- [R11, R58; -; empty] earlier frequencies of each cluster: (until when, MHz), newest first -/ freqPast : Tab (List (Nat × Nat)) := []
deriving DecidableEq, Repr

/-! ### Synchronisation -/

/-- A subscription (R317). -/
structure Sub where
  /-- [R317; 32; -] the waiter -/ party : Word
  /-- [R317; 2; -] 0 EQ, 1 GE, 2 FLAG -/ cond : Nat
  /-- [R317; 32; -] -/ target : Word
deriving DecidableEq, Repr

/-- An object (R303). -/
structure Obj where
  /-- [R303; 32; 0] -/ value : Word := 0
  /-- [R303; 1; 0] COUNT mode -/ count : Bool := false
  /-- [R303; 1; 0] -/ assigned : Bool := false
  /-- [R303; 1; 0] -/ host : Bool := false
  /-- [R322; 64; 0] HOST_ADDR -/ hostAddr : DWord := 0
  /-- [R303; 12; 0] -/ ctx : CtxId := 0
  /-- [R303; 4; 0] -/ lastOp : Nat := 0
  /-- [R303; 32; 0] -/ lastParty : Word := 0
  /-- [R303; 32; 0] -/ lastTime : Word := 0
  /-- [R338; 64; 0] S of the last change -/ lastStart : Nat := 0
  /-- [R196; 1; 0] egress gating was on in the epoch in which the operation of the last change started -/ lastGated : Bool := false
  /-- [R303, R317; 256 per bank; empty] WAITERS is its length -/ subs : List Sub := []
deriving DecidableEq, Repr

/-- A release on its way to a waiter's station (R318). -/
structure Release where
  /-- [R302; 32; -] -/ party : Word
  /-- [R318; 32; -] -/ name : Word
  /-- [R318; 4; -] -/ status : Nat
  /-- [R318; 32; -] -/ value : Word
  /-- [R350, R354; 32; none] the object whose guard windows it applies -/ guard : Option Word := none
  /-- [R307, R321; 1; 0] made at the waiter's own chip for the watch that the slot holds now -/ own : Bool := false
deriving DecidableEq, Repr

/-- A barrier context (R352, R364). -/
structure Barrier where
  /-- [R364; 3; 0] 0 IDLE, 1 ARMED, 2 UP, 3 BROKEN -/ state : Nat := 0
  /-- [R364; 12; 0] -/ ctx : CtxId := 0
  /-- [R364; 16; 0] GENERATION -/ gen : Nat := 0
  /-- [R352; 1; 0] -/ sealMode : Bool := false
  /-- [R352; 32; none] -/ parent : Option Word := none
  /-- [R352; -; none] (REL_OP, RELEASE object) -/ release : Option (Nat × Nat) := none
  /-- [R352; 256; 0] logical cores -/ mask : BitVec 256 := 0
  /-- [R352; -; empty] (object, REALIGN, STRIDE, v0) -/ recounts : List (Nat × Bool × Word × Word) := []
  /-- [R352; -; empty] children's barrier names -/ children : List Word := []
  /-- [R354; 32; 0] s0 -/ s0 : Word := 0
  /-- [R353; 256; 0] logical cores that have arrived -/ arrived : BitVec 256 := 0
  /-- [R354; -; empty] chips from which ARRIVEs of the generation have come, each at most as often as it has children -/ childArrived : List ChipId := []
  /-- [R338; 64; 0] latest start time of the local arrivals -/ latest : Nat := 0
  /-- [R196; 1; 0] a local arrival started in an epoch in which egress gating was on -/ gated : Bool := false
  /-- [R353; -; empty] waiters: (core, slot) -/ waiters : List (Nat × Nat) := []
deriving DecidableEq, Repr

/-- A signal or later message held behind a tally (R346). -/
structure HeldMsg where
  /-- [R338; 8; -] TYPE -/ type : Nat
  /-- [R340; 256; -] -/ msg : SyncMsg
  /-- [R348; 64; -] arrival -/ arrived : Nat
  /-- [R348; 1; -] TALLY_STALL was recorded -/ stalled : Bool
  /-- [R436; 6; -] the port it came through -/ port : Port
deriving DecidableEq, Repr

/-- An arrival-table entry (R346). -/
structure Arrival where
  /-- [R346; 32; 0] -/ arrived : Nat := 0
  /-- [R346; 32; 0] -/ claim : Nat := 0
  /-- [R346; -; empty] -/ held : List HeldMsg := []
deriving DecidableEq, Repr

/-- A fabric port as the complex sees it (R362, R388, R458). -/
structure FPort where
  /-- [R362; 2; 0] OFFER -/ offer : BitVec 2 := 0
  /-- [R362; 2; 0] SETTLED -/ settled : Nat := 0
  /-- [R362; 2; 1] FLOOR -/ floor : Nat := 1
  /-- [R458; 8; 0] trained width, 0 while down -/ width : Nat := 0
  /-- [R458; 128; 0] -/ peerUid : Nat := 0
  /-- [R458; 8; 0] -/ peerPort : Nat := 0
  /-- [R460; 1; 0] disabled until power-on -/ disabled : Bool := false
  /-- [R388; -; empty] requests held for retry: (request, chip, until, sync message) -/ retry : List (Nat × ChipId × Nat × Bool) := []
  /-- [R339; -; empty] sync requests sent again while later ones were held -/ resent : List Nat := []
  /-- [R388; -; empty] ungated sync messages held while the link is lost: (TYPE, chip, message) -/ waiting : List (Nat × ChipId × SyncMsg) := []
deriving DecidableEq, Repr

/-- Synchronisation state of the caller and the banks (R300 to R365). -/
structure Sync where
  /-- [R300; 8,192 objects] by object number -/ objs : Tab Obj := []
  /-- [R318; -; empty] releases in flight -/ releases : List Release := []
  /-- [R307; -; empty] contexts that ended and have not started again -/ ended : List Nat := []
  /-- [R323; 65,536 entries; free] the monitor table -/ mon : Tab MonEntry := []
  /-- [R333; 15; 0] STALLS -/ monStalls : Nat := 0
  /-- [R332; 2 x 64; 0] PHL_SYNC_WL -/ wl : Tab DWord := []
  /-- [R351; 256; IDLE] -/ bars : Tab Barrier := []
  /-- [R346; 16,384 entries; free] by source party [23:0] -/ arrivals : Tab Arrival := []
  /-- [R365; 8; 0] STALLS -/ tallyStalls : Nat := 0
  /-- [R347; 64; none] last TALLY_FULL record -/ lastFull : Option Nat := none
  /-- [R362; 36] -/ ports : Tab FPort := []
  /-- [R389; -; empty] chips that DOWN withdrew -/ down : List ChipId := []
  /-- [R390; 16 each; none] RST_SEQ of the last advice, by 2 × chip + (1 for DOWN) -/ advice : Tab (BitVec 16) := []
  /-- [R345; -; 0] order of tally increments -/ tallyStamp : Nat := 0
deriving DecidableEq, Repr

/-! ### The ladder -/

/-- A ladder level in progress (R369 to R375). -/
structure Level where
  /-- [R396; 32; -] RST_SEQ -/ seq : Word
  /-- [R369; 3; -] -/ level : Nat
  /-- [R370; 4; -] -/ cause : Nat
  /-- [R393; 8; -] core, or cluster for L2 -/ index : Nat
  /-- [R393; 2; -] -/ queue : Nat
  /-- [R369; 64; -] RESET_START -/ start : Nat
  /-- [R395; 3; -] PHASE -/ phase : Nat
  /-- [R393; 16; -] contexts contained -/ contexts : Nat
  /-- [R391; 1; -] it counts, or descends from one that counted -/ counted : Bool
  /-- [R86, R392; -; -] the policy under which it completes -/ policy : ResetPolicy
deriving DecidableEq, Repr

/-- The ladder (R366 to R397). -/
structure Ladder where
  /-- [R395; 32; 0] SEQ, in DK -/ seq : Word := 0
  /-- [R395; -; empty] levels in progress, in DK -/ active : List Level := []
  /-- [R395; -; none] the latest reset, in DK -/ latest : Option Level := none
  /-- [R374; -; empty] resets that wait for the tableau release: (cause, level, index, queue) -/ waiting : List (Nat × Nat × Nat × Nat) := []
  /-- [R397; 16 x 64; 0] PHL_RST_HIST, in DK, newest first -/ hist : List Nat := []
  /-- [R374; -; 0] resets absorbed, by cause -/ absorbed : Tab Nat := []
  /-- [R391; 32; 0] RST_SEQ of the reset that reached OOS_COUNT -/ oosSeq : Word := 0
  /-- [R373; -; empty] completions: (level, index, queue, time) -/ done : List (Nat × Nat × Nat × Nat) := []
  /-- [R395; 1; 0] WITHDRAWN, in DK -/ withdrawn : Bool := false
  /-- [R395; 1; 0] NAKING, in DK -/ naking : Bool := false
  /-- [R60; 256; all ones] cores in reset -/ coresIn : BitVec 256 := BitVec.allOnes 256
  /-- [R60; 16; all ones] clusters in reset -/ clustersIn : BitVec 16 := BitVec.allOnes 16
  /-- [R60; 1; 1] the caller domain is in reset -/ callerIn : Bool := true
  /-- [R379; 1; 0] the caller restarts for an L4 -/ l4 : Bool := false
  /-- [R379; 1; 0] WITHDRAW must be sent with LATE set -/ late : Bool := false
deriving DecidableEq, Repr

/-! ### Tableau, trace, test access -/

/-- Tableau and scan-out (R427 to R445). -/
structure Tableau where
  /-- [R444; 3; 0] STATE -/ state : Nat := 0
  /-- [R444; 4; 0] SOURCE -/ source : Nat := 0
  /-- [R444; 8; 0] REPEATS -/ repeats : Nat := 0
  /-- [R444; 8; 0] LATENCY -/ latency : Nat := 0
  /-- [R444; 9; 0] CORES -/ cores : Nat := 0
  /-- [R427; 64; 0] Tt -/ tt : Nat := 0
  /-- [R445; 18; 0] PHL_TABLEAU_ARM -/ arm : Word := 0
  /-- [R445; 64; 0] PHL_TABLEAU_DEST -/ dest : DWord := 0
  /-- [R499; 1; 0] STOP_OUT -/ stopOut : Bool := false
  /-- [R524; -; none] the requester whose SCAN was the last -/ scanBy : Option Requester := none
  /-- [R433; -; 0] scans made -/ scans : Nat := 0
deriving DecidableEq, Repr

/-- The pacing of the trace port's four lanes, in block periods of 33/14 ns (R439, R498; log entry 146). -/
structure Line where
  /-- [R439; -; 0] the first period that no item fills yet -/ next : Nat := 0
  /-- [R439; -; 0] the period of the last ALIGN -/ aligned : Nat := 0
  /-- [R439; 16; 0] the marker count of the next ALIGN -/ marker : BitVec 16 := 0
  /-- [R498; -; 0] the period with which the port comes up -/ upFrom : Nat := 0
  /-- [R438, R432; -; 0] the period in which the flush or the scan in progress began -/ paced : Nat := 0
deriving DecidableEq, Repr

/-- What the trace port's lanes carry (R439), by block period; a period in which no item lies is IDLE. -/
inductive LineItem where
  /-- ALIGN periods: the first, their count, their spacing, the first marker count, the TSEQ of the next record. -/
  | aligns (first count step : Nat) (marker : BitVec 16) (tseq : Word)
  /-- A record: its units fill consecutive periods. -/
  | record (first : Nat) (units : List (BitVec 256))
deriving DecidableEq, Repr

/-- Trace (R434 to R447). -/
structure Trace where
  /-- [R446; 32; 0x48000002] PHL_TRACE_CTL -/ ctl : Word := 0x48000002
  /-- [R446; 256; all ones] PHL_TRACE_CORES -/ cores : BitVec 256 := BitVec.allOnes 256
  /-- [R443; 64; 0] PHL_TRACE_SNAP_AT -/ snapAt : DWord := 0
  /-- [R443; 64; 0] PHL_TRACE_SNAP_TIME -/ snapTime : Nat := 0
  /-- [R426; 64; none] Ts of the snapshot pending -/ snapPending : Option Nat := none
  /-- [R443; 1; 0] DONE -/ snapDone : Bool := false
  /-- [R443; 16; 0] INVALID -/ invalid : BitVec 16 := 0
  /-- [R440, R447; 8 MiB; DC(6)] the buffer by position in 32-byte units -/ buf : Tab (BitVec 256) := []
  /-- [R447; 19; 0] PHL_TRACE_BUF_WR -/ wr : Nat := 0
  /-- [R447; 19; 0] PHL_TRACE_BUF_RD -/ rd : Nat := 0
  /-- [R447, R518; 7 each; 0] PHL_TRACE_BUF_SEL, by requester -/ sel : Tab Nat := []
  /-- [R447; 32; 0] PHL_TRACE_DROPS -/ drops : Nat := 0
  /-- [R434; 32; 0] next TSEQ -/ tseq : Word := 0
  /-- [R498; 1; 0] TRACE_RDY -/ ready : Bool := false
  /-- [R449; 1; 0] trace PLL locked -/ pll : Bool := false
  /-- [R446; 1; 0] FLUSHING -/ flushing : Bool := false
  /-- [R447, R507; 32; 0] lower word of PHL_TRACE_MARK -/ markLow : Word := 0
  /-- [R440; -; none] drops on the way to the buffer that wait for their GAP: (count, TIME, TSEQ, fill in KiB) of the first -/ pending : Option (Nat × Nat × Word × Nat) := none
  /-- [R440; -; none] the same on the way to the port -/ pendingPort : Option (Nat × Nat × Word × Nat) := none
  /-- [R439; -; see its fields] the lanes -/ line : Line := {}
deriving DecidableEq, Repr

/-! ### Bring-up, OTP, board controller -/

/-- Programming of an OTP slot in progress (R476). -/
structure OtpJob where
  /-- [R476; 3; -] -/ type : Nat
  /-- [R476; 3; -] new generation -/ gen : Nat
  /-- [R472; -; -] the slot image -/ image : List Byte
  /-- [R482; 3; -] -/ requester : Requester
  /-- [R472; 1; -] every generation was used: it goes to the board controller -/ toBoard : Bool
deriving DecidableEq, Repr

/-- Bring-up, shutdown, OTP and the defect map (R448 to R482). -/
structure Boot where
  /-- [R483; 1; 0] PWR_OK -/ pwrOk : Bool := false
  /-- [R477; 4; 0] STAGE, in DK -/ stage : Nat := 0
  /-- [R477; 2; 0] STATE, in DK -/ state : Nat := 0
  /-- [R477; 2; 0] RESULT, in DK -/ worst : Nat := 0
  /-- [R477; 2; 0] KIND, in DK -/ kind : Nat := 0
  /-- [R449; 64; 0] start of the stage -/ stageStart : Nat := 0
  /-- [R461; 64; 0] when the wait for the first charter ended -/ waitEnd : Nat := 0
  /-- [R452; 1; 0] the power-on start found NOT_READY: the chip stays STARTING -/ barred : Bool := false
  /-- [R448; 10; 0] stages that did not deliver -/ failed : BitVec 10 := 0
  /-- [R449; 1; 0] B3 waits for DONE -/ awaitsDone : Bool := false
  /-- [R472, R473; 16 KiB; the silicon's own; DC(7) all zero] OTP -/ otp : Tab Byte := []
  /-- [R449; 7; 0] records read as valid at B1 -/ valid : BitVec 7 := 0
  /-- [R472; 1; 0] FLAG unreadable -/ flagBad : Bool := false
  /-- [R478; 1; 0] FLAG_PENDING, in DK -/ flagPending : Bool := false
  /-- [R478; 1; 0] RECORD, in DK -/ recordUsed : Bool := false
  /-- [R450; 1; 0] the record has CLEAN set and no slice UNDONE -/ recordClean : Bool := false
  /-- [R478; 3; 0] SHUTDOWN, in DK -/ shutdown : Nat := 0
  /-- [R467; 64; 0] start of the shutdown's present step -/ shutStart : Nat := 0
  /-- [R456, R468; 64; 0] start of the slice that runs, or of the next -/ sliceStart : Nat := 0
  /-- [R467; 64; 0] start of the slices of step 5 -/ slicesBegan : Nat := 0
  /-- [R469; 8; 0] the slice budget in ms that the shutdown applies -/ budget : Nat := 0
  /-- [R467; 1; 0] every pending list, adjudication, replay and gate point emptied in time -/ clean : Bool := false
  /-- [R462, R479; 316; 0] the defect list -/ defect : BitVec 316 := 0
  /-- [R464; 316; 0] the DEFECT record as read at B1 -/ defectOtp : BitVec 316 := 0
  /-- [R463, R479; 256 x 8; empty] physical core of each logical core -/ map : List Nat := []
  /-- [R479; 1; 0] B8 has ended: the windows show -/ mapped : Bool := false
  /-- [R478; 8; 0] STACKS, in DK -/ stackBits : Byte := 0
  /-- [R480; 8; 0] TRAINED -/ trained : Byte := 0
  /-- [R480; 1; 0] VALID -/ memValid : Bool := false
  /-- [R450; 1; 0] B3 restored from a valid saved image -/ memUsed : Bool := false
  /-- [R480; 64 KiB; 0] PHL_BOOT_MEMSET -/ memset : Tab Byte := []
  /-- [R469; 2 x 316; UNDONE] slice results of this start or shutdown -/ slices : Tab Nat := []
  /-- [R449; 9; 0] slices run and failed at this stage -/ ran : Nat := 0
  /-- [R449; 9; 0] -/ ranFailed : Nat := 0
  /-- [R449; 8; 0] blocks added to the defect list at B5 -/ added : Nat := 0
  /-- [R432, R456; 1; 0] the key store is loaded -/ keyStore : Bool := false
  /-- [R432; 1; 1] the key store and session secrets are zeroised -/ zeroised : Bool := true
  /-- [R432; 64; none] zeroisation in progress since -/ zeroising : Option Nat := none
  /-- [R449; 1; 0] the chip control processor is released -/ ccp : Bool := false
  /-- [R55; 1; 0] the timebase is locked -/ locked : Bool := false
  /-- [R459; 14; 0x3FFF] the chip id in force, in DK -/ chip : ChipId := 0x3FFF
  /-- [R476; -; none] -/ otpJob : Option OtpJob := none
  /-- [R66; 64; 0] where the charter store lies -/ storeAt : DWord := 0
  /-- [R279; 9; none] the core flagged for a return -/ flagged : Option Nat := none
  /-- [R500; 8; 0x01] the instruction register of the test port -/ jtag : Byte := 0x01
deriving DecidableEq, Repr

/-- An out-of-band entry (R491). -/
structure Oob where
  /-- [R491; 16; -] -/ oseq : BitVec 16
  /-- [R492; 8; -] -/ kind : Nat
  /-- [R491; -; -] -/ body : List Byte
deriving DecidableEq, Repr

/-- The I3C target and the board store (R486 to R496, R512; in DK). -/
structure I3c where
  /-- [R512; 2; 0] MODE -/ mode : Nat := 0
  /-- [R512; 2; 0] ADDR_KIND -/ addrKind : Nat := 0
  /-- [R512; 7; 0] DYN_ADDR -/ dyn : BitVec 7 := 0
  /-- [R487; -; none] the response not yet read: (RESULT, DATA); RESULT 1 while it is not ready -/ resp : Option (Nat × List Byte) := none
  /-- [R487; 8; DC(5) 0] TAG of the last command, which the response echoes -/ tag : Byte := 0
  /-- [R491; 64 entries; empty] -/ queue : List Oob := []
  /-- [R491; 16; 0] next OSEQ -/ oseq : BitVec 16 := 0
  /-- [R490; 16; 0] entries dropped -/ dropped : Nat := 0
  /-- [R491; 1; 0] an in-band interrupt is outstanding -/ ibi : Bool := false
  /-- [R491; 64; 0] last interrupt or OOB_FETCH -/ lastFetch : Nat := 0
  /-- [R486; 1; 0] Hot-Join requested -/ hotJoin : Bool := false
  /-- [R493; -; none] the object needed: (object, since, bytes so far) -/ need : Option (Nat × Nat × Tab Byte) := none
  /-- [R493; -; empty] objects that a stage still needs, in the order in which it asks for them -/ wanted : List Nat := []
  /-- [R493; -; empty] objects received, by object -/ store : Tab (List Byte) := []
  /-- [R493; -; none] the object offered: (object, since, bytes) -/ offer : Option (Nat × Nat × List Byte) := none
  /-- [R493; -; empty] objects that wait for the offer outstanding to end -/ offers : List (Nat × List Byte) := []
  /-- [R483, R486; 2; DC(171) 0] pins I3C_ADDR[1:0], as the board straps them -/ strap : BitVec 2 := 0
  /-- [R490; 1; 0] power may be removed -/ powerOff : Bool := false
deriving DecidableEq, Repr

/-! ### What leaves the complex -/

/-- A frame on a domain's AVSBus port other than a write of the voltage (R284). -/
inductive AvsFrame where
  | version
  | rate (mvPerUs : Nat)
  | vout
  | current
  | status
deriving DecidableEq, Repr

/-- What the complex has sent (model's own: outputs are kept so that claims can speak of them; newest first). -/
structure Outputs where
  /-- [model; -; empty] gated items released: (gate point, item) -/ items : List (Nat × GItem) := []
  /-- [model; -; empty] sync messages outside the gate: (port, TYPE, message) -/ msgs : List (Nat × Nat × SyncMsg) := []
  /-- [model; -; empty] MSI-X vectors (R503) -/ msix : List Nat := []
  /-- [model; -; empty] notices (R387) and reports (R270) to the fabric manager: (FM_CHIP, FM_ADDR) and the bytes -/ mgmt : List ((ChipId × DWord) × List Byte) := []
  /-- [model; -; empty] AVSBus writes: (domain, mV) -/ avs : List (Nat × Nat) := []
  /-- [model; -; empty] other AVSBus frames: (domain, frame) -/ avsFrames : List (Nat × AvsFrame) := []
  /-- [model; -; empty] retired sync and barrier operations: (core, queue, status, value) -/ retired : List (Nat × Nat × Nat × Word) := []
  /-- [model; -; empty] NAKs sent: (port, 1 resetting or 2 not ready, retry-after) -/ naks : List (Nat × Nat × Nat) := []
  /-- [model; -; empty] what the trace port's lanes carry, by block period -/ trace : List LineItem := []
  /-- [model; -; empty] in-band interrupts: (KIND, OSEQ[7:0]) -/ ibis : List (Nat × Nat) := []
  /-- [model; -; empty] I3C responses read -/ responses : List (List Byte) := []
  /-- [model; -; empty] INB writes refused (R227): (core, source core, OPID) -/ refused : List (Nat × Nat × Nat) := []
  /-- [model; -; empty] what the target showed at each dynamic address assignment (R486): the address it answered on, its
  provisional ID and its BCR -/ identities : List (BitVec 7 × BitVec 48 × Byte) := []
  /-- [model; -; empty] the data register that each test instruction selected as it was loaded (R500): its bits and its value -/ testData : List (Nat × Nat) := []
  /-- [model; -; empty] requests that a port sent again (R388): (port, request) -/ retried : List (Nat × Nat) := []
deriving DecidableEq, Repr

/-- The state of the complex. -/
structure State where
  /-- [model; -; empty] commands that wait, first in first out -/ pending : List Instr := []
  /-- [R10, R55; 64; DC(5) 0] the timebase master -/ now : Nat := 0
  /-- [model; -; DC(3) 0] how many free values have been taken -/ free : Nat := 0
  /-- [R398; DK] -/ evt : Recorder := {}
  /-- [R382, R416; DK] -/ crash : Crash := {}
  /-- [R66, R510] -/ cfg : Cfg := {}
  /-- [R21; 256 stations] -/ stations : Tab Station := []
  /-- [R31, R196] -/ hz : Horizon := {}
  /-- [R306; running contexts, by id] -/ ctxs : Tab Ctx := []
  /-- [R222, R235] -/ adj : Adjudicator := {}
  /-- [R260, R272] -/ led : Ledger := {}
  /-- [R283] -/ tempo : Tempo := {}
  /-- [R300] -/ sync : Sync := {}
  /-- [R369] -/ rst : Ladder := {}
  /-- [R427] -/ tab : Tableau := {}
  /-- [R434] -/ trace : Trace := {}
  /-- [R448] -/ boot : Boot := {}
  /-- [R486] -/ i3c : I3c := {}
  /-- [R66, R224, R323; chip physical addresses; DC(6) zero] memory -/ mem : List Host.Cell := []
  /-- [R63; 1 per sector; 0] poison marks of memory sectors -/ memPoison : Tab Bool := []
  /-- [R424; 256 x 8; 0] PHL_ST_CNT 16 to 23 of each core: the core cycles, times 1,000, for which each cause has held or could have held, by 16 × core + cause -/ causes : Tab Nat := []
  /-- [R29, R55; 16; DC(5) 0] how many ticks each cluster's timebase replica is behind the master -/ replicas : Tab Nat := []
  /-- [model] -/ out : Outputs := {}
deriving DecidableEq, Repr

/-- The complex under power-on reset, before PWR_OK rises (R16, R448): every register at its Reset value. -/
def State.reset : State := {}

end Sys2Proof.Machine
end

