-- ==== Sys2Proof/Machine/Tab.lean ====
section
/-! DEFINITION. Sparse tables in one canonical form: memory, OTP and every indexed group of registers. -/

namespace Sys2Proof.Machine

variable {α : Type}

/-- The keys of a table rise strictly. -/
def rising : Tab α → Bool
  | [] => true
  | [_] => true
  | (a, _) :: (b, v) :: t => decide (a < b) && rising ((b, v) :: t)

/-- Put an entry before the first entry of a larger key. -/
def tinsert (k : Nat) (v : α) : Tab α → Tab α
  | [] => [(k, v)]
  | e :: t => if k < e.1 then (k, v) :: e :: t else e :: tinsert k v t

/-- Remove the entry of a key. -/
def tdel (k : Nat) (t : Tab α) : Tab α := t.filter (fun e => e.1 != k)

/-- The entry of a key, if one is listed. -/
def tfind (k : Nat) : Tab α → Option α
  | [] => none
  | (j, v) :: t => if j = k then some v else tfind k t

/-- List a value at a key. -/
def tset (k : Nat) (v : α) (t : Tab α) : Tab α := tinsert k v (tdel k t)

/-- What a key holds; `d` when nothing is listed. -/
def tget (d : α) (k : Nat) (t : Tab α) : α := (tfind k t).getD d

/-- Write a key; the value `d` is never listed. -/
def tput [DecidableEq α] (d : α) (k : Nat) (v : α) (t : Tab α) : Tab α :=
  if v = d then tdel k t else tset k v t

/-- The canonical form: keys rise, and no entry holds the default. -/
def twf [DecidableEq α] (d : α) (t : Tab α) : Bool := rising t && t.all (fun e => decide (e.2 ≠ d))

/-- The entries of successive values from a key on; the default is not listed. -/
def tlist [DecidableEq α] (d : α) (k : Nat) (vs : List α) : Tab α :=
  match vs with
  | [] => []
  | v :: r => if v = d then tlist d (k + 1) r else (k, v) :: tlist d (k + 1) r

/-- Write successive values from a key on. -/
def tputs [DecidableEq α] (d : α) (k : Nat) (vs : List α) (t : Tab α) : Tab α :=
  t.filter (fun e => e.1 < k) ++ tlist d k vs ++ t.filter (fun e => k + vs.length ≤ e.1)

/-- Read `n` successive values from a key on. -/
def tgets (d : α) (k n : Nat) (t : Tab α) : List α := (List.range n).map fun i => tget d (k + i) t

/-- The canonical form of memory: an unlisted byte reads as zero (log entry 6). -/
def Memory.wf (m : List Host.Cell) : Bool := twf (0 : Byte) m

end Sys2Proof.Machine
end

