-- ==== Sys2Proof/Machine/Ops.lean ====
section
/-! DEFINITION. The operations that every family shares: time, the parts of the state, memory, trace records, out-of-band entries, tableau triggers, and the recording of an event. -/

namespace Sys2Proof.Machine

/-! ### The parts of the state -/

def updEvt (f : Recorder → Recorder) (s : State) : State := { s with evt := f s.evt }
def updCrash (f : Crash → Crash) (s : State) : State := { s with crash := f s.crash }
def updCfg (f : Cfg → Cfg) (s : State) : State := { s with cfg := f s.cfg }
def updHz (f : Horizon → Horizon) (s : State) : State := { s with hz := f s.hz }
def updAdj (f : Adjudicator → Adjudicator) (s : State) : State := { s with adj := f s.adj }
def updLed (f : Ledger → Ledger) (s : State) : State := { s with led := f s.led }
def updTempo (f : Tempo → Tempo) (s : State) : State := { s with tempo := f s.tempo }
def updSync (f : Sync → Sync) (s : State) : State := { s with sync := f s.sync }
def updRst (f : Ladder → Ladder) (s : State) : State := { s with rst := f s.rst }
def updTab (f : Tableau → Tableau) (s : State) : State := { s with tab := f s.tab }
def updTrace (f : Trace → Trace) (s : State) : State := { s with trace := f s.trace }
def updBoot (f : Boot → Boot) (s : State) : State := { s with boot := f s.boot }
def updI3c (f : I3c → I3c) (s : State) : State := { s with i3c := f s.i3c }
def updOut (f : Outputs → Outputs) (s : State) : State := { s with out := f s.out }

/-- The station of a physical core (R21). -/
def station (s : State) (c : Nat) : Station := tget {} c s.stations
/-- Change the station of a physical core. -/
def updStation (c : Nat) (f : Station → Station) (s : State) : State :=
  { s with stations := tput {} c (f (station s c)) s.stations }

/-- The gate point (R35). -/
def gate (s : State) (g : Nat) : GatePoint := tget {} g s.hz.gates
def updGate (g : Nat) (f : GatePoint → GatePoint) (s : State) : State :=
  updHz (fun h => { h with gates := tput {} g (f (tget {} g h.gates)) h.gates }) s

/-- The tempo domain (R57). -/
def domain (s : State) (d : Nat) : Domain := tget {} d s.tempo.doms
def updDomain (d : Nat) (f : Domain → Domain) (s : State) : State :=
  updTempo (fun t => { t with doms := tput {} d (f (tget {} d t.doms)) t.doms }) s

/-- The object of a logical object number (R300). -/
def object (s : State) (o : Nat) : Obj := tget {} o s.sync.objs
def updObject (o : Nat) (f : Obj → Obj) (s : State) : State :=
  updSync (fun y => { y with objs := tput {} o (f (tget {} o y.objs)) y.objs }) s

/-- The barrier context (R352). -/
def barrier (s : State) (b : Nat) : Barrier := tget {} b s.sync.bars
def updBarrier (b : Nat) (f : Barrier → Barrier) (s : State) : State :=
  updSync (fun y => { y with bars := tput {} b (f (tget {} b y.bars)) y.bars }) s

/-- The fabric port (R458). -/
def fport (s : State) (p : Nat) : FPort := tget {} p s.sync.ports
def updFPort (p : Nat) (f : FPort → FPort) (s : State) : State :=
  updSync (fun y => { y with ports := tput {} p (f (tget {} p y.ports)) y.ports }) s

/-- The running context of an id (R306). -/
def runningCtx (s : State) (c : Nat) : Option Ctx := tfind c s.ctxs
def updCtx (c : Nat) (f : Ctx → Ctx) (s : State) : State :=
  match tfind c s.ctxs with
  | none => s
  | some x => { s with ctxs := tset c (f x) s.ctxs }

/-! ### Time, free values, memory -/

/-- R55: the timebase stands still before power-on reset is released, counts in steps of 10 ticks up to the lock, and
in single ticks from then on; it never steps back. -/
def timeAt (t : Nat) (s : State) : Nat :=
  if !s.boot.pwrOk then s.now else if s.boot.locked then max s.now t else max s.now (t / 10 * 10)

/-- The product of ns and MHz from an instant up to another, back through the frequencies of earlier spans. -/
def clockWork (a : Nat) : Nat → Nat → List (Nat × Nat) → Nat
  | b, f, [] => (b - a) * f
  | b, f, (u, g) :: r => if u ≤ a then (b - a) * f else (b - min u b) * f + clockWork a (min u b) g r

/-- R424: the cycles of a cluster's clock between two instants, times 1,000. -/
def clusterWork (s : State) (k a b : Nat) : Nat := clockWork a b (tget 1100 k s.tempo.freq) (tget [] k s.tempo.freqPast)

/-- The places of a core's causes: counters 16 to 23 by their last digit, and STOP, which holds a queue only if an operation is
ready there. -/
def causeKey (c k : Nat) : Nat := 16 * c + k

/-- R424, R425: whether a cause holds at a core (19, 20, 23, and 21 for a write that PIN holds), or could hold, where no command
shows whether an operation waits (16 to 18, 22, and STOP). A queue halted under R311 counts under none. -/
def causeHolds (s : State) (c : Nat) (t : Station) : Nat → Bool
  | 3 => t.queues.any fun q => q.2.wait.isSome && !q.2.halted
  | 4 => s.hz.gates.any fun g => g.2.waiting.any fun i => i.core.val == c && decide (2 ≤ i.queue.val)
  | 5 => s.stations.any fun x => x.2.heldWrites.any fun w => w.chip == s.boot.chip && w.core.val == c
  | 6 => t.notices != [] || t.cus.any fun u => u.inserted && u.retire.isNone
  | 7 => t.cus.any fun u => u.inserted && u.retire.isNone
  | 8 => t.stopReq
  | _ => t.tapReady

/-- R425: the causes of one core go on up to an instant. -/
def causesOf (s : State) (b : Nat) (l : Tab Nat) (x : Nat × Station) : Tab Nat :=
  (List.range 9).foldl (fun l k =>
    if causeHolds s x.1 x.2 k then tput 0 (causeKey x.1 k) (tget 0 (causeKey x.1 k) l + clusterWork s (x.1 / 16) s.now b) l else l) l

/-- R425: every core's causes go on up to an instant, and stand still while tableau holds the chip stopped. -/
def causesUntil (b : Nat) (s : State) : Tab Nat :=
  if b ≤ s.now ∨ s.tab.state ≠ 0 then s.causes else s.stations.foldl (causesOf s b) s.causes

/-- The timebase value at which a command happens (log entry 2), and the core cycles that have gone by (R424). -/
def atTime (t : Nat) (s : State) : State := { s with now := timeAt t s, causes := causesUntil (timeAt t s) s }

/-- R29: a cluster's timebase replica. -/
def replica (s : State) (cluster : Nat) : Nat := s.now - tget 0 cluster s.replicas

/-- R29: the timebase value that a unit stamps: a station's or a cluster reducer's comes from its cluster's replica. -/
def stampOf (s : State) (src : BitVec 16) : Nat :=
  match src.toNat / 4096 with
  | 0 => replica s (src.toNat % 256 / 16)
  | 1 => replica s (src.toNat % 16)
  | _ => s.now

/-- The next free value's number, and the state that has taken it (log entry 3). -/
def fresh (s : State) : Nat × State := (s.free, { s with free := s.free + 1 })

/-- The bytes of memory from an address on (R66). -/
def memRead (s : State) (a n : Nat) : List Byte := tgets 0 a n s.mem
/-- R63: the poison marks of the 64-byte sectors that bytes from an address on cover whole take a value; a sector that
they cover in part keeps its mark, or takes it. -/
def markSectors (mark : Bool) (a n : Nat) (t : Tab Bool) : Tab Bool :=
  if mark then tputs false (a / 64) (List.replicate ((a + n + 63) / 64 - a / 64) true) t
  else tputs false ((a + 63) / 64) (List.replicate ((a + n) / 64 - (a + 63) / 64) false) t

/-- Write bytes with their poison mark to memory from an address on. -/
def memPut (poison : Bool) (a : Nat) (bs : List Byte) (s : State) : State :=
  { s with mem := tputs 0 a bs s.mem, memPoison := markSectors poison a bs.length s.memPoison }

/-- Write bytes to memory from an address on. -/
def memWrite (a : Nat) (bs : List Byte) (s : State) : State := memPut false a bs s

/-- R224: bytes from an address on meet the capsule region, once the caller has placed it. -/
def inCapsules (s : State) (a n : Nat) : Bool :=
  s.adj.capsuleBase != 0 && decide (a < (s.adj.capsuleBase.toNat + 1) * 2 ^ 29) && decide (s.adj.capsuleBase.toNat * 2 ^ 29 < a + n)

/-- R224: a write of any agent but the capsule tees: the capsule region does not take it. -/
def memStore (poison : Bool) (a : Nat) (bs : List Byte) (s : State) : State :=
  if inCapsules s a bs.length then s else memPut poison a bs s

/-! ### Units (R401) and requesters (R81, R414) -/

def srcStation (c : Nat) : BitVec 16 := BitVec.ofNat 16 c
def srcCaller (b : Nat) : BitVec 16 := BitVec.ofNat 16 (0x2000 + b)
def srcGate (g : Nat) : BitVec 16 := BitVec.ofNat 16 (0x3000 + g)
def srcPort (p : Nat) : BitVec 16 := BitVec.ofNat 16 (0x4000 + p)
def srcDk (b : Nat) : BitVec 16 := BitVec.ofNat 16 (0x6000 + b)
def srcAvs (d : Nat) : BitVec 16 := BitVec.ofNat 16 (0x7000 + d)

/-- The code of a requester: 1 to 4 under R81, 5 under R414. -/
def reqCode : Requester → Nat
  | .host => 1 | .hostG1 => 2 | .ccp => 3 | .caller => 4 | .bc => 5

/-- One value for each requester (R506): the key of a (register, requester) pair. -/
def perReq (reg : Nat) (r : Requester) : Nat := reg * 8 + reqCode r

/-- Set a register's RESULT for a requester (R506). -/
def setResult (reg : Nat) (r : Requester) (v : Nat) : State → State :=
  updCfg fun c => { c with results := tput 0 (perReq reg r) v c.results }

/-! ### The code table (R406) -/

/-- R406: (code, severity, limited). VENDOR codes stand apart. -/
def codeTable : List (Nat × Nat × Bool) :=
  [(0x0001, 1, false), (0x0002, 0, false), (0x0003, 0, false), (0x0004, 2, true), (0x0005, 2, true),
   (0x1001, 3, true), (0x1002, 2, true), (0x1003, 3, true), (0x1010, 2, true), (0x1011, 2, true),
   (0x1012, 2, true), (0x1013, 2, true), (0x1014, 2, true), (0x1015, 3, true), (0x1016, 1, true),
   (0x1020, 0, true), (0x1021, 2, true), (0x1022, 2, true), (0x2001, 3, true), (0x2002, 3, true),
   (0x2003, 2, true), (0x2004, 0, true), (0x2005, 1, true), (0x2006, 3, true), (0x2010, 3, true),
   (0x2011, 1, true), (0x2012, 2, true), (0x3001, 4, false), (0x3002, 4, false), (0x3003, 0, true),
   (0x3004, 3, false), (0x4001, 0, true), (0x4002, 1, true), (0x4003, 2, false), (0x4004, 3, false)] ++
  [(0x5001, 2, true), (0x5002, 2, true), (0x5003, 2, true), (0x5004, 1, true), (0x5005, 2, true),
   (0x5006, 2, true), (0x5007, 0, true), (0x5008, 0, true), (0x6001, 2, true), (0x6002, 1, true),
   (0x6003, 2, true), (0x6004, 2, true), (0x6005, 2, true), (0x7001, 3, true), (0x7002, 4, false),
   (0x7003, 4, false), (0x7004, 1, true), (0x7005, 1, true), (0x7006, 1, true), (0x7007, 2, true),
   (0x8001, 0, false), (0x8002, 2, true), (0x9001, 3, true), (0x9002, 1, false), (0xA001, 0, false),
   (0xA002, 1, true), (0xA003, 0, true), (0xA004, 1, false), (0xA005, 2, true), (0xA006, 0, false),
   (0xB001, 2, true), (0xC001, 3, true), (0xD001, 2, true), (0xE001, 1, true), (0xE002, 1, false)]

/-- Severity (R399) and whether the code is limited (R406); none for a reserved code. -/
def codeInfo (c : BitVec 16) : Option (Nat × Bool) :=
  if 0xF000 ≤ c.toNat ∧ c.toNat ≤ 0xF03F then some ((Config.vendorSev c.toNat).val, true)
  else (codeTable.find? (·.1 = c.toNat)).map (·.2)

def severity (c : BitVec 16) : Nat := ((codeInfo c).map (·.1)).getD 0
def limited (c : BitVec 16) : Bool := ((codeInfo c).map (·.2)).getD false

/-- R412: the index of a code's occurrence counter. -/
def countIndex (c : BitVec 16) : Nat := c.toNat / 4096 * 64 + c.toNat % 64

/-- The codes that a bucket limits (R406). -/
def limitedCodes : List Nat :=
  (codeTable.filter (·.2.2)).map (·.1) ++ (List.range 64).map (0xF000 + ·)

/-- R408: depth and refill interval in ns of a code's bucket; R410: a U code's virtual bucket. -/
def bucketParams (lims : List Limit) (c : BitVec 16) : Nat × Nat :=
  if limited c then
    match lims.find? (·.code = c.toNat) with
    | some l => (l.depth, l.refillUs * 1000)
    | none =>
      match lims.find? (·.code = 0) with
      | some l => (l.depth, l.refillUs * 1000)
      | none => (16, 250000)
  else (1, 250000)

/-! ### The record's layout (R398) -/

/-- R398: the 32 bytes of a record; FORWARDED stands only in the out-of-band copy (R405, log entry 11). -/
def recordBytes (forwarded : Bool) (r : Rec) : List Byte :=
  toLe 8 r.ev.time ++ toLe 4 (r.pos % 2 ^ 32) ++ toLe 2 r.ev.code.toNat ++
  [BitVec.ofNat 8 (severity r.ev.code + 8 * (r.ev.code.toNat / 4096)),
   BitVec.ofNat 8 (b2n r.damaged + 2 * b2n r.ev.coarse + 4 * b2n r.ev.deferred + 8 * b2n forwarded)] ++
  toLe 2 r.ev.source.toNat ++ [BitVec.ofNat 8 (r.pos / 2 ^ 32), 0] ++
  toLe 4 r.ev.p1.toNat ++ toLe 4 r.ev.p2.toNat ++ toLe 4 r.ev.p3.toNat

/-- R60, R467: the caller does nothing: its domain is in reset, or the chip has halted at the end of a shutdown. -/
def callerOff (s : State) : Bool := s.rst.callerIn || s.boot.shutdown == 4

/-! ### Trace records (R434 to R440) -/

/-- The conditions under which the port comes up (R438): PLL locked, capture device ready, caller not in reset. -/
def portReady (s : State) : Bool := s.trace.pll && s.trace.ready && !callerOff s

/-- R439: the first block period, of 66 bits at 28 Gb/s or 33/14 ns, that begins at a time or after it (log entry 146). -/
def periodAt (now : Nat) : Nat := (14 * now + 32) / 33

/-- The port is up (R438): R498: from the end of the 8 ALIGN periods on. -/
def portUp (s : State) : Bool := portReady s && decide (33 * s.trace.line.upFrom ≤ 14 * s.now)

/-- Units of 32 bytes in the buffer (R447). -/
def bufUnits (t : Trace) : Nat := (t.wr + 2 ^ 19 - t.rd) % 2 ^ 19

/-- Buffer fill in KiB (R446). -/
def fillKib (t : Trace) : Nat := bufUnits t / 32

/-- PHL_TRACE_CTL.DEST (R446). -/
def traceDest (t : Trace) : Nat := bits t.ctl.toNat 30 29

/-- R438: whether records go to the port; else they go to the buffer. -/
def routeIsPort (s : State) : Bool :=
  match traceDest s.trace with
  | 0 => true
  | 2 => portUp s && !s.trace.flushing && bufUnits s.trace == 0
  | _ => false

/-- A unit of 32 bytes as a number. -/
def unit256 (bs : List Byte) : BitVec 256 := BitVec.ofNat 256 (leNat (padTo 32 bs))

/-- R434: the units of a trace record: a 16-byte header, and what follows it in whole units. -/
def traceUnits (type : Nat) (source : BitVec 16) (time : Nat) (tseq : Word) (units : Nat) (body : List Byte) :
    List (BitVec 256) :=
  let all := toLe 8 time ++ [BitVec.ofNat 8 type, BitVec.ofNat 8 (units - 1)] ++ toLe 2 source.toNat ++
    toLe 4 tseq.toNat ++ body
  (List.range units).map fun i => unit256 (slice (32 * i) 32 all)

/-- Put units into the buffer (R440, R447). -/
def bufPut (us : List (BitVec 256)) (t : Trace) : Trace :=
  us.foldl (fun t u => { t with buf := tput 0 (t.wr % 2 ^ 18) u t.buf, wr := (t.wr + 1) % 2 ^ 19 }) t

/-! ### The port's lanes (R439, R498) -/

/-- R434: TIME and TSEQ of a record, from its first unit. -/
def unitTime (us : List (BitVec 256)) : Nat := (us.getD 0 0).toNat % 2 ^ 64
def unitTseq (us : List (BitVec 256)) : Word := BitVec.ofNat 32 ((us.getD 0 0).toNat / 2 ^ 96)

/-- The first period of an item. -/
def LineItem.start : LineItem → Nat
  | .aligns p _ _ _ _ => p
  | .record p _ => p

/-- The first period after an item. -/
def LineItem.finish : LineItem → Nat
  | .aligns p n d _ _ => p + d * (n - 1) + 1
  | .record p us => p + us.length

/-- R439: ALIGN periods enter the line. -/
def lineAligns (p n d : Nat) (tseq : Word) (s : State) : State :=
  let m := s.trace.line.marker
  updTrace (fun t => { t with line := { t.line with
      next := p + d * (n - 1) + 1, aligned := p + d * (n - 1), marker := m + BitVec.ofNat 16 n } })
    (updOut (fun o => { o with trace := .aligns p n d m tseq :: o.trace }) s)

/-- R439: the ALIGNs of an idle line up to a period: one every 4,096 periods. -/
def lineIdle (p : Nat) (tseq : Word) (s : State) : State :=
  let l := s.trace.line
  let n := (p - 1 - l.aligned) / 4096
  if n = 0 then s else lineAligns (l.aligned + 4096) n 4096 tseq s

/-- R439: a record enters the line at the first free period from `p` on, behind an ALIGN where one falls due before
the record would end. -/
def linePut (p : Nat) (us : List (BitVec 256)) (s : State) : State :=
  let q := unitTseq us
  let p := max p s.trace.line.next
  let s := lineIdle p q s
  let due := decide (s.trace.line.aligned + 4096 < p + us.length)
  let s := if due then lineAligns p 1 1 q s else s
  let p := p + b2n due
  updTrace (fun t => { t with line := { t.line with next := p + us.length } })
    (updOut (fun o => { o with trace := .record p us :: o.trace }) s)

/-- R439: units in the staging FIFO: those whose periods have not begun. -/
def stagedUnits (s : State) : Nat :=
  let c := periodAt s.now
  ((s.out.trace.takeWhile fun x => decide (c < x.finish)).map fun x => match x with
    | .record p us => min us.length (p + us.length - c)
    | .aligns .. => 0).sum

/-- Whether a route has room for a number of units: a port that is down takes none; the staging FIFO holds 64 KiB (R439). -/
def routeRoom (s : State) (n : Nat) : Bool :=
  if routeIsPort s then portUp s && decide (stagedUnits s + n ≤ 2048) else decide (bufUnits s.trace + n ≤ 2 ^ 18)

/-- R438: under AUTO, when the port is up and the buffer is not empty, the buffer is flushed first. -/
def startFlush (s : State) : State :=
  updTrace (fun t =>
    let f := traceDest t == 2 && portReady s && bufUnits t != 0
    { t with flushing := f, line := { t.line with paced := if f && !t.flushing then periodAt s.now else t.line.paced } }) s

/-- Send units on the present route. What enters the buffer in the 8 ALIGN periods before the port is up is flushed (R438). -/
def routeSend (us : List (BitVec 256)) (s : State) : State :=
  if routeIsPort s then linePut (periodAt s.now) us s
  else if traceDest s.trace == 2 && portReady s then startFlush (updTrace (bufPut us) s)
  else updTrace (bufPut us) s

/-- R440: the drops of a route that wait for their GAP. -/
def dropsOn (port : Bool) (t : Trace) : Option (Nat × Nat × Word × Nat) := if port then t.pendingPort else t.pending

def setDrops (port : Bool) (d : Option (Nat × Nat × Word × Nat)) (t : Trace) : Trace :=
  if port then { t with pendingPort := d } else { t with pending := d }

/-- R440: a dropped record joins the drops of its route. -/
def traceDrop (port : Bool) (time : Nat) (tseq : Word) (s : State) : State :=
  updTrace (fun t => setDrops port (match dropsOn port t with
      | none => some (1, time, tseq, fillKib t)
      | some (n, a, b, c) => some (n + 1, a, b, c)) { t with drops := satAdd 0xFFFFFFFF t.drops 1 }) s

/-- R434, R440: generate a record for a route, which `room` and `send` serve; answers the TRACE_DROP parameters when a GAP went
ahead of it. -/
def traceVia (port : Bool) (room : Nat → Bool) (send : List (BitVec 256) → State → State) (type : Nat) (source : BitVec 16)
    (time units : Nat) (body : List Byte) (s : State) : State × Option (Word × Word × Word) :=
  let q := s.trace.tseq
  match dropsOn port s.trace with
  | none =>
    let s := updTrace (fun t => { t with tseq := q + 1 }) s
    if room units then (send (traceUnits type source time q units body) s, none)
    else (traceDrop port time q s, none)
  | some (n, ft, fq, fill) =>
    if room (units + 1) then
      let gap := traceUnits 0x09 (srcCaller 12) s.now q 1 (toLe 4 n ++ toLe 8 ft ++ toLe 4 fq.toNat)
      let s := updTrace (fun t => setDrops port none { t with tseq := q + 2 }) s
      (send (traceUnits type source time (q + 1) units body) (send gap s),
       some (BitVec.ofNat 32 n, BitVec.ofNat 32 ft, BitVec.ofNat 32 fill))
    else (traceDrop port time q (updTrace (fun t => { t with tseq := q + 1 }) s), none)

/-- R434, R438: generate a record for the present route. -/
def traceEmit (type : Nat) (source : BitVec 16) (time units : Nat) (body : List Byte) (s : State) :
    State × Option (Word × Word × Word) :=
  traceVia (routeIsPort s) (routeRoom s) routeSend type source time units body s

/-- R437: a type is generated, while the caller is not in reset, when ENABLE and its bit of ENABLES are set. -/
def traceOn (s : State) (type : Nat) : Bool := bit s.trace.ctl.toNat 31 && bit s.trace.ctl.toNat type && !callerOff s

/-- R498: 8 ALIGN periods bring the port up. -/
def linesUp (s : State) : State :=
  if !portReady s then s
  else
    let p := max (periodAt s.now) s.trace.line.next
    let s := lineAligns p 8 1 s.trace.tseq (lineIdle p s.trace.tseq s)
    updTrace (fun t => { t with line := { t.line with upFrom := p + 8 } }) s

/-- R449: the lanes run from the lock of the trace PLL on; the period of the lock counts as aligned. -/
def linesLock (pll : Bool) (s : State) : State :=
  let s := updTrace (fun t => { t with pll := pll }) s
  if pll then
    let p := max (periodAt s.now) s.trace.line.next
    linesUp (updTrace (fun t => { t with line := { t.line with next := p, aligned := p } }) s)
  else s

/-- R440: records are dropped, oldest first. -/
def traceDropAll : List LineItem → State → State
  | [], s => s
  | .record _ us :: r, s => traceDropAll r (traceDrop true (unitTime us) (unitTseq us) s)
  | .aligns .. :: r, s => traceDropAll r s

/-- R498: at the deassertion of TRACE_RDY the record in progress completes, and the records in the staging FIFO are dropped. -/
def linesDown (s : State) : State :=
  let c := periodAt s.now
  let staged := s.out.trace.takeWhile fun x => decide (c ≤ x.start)
  let left := s.out.trace.dropWhile fun x => decide (c ≤ x.start)
  let last := match left.find? (fun x => match x with | .aligns .. => true | .record .. => false) with
    | some (.aligns p n d m _) => (p + d * (n - 1), m + BitVec.ofNat 16 n)
    | _ => (s.trace.line.aligned, s.trace.line.marker)
  let s := updTrace (fun t => { t with line := { t.line with
      next := (left.head?.map (·.finish)).getD 0, aligned := last.1, marker := last.2 } })
    (updOut (fun o => { o with trace := left }) s)
  traceDropAll staged.reverse s

/-- R437: PHL_TRACE_CORES names the cores whose OP, VERDICT and COUNTERS records are made. -/
def traceCore (s : State) (c : Nat) : Bool := s.trace.cores.toNat.testBit c

/-! ### Outputs -/

/-- R503: an MSI-X vector. -/
def msix (v : Nat) : State → State := updOut fun o => { o with msix := v :: o.msix }

/-! ### The out-of-band queue (R491, R492) -/

/-- R491: raise an in-band interrupt for the head entry. -/
def raiseIbi (s : State) : State :=
  match s.i3c.queue with
  | [] => s
  | h :: _ => { s with
      i3c := { s.i3c with ibi := true, lastFetch := s.now }
      out := { s.out with ibis := (h.kind, h.oseq.toNat % 256) :: s.out.ibis } }

/-- Remove the first entry that satisfies a test. -/
def dropFirst {α : Type} (p : α → Bool) : List α → List α
  | [] => []
  | a :: t => if p a then t else a :: dropFirst p t

/-- R492: the queue with room for an entry of a kind, what was lost, and whether the entry is taken. -/
def oobRoom (q : List Oob) (kind : Nat) : List Oob × Nat × Bool :=
  let q := if 3 ≤ kind then q.filter (fun e => e.kind != kind) else q
  if q.length < 64 then (q, 0, true)
  else if q.any (·.kind == 1) then (dropFirst (·.kind == 1) q, 1, true)
  else if kind = 1 then (q, 1, false)
  else if q.any (·.kind == 2) then (dropFirst (·.kind == 2) q, 1, true)
  else (q, 1, false)

/-- R491: add an entry to the out-of-band queue. -/
def oobAdd (kind : Nat) (body : List Byte) (s : State) : State :=
  match oobRoom s.i3c.queue kind with
  | (q, lost, true) =>
    let e : Oob := { oseq := s.i3c.oseq, kind := kind, body := body }
    let s := updI3c (fun i => { i with queue := q ++ [e], oseq := i.oseq + 1, dropped := satAdd 0xFFFF i.dropped lost }) s
    if s.i3c.ibi then s else raiseIbi s
  | (q, lost, false) =>
    updI3c (fun i => { i with queue := q, dropped := satAdd 0xFFFF i.dropped lost }) s

/-! ### Tableau triggers (R427, R430) -/

/-- R427: the caller accepts a trigger; R430: a further one is only counted; R471: none is accepted during a shutdown. -/
def tableauTrigger (source : Nat) (s : State) : State :=
  if callerOff s ∨ s.boot.shutdown ≠ 0 then s
  else if s.tab.state = 0 then
    updTab (fun b => { b with state := 1, source := source, repeats := 0, cores := 0, tt := s.now, stopOut := true }) s
  else if s.tab.state ≤ 2 then updTab (fun b => { b with repeats := satAdd 255 b.repeats 1 }) s
  else s

/-- R429: tableau holds the chip stopped. -/
def tableauHolds (s : State) : Bool := s.tab.state != 0

/-- R432: scan shifting destroys what the stations hold: they send and decide nothing more. -/
def scanned (s : State) : Bool := decide (4 ≤ s.tab.state)

/-! ### Recording an event (R404 to R412) -/

/-- The planes of the data path, of configuration and of management (R36). -/
inductive Plane where
  | data | control | mgmt
deriving DecidableEq, Repr

/-- R36: the plane on which a unit sends its records (log entry 9). -/
def planeOf (src : BitVec 16) : Plane :=
  match src.toNat / 4096 with
  | 2 =>
    match src.toNat % 256 with
    | 1 => .data | 2 => .data | 3 => .data | 7 => .data | 8 => .data | 9 => .data
    | 10 => .control | 13 => .control
    | _ => .mgmt
  | 6 => .mgmt
  | 7 => .mgmt
  | _ => .data

def bucketOf (e : Recorder) (c : BitVec 16) : Bucket :=
  tget { tokens := (bucketParams e.limits c).1 } c.toNat e.buckets

def updBucket (c : BitVec 16) (f : Bucket → Bucket) (e : Recorder) : Recorder :=
  let d : Bucket := { tokens := (bucketParams e.limits c).1 }
  { e with buckets := tput d c.toNat (f (tget d c.toNat e.buckets)) e.buckets }

/-- R411: a bucket under new limits: it keeps its tokens up to the new depth, and the next comes one new interval on. A bucket
that is full then still gets one for the summary that it owes (R410). -/
def rebucket (now : Nat) (p : Nat × Nat) (b : Bucket) : Bucket :=
  let n := min p.1 b.tokens
  { b with tokens := n, next := if n < p.1 ∨ 0 < b.suppressed then some (now + p.2) else none }

/-- R411: new EVENT_LIMITS take effect. -/
def setLimits (now : Nat) (lims : List Limit) (e : Recorder) : Recorder :=
  let bs := limitedCodes.foldl (fun t k =>
    let c := BitVec.ofNat 16 k
    let p := bucketParams lims c
    tput { tokens := p.1 } k (rebucket now p (bucketOf e c)) t) e.buckets
  { e with limits := lims, buckets := bs }

/-- R412: one more occurrence. -/
def countUp (c : BitVec 16) (e : Recorder) : Recorder :=
  { e with counts := tput 0 (countIndex c) (satAdd 0xFFFFFF (tget 0 (countIndex c) e.counts) 1) e.counts }

/-- R409: take a token, and start the refill when the bucket first falls below its depth. -/
def takeToken (now interval : Nat) (b : Bucket) : Bucket :=
  { b with tokens := b.tokens - 1, next := some (b.next.getD (now + interval)) }

/-- R409, R410: count a suppressed occurrence. -/
def suppress (time : Nat) (byFifo : Bool) (b : Bucket) : Bucket :=
  { b with
    suppressed := b.suppressed + 1
    first := if b.suppressed = 0 then time else b.first
    byBucket := b.byBucket || !byFifo
    byFifo := b.byFifo || byFifo }

/-- R36, R404: a record enters its plane's FIFO. A full data-plane FIFO refuses it, and a U code then takes the
token of its virtual bucket (R410); a control-plane or management-plane sender waits. -/
def fifoPut (now : Nat) (ev : Ev) (e : Recorder) : Recorder :=
  match planeOf ev.source with
  | .data =>
    if e.fifoData.length < 256 then { e with fifoData := e.fifoData ++ [ev] }
    else
      updBucket ev.code (fun b =>
        let b := if limited ev.code || b.tokens = 0 then b else takeToken now (bucketParams e.limits ev.code).2 b
        suppress ev.time true b) e
  | .control =>
    if e.fifoCtl.length < 256 ∧ e.waitCtl = [] ∧ e.clearing = none then { e with fifoCtl := e.fifoCtl ++ [ev] }
    else { e with waitCtl := e.waitCtl ++ [ev] }
  | .mgmt =>
    if e.fifoMgmt.length < 256 ∧ e.waitMgmt = [] ∧ e.clearing = none then { e with fifoMgmt := e.fifoMgmt ++ [ev] }
    else { e with waitMgmt := e.waitMgmt ++ [ev] }

/-- R409: an occurrence takes a token and is recorded, or is suppressed; a U code is always recorded. -/
def admitEv (now : Nat) (ev : Ev) (e : Recorder) : Recorder :=
  if limited ev.code then
    if (bucketOf e ev.code).tokens = 0 then updBucket ev.code (suppress ev.time false) e
    else fifoPut now ev (updBucket ev.code (takeToken now (bucketParams e.limits ev.code).2) e)
  else fifoPut now ev e

/-- R427: the armed code triggers tableau and clears EVT. -/
def eventTrigger (code : BitVec 16) (s : State) : State :=
  if s.tab.arm.getLsbD 16 ∧ s.tab.arm.toNat % 65536 = code.toNat ∧ !callerOff s then
    tableauTrigger 6 (updTab (fun b => { b with arm := b.arm &&& ~~~(0x10000 : Word) }) s)
  else s

/-- An occurrence with everything given: counted (R412), limited (R409), and a tableau trigger (R427). -/
def occurEv (ev : Ev) (s : State) : State :=
  eventTrigger ev.code (updEvt (fun e => admitEv s.now ev (countUp ev.code e)) s)

/-- The event that a unit records now: COARSE before the timebase lock (R400). -/
def mkEv (s : State) (code : BitVec 16) (src : BitVec 16) (p1 p2 p3 : Word) (time : Nat) (deferred : Bool) : Ev :=
  { time := time, code := code, source := src, p1 := p1, p2 := p2, p3 := p3, coarse := !s.boot.locked, deferred := deferred }

/-- A unit records an event whose TIME is that of its own timebase (R29). -/
def occur (code : BitVec 16) (src : BitVec 16) (p1 p2 p3 : Nat) (s : State) : State :=
  occurEv (mkEv s code src (BitVec.ofNat 32 p1) (BitVec.ofNat 32 p2) (BitVec.ofNat 32 p3) (stampOf s src) false) s

/-- A record made when the caller restarts, of an earlier happening (R400). -/
def occurDeferred (code : BitVec 16) (src : BitVec 16) (p1 p2 p3 : Nat) (s : State) : State :=
  occurEv (mkEv s code src (BitVec.ofNat 32 p1) (BitVec.ofNat 32 p2) (BitVec.ofNat 32 p3) s.now true) s

/-- R440: TRACE_DROP is recorded when a GAP went out. -/
def noteGap (d : Option (Word × Word × Word)) (s : State) : State :=
  match d with
  | none => s
  | some (a, b, c) => occurEv (mkEv s 0xE001 (srcCaller 12) a b c s.now false) s

/-- Generate a trace record that its type's bit enables, and record TRACE_DROP when a GAP went out (R440). -/
def traceAlways (type : Nat) (source : BitVec 16) (time units : Nat) (body : List Byte) (s : State) : State :=
  let x := traceEmit type source time units body s
  noteGap x.2 x.1

def traceRec (type : Nat) (source : BitVec 16) (time units : Nat) (body : List Byte) (s : State) : State :=
  if traceOn s type then traceAlways type source time units body s else s

end Sys2Proof.Machine
end

