-- ==== Sys2Proof/Machine/Operands.lean ====
section
/-! DEFINITION. How commands name things: logical and physical cores, contexts, objects, parties, and the fields of the figures' and stations' words. -/

namespace Sys2Proof.Machine

/-! ### Cores (R14, R300, R463) -/

/-- The physical core of a logical number. -/
def physOf (s : State) (l : Nat) : Option Nat := s.boot.map[l]?

/-- The logical number of a physical core; a core on the defect list has none. -/
def logOf (s : State) (p : Nat) : Option Nat :=
  let i := s.boot.map.findIdx (· == p)
  if i < s.boot.map.length then some i else none

/-- A core in service bears a logical number. -/
def inService (s : State) (p : Nat) : Bool := (logOf s p).isSome

/-- Cores in service. -/
def serviceCores (s : State) : List Nat := s.boot.map

/-- A core in reset (R60). -/
def coreInReset (s : State) (p : Nat) : Bool := s.rst.coresIn.toNat.testBit p

def clusterInReset (s : State) (c : Nat) : Bool := s.rst.clustersIn.toNat.testBit c

/-- R304: the context whose mask holds the core, or 0. -/
def ctxOfCore (s : State) (p : Nat) : Nat :=
  match s.cfg.active, logOf s p with
  | some ch, some l =>
    match ch.partition.find? (fun e => e.2.toNat.testBit l) with
    | some e => e.1.toNat
    | none => 0
  | _, _ => 0

/-- R304: the mask of logical cores of a context, if the partition has it. -/
def ctxMask (s : State) (c : Nat) : Option (BitVec 256) :=
  match s.cfg.active with
  | none => none
  | some ch => (ch.partition.find? (fun e => e.1.toNat == c)).map (·.2)

/-- The physical cores that bear a logical number of a mask. -/
def maskCores (s : State) (m : BitVec 256) : List Nat :=
  (List.range 256).filterMap fun l => if m.toNat.testBit l then physOf s l else none

/-- The physical cores of a context. -/
def ctxCores (s : State) (c : Nat) : List Nat := ((ctxMask s c).map (maskCores s)).getD []

/-- The core through which the caller sends for a context: its lowest (log entry 12). -/
def ctxHome (s : State) (c : Nat) : Core := Fin.ofNat 256 ((ctxCores s c).headD 0)

/-! ### Names and parties (R301, R302, R351) -/

/-- R301: the global name of an object. -/
def objName (chip : ChipId) (o : Nat) : Word := BitVec.ofNat 32 (chip.toNat * 8192 + o % 8192)
def nameObject (n : Word) : Nat := n.toNat % 8192
def nameChip (n : Word) : ChipId := BitVec.ofNat 14 (n.toNat / 8192)
/-- R301: bits [31:27] are zero. -/
def nameOk (n : Word) : Bool := decide (n.toNat < 2 ^ 27)
def isLocal (s : State) (n : Word) : Bool := nameChip n == s.boot.chip

/-- R351: barrier names. -/
def barName (chip : ChipId) (b : Nat) : Word := BitVec.ofNat 32 (chip.toNat * 256 + b % 256)
def barChip (n : Word) : ChipId := BitVec.ofNat 14 (n.toNat / 256)
def barIndex (n : Word) : Nat := n.toNat % 256

/-- R302: a party. -/
def party (chip : ChipId) (core queue slot kind : Nat) : Word :=
  BitVec.ofNat 32 (chip.toNat + core % 256 * 2 ^ 14 + queue % 4 * 2 ^ 22 + slot % 16 * 2 ^ 24 + kind % 16 * 2 ^ 28)
def partyChip (p : Word) : ChipId := BitVec.ofNat 14 p.toNat
def partyCore (p : Word) : Nat := bits p.toNat 21 14
def partyQueue (p : Word) : Nat := bits p.toNat 23 22
def partySlot (p : Word) : Nat := bits p.toNat 27 24
def partyKind (p : Word) : Nat := bits p.toNat 31 28

/-- R302: the caller as a party. -/
def callerParty (s : State) : Word := party s.boot.chip 0 0 0 1

/-- R302: a queue as a party, without and with its watch slot. -/
def queueParty (s : State) (c q : Nat) : Word := party s.boot.chip c q 0 0
def waiterParty (s : State) (c q slot : Nat) : Word := party s.boot.chip c q slot 0

/-- R300: the physical core whose bank holds an object; none when the number names no object. -/
def bankCore (s : State) (o : Nat) : Option Nat := physOf s (o / 32)

/-- The station that records what happens at an object's bank. -/
def bankSrc (s : State) (o : Nat) : BitVec 16 := srcStation ((bankCore s o).getD 0)

/-- Every adjudication that has a slot or waits for one. -/
def openAdjs (s : State) : List Adj := s.adj.slots.map (·.2) ++ s.adj.queue

/-- R90: the figures that re-executions of open adjudications need, and whose images stations keep. -/
def heldFigs (s : State) : List Figure := ((openAdjs s).map (·.figs)).flatten

/-- R88, R90: a retiring figure leaves its slot once no CU and no open adjudication that uses it is left, and its banks go
with it. -/
def sweepSlots (keep : List Figure) (t : Station) : Station :=
  let slots := t.slots.filter fun x => x.2.state != 3 || (t.cus.any fun u => u.attached.contains x.1) || keep.contains x.2.fig
  { t with slots := slots, banks := t.banks.filter fun b => slots.any fun x => x.1 == b.slot }

/-! ### Core cycles (R11) -/

/-- R11: the cycles of a core's clock between two instants, each at the frequency in force when it elapses (log entry 22). -/
def coreCycles (s : State) (c a b : Nat) : Nat :=
  clockWork a b (tget 1100 (c / 16) s.tempo.freq) (tget [] (c / 16) s.tempo.freqPast) / 1000

/-! ### Queues -/

/-- R369: a level's scope holds a core's queue. -/
def inScope (l : Level) (c q : Nat) : Bool :=
  match l.level with
  | 0 => l.index == c && l.queue == q
  | 1 => l.index == c
  | 2 => l.index == c / 16
  | _ => true

/-- R375 step 5: a reset in progress has stopped a queue from issuing. -/
def issueStopped (s : State) (c q : Nat) : Bool := s.rst.active.any fun l => decide (2 ≤ l.phase) && inScope l c q

def queueOf (s : State) (c q : Nat) : QState := tget {} q (station s c).queues
def updQueue (c q : Nat) (f : QState → QState) : State → State :=
  updStation c fun t => { t with queues := tput {} q (f (tget {} q t.queues)) t.queues }

/-- R117: STOP holds an operation whose first operand read does not come before it. -/
def stopHolds (t : Station) (start : Nat) : Bool := t.stopReq && decide (t.stopAt ≤ start)

/-- R229: an operation that the caller inserts is due in a queue, or occupies it. -/
def insertionHolds (t : Station) (q : Nat) : Bool :=
  t.notices.any (fun n => n.queue.val == q) || t.cus.any fun u => u.inserted && u.op.queue.val == q && u.retire.isNone

/-- R428: tableau keeps a core from starting an operation at an instant: the core halts within 16 of its cycles after Tt, and
its station processes what it sent before. -/
def tableauStops (s : State) (c start : Nat) : Bool := tableauHolds s && decide (16 < coreCycles s c s.tab.tt start)

/-- A queue can start an operation at an instant: its core is in service and out of reset, tableau and STOP (R117) do not
hold it, its tap link is READY (R123), it is not blocked in a wait (R316), no operation that the caller inserts is due in it
(R108, R229), and the chip is not shut down (R467). A start from a halted queue (R311) says that firmware has resumed it (log
entry 24). -/
def canStartAt (s : State) (c q start : Nat) : Bool :=
  inService s c && !coreInReset s c && !tableauStops s c start && (queueOf s c q).wait.isNone &&
  !(station s c).reh.rehMode && (station s c).tapReady && !stopHolds (station s c) start &&
  !insertionHolds (station s c) q && !issueStopped s c q && s.boot.state != 3

def canStart (s : State) (c q : Nat) : Bool := canStartAt s c q s.now

/-- R29: the timebase value that a core's station, bank or taps stamp: that of its cluster's replica. -/
def coreTime (s : State) (c : Nat) : Nat := replica s (c / 16)

/-- R315: a SET, CLEAR, ADD or SUB of the queue has not left its gate point. -/
def signalHeld (s : State) (c q : Nat) : Bool := (queueOf s c q).syncOps.any fun o => decide (o.op ≤ 4)

/-- R197, R312: a queue can start a sync or barrier operation now: its earlier signal has left its gate point (log entry 127). -/
def canStartSync (s : State) (c q : Nat) : Bool := canStart s c q && !signalHeld s c q

/-- R101, R311, R366: a sync or barrier operation starts, so its queue is not halted, and it takes the queue's next OPID. -/
def startSync (c q op deadline : Nat) (s : State) : State :=
  updQueue c q (fun x => { x with
    halted := false, nextOpid := x.nextOpid + 1
    syncOps := x.syncOps ++ [{ opid := x.nextOpid, op := op, start := coreTime s c, deadline := deadline }] }) s

/-- R101: OPID of the operation that a queue has started last. -/
def startedOpid (s : State) (c q : Nat) : BitVec 16 := (queueOf s c q).nextOpid - 1

/-- R310, R311, R384: a sync or barrier operation retires with a status; any status but OK halts the queue, and OK does not
resume it. -/
def retireSync (c q : Nat) (opid : BitVec 16) (status : Nat) (value : Word) (s : State) : State :=
  updOut (fun o => { o with retired := (c, q, status, value) :: o.retired })
    (updQueue c q (fun x => { x with
      status := status, lastOpid := opid, lastRetire := coreTime s c, halted := x.halted || status != 1
      syncOps := x.syncOps.filter (·.opid != opid) }) s)

/-! ### Watches -/

def watchOf (s : State) (c w : Nat) : Watch := tget {} w (station s c).watches

/-- R319, R321, R429: the time on which a core's timeouts run: it stands still while tableau holds the chip. -/
def timerNow (s : State) (c : Nat) : Nat := if tableauHolds s then min s.tab.tt (coreTime s c) else coreTime s c

/-- R330: a cancel of a slot has been sent and is not answered. -/
def cancelSent (s : State) (c w : Nat) : Bool := (station s c).cancels.any (·.1 == w)

/-- R316: a queue's blocking wait that holds a watch slot retires. -/
def retireWait (c q w : Nat) (opid : BitVec 16) (status : Nat) (value : Word) (s : State) : State :=
  retireSync c q opid status value (updQueue c q (fun x => { x with wait := if x.wait = some w then none else x.wait }) s)

/-- R316: the lowest free watch slot of a core. -/
def freeSlot (s : State) (c : Nat) : Option Nat := (List.range 16).find? fun w => !(watchOf s c w).valid

/-- Free a slot; a release in flight to it would be discarded (R321). -/
def freeWatch (c w : Nat) (s : State) : State :=
  updSync (fun y => { y with releases := y.releases.filter fun r =>
      !(partyChip r.party == s.boot.chip && partyCore r.party == c && partySlot r.party == w) })
    (updStation c (fun t => { t with watches := tput {} w {} t.watches }) s)

/-- R308, R319: a timeout in ns: the field in µs, or the context default; at most 60 s. -/
def timeoutNs (s : State) (c : Nat) (field : BitVec 24) : Nat :=
  let us := if field = 0 then ((runningCtx s (ctxOfCore s c)).map (·.timeoutUs)).getD 5000000 else field.toNat
  min 60000000 us * 1000

end Sys2Proof.Machine
end

