-- ==== Sys2Proof/Machine/Gate.lean ====
section
/-! DEFINITION. Sync messages (R338 to R341), items at gate points (R196 to R201), fence tallies at the sender (R343 to R345), containment (R194). -/

namespace Sys2Proof.Machine

/-! ### Messages -/

/-- R340: bytes 0 to 27 of a message. -/
def msgBody (type : Nat) (m : SyncMsg) : List Byte :=
  [BitVec.ofNat 8 type, m.sub, 0, 0] ++ toLe 4 m.name.toNat ++ toLe 4 m.party.toNat ++ toLe 4 m.arg.toNat ++
  toLe 4 m.tally.toNat ++ toLe 8 m.start.toNat

/-- R340: the CRC of a message. -/
def msgCrc (type : Nat) (m : SyncMsg) : Word := crc32c (msgBody type m)

/-- R340: a message with its CRC. -/
def mkMsg (type : Nat) (sub : Nat) (name party arg tally : Word) (start : Nat) : SyncMsg :=
  let m : SyncMsg := { sub := BitVec.ofNat 8 sub, name := name, party := party, arg := arg, tally := tally,
                       start := BitVec.ofNat 64 start, crc := 0 }
  { m with crc := msgCrc type m }

/-- R339, R341: the first port of the route to a chip. -/
def routeOf (chip : ChipId) : Nat := (Config.routePort chip.toNat).val

/-- R362: the sync version settled on the route to a chip: 0 none, 1 S1, 2 S2. -/
def routeVer (s : State) (chip : ChipId) : Nat := (fport s (routeOf chip)).settled

/-- The route's link is up (R458). -/
def routeUp (s : State) (chip : ChipId) : Bool := (fport s (routeOf chip)).width != 0

/-- R389: messages to a chip that DOWN withdrew are discarded until UP. -/
def isDown (s : State) (chip : ChipId) : Bool := s.sync.down.contains chip

/-- R435, R436: the SYNC_SEND (4) or SYNC_RECV (5) record of an S2 port. -/
def traceMsg (trace : Nat) (port : Nat) (type : Nat) (chip : ChipId) (m : SyncMsg) (s : State) : State :=
  if (fport s port).settled = 2 then
    traceRec trace (srcPort port) s.now 1
      (toLe 4 m.name.toNat ++ [BitVec.ofNat 8 type, BitVec.ofNat 8 port] ++ toLe 2 chip.toNat ++
       toLe 4 m.party.toNat ++ toLe 4 m.crc.toNat) s
  else s

/-- R339, R388: the port of the route holds a sync message to a chip for retry, which later ones must not pass. -/
def retryHeld (s : State) (chip : ChipId) : Bool := (fport s (routeOf chip)).retry.any fun k => k.2.1 == chip && k.2.2.2

/-- A message leaves through its port, outside the gate (R35, R338): an S1 port carries none of these (R341), a chip
that is down gets none (R389), and a port holds it while its link is lost or not settled (R91, R388) or holds an earlier one for
retry (R339). -/
def sendMsg (type : Nat) (chip : ChipId) (m : SyncMsg) (s : State) : State :=
  if isDown s chip || routeVer s chip == 1 then s
  else if routeVer s chip == 2 && routeUp s chip && !retryHeld s chip then
    traceMsg 4 (routeOf chip) type chip m
      (updOut (fun o => { o with msgs := (routeOf chip, type, m) :: o.msgs }) s)
  else updFPort (routeOf chip) (fun f => { f with waiting := f.waiting ++ [(type, chip, m)] }) s

/-- R341: an S1 port carries SIGNAL, ARRIVE and BRELEASE only. -/
def portTakes (s : State) (chip : ChipId) (type : Nat) : Bool :=
  routeVer s chip == 2 || (routeVer s chip == 1 && (type == 1 || type == 5 || type == 6))

/-- R388: what a port held leaves in order once its link carries it. -/
def sendWaiting : List (Nat × ChipId × SyncMsg) → State → State
  | [], s => s
  | (ty, chip, m) :: r, s => sendWaiting r (sendMsg ty chip m s)

/-! ### Containment entries -/

/-- R194, R210: an entry covers an item that started at S. -/
def covers (e : ContEntry) (start : Nat) : Bool :=
  (match e.tc with | some t => decide (t ≤ start) | none => false) ||
  e.past.any fun x => decide (x.1 ≤ start) && decide (start < x.2)

def containment (s : State) (ctx : Nat) : Containment := tget {} ctx s.hz.contained
def updContainment (ctx : Nat) (f : Containment → Containment) (s : State) : State :=
  updHz (fun h => { h with contained := tput {} ctx (f (tget {} ctx h.contained)) h.contained }) s

/-- R194: every gate point has acknowledged. -/
def allAcked (c : Containment) : Bool := c.acked == BitVec.allOnes 38

/-- R194 steps 1 and 2: broadcast an entry with Tc; an entry in force keeps the earlier Tc. -/
def contain (ctx tc : Nat) (cu : Option (Nat × Word)) (reset : Option Word) : State → State :=
  updContainment ctx fun c => { c with
    entry := { c.entry with tc := some (match c.entry.tc with | none => tc | some t => min t tc) }
    acked := 0
    waiting := c.waiting ++ cu.toList
    resets := c.resets ++ reset.toList }

/-- R194: the context is contained, with Tc. -/
def containedNow (s : State) (ctx : Nat) : Bool := (containment s ctx).entry.tc.isSome

/-! ### Tallies at the sender (R343 to R345) -/

/-- The tally entry of a destination. -/
def tallyOf (s : State) (c q : Nat) (chip : ChipId) : Option Tally :=
  (tget [] q (station s c).tallies).find? (·.chip == chip)

def updTallies (c q : Nat) (f : List Tally → List Tally) : State → State :=
  updStation c fun t => { t with tallies := tput [] q (f (tget [] q t.tallies)) t.tallies }

/-- R341: where a queue's count of unacknowledged sectors to a chip stands. -/
def ackKey (q : Nat) (chip : ChipId) : Nat := q * 2 ^ 14 + chip.toNat

/-- R341: sectors of a queue that a chip has not acknowledged end to end. -/
def unackedOf (s : State) (c q : Nat) (chip : ChipId) : Nat := tget 0 (ackKey q chip) (station s c).unacked

def updUnacked (c q : Nat) (chip : ChipId) (f : Nat → Nat) : State → State :=
  updStation c fun t => { t with unacked := tput 0 (ackKey q chip) (f (tget 0 (ackKey q chip) t.unacked)) t.unacked }

/-- The entry incremented least recently (R345). -/
def oldestTally : List Tally → Option Tally
  | [] => none
  | t :: r => match oldestTally r with
    | none => some t
    | some u => if u.stamp < t.stamp then some u else some t

/-! ### Items -/

/-- R198: the context of an item, from its source core through the partition. -/
def itemCtx (s : State) (i : GItem) : Nat := ctxOfCore s i.core.val

/-- R198: the item can leave, apart from its place in its stream. -/
def eligible (s : State) (g : Nat) (i : GItem) : Bool :=
  let p := gate s g
  i.whole.isSome && p.opened && p.closed == 0 && !covers (tget {} (itemCtx s i) p.entries) i.start &&
  (!i.gated || decide (i.start + 4 ≤ p.vh)) && i.ackNeed == 0 &&
  (match i.msg with
   | some _ => isDown s i.dest || (routeVer s i.dest != 0 && routeUp s i.dest && !retryHeld s i.dest)
   | none => true)

/-- R435: the GATE record of a release. -/
def traceGate (g : Nat) (i : GItem) (s : State) : State :=
  let kind := match i.kind with
    | .fabricPush => 0 | .hostPush => 1 | .signal => 2 | .arrival => 3 | .completion => 4 | .hostSignal => 5
  traceRec 0x06 (srcGate g) s.now 1
    (toLe 8 i.start ++ toLe 4 i.data.length ++ [BitVec.ofNat 8 g, BitVec.ofNat 8 kind] ++
     toLe 2 (min 0xFFFF (s.now - i.whole.getD s.now))) s

/-- R198, R315: a remote signal, a host completion write and a host signal retire at their producer with OK when their item
leaves or is dropped; what a bank or the caller sends has no producer to retire, and neither has a signal that a reset has
abandoned. -/
def retireSignal (i : GItem) (s : State) : State :=
  let done := retireSync i.core.val i.queue.val i.transfer 1 0 s
  match i.msg with
  | some (1, _) => if (queueOf s i.core.val i.queue.val).syncOps.any (·.opid == i.transfer) then done else s
  | some _ => s
  | none => if i.kind = .signal ∨ i.kind = .completion ∨ (i.kind = .hostSignal ∧ i.object = none) then done else s

/-- What leaves the chip. A message to a chip that is down goes nowhere (R389), nor does one that an S1 port does not carry (R341,
log entry 127). -/
def leave (g : Nat) (i : GItem) (s : State) : State :=
  let s := traceGate g i s
  let s := match i.msg with
    | some (ty, m) =>
      if isDown s i.dest || !portTakes s i.dest ty.toNat then s
      else traceMsg 4 (routeOf i.dest) ty.toNat i.dest m
        (updOut (fun o => { o with items := (g, i) :: o.items }) s)
    | none => updOut (fun o => { o with items := (g, i) :: o.items }) s
  retireSignal i s

/-- R199: items in order of arrival; an item that stays holds back the later ones of its stream. -/
def scanRelease (g : Nat) : List GItem → List (Nat × Nat) → State → List GItem × State
  | [], _, s => ([], s)
  | i :: r, held, s =>
    let stream := (i.core.val, i.queue.val)
    if !held.contains stream && eligible s g i then scanRelease g r held (leave g i s)
    else
      let x := scanRelease g r (stream :: held) s
      (i :: x.1, x.2)

/-- R198, R199: release what can leave a gate point; what it sends to tallies is in `tallyUp`. -/
def release0 (g : Nat) (s : State) : State :=
  let items := (gate s g).items
  let x := scanRelease g items [] s
  updGate g (fun p => { p with items := x.1 }) x.2

/-! ### Drops (R198) -/

/-- R198, R155: a mover's transfer learns of a dropped item: a completion without a CRC, and FG-MOV gives NONE. -/
def dropAtProducer (i : GItem) (s : State) : State :=
  if i.kind = .fabricPush ∨ i.kind = .hostPush then
    updStation i.core.val (fun t => { t with cus := t.cus.map fun u =>
      if u.op.queue == i.queue && u.op.opid == i.transfer && u.retire.isNone then
        { u with writes := u.writes ++ [(0, false, 0)], itemDropped := true } else u }) s
  else retireSignal i s

/-- A drop for containment (R194): counted in PHL_VH_DROPS and for CONTAIN_END. -/
def dropContained (i : GItem) (s : State) : State :=
  let x := itemCtx s i
  let s := updHz (fun h => { h with dropContain := satAdd 0xFFFF h.dropContain 1 }) s
  let s := updContainment x (fun c => { c with drops := satAdd 0xFFFFFFFF c.drops 1 }) s
  dropAtProducer i s

def dropAll : List GItem → State → State
  | [], s => s
  | i :: r, s => dropAll r (dropContained i s)

/-! ### Arrival (R198, R200) -/

/-- R200: a gate point has room for a sector of an item, new or in progress. -/
def gateRoom (g : Nat) (p : GatePoint) (newItem : Bool) (bytes : Nat) : Bool :=
  let n := p.items.length + b2n newItem
  let held := (p.items.map fun i => i.data.length).sum + bytes
  if g < 36 then decide (n ≤ 512) && decide (held ≤ 131072)
  else if g = 36 then decide (n ≤ 256) && decide (held ≤ 32768)
  else decide (n ≤ 1024)

/-- R198: an item takes its place at a gate point, and is dropped, held or released. -/
def takePlace (g : Nat) (i : GItem) (s : State) : State :=
  if covers (tget {} (itemCtx s i) (gate s g).entries) i.start then dropContained i s
  else release0 g (updGate g (fun p => { p with items := p.items ++ [i] }) s)

/-- R200: items that wait for credit take their places, in order, as far as there is room. -/
def giveCredit (g : Nat) : List GItem → State → State
  | [], s => s
  | i :: r, s =>
    if gateRoom g (gate s g) true i.data.length then
      giveCredit g r (takePlace g i (updGate g (fun p => { p with waiting := p.waiting.drop 1 }) s))
    else s

/-- R198, R200: an item that is not a fabric push comes whole to a gate point, behind those that wait for credit there. -/
def putItem (g : Nat) (i : GItem) (s : State) : State :=
  let s := updGate g (fun p => { p with waiting := p.waiting ++ [i] }) s
  giveCredit g (gate s g).waiting s

/-! ### Fabric pushes and tallies (R343, R345) -/

/-- R343, R345: a released sector of a queue's push adds to the tally of its destination; a table without a free
entry sends a CARRY for the entry incremented least recently, which waits at the gate point for its link. An S1 route carries no
CARRY: its signals wait for acknowledgements instead (R341). -/
def tallyUp (i : GItem) (s : State) : State :=
  let c := i.core.val
  let q := i.queue.val
  let n := i.sectors
  let stamp := s.sync.tallyStamp + 1
  let s := updSync (fun y => { y with tallyStamp := stamp }) s
  let s := updUnacked c q i.dest (· + n) s
  let fresh : Tally := { chip := i.dest, count := n, stamp := stamp }
  match tallyOf s c q i.dest with
  | some _ =>
    updTallies c q (fun l => l.map fun t =>
      if t.chip == i.dest then { t with count := t.count + n, stamp := stamp } else t) s
  | none =>
    let l := tget [] q (station s c).tallies
    let l' := if l.length < 32 then l else dropFirst (fun t => t.count == 0) l
    if l'.length < 32 then updTallies c q (fun _ => l' ++ [fresh]) s
    else
      match oldestTally l with
      | none => s
      | some old =>
        let m := mkMsg 7 0 0 (queueParty s c q) 0 (BitVec.ofNat 32 old.count) 0
        let item : GItem := {
          kind := .signal, core := i.core, queue := i.queue, transfer := 0, start := 0, gated := false
          dest := old.chip, addr := 0, data := msgBody 7 m ++ toLe 4 m.crc.toNat, sectors := 1, whole := some s.now, lastItem := true
          msg := some (7, m), ackNeed := 0, object := none }
        let s := updTallies c q (fun l => dropFirst (fun t => t.chip == old.chip) l ++ [fresh]) s
        if routeVer s old.chip = 1 then s else putItem 37 item s

/-- Fabric pushes among released items count in the tallies. -/
def scanTally : List (Nat × GItem) → State → State
  | [], s => s
  | (_, i) :: r, s => scanTally r (if i.kind = .fabricPush then tallyUp i s else s)

/-- R198 to R200, R343: release what can leave a gate point, count its pushes, and take in what waits for credit. -/
def releaseItems (g : Nat) (s : State) : State :=
  let before := s.out.items.length
  let s := release0 g s
  let s := scanTally (s.out.items.take (s.out.items.length - before)).reverse s
  giveCredit g (gate s g).waiting s

/-! ### Containment at a gate point, gating -/

/-- R194, R201: a gate point drops the held items that its entries cover; one still arriving goes with its last sector. -/
def sweepContained (g : Nat) (s : State) : State :=
  let p := gate s g
  let bad := fun i => i.whole.isSome && covers (tget {} (itemCtx s i) p.entries) i.start
  dropAll (p.items.filter bad) (updGate g (fun p => { p with items := p.items.filter fun i => !bad i }) s)

/-- R85, R196: egress gating is on in the epoch that a station holds: every mode but AUDIT. -/
def gatingOn (s : State) (c : Nat) : Bool := (station s c).cov.mode != 2

/-- R258, R513: the coverage in force, the override taken. -/
def coverageNow (s : State) : Coverage :=
  let base := (s.cfg.active.map (·.coverage)).getD ⟨0, 0, 0, 0⟩
  let o := s.cfg.covOvr.toNat
  if bit o 31 then { base with mode := bits o 1 0, repriseExp := bits o 11 8, matrixExp := bits o 19 16 } else base

/-- Egress gating in the epoch in force (R196, R218). -/
def gatingNow (s : State) : Bool := (coverageNow s).mode != 2

/-- R85, R196: egress gating in the epoch that was in force at an instant. -/
def gatingAt (s : State) (at_ : Nat) : Bool := ((s.cfg.gatings.find? fun e => decide (e.1 ≤ at_)).map (·.2)).getD (gatingNow s)

/-- R85: the epoch in force changes. -/
def noteGating (s : State) : State := updCfg (fun c => { c with gatings := (s.now, gatingNow s) :: c.gatings }) s

/-- R85, R196: GATED of what an operation of a party produces that started at an instant: for a queue of this chip by the epoch
that its station holds; for one of another chip, whose timebase is not this one's (R56), by the epoch in force; else by the epoch
that was in force at that instant (log entry 134). -/
def gatedBy (s : State) (p : Word) (start : Nat) : Bool :=
  if partyKind p ≠ 0 then gatingAt s start
  else if partyChip p = s.boot.chip then gatingOn s (partyCore p)
  else gatingNow s

/-- A gated message of the remote sync path: SIGNAL, RELEASE, ARRIVE or BRELEASE (R338). A SIGNAL's item bears its operation's
OPID, by which it retires. -/
def gateMsg (type : Nat) (core : Core) (queue : Queue) (opid : BitVec 16) (gated : Bool) (start ackNeed : Nat) (chip : ChipId)
    (m : SyncMsg) (s : State) : State :=
  let i : GItem := {
    kind := if type = 5 ∨ type = 6 then .arrival else .signal, core := core, queue := queue, transfer := opid, start := start
    gated := gated, dest := chip, addr := 0, data := msgBody type m ++ toLe 4 m.crc.toNat, sectors := 1, whole := some s.now
    lastItem := true, msg := some (BitVec.ofNat 8 type, m), ackNeed := ackNeed, object := none }
  putItem 37 i s

end Sys2Proof.Machine
end

