-- ==== Sys2Proof/Machine/Objects.lean ====
section
/-! DEFINITION. Objects, subscriptions and releases (R303 to R322), incidents and seal requests (R203 to R209), and the end of a context (R307). -/

namespace Sys2Proof.Machine

/-! ### Incidents (R203, R209) -/

/-- R209: SEAL_WITHHELD, once for each incident that is open while a request for its step or a later one is
outstanding. -/
def withhold (ctx : Nat) : List Incident → Bool → Nat → State → List Incident × State
  | [], _, _, s => ([], s)
  | i :: r, out, next, s =>
    if !i.reported && out && decide (i.step < next) then
      let s := occur 0x1021 (srcCaller 2) (ctx + 4096 * i.reason) i.step i.tag.toNat s
      let x := withhold ctx r out next s
      ({ i with reported := true } :: x.1, x.2)
    else
      let x := withhold ctx r out next s
      (i :: x.1, x.2)

def reportWithheld (ctx : Nat) (s : State) : State :=
  match runningCtx s ctx with
  | none => s
  | some c =>
    let x := withhold ctx c.incidents (c.requests != []) c.nextReq s
    updCtx ctx (fun c => { c with incidents := x.1 }) x.2

/-- R203: an incident opens for a running context. -/
def openIncident (ctx reason step : Nat) (tag : Word) (s : State) : State :=
  reportWithheld ctx (updCtx ctx (fun c => { c with
    incidents := c.incidents ++ [{ reason := reason, step := step, tag := tag, reported := false }] }) s)

/-- R203: reasons 5 and 6 belong to the lowest unsealed step. -/
def openAtUnsealed (ctx reason : Nat) (s : State) : State :=
  match runningCtx s ctx with
  | none => s
  | some c => openIncident ctx reason c.sealed 0 s

/-- R203: an adjudication's incident, of reason 1 or 4, closes with CLEARED or turns into reason 2. -/
def closeAdjIncident (ctx reason : Nat) (tag : Word) (confirmed : Bool) : State → State :=
  updCtx ctx fun c => { c with
    incidents :=
      if confirmed then c.incidents.map fun i =>
        if i.reason == reason && i.tag == tag then { i with reason := 2 } else i
      else c.incidents.filter fun i => !(i.reason == reason && i.tag == tag) }

/-! ### Releases (R317, R318) -/

/-- R309, R313: a wait condition: 0 EQ, 1 GE, 2 FLAG. -/
def condHolds (cond : Nat) (target v : Word) : Bool :=
  match cond with
  | 0 => v == target
  | 1 => decide ((v - target).toNat < 2 ^ 31)
  | _ => v != 0

/-- R318, R338: a release goes to the waiter's station, or in a RELEASE message to its chip: gated when its status is
OK, with S the start of what made the object's last change, and GATED by its epoch (R196, R385). -/
def sendRelease (o : Nat) (p : Word) (status : Nat) (value : Word) (start : Nat) (s : State) : State :=
  let name := objName s.boot.chip o
  if partyChip p = s.boot.chip then
    updSync (fun y => { y with releases := y.releases ++ [{ party := p, name := name, status := status, value := value, guard := some name }] }) s
  else if status = 1 then
    gateMsg 4 (Fin.ofNat 256 ((bankCore s o).getD 0)) 0 0 (object s o).lastGated start 0 (partyChip p)
      (mkMsg 4 status name p value 0 start) s
  else sendMsg 4 (partyChip p) (mkMsg 4 status name p value 0 0) s

def sendReleases (o status : Nat) (value : Word) (start : Nat) : List Sub → State → State
  | [], s => s
  | u :: r, s => sendReleases o status value start r (sendRelease o u.party status value start s)

/-- R317: after a change, the subscriptions whose condition holds are released in order and removed. -/
def evalSubs (o start : Nat) (s : State) : State :=
  let x := object s o
  let hit := fun (u : Sub) => condHolds u.cond u.target x.value
  sendReleases o 1 x.value start (x.subs.filter hit)
    (updObject o (fun x => { x with subs := x.subs.filter fun u => !hit u }) s)

/-- Every subscription of an object is released with a status and removed. -/
def releaseAllSubs (o status : Nat) (s : State) : State :=
  let x := object s o
  sendReleases o status x.value s.now x.subs (updObject o (fun x => { x with subs := [] }) s)

/-- R318: the 16 bytes of a release record. -/
def releaseRecord (name value : Word) (status slot time : Nat) : List Byte :=
  toLe 4 name.toNat ++ toLe 4 value.toNat ++ [BitVec.ofNat 8 status, BitVec.ofNat 8 slot, 0, 0] ++ toLe 4 time

/-- R29: the timebase value that an object's bank stamps. -/
def bankTime (s : State) (o : Nat) : Nat := coreTime s ((bankCore s o).getD 0)

/-- R322: the host write of a changed host-mapped object replaces one that has not left. -/
def hostWrite (o : Nat) (p : Word) (start : Nat) (s : State) : State :=
  let x := object s o
  if x.host then
    let own := partyKind p == 0 && partyChip p == s.boot.chip
    let core := if own then partyCore p else (bankCore s o).getD 0
    let old := ((gate s 36).items ++ (gate s 36).waiting).find? (·.object == some o)
    let i : GItem := {
      kind := .hostSignal, core := Fin.ofNat 256 core, queue := Fin.ofNat 4 (if own then partyQueue p else 0), transfer := 0
      start := match old with | some k => max k.start start | none => start
      gated := x.lastGated
      dest := s.boot.chip, addr := x.hostAddr, data := releaseRecord (objName s.boot.chip o) x.value 1 0 (bankTime s o), sectors := 1
      whole := some s.now, lastItem := true, msg := none, ackNeed := 0, object := some o }
    putItem 36 i (updGate 36 (fun g => { g with
      items := g.items.filter (·.object != some o), waiting := g.waiting.filter (·.object != some o) }) s)
  else s

/-- R303, R312, R317, R322: an object takes a value: who changed it and when, its subscriptions, its host write. -/
def change (o : Nat) (v : Word) (op : Nat) (p : Word) (start : Nat) (s : State) : State :=
  let s := updObject o (fun x => { x with
    value := v, lastOp := op, lastParty := p, lastTime := BitVec.ofNat 32 (bankTime s o), lastStart := start, lastGated := gatedBy s p start }) s
  hostWrite o p start (evalSubs o start s)

/-! ### Barrier waiters and the end of a context -/

/-- A barrier's local waiters are released with a status (R354, R358). -/
def releaseBarWaiters (b status : Nat) (s : State) : State :=
  let ws := (barrier s b).waiters
  let guard := (barrier s b).release.map fun r => objName s.boot.chip r.2
  updSync (fun y => { y with releases := y.releases ++ ws.map fun w =>
      { party := waiterParty s w.1 (watchOf s w.1 w.2).queue w.2, name := barName s.boot.chip b, status := status, value := 0, guard := guard } })
    (updBarrier b (fun x => { x with waiters := [] }) s)

/-- R358: end of the owning context: disarmed, waiters released with CONTEXT_END. -/
def disarmOwned (ctx : Nat) : List Nat → State → State
  | [], s => s
  | b :: r, s =>
    let x := barrier s b
    if x.state ≠ 0 ∧ x.ctx.toNat = ctx then disarmOwned ctx r (updBarrier b (fun _ => {}) (releaseBarWaiters b 3 s))
    else disarmOwned ctx r s

/-- Objects assigned to a context. -/
def ctxObjects (s : State) (ctx : Nat) : List Nat :=
  (s.sync.objs.filter fun x => x.2.assigned && x.2.ctx.toNat == ctx).map (·.1)

/-- R307 step 4: an object's state after the end of its context; MODE is not among what is cleared. -/
def clearObject (x : Obj) : Obj := { ({} : Obj) with count := x.count }

def clearObjects : List Nat → State → State
  | [], s => s
  | o :: r, s => clearObjects r (updObject o clearObject s)

/-- The watches that cores hold: (core, slot). -/
def heldWatches (s : State) (cores : List Nat) : List (Nat × Nat) :=
  (cores.map fun c => ((List.range 16).filter fun w => (watchOf s c w).valid).map fun w => (c, w)).flatten

/-- Release watches at their stations with a status; a release under way for a slot is overtaken, and what subscription or cancel
a local object still has of the slot is gone. -/
def releaseWatches (status : Nat) : List (Nat × Nat) → State → State
  | [], s => s
  | (c, w) :: r, s =>
    let x := watchOf s c w
    let p := waiterParty s c x.queue w
    let v := if isLocal s x.name && x.barrier.isNone then (object s (nameObject x.name)).value else x.lastValue
    let s := updSync (fun y => { y with releases := (y.releases.filter fun k => k.party != p) ++
      [{ party := p, name := x.name, status := status, value := v, own := true }] }) s
    let s := if isLocal s x.name && x.barrier.isNone then
      updStation c (fun t => { t with cancels := t.cancels.filter fun k => !(k.1 == w && k.2.1 == x.name) })
        (updObject (nameObject x.name) (fun k => { k with subs := k.subs.filter fun u => u.party != p }) s) else s
    releaseWatches status r s

def releaseObjectSubs (status : Nat) : List Nat → State → State
  | [], s => s
  | o :: r, s => releaseObjectSubs status r (releaseAllSubs o status s)

/-- Subscriptions held on objects. -/
def subCount (s : State) (os : List Nat) : Nat := os.foldl (fun n o => n + (object s o).subs.length) 0

/-- R194 step 3: a CU leaves its station's pending list. -/
def settleCu (c : Nat) (tag : Word) (s : State) : State :=
  updStation c (fun t => sweepSlots (heldFigs s) { t with cus := t.cus.filter fun u => !(u.tag == tag && u.retire.isSome && !u.inserted) }) s

def settleAll : List (Nat × Word) → State → State
  | [], s => s
  | (c, g) :: r, s => settleAll r (settleCu c g s)

/-- R307: a context ends; `cause` is that of CONTEXT_END (R328). R211: its requests, incidents and containment entry
go, and a CU that waited for the entry's acknowledgements is settled. -/
def endContext (ctx cause : Nat) (s : State) : State :=
  match runningCtx s ctx with
  | none => s
  | some _ =>
    let os := ctxObjects s ctx
    let ws := heldWatches s (ctxCores s ctx)
    let s := { s with ctxs := tdel ctx s.ctxs }
    let s := updSync (fun y => { y with ended := ctx :: y.ended.filter (· != ctx) }) s
    let s := releaseWatches 3 ws s
    let n := ws.length + subCount s os
    let s := releaseObjectSubs 3 os s
    let s := disarmOwned ctx (List.range 256) s
    let s := updSync (fun y => { y with mon := y.mon.filter fun e => !(decide (256 ≤ e.1) && e.2.ctx.toNat == ctx) }) s
    let s := clearObjects os s
    let waiting := (containment s ctx).waiting
    let s := settleAll waiting (updContainment ctx (fun _ => {}) s)
    occur 0x5008 (srcCaller 0) (ctx + 4096 * cause) n os.length s

/-! ### Seal requests (R205) -/

/-- R205: every queue of the context's cores is raised to a step. -/
def raiseSteps (step : Nat) : List Nat → State → State
  | [], s => s
  | c :: r, s => raiseSteps step r (updStation c (fun t => { t with
      queues := (List.range 4).foldl (fun qs q =>
        let x : QState := tget {} q qs
        tput {} q { x with step := max x.step step } qs) t.queues }) s)

/-- The work of a context's present run on a core. -/
def ofRun (ctx : Nat) (x : Ctx) (u : Cu) : Bool := !u.inserted && u.ctx.toNat == ctx && decide (x.began ≤ u.start)

/-- R206 condition 2: no CU of the step or an earlier one is started and not retired. -/
def stepRetired (s : State) (ctx step : Nat) (x : Ctx) : Bool :=
  (ctxCores s ctx).all fun c => (station s c).cus.all fun u => !(ofRun ctx x u && u.retire.isNone && decide (u.step ≤ step))

/-- R205: the oldest request that covers a step: (first step, steps, Tq). -/
def requestOf (x : Ctx) (step : Nat) : Option (Nat × Nat × Nat) :=
  x.requests.find? fun r => decide (r.1 ≤ step) && decide (step < r.1 + r.2.1)

/-- R206: Tz, the instant at which the caller observes condition 2 for the lowest unsealed step, once it is requested (log
entry 26). -/
def observeStep (ctx : Nat) (s : State) : State :=
  match runningCtx s ctx with
  | none => s
  | some x =>
    if x.tz.isNone && (requestOf x x.sealed).isSome && stepRetired s ctx x.sealed x then
      updCtx ctx (fun x => { x with tz := some s.now }) s
    else s

/-- R275: while the chip drains, a context's first seal request is its step boundary. -/
def atBoundary (ctx : Nat) (s : State) : State :=
  if s.led.state = 2 ∨ s.led.state = 4 then endContext ctx 2 s else s

/-- R205, R209: an ADD n on the seal-request object of a running context requests the seals of n steps. -/
def sealRequest (o n start : Nat) (s : State) : State :=
  let x := object s o
  let ctx := x.ctx.toNat
  match runningCtx s ctx with
  | none => s
  | some c =>
    match c.seal_ with
    | some e =>
      if e.enabled && e.request == o && x.assigned && decide (0 < n) then
        let s := updCtx ctx (fun c => { c with requests := c.requests ++ [(c.nextReq, n, start)], nextReq := c.nextReq + n }) s
        let s := raiseSteps (c.nextReq + n) (ctxCores s ctx) s
        atBoundary ctx (observeStep ctx (reportWithheld ctx s))
      else s
    | none => s

/-! ### Operations on a local object (R309, R314) -/

/-- R309: SET 1, CLEAR 2, ADD 3, SUB 4 on an assigned object; answers the status of R310. -/
def applyOp (o op : Nat) (n : Word) (p : Word) (start : Nat) (s : State) : Nat × State :=
  let x := object s o
  match op with
  | 1 => (1, change o (if x.count then n else 1) 1 p start s)
  | 2 => (1, change o 0 2 p start s)
  | 3 =>
    if !x.count then (8, s)
    else if n = 0 then (1, s)
    else (1, sealRequest o n.toNat start (change o (x.value + n) 3 p start s))
  | _ =>
    if !x.count then (8, s)
    else if n = 0 then (1, s)
    else if x.value.toNat < n.toNat then
      let s := change o 0 4 p start s
      (5, occur 0x5002 (bankSrc s o) (objName s.boot.chip o).toNat p.toNat (n.toNat - x.value.toNat) s)
    else (1, change o (x.value - n) 4 p start s)

/-- R310, R328: SYNC_ERROR. -/
def syncError (src : BitVec 16) (name p : Word) (status op : Nat) : State → State :=
  occur 0x5005 src name.toNat p.toNat (status + 16 * op)

/-- R310: an object number that names an assigned object: status 1, or 6 NO_OBJECT. -/
def objectStatus (s : State) (o : Nat) : Nat :=
  if (bankCore s o).isSome && (object s o).assigned then 1 else 6

/-- A caller or monitor action, or a remote message, on an object: errors are recorded at the bank (R315). -/
def actOn (o op : Nat) (n : Word) (p : Word) (start : Nat) (s : State) : Nat × State :=
  let name := objName s.boot.chip o
  if objectStatus s o = 6 then (6, syncError (bankSrc s o) name p 6 op s)
  else
    match applyOp o op n p start s with
    | (8, s) => (8, syncError (bankSrc s o) name p 8 op s)
    | r => r

end Sys2Proof.Machine
end

