-- ==== Sys2Proof/Machine/Sha.lean ====
section
/-! DEFINITION. SHA-256 with HMAC, and SHA-384: the standards that R72, R414 and R476 name. Their constants and steps are those of FIPS 180-4 and RFC 2104, which the spec cites and does not print (log entry 10). -/

namespace Sys2Proof.Machine

def rotr (w n x : Nat) : Nat := (x >>> n) ||| ((x <<< (w - n)) % 2 ^ w)
def complement (w x : Nat) : Nat := 2 ^ w - 1 - x % 2 ^ w

/-- The two sizes of the function: the word width, the rotations, the round constants. -/
structure ShaKind where
  w : Nat
  big0 : Nat × Nat × Nat
  big1 : Nat × Nat × Nat
  small0 : Nat × Nat × Nat
  small1 : Nat × Nat × Nat
  ks : List Nat

def k256 : List Nat :=
  ([0x428A2F98, 0x71374491, 0xB5C0FBCF, 0xE9B5DBA5, 0x3956C25B, 0x59F111F1, 0x923F82A4, 0xAB1C5ED5] ++
   [0xD807AA98, 0x12835B01, 0x243185BE, 0x550C7DC3, 0x72BE5D74, 0x80DEB1FE, 0x9BDC06A7, 0xC19BF174] ++
   [0xE49B69C1, 0xEFBE4786, 0x0FC19DC6, 0x240CA1CC, 0x2DE92C6F, 0x4A7484AA, 0x5CB0A9DC, 0x76F988DA] ++
   [0x983E5152, 0xA831C66D, 0xB00327C8, 0xBF597FC7, 0xC6E00BF3, 0xD5A79147, 0x06CA6351, 0x14292967] ++
   [0x27B70A85, 0x2E1B2138, 0x4D2C6DFC, 0x53380D13, 0x650A7354, 0x766A0ABB, 0x81C2C92E, 0x92722C85] ++
   [0xA2BFE8A1, 0xA81A664B, 0xC24B8B70, 0xC76C51A3, 0xD192E819, 0xD6990624, 0xF40E3585, 0x106AA070] ++
   [0x19A4C116, 0x1E376C08, 0x2748774C, 0x34B0BCB5, 0x391C0CB3, 0x4ED8AA4A, 0x5B9CCA4F, 0x682E6FF3] ++
   [0x748F82EE, 0x78A5636F, 0x84C87814, 0x8CC70208, 0x90BEFFFA, 0xA4506CEB, 0xBEF9A3F7, 0xC67178F2])

def k512 : List Nat :=
  ([0x428A2F98D728AE22, 0x7137449123EF65CD, 0xB5C0FBCFEC4D3B2F, 0xE9B5DBA58189DBBC] ++
   [0x3956C25BF348B538, 0x59F111F1B605D019, 0x923F82A4AF194F9B, 0xAB1C5ED5DA6D8118] ++
   [0xD807AA98A3030242, 0x12835B0145706FBE, 0x243185BE4EE4B28C, 0x550C7DC3D5FFB4E2] ++
   [0x72BE5D74F27B896F, 0x80DEB1FE3B1696B1, 0x9BDC06A725C71235, 0xC19BF174CF692694] ++
   [0xE49B69C19EF14AD2, 0xEFBE4786384F25E3, 0x0FC19DC68B8CD5B5, 0x240CA1CC77AC9C65] ++
   [0x2DE92C6F592B0275, 0x4A7484AA6EA6E483, 0x5CB0A9DCBD41FBD4, 0x76F988DA831153B5] ++
   [0x983E5152EE66DFAB, 0xA831C66D2DB43210, 0xB00327C898FB213F, 0xBF597FC7BEEF0EE4] ++
   [0xC6E00BF33DA88FC2, 0xD5A79147930AA725, 0x06CA6351E003826F, 0x142929670A0E6E70] ++
   [0x27B70A8546D22FFC, 0x2E1B21385C26C926, 0x4D2C6DFC5AC42AED, 0x53380D139D95B3DF] ++
   [0x650A73548BAF63DE, 0x766A0ABB3C77B2A8, 0x81C2C92E47EDAEE6, 0x92722C851482353B] ++
   [0xA2BFE8A14CF10364, 0xA81A664BBC423001, 0xC24B8B70D0F89791, 0xC76C51A30654BE30] ++
   [0xD192E819D6EF5218, 0xD69906245565A910, 0xF40E35855771202A, 0x106AA07032BBD1B8] ++
   [0x19A4C116B8D2D0C8, 0x1E376C085141AB53, 0x2748774CDF8EEB99, 0x34B0BCB5E19B48A8] ++
   [0x391C0CB3C5C95A63, 0x4ED8AA4AE3418ACB, 0x5B9CCA4F7763E373, 0x682E6FF3D6B2B8A3] ++
   [0x748F82EE5DEFB2FC, 0x78A5636F43172F60, 0x84C87814A1F0AB72, 0x8CC702081A6439EC] ++
   [0x90BEFFFA23631E28, 0xA4506CEBDE82BDE9, 0xBEF9A3F7B2C67915, 0xC67178F2E372532B] ++
   [0xCA273ECEEA26619C, 0xD186B8C721C0C207, 0xEADA7DD6CDE0EB1E, 0xF57D4F7FEE6ED178] ++
   [0x06F067AA72176FBA, 0x0A637DC5A2C898A6, 0x113F9804BEF90DAE, 0x1B710B35131C471B] ++
   [0x28DB77F523047D84, 0x32CAAB7B40C72493, 0x3C9EBE0A15C9BEBC, 0x431D67C49C100D4C] ++
   [0x4CC5D4BECB3E42B6, 0x597F299CFC657E2A, 0x5FCB6FAB3AD6FAEC, 0x6C44198C4A475817])

def sha256Kind : ShaKind := ⟨32, (2, 13, 22), (6, 11, 25), (7, 18, 3), (17, 19, 10), k256⟩
def sha512Kind : ShaKind := ⟨64, (28, 34, 39), (14, 18, 41), (1, 8, 7), (19, 61, 6), k512⟩

def bigSigma (w : Nat) (r : Nat × Nat × Nat) (x : Nat) : Nat := rotr w r.1 x ^^^ rotr w r.2.1 x ^^^ rotr w r.2.2 x
def smallSigma (w : Nat) (r : Nat × Nat × Nat) (x : Nat) : Nat := rotr w r.1 x ^^^ rotr w r.2.1 x ^^^ (x >>> r.2.2)

/-- The working variables. -/
structure ShaVars where
  a : Nat
  b : Nat
  c : Nat
  d : Nat
  e : Nat
  f : Nat
  g : Nat
  h : Nat

/-- The next word of the message schedule, from the last sixteen. -/
def nextWord (k : ShaKind) (ws : List Nat) : Nat :=
  (smallSigma k.w k.small1 (ws.getD 14 0) + ws.getD 9 0 + smallSigma k.w k.small0 (ws.getD 1 0) + ws.getD 0 0) % 2 ^ k.w

/-- One round. -/
def shaRound (k : ShaKind) (v : ShaVars) (kw w : Nat) : ShaVars :=
  let t1 := v.h + bigSigma k.w k.big1 v.e + ((v.e &&& v.f) ^^^ (complement k.w v.e &&& v.g)) + kw + w
  let t2 := bigSigma k.w k.big0 v.a + ((v.a &&& v.b) ^^^ (v.a &&& v.c) ^^^ (v.b &&& v.c))
  ⟨(t1 + t2) % 2 ^ k.w, v.a, v.b, v.c, (v.d + t1) % 2 ^ k.w, v.e, v.f, v.g⟩

/-- The rounds over a window of sixteen schedule words. -/
def shaRounds (k : ShaKind) : List Nat → List Nat → ShaVars → ShaVars
  | [], _, v => v
  | kw :: ks, ws, v => shaRounds k ks (ws.tail ++ [nextWord k ws]) (shaRound k v kw (ws.getD 0 0))

def shaBlock (k : ShaKind) (h : ShaVars) (ws : List Nat) : ShaVars :=
  let v := shaRounds k k.ks ws h
  let m := 2 ^ k.w
  ⟨(h.a + v.a) % m, (h.b + v.b) % m, (h.c + v.c) % m, (h.d + v.d) % m,
   (h.e + v.e) % m, (h.f + v.f) % m, (h.g + v.g) % m, (h.h + v.h) % m⟩

/-- The big-endian words of a block. -/
def beWords (n : Nat) : Nat → List Byte → List Nat
  | 0, _ => []
  | i + 1, l => beNat (l.take n) :: beWords n i (l.drop n)

/-- Blocks in turn; the first argument after the kind is how many. -/
def shaBlocks (k : ShaKind) : Nat → List Byte → ShaVars → ShaVars
  | 0, _, h => h
  | i + 1, l, h => shaBlocks k i (l.drop (2 * k.w)) (shaBlock k h (beWords (k.w / 8) 16 (l.take (2 * k.w))))

/-- The padded message. -/
def shaPad (k : ShaKind) (l : List Byte) : List Byte :=
  let block := 2 * k.w
  let lenBytes := k.w / 4
  let used := l.length + 1 + lenBytes
  l ++ [0x80] ++ List.replicate ((block - used % block) % block) 0 ++ toBe lenBytes (8 * l.length)

def shaRun (k : ShaKind) (h : ShaVars) (l : List Byte) : ShaVars :=
  let p := shaPad k l
  shaBlocks k (p.length / (2 * k.w)) p h

def sha256 (l : List Byte) : List Byte :=
  let v := shaRun sha256Kind ⟨0x6A09E667, 0xBB67AE85, 0x3C6EF372, 0xA54FF53A,
    0x510E527F, 0x9B05688C, 0x1F83D9AB, 0x5BE0CD19⟩ l
  ([v.a, v.b, v.c, v.d, v.e, v.f, v.g, v.h].map (toBe 4)).flatten

def sha384 (l : List Byte) : List Byte :=
  let v := shaRun sha512Kind ⟨0xCBBB9D5DC1059ED8, 0x629A292A367CD507, 0x9159015A3070DD17, 0x152FECD8F70E5939,
    0x67332667FFC00B31, 0x8EB44A8768581511, 0xDB0C2E0D64F98FA7, 0x47B5481DBEFA4FA4⟩ l
  ([v.a, v.b, v.c, v.d, v.e, v.f].map (toBe 8)).flatten

/-- HMAC-SHA-256 under a key of at most 64 bytes. -/
def hmacSha256 (key msg : List Byte) : List Byte :=
  let k := padTo 64 key
  sha256 (k.map (· ^^^ 0x5C) ++ sha256 (k.map (· ^^^ 0x36) ++ msg))

end Sys2Proof.Machine
end

