-- ==== Sys2Proof/Machine/Otp.lean ====
section
/-! DEFINITION. OTP records (R472 to R475): slots, active generations, and the images that the board controller holds. -/

namespace Sys2Proof.Machine

/-- R473: offset, generations and slot bytes of a record type. -/
def otpMap : Nat → Nat × Nat × Nat
  | 1 => (0x0000, 1, 256)
  | 2 => (0x0100, 1, 2048)
  | 3 => (0x0900, 1, 64)
  | 4 => (0x0940, 4, 64)
  | 5 => (0x0A40, 4, 64)
  | 6 => (0x0B40, 4, 32)
  | 7 => (0x0BC0, 2, 32)
  | _ => (0, 0, 0)

/-- The bytes of a slot; generations count from 1. -/
def otpSlot (s : State) (type gen : Nat) : List Byte :=
  let m := otpMap type
  tgets 0 (m.1 + (gen - 1) * m.2.2) m.2.2 s.boot.otp

/-- R472: a slot that reads all zero is unprogrammed. -/
def programmed (l : List Byte) : Bool := l.any (· != 0)

/-- R472, R474: the CRC of a slot; a FLAG slot's CRC takes byte 6 as zero. -/
def slotCrc (type : Nat) (l : List Byte) : Word :=
  let body := l.take (l.length - 4)
  let body := if type = 7 then body.set 6 0 else body
  crc32c (body ++ [0, 0, 0, 0])

/-- R472: header and CRC of a slot. -/
def slotValid (type gen : Nat) (l : List Byte) : Bool :=
  fieldLe 0 1 l == type && fieldLe 1 1 l == gen && fieldLe 2 2 l == 0 &&
  fieldLe (l.length - 4) 4 l == (slotCrc type l).toNat

/-- R472: the highest generation programmed in OTP; 0 when none is. -/
def otpGen (s : State) (type : Nat) : Nat :=
  (List.range (otpMap type).2.1).foldl (fun g i => if programmed (otpSlot s type (i + 1)) then i + 1 else g) 0

/-- R472: every generation of the record is used. -/
def otpFull (s : State) (type : Nat) : Bool := otpGen s type == (otpMap type).2.1

/-- IDENT bytes (R474). -/
def identBytes (s : State) (o n : Nat) : List Byte := slice o n (otpSlot s 1 1)
def uidBytes (s : State) : List Byte := identBytes s 4 16
def clearKey (s : State) : List Byte := identBytes s 24 32
def bistKey (s : State) : List Byte := identBytes s 56 32

/-- R493: the board store's object of an OTP image. -/
def boardObject (type : Nat) : Nat := 0x10 + type

/-- R472: the image that the board controller holds, when its tag verifies. -/
def boardImage (s : State) (type : Nat) : Option (List Byte) :=
  match tfind (boardObject type) s.i3c.store with
  | none => none
  | some l =>
    let n := (otpMap type).2.2
    let img := l.take n
    if l.length = n + 32 ∧ l.drop n = hmacSha256 (bistKey s) (uidBytes s ++ img) then some img else none

/-- R472: the active record: the board controller's image once OTP is full and one is held, else the highest
generation in OTP. `none` in the second place when that one is unreadable. -/
def otpRecord (s : State) (type : Nat) : Nat × Option (List Byte) :=
  let g := otpGen s type
  if otpFull s type && (tfind (boardObject type) s.i3c.store).isSome then
    match boardImage s type with
    | some l => (fieldLe 1 1 l, if fieldLe 0 1 l = type then some l else none)
    | none => (g, none)
  else
    let l := otpSlot s type g
    (g, if slotValid type g l then some l else none)

/-- R67, R73: the number of the active KEYHASH generation, 1 to 4, or 0; a key that the board controller holds counts as the fourth
(log entry 150). -/
def keyGen (s : State) : Nat := min 4 (otpRecord s 4).1

/-- R414: the keys can be used: the key store is loaded and the log-clear key is programmed. -/
def keysUsable (s : State) : Bool := s.boot.keyStore && !s.boot.zeroised && programmed (clearKey s)

/-- R472: program bytes: a bit goes from 0 to 1 only. -/
def otpBurn (a : Nat) (bs : List Byte) (s : State) : State :=
  updBoot (fun b => { b with
    otp := tputs 0 a ((List.range bs.length).map fun i => tget 0 (a + i) b.otp ||| bs.getD i 0) b.otp }) s

/-- R482: PHL_BOOT_OTP_WIN shows OTP with the key fields as zero (R474, R475). -/
def otpShown (s : State) (a : Nat) : Byte := if 24 ≤ a ∧ a < 88 then 0 else tget 0 a s.boot.otp

/-- R472: the CRC of a slot is set over the slot with the CRC field as zero. -/
def withCrc (type : Nat) (l : List Byte) : List Byte := l.take (l.length - 4) ++ toLe 4 (slotCrc type l).toNat

/-- R472, R478: the record is held at the board controller. -/
def heldAtBoard (s : State) (type : Nat) : Bool := otpFull s type && (tfind (boardObject type) s.i3c.store).isSome

/-! ### Exchanges with the board store (R493) -/

/-- R493: raise the NEED of the first object that is still wanted, once none is outstanding. -/
def raiseNeed (s : State) : State :=
  match s.i3c.need, s.i3c.wanted with
  | none, o :: r =>
    oobAdd 5 [BitVec.ofNat 8 o] (updI3c (fun i => { i with need := some (o, s.now, []), wanted := r, store := tdel o i.store }) s)
  | _, _ => s

/-- R493: a stage needs objects. -/
def wantObjects (os : List Nat) (s : State) : State := raiseNeed (updI3c (fun i => { i with wanted := i.wanted ++ os }) s)

/-- R493: an object has been answered, or is treated as absent; R453: B3's slices wait for the shutdown record. -/
def needSettled (bytes : Option (List Byte)) (s : State) : State :=
  match s.i3c.need with
  | none => s
  | some (o, _, _) =>
    let s := if o = 2 then updBoot (fun b => { b with sliceStart := s.now }) s else s
    raiseNeed (updI3c (fun i => { i with need := none, store := match bytes with | some b => tset o b i.store | none => i.store }) s)

/-- R493: an exchange is outstanding. -/
def needing (s : State) : Bool := s.i3c.need.isSome || !s.i3c.wanted.isEmpty

/-- R493: the offer of an object begins. -/
def startOffer (obj : Nat) (bytes : List Byte) (s : State) : State :=
  oobAdd 6 (BitVec.ofNat 8 obj :: toLe 4 bytes.length) (updI3c (fun i => { i with offer := some (obj, s.now, bytes) }) s)

/-- R493: an object is offered to the board controller. While another is, it waits for the end of that offer; only the shutdown
record goes at once (log entry 168). -/
def offerObject (obj : Nat) (bytes : List Byte) (s : State) : State :=
  if s.i3c.offer.isSome && obj != 2 then updI3c (fun i => { i with offers := i.offers ++ [(obj, bytes)] }) s else startOffer obj bytes s

/-- R493: an offer ends, and that of the next object begins. -/
def nextOffer (s : State) : State :=
  let s := updI3c (fun i => { i with offer := none }) s
  match s.i3c.offers with
  | [] => s
  | (o, bytes) :: r => startOffer o bytes (updI3c (fun i => { i with offers := r }) s)

/-- R471: no shutdown record is sent. -/
def dropShutRecord (s : State) : State :=
  let s := updI3c (fun i => { i with offers := i.offers.filter fun x => x.1 != 2 }) s
  match s.i3c.offer with
  | some (2, _, _) => nextOffer s
  | _ => s

/-- R472: an image goes to the board controller with its tag under BIST_KEY over the UID and the image. -/
def offerImage (type : Nat) (img : List Byte) (s : State) : State :=
  offerObject (boardObject type) (img ++ hmacSha256 (bistKey s) (uidBytes s ++ img)) s

end Sys2Proof.Machine
end

