-- ==== Sys2Proof/Machine/Tempo.lean ====
section
/-! DEFINITION. Tempo (R283 to R299). Set-points are in units of 0.5 mV. -/

namespace Sys2Proof.Machine

def second : Nat := 1000000000

/-- The tempo controller as a source of records (R401). -/
def srcTempo : BitVec 16 := srcCaller 6

/-- R296: the policy in force, when its section is present and ENABLE is set. -/
def tempoPolicy (s : State) : Option TempoPolicy := (s.cfg.active.bind (·.tempo)).filter (·.enable)

/-- R284, R296: SETTLE_US in ns, of the section in force, enabled or not; its default without one. -/
def settleNs (s : State) : Nat := ((s.cfg.active.bind (·.tempo)).map (·.settleUs)).getD 200 * 1000

/-- R474: VMIN[d] in mV; 0 when absent or unreadable. -/
def vmin (s : State) (d : Nat) : Nat :=
  match (otpRecord s 3).2 with
  | none => 0
  | some l => fieldLe (4 + 2 * d) 2 l

/-- R513: PHL_CFG_TEMPO_OVR narrows the domains. -/
def ovrAllows (s : State) (d : Nat) : Bool :=
  let o := s.cfg.tempoOvr.toNat
  !bit o 31 || bit o d

/-- R91, R285, R288, R296, R513: tempo is enabled for a domain. -/
def tempoEnabled (s : State) (d : Nat) : Bool :=
  match tempoPolicy s with
  | none => false
  | some p =>
    !s.tempo.off && (domain s d).negotiated && bit p.domains d && ovrAllows s d && vmin s d != 0 && decide (2 * (vmin s d + p.floorMargin) < 1495)

/-- R293: the learned floor while it is unexpired. -/
def learnedNow (s : State) (d : Nat) : Nat := if s.now < (domain s d).learnedEnd then (domain s d).learned else 0

/-- R288: the floor of a domain under a policy. -/
def floorUnder (s : State) (d : Nat) (p : TempoPolicy) : Nat :=
  max (max (2 * (vmin s d + p.floorMargin)) (1500 - 2 * p.maxHarvest)) (learnedNow s d)

/-- R288: the floor of a domain. -/
def tempoFloor (s : State) (d : Nat) : Nat := ((tempoPolicy s).map (floorUnder s d)).getD 0

/-- R293: the lowest set-point in force in the last 60 s. -/
def lowestRecent (s : State) (d : Nat) : Nat :=
  ((domain s d).history.filter fun x => s.now < x.1 + 60 * second).foldl (fun m x => min m x.2) (domain s d).setpoint

/-- A set-point changes; the one that ends is remembered for 60 s. -/
def setPoint (d v : Nat) (s : State) : State :=
  updDomain d (fun x => { x with
    setpoint := v
    history := if v = x.setpoint then x.history
      else (s.now, x.setpoint) :: x.history.filter fun h => s.now < h.1 + 60 * second }) s

/-- The backoff of a domain that has not completed (R294). -/
def openBackoff (s : State) (d : Nat) : Option AvsCmd := (domain s d).cmd.filter (·.kind == 3)

/-- R284: the set-point is written, rounded up to a whole mV; the readback follows after SETTLE_US. A backoff that has not
completed goes on with the new value (R294). -/
def avsCommand (d kind old cause : Nat) (p2 : Word) (s : State) : State :=
  let mv := ((domain s d).setpoint + 1) / 2
  let c : AvsCmd := match openBackoff s d with
    | some c => { c with mv := mv, since := s.now, settle := settleNs s, again := false }
    | none => { mv := mv, since := s.now, settle := settleNs s, again := false, kind := kind, old := old, cause := cause, p2 := p2
                merged := 1, prev := s.tempo.lastDescent }
  updOut (fun o => { o with avs := (d, mv) :: o.avs }) (updDomain d (fun x => { x with cmd := some c, frame := none }) s)

/-- STATE of a domain that is enabled and holds nothing (R299). -/
def idleState (x : Domain) : Nat := if x.locked then 6 else 1

/-- R297: a slack as an 8-bit field. -/
def interval8 (v : Int) : Nat := ((v + 256) % 256).toNat

/-- R290, R294, R297: TEMPO_STEP: a descent, or a rise to the floor. -/
def recordStep (rise : Bool) (d old : Nat) (s : State) : State :=
  let x := domain s d
  occur 0x4001 srcTempo (d + 16 * b2n rise) old (x.setpoint + 65536 * interval8 x.canary) s

/-- R294: a rise to the floor, or where `steps` a descent too, that a further command replaces is recorded now. -/
def recordReplaced (steps : Bool) (d : Nat) (s : State) : State :=
  match (domain s d).cmd with
  | some c => if c.kind = 2 then recordStep true d c.old s else if steps ∧ c.kind = 1 then recordStep false d c.old s else s
  | none => s

/-- R294: a domain returns to 750.0 mV; a hold goes on. -/
def toNominal (d : Nat) (s : State) : State :=
  if (domain s d).setpoint = 1500 then updDomain d (fun x => { x with chosen := false }) s
  else
    let s := recordReplaced false d s
    let old := (domain s d).setpoint
    avsCommand d 0 old 0 0 (setPoint d 1500 (updDomain d (fun x => { x with
      chosen := false, state := if x.state = 2 ∨ x.state = 3 ∨ x.state = 5 then 1 else x.state }) s))

def allNominal : List Nat → State → State
  | [], s => s
  | d :: r, s => allNominal r (toNominal d s)

/-- R294: the chip leaves SERVING. -/
def leaveServing (s : State) : State := allNominal (List.range 16) s

/-! ### Backoffs (R292 to R294) -/

/-- R293: backoffs within LOCK_WINDOW_S. -/
def backoffsInWindow (s : State) (d windowS : Nat) : Nat :=
  ((domain s d).backoffs.filter fun t => s.now < t + windowS * second).length

/-- R293: a domain whose backoffs reach LOCK_COUNT is locked at 750.0 mV. -/
def lockDomain (d : Nat) (p : TempoPolicy) (s : State) : State :=
  let n := backoffsInWindow s d p.lockWindowS
  if p.lockCount ≤ n then
    let s := setPoint d 1500 s
    let s := updOut (fun o => { o with avs := (d, 750) :: o.avs })
      (updDomain d (fun x => { x with state := 6, locked := true, cmd := x.cmd.map fun c => { c with mv := 750, since := s.now, again := false }, frame := none }) s)
    occur 0x4003 srcTempo d n p.lockWindowS s
  else s

/-- R294, R299: a descent step of the same instant is cancelled: the set-point is again the one before it. -/
def cancelStep (d : Nat) (s : State) : State :=
  match (domain s d).cmd with
  | none => s
  | some c =>
    if c.kind = 1 ∧ c.since = s.now then
      updOut (fun o => { o with avs := dropFirst (fun x => x == (d, c.mv)) o.avs })
        (updTempo (fun t => { t with lastDescent := c.prev })
          (updDomain d (fun x => { x with setpoint := min 1500 c.old, history := x.history.drop 1, cmd := none }) s))
    else s

/-- R293: a backoff that has started: the set-point rises by STEP_UP, and the floor below which the domain learned not to go. -/
def startBackoff (d cause : Nat) (p2 : Word) (p : TempoPolicy) (s : State) : State :=
  let s := recordReplaced false d s
  let x := domain s d
  let floor := max (learnedNow s d) (lowestRecent s d + p.stepDown)
  let s := setPoint d (min 1500 (x.setpoint + 2 * p.stepUp)) s
  let s := updDomain d (fun x => { x with
    learned := floor, learnedEnd := s.now + p.learnS * second, state := if x.locked then 6 else 4 }) s
  lockDomain d p (avsCommand d 3 x.setpoint cause p2 s)

/-- R293, R296: the times of backoffs that some LOCK_WINDOW_S may still count. -/
def keepBackoffs (now : Nat) (l : List Nat) : List Nat := l.filter fun t => now < t + 604800 * second

/-- R292 to R294: a backoff trigger of an enabled domain; it merges into a backoff that has not completed, and a lock that this
has brought already stays as it is. -/
def backoff (d cause : Nat) (p2 : Word) (s : State) : State :=
  match tempoPolicy s with
  | none => s
  | some p =>
    if !tempoEnabled s d ∨ callerOff s then s
    else
      let s := updDomain d (fun x => { x with
        chosen := false, cause := cause, holdEnd := s.now + p.holdS * second, backoffs := s.now :: keepBackoffs s.now x.backoffs }) (cancelStep d s)
      match openBackoff s d with
      | some c =>
        let s := updDomain d (fun x => { x with cmd := some { c with merged := c.merged + 1 } }) s
        if (domain s d).locked then s else lockDomain d p s
      | none => startBackoff d cause p2 p s

/-- R292: an event of a physical core is attributed to its cluster's domain. -/
def backoffCore (c cause : Nat) (p2 : Word) (s : State) : State := backoff (c / 16) cause p2 s

/-! ### Descent (R289, R290) -/

/-- R289.8: the in-service stations of a domain. -/
def stationsSound (s : State) (d : Nat) : Bool :=
  (List.range 16).all fun i =>
    let c := 16 * d + i
    !inService s c || ((station s c).faulty == [] && (station s c).tapVer != 1 && (station s c).tapVer != 0)

/-- R289, apart from the evidence of the interval that has ended: conditions 1 to 4, 6, 8 and 9. R467: not during a shutdown, which
returns every domain to nominal. -/
def mayDescend (s : State) (d : Nat) (p : TempoPolicy) : Bool :=
  let x := domain s d
  s.led.state == 1 && s.boot.shutdown == 0 && tempoEnabled s d && decide (x.holdEnd ≤ s.now) && !x.locked && !s.tempo.limit && !s.tempo.limitSeen &&
  s.tempo.reported && !s.tempo.aboveHalf &&
  decide ((x.fails.filter fun f => s.now < f.1 + p.failWindowS * second).length ≤ p.failMax) &&
  stationsSound s d && decide (tempoFloor s d + p.stepDown ≤ x.setpoint)

/-- R289: eligible at the interval's end. -/
def eligibleDescent (s : State) (d : Nat) (p : TempoPolicy) : Bool :=
  mayDescend s d p && decide ((p.canaryMin : Int) ≤ (domain s d).slack) &&
  decide (p.evidence ≤ (domain s d).passes)

/-- R290: the state of one domain at the interval's end, and whether it is to descend: one that is eligible keeps its state until
it does. -/
def evalDomain (s : State) (d : Nat) : Nat × Bool :=
  match tempoPolicy s with
  | none => (0, false)
  | some p =>
    let x := domain s d
    if !tempoEnabled s d then (0, false)
    else if x.locked then (6, false)
    else if s.now < x.holdEnd then (4, false)
    else if s.tempo.limitSeen then (5, false)
    else if x.setpoint < tempoFloor s d + p.stepDown then (3, false)
    else if eligibleDescent s d p then (x.state, true)
    else (1, false)

def evalDomains : List Nat → State → State
  | [], s => s
  | d :: r, s =>
    let e := evalDomain s d
    evalDomains r (updDomain d (fun x => { x with
      state := e.1, chosen := e.2, canary := x.slack, slack := 100, passes := 0 }) s)

/-- R287, R290: the evaluation interval ends. -/
def tempoEvaluate (s : State) : State :=
  match tempoPolicy s with
  | none => s
  | some p =>
    if s.now < s.tempo.began + p.evalS * second ∨ tableauHolds s ∨ callerOff s then s
    else updTempo (fun t => { t with began := s.now, limitSeen := t.limit }) (evalDomains (List.range 16) s)

/-- R290: the chosen domain of lowest number descends once its spacing has passed, if it still may. -/
def tempoDescend (d : Nat) (s : State) : State :=
  match tempoPolicy s with
  | none => s
  | some p =>
    let x := domain s d
    if !x.chosen ∨ ((List.range d).any fun k => (domain s k).chosen) ∨ s.now < s.tempo.lastDescent + p.spacingMs * 1000000 ∨ tableauHolds s ∨ callerOff s then s
    else if !mayDescend s d p ∨ x.cmd.isSome then updDomain d (fun x => { x with chosen := false }) s
    else
      let s := setPoint d (x.setpoint - p.stepDown) s
      let s := updDomain d (fun x => { x with chosen := false, state := 2 }) s
      updTempo (fun t => { t with lastDescent := s.now }) (avsCommand d 1 x.setpoint 0 0 s)

/-- R294: a new policy's floor lies above the set-point: the domain rises to it, after a step in progress. The rise is recorded
when it is complete, or at once while a backoff has not completed. -/
def riseToFloor (d : Nat) (s : State) : State :=
  let s := recordReplaced true d s
  let old := (domain s d).setpoint
  let s' := avsCommand d 2 old 0 0 (setPoint d (min 1500 (tempoFloor s d)) s)
  if (openBackoff s d).isSome then recordStep true d old s' else s'

/-- R294, R296: the policy or its override has changed: domains that it removes return to nominal, a floor above a
set-point raises it, and a new policy section unlocks. -/
def applyPolicy (unlock : Bool) : List Nat → State → State
  | [], s => s
  | d :: r, s =>
    let s := if unlock then updDomain d (fun x => { x with locked := false }) s else s
    let s :=
      if !tempoEnabled s d then updDomain d (fun x => { x with state := 0 }) (toNominal d s)
      else
        let x := domain s d
        let s := if x.state = 0 ∨ x.state = 6 then updDomain d (fun x => { x with state := idleState x }) s else s
        if x.setpoint < min 1500 (tempoFloor s d) then riseToFloor d s else s
    applyPolicy unlock r s

/-! ### The regulators (R284, R285) -/

/-- R297: TEMPO_BACKOFF, with the triggers that it merged. -/
def recordBackoff (d : Nat) (c : AvsCmd) (s : State) : State :=
  let x := domain s d
  occur 0x4002 srcTempo (d + 16 * c.cause + 256 * min 255 c.merged) c.p2.toNat (x.setpoint + 65536 * x.learned) s

/-- R285: an AVS fault: recorded, VSAFE_N asserted, tempo disabled until power-on, every set-point at 750.0 mV. A backoff that
this cuts short is recorded. -/
def avsFault (d kind written readBack : Nat) (s : State) : State :=
  let s := occur 0x4004 (srcAvs d) (d + 16 * kind) written readBack s
  let s := updTempo (fun t => { t with vsafe := true, off := true }) s
  let s := recordReplaced false d (match openBackoff s d with | some c => recordBackoff d c s | none => s)
  let s := updDomain d (fun x => { x with fault := true, cmd := none, frame := none }) s
  applyPolicy false (List.range 16) s

/-- Other frames on a domain's port (R284). -/
def avsSend (d : Nat) (fs : List AvsFrame) : State → State :=
  updOut fun o => { o with avsFrames := (fs.map fun f => (d, f)).reverse ++ o.avsFrames }

/-- R284, R297: a command is complete; a domain that descended stays DESCENDING until the next interval end (R290). -/
def avsComplete (d vout : Nat) (c : AvsCmd) (s : State) : State :=
  let s := updDomain d (fun x => { x with readback := vout, cmd := none, frame := none }) s
  match c.kind with
  | 1 => recordStep false d c.old s
  | 2 => recordStep true d c.old s
  | 3 => recordBackoff d c s
  | _ => s

/-- R284, R285: Vout is read back SETTLE_US after the write; the output current and the status are read with it, for telemetry
(log entry 144). -/
def avsSettled (d vout : Nat) (s : State) : State :=
  match (domain s d).cmd with
  | none => s
  | some c =>
    if s.now < c.since + c.settle ∨ callerOff s then s
    else
      let s := avsSend d [.vout, .current, .status] s
      if vout ≤ c.mv + 5 ∧ c.mv ≤ vout + 5 then avsComplete d vout c s
      else
        let s := updDomain d (fun x => { x with readback := vout }) s
        if c.again then avsFault d 3 c.mv vout s
        else updDomain d (fun x => { x with cmd := some { c with again := true, since := s.now } }) s

/-- R285: the failures of the frame that fails now: when it failed first, and how often within 20 µs. -/
def frameFailures (now : Nat) (k : FrameKind) (x : Domain) : Nat × Nat :=
  match x.frame with
  | some (j, t, n) => if j = k ∧ now ≤ t + 20000 then (t, n + 1) else (now, 1)
  | none => (now, 1)

/-- R285: a frame fails, in a set-point command or outside one; it is retried twice within 20 µs. -/
def avsFrameFailed (d : Nat) (k : FrameFailure) (s : State) : State :=
  if callerOff s then s
  else
    let x := domain s d
    let f := frameFailures s.now k.frame x
    if f.2 ≤ 2 then updDomain d (fun x => { x with frame := some (k.frame, f) }) s
    else avsFault d (if k.crcBad then 2 else 1) ((x.cmd.map (·.mv)).getD ((x.setpoint + 1) / 2)) 0 s

/-- R287: slack in whole percent from −100 to +100. -/
def clampSlack (v : Int) : Int := max (-100) (min 100 v)

/-- R287, R292: a canary reports. -/
def canaryReports (d canary : Nat) (slack : Int) (s : State) : State :=
  if callerOff s then s
  else
    let s := updDomain d (fun x => { x with slack := min x.slack (clampSlack slack) }) s
    match tempoPolicy s with
    | some p => if clampSlack slack ≤ (p.canaryTrip : Int) then backoff d 4 (BitVec.ofNat 32 canary) s else s
    | none => s

/-! ### The meanings -/

/-- R58, R291. -/
def execLimitActiveChange (t : Nat) (active : Bool) (s : State) : Host.Outcome State Fault Refusal :=
  .next (updTempo (fun x => { x with limit := active, limitSeen := x.limitSeen || active }) (atTime t s))

/-- R11, R58: a cluster's clock changes its frequency at an instant; the earlier one is kept for the spans that it covers. -/
def changeFreq (k mhz at_ : Nat) (s : State) : State :=
  let past : List (Nat × Nat) := tget [] k s.tempo.freqPast
  let at_ := max (match past with | x :: _ => x.1 | [] => 0) (min at_ s.now)
  updTempo (fun x => { x with
    freq := tput 1100 k mhz x.freq, freqPast := tput [] k ((at_, tget 1100 k x.freq) :: past) x.freqPast }) s

/-- R58, R287, R294: a notice changes nothing in tempo; the frequency that it gives is kept. -/
def execFrequencyChangeNotice (t : Nat) (cluster : Cluster) (mhz : Nat) (at_ : Nat) (s : State) :
    Host.Outcome State Fault Refusal :=
  .next (changeFreq cluster.val mhz at_ (atTime t s))

/-- R287, R292. -/
def execCanaryReport (t : Nat) (domain : Cluster) (canary : Nat) (slack : Int) (s : State) : Host.Outcome State Fault Refusal :=
  .next (canaryReports domain.val canary slack (atTime t s))

/-- R290. -/
def execTempoEvaluation (t : Nat) (s : State) : Host.Outcome State Fault Refusal :=
  .next (tempoEvaluate (atTime t s))

/-- R290. -/
def execTempoStep (t : Nat) (domain : Cluster) (s : State) : Host.Outcome State Fault Refusal :=
  .next (tempoDescend domain.val (atTime t s))

/-- R293: the hold of a domain ends, and it becomes WAITING. -/
def execTempoHoldEnd (t : Nat) (d : Cluster) (s : State) : Host.Outcome State Fault Refusal :=
  let s := atTime t s
  .next (if (domain s d.val).holdEnd = 0 ∨ s.now < (domain s d.val).holdEnd ∨ callerOff s then s
    else updDomain d.val (fun x => { x with holdEnd := 0, state := if x.state = 4 then 1 else x.state }) s)

/-- R293: a learned floor expires. -/
def execLearnedFloorExpiry (t : Nat) (d : Cluster) (s : State) : Host.Outcome State Fault Refusal :=
  let s := atTime t s
  .next (if s.now < (domain s d.val).learnedEnd ∨ callerOff s then s
    else updDomain d.val (fun x => { x with learned := 0, learnedEnd := 0 }) s)

/-- R284, R285. -/
def execAvsSettleExpiry (t : Nat) (domain : Cluster) (vout : Nat) (s : State) : Host.Outcome State Fault Refusal :=
  .next (avsSettled domain.val vout (atTime t s))

/-- R285. -/
def execAvsFrameFail (t : Nat) (domain : Cluster) (failure : FrameFailure) (s : State) : Host.Outcome State Fault Refusal :=
  .next (avsFrameFailed domain.val failure (atTime t s))

end Sys2Proof.Machine
end

