-- ==== Sys2Proof/Machine/Ledger.lean ====
section
/-! DEFINITION. The coverage ledger and the service states (R257 to R282). -/

namespace Sys2Proof.Machine

/-- The ledger as a source of records (R401). -/
def srcLedger : BitVec 16 := srcCaller 5

def ledgerPolicy (s : State) : Option LedgerPolicy := s.cfg.active.map (·.ledger)

/-! ### The bound (R262 to R266) -/

/-- A share or credit in units of 1/65,536. -/
def share (n : Nat) : Dy := ⟨n, -16⟩

/-- R260: cores whose last completed rehearsal passed within REH_REF of now. -/
def coresRehearsed (s : State) (p : LedgerPolicy) : Nat :=
  ((serviceCores s).filter fun c =>
    match (station s c).reh.lastPass with
    | some t => decide (s.now ≤ t + p.rehRefS * second)
    | none => false).length

/-- R262, R264: the coverage of an interval; it and its terms are rounded downward. -/
def coverageOf (s : State) (p : LedgerPolicy) : Dy :=
  let l := s.led
  let ratio := fun (a : Dy) (n : Nat) => if n = 0 then (⟨1, 0⟩ : Dy) else f64Div false a (f64OfNat true n)
  let cs := (serviceCores s).length
  let cM := ratio (f64OfNat false l.mc) l.mt
  let cV := ratio (f64Add false (f64OfNat false l.vc) (f64Mul false (share p.eVf) (f64OfNat false l.vf))) l.vt
  let cMV := ratio (f64OfNat false l.bc) l.bt
  let cR : Dy := if cs = 0 then ⟨0, 0⟩ else f64Div false (f64Mul false (share p.eR) (f64OfNat false (coresRehearsed s p))) (f64OfNat true cs)
  f64Add false (f64Add false (f64Add false (f64Mul false (share p.fMatrix) cM) (f64Mul false (share p.fVector) cV))
    (f64Mul false (share p.fMover) cMV)) (f64Mul false (share p.fResidual) cR)

/-- R263: ns SERVING in the interval so far. -/
def servedNs (s : State) : Nat := s.led.served + (match s.led.servingSince with | some t => s.now - t | none => 0)

/-- R263, R264: X with the interval's exposure. -/
def exposure (s : State) (c : Dy) : Dy :=
  f64Add true (f64Val s.led.x) (f64Mul true c (roundQ true (servedNs s) (3600 * second)))

/-- What the ledger computes at an interval's end: coverage, X, k, lambda95 and UWR. -/
structure Bound where
  deficit  : Dy
  x        : Dy
  k        : Nat
  lambda95 : Dy
  uwr      : Dy
deriving DecidableEq, Repr

/-- R264: the bound of an interval in which the chip was SERVING: coverage is rounded downward, every other step upward. Where
verdicts counted in a later interval than their retires make coverage exceed 1, DEFICIT and UWR are negative (log entry 164). -/
def computeBound (s : State) (p : LedgerPolicy) : Bound :=
  let c := coverageOf s p
  let x := exposure s c
  let k := s.led.k + s.led.kInterval
  let lam := f64Div true (chi95 (2 * (p.alpha0 + k))) (f64Mul true ⟨2, 0⟩ (f64Add true (f64OfNat true p.beta0) x))
  let d := f64Sub true ⟨1, 0⟩ c
  { deficit := d, x := x, k := k, lambda95 := lam, uwr := f64Mul true lam d }

/-- The bound as the last report gave it, with the faults confirmed since (log entry 46). -/
def reportedBound (s : State) : Bound :=
  let at_ := fun (i : Nat) => f64Val (BitVec.ofNat 64 (fieldLe i 8 s.led.report))
  { deficit := at_ 40, x := f64Val s.led.x, k := s.led.k + s.led.kInterval, lambda95 := at_ 32, uwr := at_ 24 }

/-- R264: the bound is computed while the chip is SERVING, or was in the interval; else the last one stands. -/
def boundOf (s : State) (p : LedgerPolicy) : Bound :=
  if s.led.state = 1 ∨ servedNs s ≠ 0 ∨ s.led.report = [] then computeBound s p else reportedBound s

/-! ### Reports (R270, R271) -/

def sat8 (v : Nat) : Nat := min 255 v

/-- R270: bytes 0 to 123 of a report. -/
def reportBody (s : State) (p : LedgerPolicy) (b : Bound) (flags : Nat) : List Byte :=
  let l := s.led
  let det := fun (i : Nat) => tget 0 i l.det
  toLe 2 2 ++ toLe 2 128 ++ toLe 2 s.boot.chip.toNat ++
  [BitVec.ofNat 8 (coverageNow s).mode, BitVec.ofNat 8 l.state] ++
  toLe 8 s.now ++ toLe 4 l.seq ++ toLe 4 s.cfg.epoch.toNat ++
  toLe 8 (f64Bits b.uwr).toNat ++ toLe 8 (f64Bits b.lambda95).toNat ++ toLe 8 (f64Bits b.deficit).toNat ++
  toLe 8 (f64Bits b.x).toNat ++ toLe 4 b.k ++ toLe 4 l.stationFaults ++
  toLe 8 l.mt ++ toLe 8 l.mc ++ toLe 8 l.bt ++ toLe 8 l.bc ++
  toLe 4 l.vt ++ toLe 4 l.vc ++ toLe 4 l.vf ++ toLe 2 (coresRehearsed s p) ++ toLe 2 (serviceCores s).length ++
  ((List.range 6).map fun i => BitVec.ofNat 8 (sat8 (det i))) ++ toLe 2 (min 0xFFFF (det 6)) ++
  [BitVec.ofNat 8 flags, 0, 0, 0]

/-- R494: the carry record. -/
def carryRecord (s : State) (x : DWord) (k : Nat) : List Byte :=
  let body := uidBytes s ++ toLe 8 x.toNat ++ toLe 4 k
  body ++ toLe 4 (crc32c body).toNat

/-- R270, R386: the destination of management messages: FM_ADDR at FM_CHIP of the policy in force, or of the last one. -/
def fmOf (s : State) : Option (ChipId × DWord) :=
  match ledgerPolicy s with
  | some p => some (p.fmChip, p.fmAddr)
  | none => s.led.fm

/-- R270, R386: a management message to the fabric manager; without a policy since power-on there is nowhere to send it. -/
def sendMgmt (bytes : List Byte) (s : State) : State :=
  match fmOf s with
  | some a => updOut (fun o => { o with mgmt := (a, bytes) :: o.mgmt }) s
  | none => s

/-- R266, R270, R271: build, send, store and record a report. Runs above target are runs of intervals: an unscheduled report
neither starts nor ends one, and the one made on entry to SERVING is not the report for which tempo waits (log entry 47). -/
def makeReport (unscheduled : Bool) (p : LedgerPolicy) (b : Bound) (s : State) : State :=
  let target := p.target
  let above := decide (target * dyDen b.uwr < dyNum b.uwr * 1000000000000)
  let half := decide (target * dyDen b.uwr < 2 * (dyNum b.uwr * 1000000000000))
  let flags := b2n above + 2 * b2n half + 4 * b2n s.led.carried + 8 * b2n unscheduled
  let body := reportBody s p b flags
  let rep := body ++ toLe 4 (crc32c body).toNat
  let seq := s.led.seq
  let first := above && !s.led.aboveRun && !unscheduled
  let u := min 0xFFFFFFFF (ceilTimes 1000000000000 b.uwr)
  let def6 := min 0xFFFFFF (ceilTimes 1000000 b.deficit)
  let mode := (coverageNow s).mode
  let s := updLed (fun l => { l with
    seq := l.seq + 1, uwr := f64Bits b.uwr, report := rep, aboveTarget := above, aboveRun := if unscheduled then l.aboveRun else above }) s
  let s := updTempo (fun t => { t with aboveHalf := half, reported := t.reported || (s.led.state == 1 && !unscheduled) }) s
  let s := sendMgmt rep s
  let s := if p.carry then oobAdd 4 (carryRecord s (f64Bits b.x) b.k) s else s
  let s := occur 0x3003 srcLedger seq u (def6 + mode * 2 ^ 24 + s.led.state * 2 ^ 28) s
  if first then occur 0x3004 srcLedger seq u target s else s

/-- R269: what a report goes by while no LEDGER_POLICY is in force: no prior, no credits, and the defaults (log entry 47). -/
def noPolicy : LedgerPolicy :=
  { alpha0 := 0, beta0 := 0, fMatrix := 0, fVector := 0, fMover := 0, fResidual := 0, eVf := 0, eR := 0, rehRefS := 600
    suspectCount := 3, stationCount := 3, windowS := 86400, drainMs := 10000, carry := false, target := 20000, fmChip := 0, fmAddr := 0 }

/-- R270: a report on a change of state covers the part of the interval served so far; the interval goes on. Without a policy
in force the last bound stands. -/
def unscheduledReport (s : State) : State :=
  if callerOff s then s
  else
    match ledgerPolicy s with
    | none => makeReport true noPolicy (reportedBound s) s
    | some p => makeReport true p (boundOf s p) s

/-- LEDGER_INTERVAL_END (R264, R266). -/
def intervalEnds (s : State) : State :=
  match ledgerPolicy s with
  | none => s
  | some p =>
    if !s.led.running ∨ s.now < s.led.began + 60 * second ∨ callerOff s then s
    else
      let b := boundOf s p
      let s := makeReport false p b s
      updLed (fun l => { l with
        x := f64Bits b.x, k := b.k, kInterval := 0, mt := 0, mc := 0, vt := 0, vc := 0, vf := 0, bt := 0, bc := 0
        det := [], served := 0, servingSince := l.servingSince.map fun _ => s.now
        began := l.began + 60 * second }) s

/-! ### Service states (R272, R275) -/

/-- R503, R294, R263: what goes with a change of service state. -/
def setState (v : Nat) (s : State) : State :=
  let s := if s.led.state = 1 ∧ v ≠ 1 then
      leaveServing (updLed (fun l => { l with served := servedNs s, servingSince := none }) s)
    else if s.led.state ≠ 1 ∧ v = 1 then
      updTempo (fun t => { t with reported := false }) (updLed (fun l => { l with servingSince := some s.now }) s)
    else s
  msix 0 (updLed (fun l => { l with state := v }) s)

def openAll (reason : Nat) : List Nat → State → State
  | [], s => s
  | c :: r, s => openAll reason r (openAtUnsealed c reason s)

def endAll (cause : Nat) : List Nat → State → State
  | [], s => s
  | c :: r, s => endAll cause r (endContext c cause s)

/-- R275 step 3: contexts without an enabled SEAL entry have their boundary at E. -/
def boundaryAtE (s : State) : List Nat :=
  (s.ctxs.filter fun x => match x.2.seal_ with | some e => !e.enabled | none => true).map (·.1)

/-- R474, R492: bytes 4 to 19 of the FLAG record. -/
def flagBody (s : State) : List Byte :=
  [BitVec.ofNat 8 (s.led.cause + 16 * s.led.unit), BitVec.ofNat 8 s.led.core, 0, BitVec.ofNat 8 s.led.engines] ++
  toLe 8 s.led.e ++ toLe 4 s.led.eEpoch.toNat

/-- R275 step 2, and step 3 for the contexts without seals. -/
def drainBegins (s : State) : State :=
  let s := oobAdd 3 (flagBody s) s
  let s := unscheduledReport s
  endAll 2 (boundaryAtE s) s

/-- R273, R275, R277: a quarantine trigger. -/
def suspect (cause unit core mask : Nat) (p3 : Word) (s : State) : State :=
  let s := updLed (fun l => { l with charged := l.charged ||| BitVec.ofNat 256 (2 ^ core) }) s
  let record := occur 0x3001 srcLedger (cause + 16 * unit + 256 * mask) core p3.toNat
  if s.led.state = 1 then
    let s := setState 2 s
    let s := updLed (fun l => { l with
      cause := cause, unit := unit, core := core, engines := mask, e := s.now, eEpoch := s.cfg.epoch, drainHeld := 0
      limitEnded := 0, quiescent := false }) s
    let s := openAll 6 (s.ctxs.map (·.1)) s
    drainBegins (record s)
  else record s

/-- R391: the reset count. -/
def outOfService (count windowS : Nat) (seq : Word) (s : State) : State :=
  let record := occur 0x7003 (srcCaller 0) count windowS seq.toNat
  if s.led.state = 1 then
    let s := setState 4 s
    let s := updLed (fun l => { l with
      cause := 6, unit := 0, core := 0, engines := 0, e := s.now, eEpoch := s.cfg.epoch, drainHeld := 0, limitEnded := 0
      quiescent := false }) s
    let s := openAll 6 (s.ctxs.map (·.1)) s
    drainBegins (record s)
  else if s.led.state = 2 then unscheduledReport (record (setState 4 s))
  else s

/-! ### What is counted (R260, R261, R273) -/

/-- R282: how many events of a unit lie within WINDOW_S. -/
def inWindow (s : State) (windowS core unit : Nat) : Nat :=
  ((tget [] (core * 8 + unit) s.led.windows).filter fun t => s.now < t + windowS * second).length

def windowPut (core unit : Nat) (s : State) : State :=
  updLed (fun l => { l with windows := tput [] (core * 8 + unit) ((s.now :: tget [] (core * 8 + unit) l.windows).take 15) l.windows }) s

/-- R261: one of the detection counts: 0 TRANSIENT, 1 PERSISTENT, 2 STATION, 3 INSTABILITY, 4 UNRESOLVED, 5 REH_FAIL,
6 REH_PASS. -/
def countDet (i : Nat) (s : State) : State :=
  updLed (fun l => { l with det := tput 0 i (satAdd 0xFFFF (tget 0 i l.det) 1) l.det }) s

/-- R264: a confirmed fault enters the bound. -/
def countConfirmed (s : State) : State := updLed (fun l => { l with kInterval := l.kInterval + 1 }) s

/-- R273: a confirmed fault counts against an engine, and the count may be a trigger. -/
def chargeEngine (core q : Nat) (tag : Word) (s : State) : State :=
  let s := windowPut core q s
  match ledgerPolicy s with
  | some p => if p.suspectCount ≤ inWindow s p.windowS core q then suspect 2 q core (2 ^ q) tag s else s
  | none => s

/-- R261, R273: a station fault. -/
def stationFault (core : Nat) (tag : Word) (s : State) : State :=
  let s := countDet 2 (updLed (fun l => { l with stationFaults := l.stationFaults + 1 }) s)
  let s := windowPut core 4 s
  match ledgerPolicy s with
  | some p => if p.stationCount ≤ inWindow s p.windowS core 4 then suspect 5 4 core 0 tag s else s
  | none => s

/-- R274: a unit that meets the new policy's counts when it takes effect. -/
def recheckUnits (p : LedgerPolicy) : List Nat → State → State
  | [], s => s
  | i :: r, s =>
    let n := inWindow s p.windowS (i / 8) (i % 8)
    let s :=
      if i % 8 = 4 ∧ p.stationCount ≤ n then suspect 5 4 (i / 8) 0 0 s
      else if i % 8 < 4 ∧ p.suspectCount ≤ n then suspect 2 (i % 8) (i / 8) (2 ^ (i % 8)) 0 s
      else s
    recheckUnits p r s

/-! ### The drain (R275, R276) -/

def draining (s : State) : Bool := (s.led.state == 2 || s.led.state == 4) && !s.led.quiescent

/-- R276: no context, pending CU, adjudication, replay or item at a gate point is left. -/
def drainedNow (s : State) : Bool :=
  s.ctxs == [] && (s.stations.all fun x => x.2.cus.all fun u => !u.pending) && s.adj.slots == [] && s.adj.queue == [] &&
  s.adj.replays == [] && ((List.range 38).all fun g => (gate s g).items == [] && (gate s g).waiting == [])

/-- DRAIN_LIMIT_EXPIRY (R275). -/
def drainLimit (s : State) : State :=
  match ledgerPolicy s with
  | none => s
  | some p =>
    if !draining s ∨ tableauHolds s ∨ callerOff s ∨ s.now < s.led.e + s.led.drainHeld + p.drainMs * 1000000 then s
    else
      let cs := s.ctxs.map (·.1)
      updLed (fun l => { l with limitEnded := l.limitEnded + cs.length }) (endAll 3 cs s)

/-- R276, R474: the FLAG record is written to the next generation, or goes to the board controller. -/
def writeFlag (s : State) : State :=
  let g := otpGen s 7
  let img := withCrc 7 ([7, BitVec.ofNat 8 (g + 1), 0, 0] ++ flagBody s ++ List.replicate 12 0)
  if g < 2 then
    updLed (fun l => { l with flag := g + 1 }) (otpBurn (0x0BC0 + 32 * g) img s)
  else updLed (fun l => { l with flag := 3 }) (offerImage 7 img s)

/-- DRAINED (R275 step 4). R277: after an L4 not before step 2, which waits for the charter. -/
def becomeDrained (s : State) : State :=
  if !draining s ∨ !drainedNow s ∨ callerOff s ∨ s.cfg.active.isNone then s
  else
    let s := writeFlag s
    let s := occur 0x3002 srcLedger ((s.now - s.led.e) / 1000000) s.led.limitEnded (s.led.flag + 4 * b2n s.led.flagBc) s
    let s := updLed (fun l => { l with quiescent := true }) s
    unscheduledReport (if s.led.state = 2 then setState 3 s else s)

/-! ### The meanings -/

/-- R264, R266. -/
def execLedgerIntervalEnd (t : Nat) (s : State) : Host.Outcome State Fault Refusal := .next (intervalEnds (atTime t s))

/-- R275. -/
def execDrainLimitExpiry (t : Nat) (s : State) : Host.Outcome State Fault Refusal := .next (drainLimit (atTime t s))

/-- R276. -/
def execDrained (t : Nat) (s : State) : Host.Outcome State Fault Refusal := .next (becomeDrained (atTime t s))

end Sys2Proof.Machine
end

