-- ==== Sys2Proof/Machine/Stations.lean ====
section
/-! DEFINITION. What several families do at a station: CUs in flight, verdict records (R191), pins and held writes (R118, R119), capsules and reprise verdicts (R223 to R232). -/

namespace Sys2Proof.Machine

/-! ### CUs -/

/-- Change the CUs of a station that satisfy a test. -/
def updCus (c : Nat) (p : Cu → Bool) (f : Cu → Cu) : State → State :=
  updStation c fun t => { t with cus := t.cus.map fun u => if p u then f u else u }

/-- The job CU of a tag in flight or not settled; the latest of a tag that wrapped. -/
def cuOf (s : State) (c : Nat) (tag : Word) : Option Cu :=
  (station s c).cus.reverse.find? fun u => !u.inserted && u.tag == tag

/-- The operation of a queue and OPID that has not retired (R101). -/
def opOf (s : State) (c : Nat) (q : Queue) (opid : BitVec 16) : Option Cu :=
  (station s c).cus.find? fun u => u.op.queue == q && u.op.opid == opid && u.retire.isNone

def isOp (q : Queue) (opid : BitVec 16) (u : Cu) : Bool := u.op.queue == q && u.op.opid == opid && u.retire.isNone

/-- R203: the context of a CU has not ended since the CU started. -/
def ctxLives (s : State) (ctx start : Nat) : Bool :=
  match runningCtx s ctx with
  | some c => decide (c.began ≤ start)
  | none => false

/-! ### Verdict records (R191) -/

/-- R109: the entry of PHL_ST_VHIST for a tag. -/
def vhistIndex (tag : Word) : Nat := tag.toNat % 64

/-- R191: rewrite DISP while the record is still in the ring. -/
def setDisp (c : Nat) (tag : Word) (retire disp : Nat) : State → State :=
  updStation c fun t =>
    let r : VRec := tget {} (vhistIndex tag) t.vhist
    if r.tag = tag ∧ r.retireLo = BitVec.ofNat 32 retire then
      { t with vhist := tput {} (vhistIndex tag) { r with disp := BitVec.ofNat 8 disp } t.vhist }
    else t

/-- R191: the 16 bytes of a record. -/
def vrecBytes (r : VRec) : List Byte :=
  toLe 4 r.tag.toNat ++ toLe 4 r.retireLo.toNat ++ [r.kind, r.disp, r.figs, 0] ++ toLe 2 r.epoch.toNat ++ toLe 2 r.latency.toNat

/-! ### Pins (R118, R119) -/

/-- Bytes of a scratchpad that stand for an address: its offset (log entry 14). -/
def spadOffset (a : DWord) : Nat := a.toNat % 2 ^ 21

/-- R118: the ranges of A, B and C0 that lie in the scratchpad. -/
def pinRanges (u : Cu) : List (Nat × Nat) :=
  (u.descs.filter fun d => decide (d.role.toNat ≤ 2) && decide (d.res.toNat ≤ 1)).map fun d => (spadOffset d.addr, d.len.toNat)

/-- A 64-byte write at an offset meets a range. -/
def meets (a : Nat) (r : Nat × Nat) : Bool := decide (a < r.1 + r.2) && decide (r.1 < a + 64)

/-- A pin that a write of a sector at an offset meets. -/
def pinAt (t : Station) (a : Nat) : Option (Nat × Pin) := t.pins.find? fun p => p.2.ranges.any (meets a)

/-- R118: the sources of the mover transfers that FEED tied to a CU. -/
def feedSources (t : Station) (u : Cu) : List OpDesc :=
  ((t.feeds.filter fun f => f.fed == u.op.opid).map (·.sources)).flatten

/-- R118, R121: a pin entry for a failed matrix CU; T1 has no PIN, and a fifth CU gets no entry. -/
def loadPin (c : Nat) (u : Cu) (s : State) : State :=
  let t := station s c
  if t.tapVer ≤ 1 ∨ 4 ≤ t.pins.length then s
  else
    let p : Pin := { tag := u.tag, ranges := pinRanges u, sources := feedSources t u, loaded := s.now, held := 0 }
    updStation c (fun t => { t with pins := tset ((List.range 4).find? (fun i => (tfind i t.pins).isNone) |>.getD 0) p t.pins }) s

/-- R63: bytes land in a core's scratchpad with their poison mark. -/
def spadPut (c : Nat) (poison : Bool) (a : Nat) (bs : List Byte) : State → State :=
  updStation c fun t => { t with spad := tputs 0 a bs t.spad, spadPoison := markSectors poison a bs.length t.spadPoison }

/-- A sector lands in the scratchpad. -/
def landSector (c a : Nat) (w : InbWrite) : State → State := spadPut c w.poison a (sectorBytes w.data)

/-- R119: each pin entry counts the held writes that meet its ranges. -/
def countHeld (t : Station) : Station :=
  { t with pins := t.pins.map fun x =>
      (x.1, { x.2 with held := (t.heldWrites.filter fun w => x.2.ranges.any (meets w.addr.toNat)).length }) }

/-- R119: held writes that no pin meets any more proceed in their order of arrival. -/
def landHeld (c : Nat) : List InbWrite → State → State
  | [], s => s
  | w :: r, s =>
    match pinAt (station s c) w.addr.toNat with
    | some _ => landHeld c r (updStation c (fun t => { t with heldWrites := t.heldWrites ++ [w] }) s)
    | none => landHeld c r (landSector c w.addr.toNat w s)

def dropPins (c : Nat) (p : Pin → Bool) (s : State) : State :=
  let s := updStation c (fun t => { t with pins := t.pins.filter fun e => !p e.2 }) s
  let ws := (station s c).heldWrites
  updStation c countHeld (landHeld c ws (updStation c (fun t => { t with heldWrites := [] }) s))

/-! ### The understudy region and kits (R227, R252) -/

/-- R227: the understudy region. -/
def regionBase : Nat := 0x140000
def regionSize : Nat := 0x40000

/-- Bytes from an offset lie within the understudy region. -/
def inRegion (a n : Nat) : Bool := decide (regionBase ≤ a) && decide (a + n ≤ regionBase + regionSize)

def updReh (c : Nat) (f : Rehearsal → Rehearsal) : State → State := updStation c fun t => { t with reh := f t.reh }

/-- The rehearsal scheduler as a source of records (R401). -/
def srcReh : BitVec 16 := srcCaller 4

/-- R252: a core stops running a kit, or checking it. -/
def dropKit (id : Nat) (r : Rehearsal) : Rehearsal :=
  if r.kit = id ∧ (r.state ≠ 0 ∨ r.rehMode ∨ r.recheck.isSome) then
    { r with state := 0, rehMode := false, runFor := none, sig := none, recheck := none, again := none, other := none }
  else r

/-- R252: a kit is abandoned on every core that runs it, and disabled until a charter replaces it. -/
def kitInvalid (id cause core : Nat) (s : State) : State :=
  let s := updLed (fun l => { l with badKits := if l.badKits.contains id then l.badKits else id :: l.badKits }) s
  let s := { s with stations := s.stations.map fun x => (x.1, { x.2 with reh := dropKit id x.2.reh }) }
  occur 0x2012 srcReh id cause core s

/-- R252: an operation of a kit signals, which disables the kit (log entry 134). -/
def kitSignals (s : State) (c : Nat) : Bool :=
  (station s c).reh.rehMode && inService s c && !coreInReset s c && !tableauHolds s

/-! ### Capsules (R224 to R226) -/

/-- R224: the base of a core's capsule ring. -/
def capsuleRing (s : State) (c : Nat) : Nat := s.adj.capsuleBase.toNat * 2 ^ 29 + c * 0x200000

/-- Address of a unit of a core's ring. -/
def capsuleAt (s : State) (c unit : Nat) : Nat := capsuleRing s c + 64 * unit

/-- R103: an OP_START record as bytes. -/
def opStartBytes (o : OpStart) : List Byte :=
  [1, BitVec.ofNat 8 (o.queue.val + 4 * b2n o.inserted)] ++ toLe 2 o.opid.toNat ++ [o.fmt, o.mode] ++ toLe 2 o.ttag.toNat ++
  toLe 3 o.deadline.toNat ++ [o.extra] ++ toLe 4 o.len.toNat

/-- R225: the header of a capsule with its CRC field as zero. -/
def capsuleHead (k : Capsule) : List Byte :=
  toLe 4 k.tag.toNat ++ ((List.range 4).map fun i => toLe 2 (k.sects.getD i 0)).flatten ++ toLe 2 k.ctx.toNat ++
  [BitVec.ofNat 8 k.state, 0] ++ toLe 8 k.start ++ toLe 8 k.retire ++ opStartBytes k.op ++ toLe 4 k.epoch.toNat ++
  toLe 4 k.step ++ List.replicate 8 0

/-- R225: write a capsule's header, with the CRC over it and the sectors that follow. -/
def writeCapsuleHead (c : Nat) (k : Capsule) (s : State) : State :=
  let h := capsuleHead k
  let body := memRead s (capsuleAt s c (k.pos + 1)) (64 * k.sects.sum)
  memWrite (capsuleAt s c k.pos) (h.take 56 ++ toLe 4 (crc32c (h ++ body)).toNat ++ List.replicate 4 0) s

/-- R225, R231: the CRC of a capsule as the caller reads it. -/
def capsuleCrcOk (s : State) (c : Nat) (k : Capsule) : Bool :=
  let h := memRead s (capsuleAt s c k.pos) 64
  let body := memRead s (capsuleAt s c (k.pos + 1)) (64 * k.sects.sum)
  fieldLe 56 4 h == (crc32c (h.take 56 ++ [0, 0, 0, 0] ++ h.drop 60 ++ body)).toNat

/-- The result bytes of a capsule. -/
def capsuleResults (s : State) (c : Nat) (k : Capsule) : List Byte :=
  memRead s (capsuleAt s c (k.pos + 1 + (k.sects.take 3).sum)) (64 * k.sects.getD 3 0)

/-- The bytes of a capsule's source (0 to 2). -/
def capsuleSource (s : State) (c : Nat) (k : Capsule) (i : Nat) : List Byte :=
  memRead s (capsuleAt s c (k.pos + 1 + (k.sects.take i).sum)) (64 * k.sects.getD i 0)

/-- R226: a PAD entry, or a capsule with a verdict that is not HELD. -/
def capsuleOver (k : Capsule) : Bool := k.state == 3 || (k.verdict.isSome && k.state != 2)

/-- R226: from the ring's head on, what is over returns its space; a capsule of an earlier ring (R381) has none. -/
def freeRing (l : List Capsule) : List Capsule :=
  (l.filter fun k => k.old && !capsuleOver k) ++ (l.filter fun k => !k.old).dropWhile capsuleOver

/-- The capsules that the ring holds, from its head on. -/
def ringCapsules (t : Station) : List Capsule := t.capsules.filter fun k => !k.old

def freeCapsules (c : Nat) : State → State := updStation c fun t => { t with capsules := freeRing t.capsules }

/-- Units of a ring that are free. -/
def ringFree (t : Station) : Nat :=
  match ringCapsules t with
  | [] => 32768
  | k :: _ => (32768 + k.pos - t.capTail) % 32768

/-- Change the capsules of a tag that are not PAD. -/
def updCapsule (c : Nat) (tag : Word) (f : Capsule → Capsule) : State → State :=
  updStation c fun t => { t with capsules := t.capsules.map fun k => if k.tag == tag && k.state != 3 then f k else k }

def capsuleOf (s : State) (c : Nat) (tag : Word) : Option Capsule :=
  (station s c).capsules.find? fun k => k.tag == tag && k.state != 3

/-- R225: a place for a capsule of some units: its position and the pad before it, when the ring has room. -/
def ringPlace (t : Station) (units : Nat) : Option (Nat × Nat) :=
  let free := ringFree t
  if t.capTail + units ≤ 32768 then (if units ≤ free then some (t.capTail, 0) else none)
  else
    let pad := 32768 - t.capTail
    if pad + units ≤ free then some (0, pad) else none

/-- R225: the pad before a wrap. -/
def padCapsule (t : Station) (pad : Nat) (op : OpStart) : Capsule :=
  { tag := 0, pos := t.capTail, units := pad, sects := [0, 0, 0, 0], state := 3, ctx := 0, start := 0, retire := 0, op := op
    epoch := 0, step := 0, verdict := none, attempts := 0, checked := false, limitFrom := 0 }

/-- R225: claim a capsule's space at its CU's start; none when the ring is full. -/
def claimCapsule (c : Nat) (k : Capsule) (s : State) : Option State :=
  let t := station s c
  match ringPlace t k.units with
  | none => none
  | some (pos, pad) =>
    let p := padCapsule t pad k.op
    let s := if pad = 0 then s else writeCapsuleHead c p (updStation c (fun t => { t with capsules := t.capsules ++ [p] }) s)
    let k := { k with pos := pos }
    some (writeCapsuleHead c k (freeCapsules c (updStation c (fun t => { t with
      capsules := t.capsules ++ [k], capTail := (pos + k.units) % 32768 }) s)))

/-- R223: a sample is skipped: recorded and counted, and its capsule becomes PAD. The size is 0 where no capsule was claimed (log
entry 162). -/
def skipSample (c : Nat) (tag : Word) (cause : Nat) (s : State) : State :=
  let k := capsuleOf s c tag
  let size := (k.map fun k => k.sects.sum).getD 0
  let s := updCus c (fun u => !u.inserted && u.tag == tag) (fun u => { u with reprise := false, capsule := false }) s
  let s := match k with
    | some k => writeCapsuleHead c { k with state := 3 } s
    | none => s
  let s := freeCapsules c (updCapsule c tag (fun k => { k with state := 3, verdict := some 4 }) s)
  let s := updStation c (fun t => { t with skips := satAdd 0xFFFF t.skips 1 }) s
  occur 0x2004 (srcStation c) tag.toNat cause size s

/-- R232, R260: a sampled CU receives its reprise verdict, and the ledger counts it. -/
def giveReprise (c : Nat) (tag : Word) (verdict : Nat) (s : State) : State :=
  match capsuleOf s c tag with
  | none => s
  | some k =>
    if k.verdict.isSome then s
    else
      let s := updLed (fun l =>
        if verdict ≤ 1 then { l with vc := satAdd 0xFFFFFFFF l.vc 1 }
        else if k.checked then { l with vf := satAdd 0xFFFFFFFF l.vf 1 } else l) s
      freeCapsules c (updCapsule c tag (fun k => { k with verdict := some verdict }) s)

/-- R231: REPRISE_ABANDON, with the capsule's age in µs. -/
def abandonReprise (deferred : Bool) (c : Nat) (tag : Word) (cause : Nat) (s : State) : State :=
  match capsuleOf s c tag with
  | none => s
  | some k =>
    if k.verdict.isSome then s
    else
      let age := (s.now - k.retire) / 1000
      let s := updAdj (fun a => { a with replays := a.replays.map fun r =>
        if r.core.val == c && r.tag == tag then { r with discarded := true } else r }) s
      let s := giveReprise c tag 3 s
      if deferred then occurDeferred 0x2005 (srcCaller 3) tag.toNat cause age s
      else occur 0x2005 (srcCaller 3) tag.toNat cause age s

end Sys2Proof.Machine
end

