-- ==== Sys2Proof/Machine/Adjudicate.lean ====
section
/-! DEFINITION. Pas de trois (R235 to R246), understudies (R228), and the end of a containment's acknowledgement (R194). -/

namespace Sys2Proof.Machine

/-- The reprise scheduler and adjudicator as a source of records (R401). -/
def srcAdj : BitVec 16 := srcCaller 3

/-! ### Understudies (R228) -/

/-- R237: a station holds the figures that a re-execution needs, in the images of the CU's epoch, active or retiring. -/
def holdsFigures (s : State) (c : Nat) (figs : List Figure) : Bool :=
  figs.all fun f => (station s c).slots.any fun x => decide (x.2.fig = f) && decide (2 ≤ x.2.state)

/-- R228: the core is the original, U, V or H of an open adjudication. -/
def busyInAdj (s : State) (c : Nat) : Bool :=
  (openAdjs s).any fun a => a.core.val == c || (a.u.map (·.val)) == some c || (a.v.map (·.val)) == some c

/-- R228: a core may serve as understudy for work of a core, with figures that it must hold. -/
def mayServe (s : State) (orig c : Nat) (figs : List Figure) : Bool :=
  let t := station s c
  c / 16 != orig / 16 && inService s c && !coreInReset s c && !tableauHolds s && !t.stopReq && t.pins == [] && !busyInAdj s c &&
  holdsFigures s c figs && t.faulty == [] && decide (2 ≤ t.tapVer)

/-- R228: replays assigned to a core in the last second. -/
def assignedRecently (s : State) (c : Nat) : Nat :=
  (s.adj.assigned.filter fun x => x.1 == c && decide (s.now < x.2 + second)).length

/-- R228: the first of the preferred cores: an empty queue, then fewest replays, then the lowest number. -/
def prefer (s : State) (empty : Nat → Bool) : List Nat → Option Nat
  | [] => none
  | c :: r =>
    match prefer s empty r with
    | none => some c
    | some d =>
      let k := fun x => (if empty x then 0 else 1, assignedRecently s x)
      if (k d).1 < (k c).1 ∨ ((k d).1 = (k c).1 ∧ (k d).2 < (k c).2) then some d else some c

/-- A queue on which nothing has started that has not retired (log entry 15). -/
def queueIdle (s : State) (q c : Nat) : Bool := (station s c).cus.all fun u => u.op.queue.val != q || u.retire.isSome

/-- R228: the understudy for an adjudication, outside the clusters of the original and of the other understudy. -/
def chooseFor (s : State) (a : Adj) (other : Option Core) : Option Core :=
  let figs := if a.opening ≤ 1 ∧ a.queue.val ≤ 1 then a.figs else []
  let cs := (List.range 256).filter fun c =>
    mayServe s a.core.val c figs && (match other with | some o => o.val / 16 != c / 16 | none => true)
  (prefer s (queueIdle s a.queue.val) cs).map fun c => Fin.ofNat 256 c

def updAdjSlot (i : Nat) (f : Adj → Adj) : State → State :=
  updAdj fun d => { d with slots := d.slots.map fun x => if x.1 = i then (i, f x.2) else x }

/-- Change the open adjudications that satisfy a test. -/
def mapAdjs (p : Adj → Bool) (f : Adj → Adj) : State → State :=
  updAdj fun d => { d with
    slots := d.slots.map fun x => (x.1, if p x.2 then f x.2 else x.2)
    queue := d.queue.map fun a => if p a then f a else a }

/-! ### Executions (R229, R237, R238) -/

/-- R108: the caller tells a station of an operation that it inserts. -/
def notify (c : Nat) (n : Notice) : State → State := updStation c fun t => { t with notices := t.notices ++ [n] }

/-- R237: the notice of an execution of an adjudication: on figures' CUs the station runs their figures. -/
def execNotice (a : Adj) (w : ExecName) : Notice :=
  { queue := a.queue, figs := if a.opening ≤ 1 ∧ a.queue.val ≤ 1 then a.figs else [], use := .exec a.core a.tag a.start (a.opening == 2) w
    op := some a.op }

/-- The notices of an adjudication's executions. -/
def isExecOf (a : Adj) (u : Use) : Bool :=
  match u with
  | .exec c tag start m _ => c == a.core && tag == a.tag && start == a.start && m == (a.opening == 2)
  | .copy | .kit | .replay _ _ => false

/-- R237: the capsule that holds the inputs: of a reprise mismatch, and of a sampled vector CU once it is COMPLETE. -/
def inputCapsule (s : State) (a : Adj) : Option Capsule :=
  if a.queue.val = 1 then (capsuleOf s a.core.val a.tag).filter fun k => k.state == 1 || k.state == 2 else none

/-- R237: the inputs are pinned in place: an entry of the CU is held, and every input lies in it. -/
def inputsPinned (s : State) (a : Adj) : Bool :=
  (station s a.core.val).pins.any (fun p => p.2.tag == a.tag) &&
  a.descs.all fun d => decide (2 < d.role.toNat) || decide (d.res.toNat ≤ 1)

/-- R229: the sources of a capsule go into the understudy region of a core, one after the other (log entry 137). -/
def copySources (c : Nat) (k : Capsule) (d : Nat) (s : State) : State :=
  spadPut d false regionBase ((List.range 3).map (capsuleSource s c k)).flatten s

/-- R226: a capsule that pas de trois uses is HELD. -/
def holdCapsuleOf (c : Nat) (k : Capsule) (s : State) : State :=
  writeCapsuleHead c { k with state := 2 } (updCapsule c k.tag (fun k => { k with state := 2 }) s)

/-- R237, R244: where the inputs of an execution come from: the capsule, the pinned ranges, or memory again. -/
def giveInputs (i : Nat) (a : Adj) (s : State) : State :=
  match inputCapsule s a with
  | some k => holdCapsuleOf a.core.val k s
  | none => if a.queue.val = 0 ∧ inputsPinned s a then s else updAdjSlot i (fun a => { a with reread := true }) s

/-- R238: the caller inserts an execution, which starts at its queue's next operation boundary. -/
def startExec (i : Nat) (w : ExecName) (d : Nat) (s : State) : State :=
  match tfind i s.adj.slots with
  | some a => notify d (execNotice a w) (giveInputs i a s)
  | none => s

/-- U of a slot is assigned, or replaced, and started. -/
def assignU (i : Nat) (c : Core) (s : State) : State :=
  startExec i .u c.val (updAdjSlot i (fun a => { a with u := some c, uOut := none, runs := a.runs.filter (·.1 != .u) }) s)

/-- V of a slot is assigned, or replaced, and started. -/
def assignV (i : Nat) (c : Core) (s : State) : State :=
  startExec i .v c.val (updAdjSlot i (fun a => { a with v := some c, vOut := none, runs := a.runs.filter (·.1 != .v) }) s)

/-- R237: the caller looks for U and V while they are missing; V only until U's outcome. -/
def lookFor (i : Nat) (s : State) : State :=
  match tfind i s.adj.slots with
  | none => s
  | some a =>
    if a.closing.isSome then s
    else
      let s := match a.u, chooseFor s a a.v with
        | none, some c => assignU i c s
        | _, _ => s
      match tfind i s.adj.slots with
      | some a =>
        match a.v, chooseFor s a a.u with
        | none, some c => if a.uOut.isNone ∨ a.opening = 2 then assignV i c s else s
        | _, _ => s
      | none => s

/-- R238: H is wanted: of a matrix CU it starts when the core has returned STOPPED, of any other at once. -/
def wantH (i : Nat) (s : State) : State :=
  match tfind i s.adj.slots with
  | none => s
  | some a =>
    if a.needH then s
    else
      let s := updAdjSlot i (fun a => { a with needH := true }) s
      if a.queue.val ≠ 0 ∨ (station s a.core.val).stopped then startExec i .h a.core.val s else s

/-- R238: the core returns STOPPED: the home reruns of matrix CUs that wait for it start. -/
def startHomes (c : Nat) : List Nat → State → State
  | [], s => s
  | i :: r, s =>
    match tfind i s.adj.slots with
    | some a =>
      startHomes c r (if a.core.val = c ∧ a.queue.val = 0 ∧ a.needH ∧ a.hOut.isNone ∧ !a.noH ∧ a.closing.isNone then startExec i .h c s else s)
    | none => startHomes c r s

/-! ### Closing (R242 to R244) -/

/-- R243: STOP of a core is released when no adjudication of a matrix FAIL on it is open, and no PERSISTENT class
keeps it. -/
def releaseStop (c : Nat) (s : State) : State :=
  if (station s c).keepStop ∨ (openAdjs s).any (fun a => a.opening == 0 && a.core.val == c) then s
  else updStation c (fun t => { t with stopReq := false, stopped := false }) s

/-- The adjudications, with a slot or without, of the CU of an adjudication (R109). -/
def sameWork (s : State) (a : Adj) : List Adj :=
  (openAdjs s ++ s.adj.closing).filter fun x => x.core == a.core && x.tag == a.tag && x.start == a.start

/-- R226: a HELD capsule that no adjudication uses any more is COMPLETE again, and its space returns once it has its verdict. -/
def unholdCapsule (a : Adj) (s : State) : State :=
  let c := a.core.val
  let tag := a.tag
  match capsuleOf s c tag with
  | some k =>
    if k.state = 2 ∧ sameWork s a = [] then
      freeCapsules c (writeCapsuleHead c { k with state := 1 } (updCapsule c tag (fun k => { k with state := 1 }) s))
    else s
  | none => s

/-- R88, R90: an adjudication is over: its executions are due nowhere, and no station keeps figures for it. -/
def endExecs (a : Adj) (s : State) : State :=
  { s with stations := s.stations.map fun x =>
      (x.1, sweepSlots (heldFigs s) { x.2 with notices := x.2.notices.filter fun n => !isExecOf a n.use }) }

/-- R243: what follows the containment: the HELD capsule, then PIN, then STOP. -/
def finishClose (a : Adj) (s : State) : State :=
  let c := a.core.val
  let s := endExecs a (unholdCapsule a s)
  let s := dropPins c (fun p => p.tag == a.tag) s
  if a.opening = 0 then releaseStop c s else s

/-- R260, R264, R273, R292: what the ledger and tempo make of a class. -/
def countClass (a : Adj) (cls : Nat) (charged : Option Core) (s : State) : State :=
  let c := (charged.getD a.core).val
  match cls with
  | 1 => backoffCore c 1 a.tag (chargeEngine c a.queue.val a.tag (countConfirmed (countDet 0 s)))
  | 2 =>
    let s := windowPut c a.queue.val (countConfirmed (countDet 1 s))
    backoffCore c 2 a.tag (suspect 1 a.queue.val c (2 ^ a.queue.val) a.tag s)
  | 3 => backoffCore c 3 a.tag (stationFault c a.tag s)
  | 4 =>
    updDomain (a.core.val / 16) (fun d => { d with fails := d.fails.filter fun x => x.2 != a.tag }) (countDet 3 s)
  | _ => backoffCore a.core.val 2 a.tag (countConfirmed (countDet 4 s))

/-- R244: the second and third parameters of ADJ_RESULT. -/
def adjP2 (a : Adj) (cls : Nat) (charged : Option Core) : Nat :=
  cls + 16 * a.opening + (if cls = 3 then 0 else 64) + 256 * (a.u.getD a.core).val + 65536 * (a.v.getD a.core).val +
  16777216 * (charged.getD a.core).val
def adjP3 (s : State) (a : Adj) : Nat :=
  (s.now - a.opened) / 1000 % 2 ^ 24 + 2 ^ 24 * a.queue.val + 2 ^ 26 * b2n a.hOut.isSome + 2 ^ 27 * b2n a.reread +
  2 ^ 28 * b2n a.pinLost

/-- R242 to R244, R194, R195: an adjudication closes with a class; what containment must precede comes later. Answers
whether it waits for the gate points. -/
def closeCore (deferred : Bool) (a : Adj) (cls : Nat) (charged : Option Core) (row : Nat) (s : State) : State × Bool :=
  let c := a.core.val
  let ctx := a.ctx.toNat
  let rec_ := if deferred then occurDeferred else occur
  let s := setDisp c a.tag a.retire (if cls = 3 then 2 else 3) s
  let s := rec_ 0x2002 srcAdj a.tag.toNat (adjP2 a cls charged) (adjP3 s a) s
  let s := if cls = 4 then rec_ 0x2003 srcAdj a.tag.toNat (ctx + 4096 * row) (station s c).pinOverwrites s else s
  let s := updAdj (fun d => { d with lastClass := cls }) s
  let s := updStation c (fun t => { t with keepStop := t.keepStop || (decide (cls = 2) && decide (a.opening = 0)) }) s
  let s := countClass a cls charged s
  let live := decide (ctx = 0) || ctxLives s ctx a.start
  let s := if ctxLives s ctx a.start then closeAdjIncident ctx (if a.opening = 2 then 4 else 1) a.tag (cls != 3) s else s
  if cls ≠ 3 ∧ live then (contain ctx (a.retire - 4) (some (c, a.tag)) none s, true)
  else (if a.opening = 2 ∧ (sameWork s a).any (fun x => x.opening != 2) then s else settleCu c a.tag s, false)

/-- R237, R240: a reprise mismatch without a second understudy has U in both places, which leaves it to H. -/
def standIn (i : Nat) (s : State) : State :=
  match tfind i s.adj.slots with
  | some a =>
    if a.opening = 2 ∧ a.v.isNone then wantH i (updAdjSlot i (fun a => { a with v := a.u, vOut := a.uOut }) s) else s
  | none => s

/-- R237: an adjudication that waits takes a slot. -/
def takeQueued (s : State) : State :=
  match s.adj.queue with
  | [] => s
  | a :: r =>
    let i := firstFreeSlot s.adj.slots
    if 8 ≤ i then s
    else standIn i (lookFor i (updAdj (fun d => { d with queue := r, slots := tset i { a with slotted := s.now } d.slots }) s))
where
  /-- The lowest slot that holds no adjudication. -/
  firstFreeSlot (t : Tab Adj) : Nat := ((List.range 8).find? fun i => (tfind i t).isNone).getD 8

/-- R243: the slot of an adjudication is free, and the next opening takes it. -/
def freeAdjSlot (i : Nat) (s : State) : State :=
  match tfind i s.adj.slots with
  | none => s
  | some a => takeQueued (finishClose a (updAdj (fun d => { d with slots := tdel i d.slots }) s))

/-- R243: the adjudication of a slot closes with a class, the core charged, and its row. -/
def closeSlot (i cls : Nat) (charged : Option Core) (row : Nat) (s : State) : State :=
  match tfind i s.adj.slots with
  | none => s
  | some a =>
    if a.closing.isSome then s
    else
      let x := closeCore false a cls charged row s
      if x.2 then updAdjSlot i (fun a => { a with closing := some (cls, charged, row) }) x.1
      else freeAdjSlot i x.1

/-- R236, R243, R246: an adjudication without a slot closes as UNRESOLVED; what follows its containment waits for it. -/
def closeUnslotted (deferred : Bool) (a : Adj) (s : State) : State :=
  let x := closeCore deferred a 5 none 0 s
  if x.2 then updAdj (fun d => { d with closing := d.closing ++ [{ a with closing := some (5, none, 0) }] }) x.1
  else finishClose a x.1

/-! ### Opening (R116, R235, R236) -/

/-- R117: STOP is asserted, and holds what has not started yet. -/
def assertStop (c : Nat) (s : State) : State :=
  updStation c (fun t => if t.stopReq then t else { t with stopReq := true, stopAt := s.now }) s

/-- R116, R118, R203, R236: an adjudication opens. -/
def openAdj (a : Adj) (s : State) : State :=
  let c := a.core.val
  let ctx := a.ctx.toNat
  let s := if ctxLives s ctx a.start then openIncident ctx (if a.opening = 2 then 4 else 1) a.step a.tag s else s
  let s := if a.opening = 0 then assertStop c s else s
  if s.adj.slots.length < 8 then takeQueued (updAdj (fun d => { d with queue := d.queue ++ [a] }) s)
  else if s.adj.queue.length < 64 then updAdj (fun d => { d with queue := d.queue ++ [a] }) s
  else closeUnslotted false a s

/-! ### Classification (R239 to R241) -/

/-- R239: the predictions of two executions agree within 2·M in every quantity; the margins are the first's. -/
def predictionsAgree (x y : List Quantity) : Bool :=
  x.length == y.length && (x.zip y).all fun p => dyLe (dyAbs (dySub p.1.p p.2.p)) (dyScale 1 p.1.m)

/-- R239: a result passes against an execution's prediction and band in every quantity. -/
def passesAgainst (o u : List Quantity) : Bool :=
  o.length == u.length && (o.zip u).all fun p => dyLe (dyAbs (dySub p.2.p p.1.r)) p.2.b

/-- Rows 1 to 4 of R239: class and row. -/
def rowsOneToFour (o : List Quantity) (u v : ExecOutcome) : Option (Nat × Nat) :=
  let passes := passesAgainst o u.quants
  if !predictionsAgree u.quants v.quants then some (4, 1)
  else if !predictionsAgree u.quants o then (if passes then some (3, 2) else some (4, 3))
  else if passes then some (3, 4)
  else none

/-- What an adjudication does next: it closes with class, core charged and row, runs H, or waits. -/
inductive AdjMove where
  | close (cls : Nat) (charged : Option Core) (row : Nat)
  | runH
  | wait
deriving DecidableEq, Repr

/-- R239, from row 5 on: H decides. -/
def matrixByH (a : Adj) (bothFail : Bool) : AdjMove :=
  if bothFail then .close 5 none 5
  else if a.noH then .close 1 (some a.core) 8
  else
    match a.hOut with
    | none => .runH
    | some h => if !h.gave then .close 1 (some a.core) 8 else if h.fails then .close 2 (some a.core) 6 else .close 1 (some a.core) 7

/-- R239 with the outcomes of U and V, or of one in both places. -/
def classifyFigure (a : Adj) (u v : ExecOutcome) : AdjMove :=
  match rowsOneToFour a.evid u v with
  | some (cls, row) => .close cls (if cls = 3 then some a.core else none) row
  | none => matrixByH a (u.fails && v.fails)

/-- R240. -/
def classifyReprise (a : Adj) (u v : ExecOutcome) : AdjMove :=
  let same := fun (x y : List Byte) => compareResults a.op a.redLen a.terms x y == []
  if same v.results a.results then .close 3 a.u 1
  else if same v.results u.results then
    match a.hOut with
    | none => .runH
    | some h => if !h.gave then .close 1 (some a.core) 4
      else if same h.results u.results then .close 1 (some a.core) 2 else .close 2 (some a.core) 3
  else .close 5 none 5

/-- R241. -/
def classifyMover (a : Adj) (u v : ExecOutcome) : AdjMove :=
  if u.srcCrc ≠ v.srcCrc ∨ u.srcCrc ≠ a.srcCrc then .close 4 none 1
  else if v.dstCrc = some a.srcCrc then .close 3 (some a.core) 2
  else if v.dstCrc = none then .close 5 none 3
  else
    match a.hOut with
    | none => .runH
    | some h => if !h.gave then .close 1 (some a.core) 5 else if h.srcCrc ≠ a.srcCrc then .close 2 (some a.core) 4 else .close 1 (some a.core) 6

def classify (a : Adj) (u v : ExecOutcome) : AdjMove :=
  if a.opening = 2 then classifyReprise a u v
  else if 2 ≤ a.queue.val then classifyMover a u v
  else classifyFigure a u v

/-- R244: UNDERSTUDY_FAULT counts as a confirmed transient of the understudy's engine (R261, R273, R292). -/
def understudyFault (a : Adj) (u : Core) (s : State) : State :=
  let s := occur 0x2006 srcAdj a.tag.toNat (u.val + 256 * a.queue.val) (a.epoch.toNat % 65536) s
  backoffCore u.val 1 a.tag (chargeEngine u.val a.queue.val a.tag (countConfirmed s))

/-- The move of a slot's adjudication is made. -/
def makeMove (i : Nat) (m : AdjMove) (s : State) : State :=
  match m with
  | .close cls charged row => closeSlot i cls charged row s
  | .runH => wantH i s
  | .wait => s

/-- R239: exactly one of U and V fails its own check: it is replaced once; else the passing one stands in both places. -/
def replaceFailing (i : Nat) (a : Adj) (uFails : Bool) (u v : ExecOutcome) (s : State) : State :=
  let bad := if uFails then a.u else a.v
  let good := if uFails then a.v else a.u
  let ok := if uFails then v else u
  let s := match bad with | some c => understudyFault a c s | none => s
  let next := if a.replaced then none else chooseFor s a good
  match next with
  | some c =>
    let s := updAdjSlot i (fun a => { a with replaced := true }) s
    if uFails then assignU i c s else assignV i c s
  | none =>
    let s := updAdjSlot i (fun a => { a with u := good, v := good, uOut := some ok, vOut := some ok, replaced := true }) s
    match tfind i s.adj.slots with
    | some a => makeMove i (classifyFigure a ok ok) s
    | none => s

/-- R239 to R241, R246: with what outcomes there are, classify, replace an understudy, or wait. -/
def evaluate (i : Nat) (s : State) : State :=
  match tfind i s.adj.slots with
  | none => s
  | some a =>
    match a.uOut, a.vOut with
    | some u, some v =>
      let figure := a.opening ≤ 1 ∧ a.queue.val ≤ 1
      if figure ∧ a.u ≠ a.v ∧ u.fails ≠ v.fails ∧ a.hOut = none ∧ !a.needH then replaceFailing i a u.fails u v s
      else makeMove i (classify a u v) s
    | some u, none =>
      if a.v.isNone then
        let s := updAdjSlot i (fun a => { a with v := a.u, vOut := some u }) s
        match tfind i s.adj.slots with
        | some a => makeMove i (classify a u u) s
        | none => s
      else s
    | _, _ => s

/-- R246: an understudy was reset during its re-execution: one new understudy is chosen, or the other stands in both
places. -/
def understudyLost (i : Nat) (a : Adj) (isU : Bool) (s : State) : State :=
  let other := if isU then a.v else a.u
  match chooseFor s a other with
  | some c => if isU then assignU i c s else assignV i c s
  | none =>
    match other with
    | none => updAdjSlot i (fun a => if isU then { a with u := none } else { a with v := none }) s
    | some o =>
      let out := if isU then a.vOut else a.uOut
      let s := updAdjSlot i (fun a => { a with u := some o, v := some o, uOut := out, vOut := out }) s
      evaluate i s

/-- An execution that gave no outcome, because its core was reset (R239, R246). -/
def noOutcome : ExecOutcome := { gave := false, quants := [], fails := false, results := [], srcCrc := 0, dstCrc := none }

/-- R239, R241: the outcome that an execution gives: what its station formed, once it has ended; none while it runs. V of a
mover that has read the source and gives no more finds the destination unreachable. -/
def outcomeOfExec (a : Adj) (which : ExecName) (gave : Bool) : Option ExecOutcome :=
  let run := (a.runs.find? (·.1 == which)).map (·.2)
  let half := decide (2 ≤ a.queue.val) && which == .v
  if gave then run.filter fun o => !half || o.dstCrc.isSome
  else
    match run with
    | some o => if half ∧ o.dstCrc.isNone then some o else none
    | none => some noOutcome

/-- An outcome comes to the adjudication of a slot: it counts when its execution is one that the adjudication runs. -/
def takeOutcome (i : Nat) (which : ExecName) (out : ExecOutcome) (a : Adj) (s : State) : State :=
  match which with
  | .u =>
    if a.u.isNone ∨ a.uOut.isSome then s
    else if !out.gave then understudyLost i a true s
    else
      let both := decide (a.u = a.v)
      evaluate i (updAdjSlot i (fun a => { a with uOut := some out, vOut := if both then some out else a.vOut }) s)
  | .v =>
    if a.v.isNone ∨ a.vOut.isSome then s
    else if !out.gave then understudyLost i a false s
    else
      let both := decide (a.u = a.v)
      evaluate i (updAdjSlot i (fun a => { a with vOut := some out, uOut := if both then some out else a.uOut }) s)
  | .h =>
    if !a.needH ∨ a.hOut.isSome then s
    else evaluate i (updAdjSlot i (fun a => { a with hOut := some out }) s)

/-- ADJ_EXECUTION_OUTCOME (R239): the caller takes the outcome of an execution. -/
def outcomeArrives (i : Nat) (which : ExecName) (gave : Bool) (s : State) : State :=
  let s := lookFor i s
  match tfind i s.adj.slots with
  | none => s
  | some a =>
    match outcomeOfExec a which gave with
    | some out => if a.closing.isSome ∨ callerOff s then s else takeOutcome i which out a s
    | none => s

/-! ### Executions that end (R229, R237, R241) -/

/-- The slot of the adjudication that a core, a tag and a start time name (R109), of a reprise mismatch or of a FAIL. -/
def adjSlotOf (s : State) (core : Core) (tag : Word) (start : Nat) (mismatch : Bool) : Option Nat :=
  (List.range 8).find? fun i =>
    match tfind i s.adj.slots with
    | some a => a.core == core && a.tag == tag && a.start == start && (a.opening == 2) == mismatch && a.closing.isNone
    | none => false

/-- R241: what an execution has given so far, with what its operation that has just ended adds: V of a mover reads the source
first and then the destination. -/
def joinRun (a : Adj) (w : ExecName) (o : ExecOutcome) : ExecOutcome :=
  match a.runs.find? (·.1 == w) with
  | some x => if decide (2 ≤ a.queue.val) && w == .v then { x.2 with dstCrc := some o.srcCrc } else o
  | none => o

/-- An inserted operation of an adjudication has retired on a core, with what its station formed. -/
def execEnds (d : Nat) (core : Core) (tag : Word) (start : Nat) (mismatch : Bool) (w : ExecName) (o : ExecOutcome)
    (s : State) : State :=
  match adjSlotOf s core tag start mismatch with
  | none => s
  | some i =>
    match tfind i s.adj.slots with
    | none => s
    | some a =>
      let first := decide (2 ≤ a.queue.val) && w == .v && (a.runs.all fun x => x.1 != .v)
      let s := updAdjSlot i (fun a => { a with runs := (w, joinRun a w o) :: a.runs.filter (·.1 != w) }) s
      if first then notify d (execNotice a w) s else s

/-- R229: a replay has retired with its results. -/
def replayEnds (core : Core) (tag : Word) (bytes : List Byte) : State → State :=
  updAdj fun a => { a with replays := a.replays.map fun r =>
    if r.core == core && r.tag == tag then { r with results := some bytes } else r }

/-- ADJ_TIMEOUT (R242): 5 ms in the slot. -/
def adjTimeout (i : Nat) (s : State) : State :=
  match tfind i s.adj.slots with
  | none => s
  | some a =>
    if a.closing.isSome ∨ tableauHolds s ∨ callerOff s ∨ s.now < a.slotted + 5000000 then s
    else closeSlot i 5 none 0 s

/-! ### Containment acknowledged (R194) -/

/-- R194: each CU leaves its pending list, and CONTAINED is recorded. -/
def containedAll (ctx tc : Nat) : List (Nat × Word) → State → State
  | [], s => s
  | (c, tag) :: r, s =>
    containedAll ctx tc r (occur 0x1015 srcAdj ctx tag.toNat (tc % 2 ^ 32) (settleCu c tag s))

/-- Adjudications that waited for a context's containment go on to the end. -/
def finishWaiting (ctx : Nat) : List Nat → State → State
  | [], s => s
  | i :: r, s =>
    match tfind i s.adj.slots with
    | some a => finishWaiting ctx r (if a.closing.isSome ∧ a.ctx.toNat = ctx then freeAdjSlot i s else s)
    | none => finishWaiting ctx r s

/-- R243: closings without a slot that waited for a context's containment go on to the end. -/
def finishUnslotted (ctx : Nat) (s : State) : State :=
  let done := s.adj.closing.filter fun a => a.ctx.toNat == ctx
  done.foldl (fun s a => finishClose a s) (updAdj (fun d => { d with closing := d.closing.filter fun a => a.ctx.toNat != ctx }) s)

/-- Everything that waited for a context's containment goes on. -/
def finishContext (ctx : Nat) (s : State) : State := finishUnslotted ctx (finishWaiting ctx (List.range 8) s)

/-- CONTAINMENT_ACKS_COMPLETE (R194): due when every gate point has acknowledged the entry. Each CU's CONTAINED carries the
entry's Tc (log entry 161). -/
def acksComplete (ctx : Nat) (s : State) : State :=
  let k := containment s ctx
  match (if k.entry.tc.isSome then k.entry.tc else k.entry.past.getLast?.map (·.1)) with
  | none => finishContext ctx s
  | some tc =>
    if !allAcked k ∨ callerOff s then s
    else
      let s := updContainment ctx (fun k => { k with waiting := [] }) s
      finishContext ctx (containedAll ctx tc k.waiting s)

/-! ### Pins that expire (R119, R246) -/

/-- U or V of an adjudication has not read all its inputs yet. -/
def stillReads (a : Adj) : Bool :=
  (a.u.isSome && a.uOut.isNone && a.runs.all (·.1 != .u)) || (a.v.isSome && a.vOut.isNone && a.runs.all (·.1 != .v))

/-- R244, R246: pinned inputs that are still to be read are read from memory again, and H is omitted. -/
def losePin (c : Nat) (tag : Word) : State → State :=
  mapAdjs (fun a => a.core.val == c && a.tag == tag && a.opening == 0) fun a =>
    { a with reread := a.reread || stillReads a, pinLost := true, noH := true }

/-- R239 row 8, R246: adjudications of a core whose H is omitted do not wait for it. -/
def withoutHomes (c : Nat) : List Nat → State → State
  | [], s => s
  | i :: r, s =>
    match tfind i s.adj.slots with
    | some a =>
      withoutHomes c r
        (if a.core.val = c ∧ a.opening = 0 ∧ a.noH ∧ a.needH ∧ a.hOut.isNone ∧ a.closing.isNone then evaluate i s else s)
    | none => withoutHomes c r s

/-- PIN_EXPIRED (R119): an entry held 20 ms is released. -/
def pinExpires (c e : Nat) (s : State) : State :=
  match tfind e (station s c).pins with
  | none => s
  | some p =>
    if s.now < p.loaded + p.paused + 20000000 ∨ tableauHolds s then s
    else
      let s := dropPins c (fun x => x.tag == p.tag && x.loaded == p.loaded) s
      withoutHomes c (List.range 8)
        (occur 0x1013 (srcStation c) p.tag.toNat p.held ((s.now - p.loaded) / 1000) (losePin c p.tag s))

/-! ### The meanings -/

/-- R238, R239. -/
def execAdjExecutionOutcome (t : Nat) (slot : Fin 8) (which : ExecName) (gave : Bool) (s : State) :
    Host.Outcome State Fault Refusal :=
  .next (outcomeArrives slot.val which gave (atTime t s))

/-- R242. -/
def execAdjTimeout (t : Nat) (slot : Fin 8) (s : State) : Host.Outcome State Fault Refusal :=
  .next (adjTimeout slot.val (atTime t s))

/-- R194. -/
def execContainmentAcksComplete (t : Nat) (ctx : CtxId) (s : State) : Host.Outcome State Fault Refusal :=
  .next (acksComplete ctx.toNat (atTime t s))

/-- R119. -/
def execPinExpired (t : Nat) (core : Core) (entry : Fin 4) (s : State) : Host.Outcome State Fault Refusal :=
  .next (pinExpires core.val entry.val (atTime t s))

end Sys2Proof.Machine
end

