-- ==== Sys2Proof/Machine/Barriers.lean ====
section
/-! DEFINITION. Quadrille (R351 to R365): descriptors, arrivals, generations, and the commands on barrier contexts. -/

namespace Sys2Proof.Machine

/-- PHL_SYNC_BAR_CMD's place in the table of results. -/
def regBarCmd : Nat := 0x230018

/-! ### Descriptors (R352) -/

/-- The count entries of a descriptor: (object, REALIGN, STRIDE). -/
def descCounts (d : List Byte) : List (Nat × Bool × Word) :=
  (List.range (fieldLe 3 1 d)).map fun i =>
    let w := fieldLe (64 + 8 * i) 4 d
    (w % 8192, bit w 15, BitVec.ofNat 32 (fieldLe (68 + 8 * i) 4 d))

def descChildren (d : List Byte) : List Word :=
  (List.range (fieldLe 4 1 d)).map fun i => BitVec.ofNat 32 (fieldLe (320 + 4 * i) 4 d)

def descMask (d : List Byte) : BitVec 256 := BitVec.ofNat 256 (fieldLe 16 32 d)

/-- R352: no field holds a reserved value. -/
def descFieldsOk (d : List Byte) : Bool :=
  let flags := fieldLe 2 1 d
  bits (fieldLe 0 2 d) 15 12 == 0 && decide (flags < 8) && decide (fieldLe 3 1 d ≤ 32) && decide (fieldLe 4 1 d ≤ 64) &&
  (!bit flags 2 || fieldLe 5 1 d == 1 || fieldLe 5 1 d == 3) && decide (fieldLe 5 1 d < 16) && decide (fieldLe 6 2 d < 8192) &&
  zeroAt 12 4 d && zeroAt 48 16 d &&
  (!bit flags 1 || decide (fieldLe 8 4 d < 2 ^ 22)) &&
  ((List.range (fieldLe 3 1 d)).all fun i => bits (fieldLe (64 + 8 * i) 4 d) 14 13 == 0 && bits (fieldLe (64 + 8 * i) 4 d) 31 16 == 0) &&
  ((descChildren d).all fun c => decide (c.toNat < 2 ^ 22))

/-- A local object assigned to a context. -/
def assignedTo (s : State) (ctx o : Nat) : Bool :=
  (bankCore s o).isSome && (object s o).assigned && (object s o).ctx.toNat == ctx

/-- R204: the enabled SEAL entry that a running context started with. -/
def sealEntryOf (s : State) (ctx : Nat) : Option SealEntry :=
  match runningCtx s ctx with
  | some c => c.seal_.filter (·.enabled)
  | none => none

/-- R352: what else makes a descriptor invalid. -/
def descValid (s : State) (ctx : Nat) (d : List Byte) : Bool :=
  let flags := fieldLe 2 1 d
  let mask := descMask d
  let sealOn := bit flags 0
  (mask &&& ~~~((ctxMask s ctx).getD 0)) == 0 &&
  (!sealOn || (mask == 0 && (sealEntryOf s ctx).isSome)) &&
  ((descCounts d).all fun e => assignedTo s ctx e.1 && (object s e.1).count) &&
  (!bit flags 2 || assignedTo s ctx (fieldLe 6 2 d)) &&
  ((descChildren d).all fun c => barChip c != s.boot.chip) &&
  (!bit flags 1 || barChip (BitVec.ofNat 32 (fieldLe 8 4 d)) != s.boot.chip) &&
  !(mask == 0 && fieldLe 4 1 d == 0 && !sealOn)

/-- R352, R359: the armed barrier context of a descriptor. -/
def armedBarrier (s : State) (ctx : Nat) (d : List Byte) : Barrier :=
  let flags := fieldLe 2 1 d
  { state := 1, ctx := BitVec.ofNat 12 ctx, gen := 0, sealMode := bit flags 0
    parent := if bit flags 1 then some (BitVec.ofNat 32 (fieldLe 8 4 d)) else none
    release := if bit flags 2 then some (fieldLe 5 1 d, fieldLe 6 2 d) else none
    mask := descMask d
    recounts := (descCounts d).map fun e => (e.1, e.2.1, e.2.2, (object s e.1).value)
    children := descChildren d
    s0 := match sealEntryOf s ctx with | some e => (object s e.object).value | none => 0 }

/-! ### Generations (R354) -/

/-- R354: the local part of the generation is complete. -/
def localComplete (s : State) (x : Barrier) : Bool :=
  if x.sealMode then
    match sealEntryOf s x.ctx.toNat with
    | some e => condHolds 1 (x.s0 + BitVec.ofNat 32 x.gen + 1) (object s e.object).value
    | none => false
  else (x.mask &&& ~~~x.arrived) == 0

/-- R354: how many children of a barrier context a chip has: an ARRIVE names its chip, and not which of them it comes from (log
entry 151). -/
def childrenOn (x : Barrier) (chip : ChipId) : Nat := (x.children.filter fun c => barChip c == chip).length

/-- R354: an ARRIVE has come from every child. -/
def childrenComplete (x : Barrier) : Bool := x.children.all fun c => decide (childrenOn x (barChip c) ≤ x.childArrived.count (barChip c))

/-- R359: the recount check of a generation, entry by entry. -/
def recount (gen : Nat) : List (Nat × Bool × Word × Word) → State → State
  | [], s => s
  | (o, realign, stride, v0) :: r, s =>
    let e := v0 + BitVec.ofNat 32 (gen + 1) * stride
    let v := (object s o).value
    let s := if v = e then s
      else
        let s := occur 0x5003 (srcCaller 7) (objName s.boot.chip o).toNat e.toNat v.toNat s
        if realign then change o e 1 (callerParty s) s.now s else s
    recount gen r s

/-- R196: GATED of the messages of a generation: by the epochs in which its local arrivals started; the caller's own, where it has
none, by the epoch in force (log entry 134). -/
def barGated (s : State) (x : Barrier) : Bool := if x.arrived = 0 then gatingNow s else x.gated

/-- R354: BRELEASE of a generation to every child. -/
def sendBreleases (x : Barrier) : List Word → State → State
  | [], s => s
  | c :: r, s =>
    let m := mkMsg 6 0 c (callerParty s) (BitVec.ofNat 32 (x.gen % 65536)) 0 x.latest
    sendBreleases x r (gateMsg 6 (ctxHome s x.ctx.toNat) 0 0 (barGated s x) x.latest 0 (barChip c) m s)

/-- R354 steps 1 to 5. -/
def completeGen (b : Nat) (s : State) : State :=
  let x := barrier s b
  let s := recount x.gen x.recounts s
  let s := match x.release with
    | some (op, o) => (actOn o op 1 (callerParty s) s.now s).2
    | none => s
  let s := releaseBarWaiters b 1 s
  let s := sendBreleases x x.children s
  updBarrier b (fun x => { x with gen := x.gen + 1, state := 1, arrived := 0, childArrived := [], latest := 0, gated := false }) s

/-- R354: a ready generation goes up to the parent, or completes at the root; the next one is looked at in turn. -/
def checkBarrier (b : Nat) : Nat → State → State
  | 0, s => s
  | fuel + 1, s =>
    let x := barrier s b
    if x.state = 1 ∧ localComplete s x ∧ childrenComplete x then
      match x.parent with
      | some p =>
        let s := updBarrier b (fun x => { x with state := 2 }) s
        gateMsg 5 (ctxHome s x.ctx.toNat) 0 0 (barGated s x) x.latest 0 (barChip p)
          (mkMsg 5 0 p (callerParty s) (BitVec.ofNat 32 (x.gen % 65536)) 0 x.latest) s
      | none => if x.sealMode then checkBarrier b fuel (completeGen b s) else completeGen b s
    else s

/-- How many generations a SEAL-mode context may be behind its seal object. -/
def behind (s : State) (b : Nat) : Nat :=
  let x := barrier s b
  match sealEntryOf s x.ctx.toNat with
  | some e => ((object s e.object).value - x.s0 - BitVec.ofNat 32 x.gen).toNat + 1
  | none => 1

def advance (b : Nat) (s : State) : State := checkBarrier b (behind s b) s

/-- R354: a seal object that has changed advances its context's barriers in SEAL mode. -/
def advanceSeals (ctx : Nat) : List Nat → State → State
  | [], s => s
  | b :: r, s =>
    let x := barrier s b
    advanceSeals ctx r (if x.sealMode ∧ x.state = 1 ∧ x.ctx.toNat = ctx then advance b s else s)

/-- R354: what follows the change of an object that is its context's seal object. -/
def sealChanged (o : Nat) (s : State) : State :=
  let ctx := (object s o).ctx.toNat
  match sealEntryOf s ctx with
  | some e => if e.object = o then advanceSeals ctx (List.range 256) s else s
  | none => s

/-- R358: a barrier context becomes BROKEN and its waiters are released with PARTNER_RESET. -/
def breakBarrier (b : Nat) (s : State) : State :=
  updBarrier b (fun x => { x with state := 3 }) (releaseBarWaiters b 4 s)

/-- Every armed context that satisfies a test is broken. -/
def breakBarriers (p : Barrier → Bool) : List Nat → State → State
  | [], s => s
  | b :: r, s =>
    let x := barrier s b
    breakBarriers p r (if (x.state = 1 ∨ x.state = 2) ∧ p x then breakBarrier b s else s)

/-! ### Commands -/

/-- R363: only the chip control processor and the host's native window write PHL_SYNC_BAR_CMD. -/
def barRequester (r : Requester) : Bool := r == .host || r == .ccp

/-- R352, R363: ARM. -/
def armBarrier (r : Requester) (b : Nat) (s : State) : State :=
  let answer := fun (v : Nat) (s : State) => setResult regBarCmd r v s
  if !barRequester r then answer 4 s
  else
    let s := updCfg (fun c => { c with barCmd := BitVec.ofNat 8 b }) s
    let d := memRead s ((tget 0 (reqCode r) s.cfg.barAddr : DWord).toNat / 64 * 64) 576
    let ctx := fieldLe 0 2 d % 4096
    if s.led.state ≠ 1 then answer 4 s
    else if (barrier s b).state ≠ 0 then answer 1 s
    else if !descFieldsOk d then answer 2 s
    else if (runningCtx s ctx).isNone then answer 3 s
    else if !descValid s ctx d then answer 2 s
    else answer 0 (updBarrier b (fun _ => armedBarrier s ctx d) s)

/-- R358, R363: DISARM, refused with BUSY while a core waits. -/
def disarmBarrier (r : Requester) (b : Nat) (s : State) : State :=
  if !barRequester r then setResult regBarCmd r 4 s
  else
    let s := updCfg (fun c => { c with barCmd := BitVec.ofNat 8 b }) s
    if (barrier s b).waiters ≠ [] then setResult regBarCmd r 1 s
    else setResult regBarCmd r 0 (updBarrier b (fun _ => {}) s)

/-- R353: how an ARRIVE ends at once: a status, or none when it waits. -/
def arriveStatus (s : State) (c b : Nat) : Option Nat :=
  let x := barrier s b
  if s.sync.ended.contains (ctxOfCore s c) then some 3
  else if x.state = 0 then some 6
  else
    match logOf s c with
    | none => some 7
    | some l =>
      if x.ctx.toNat ≠ ctxOfCore s c ∨ !x.mask.toNat.testBit l then some 7
      else if x.state = 3 then some 4
      else none

/-- R353: ARRIVE takes a watch slot, counts the core once in the generation, and blocks its queue. -/
def arriveNow (c q b : Nat) (timeout : BitVec 24) (s : State) : State :=
  if kitSignals s c then kitInvalid (station s c).reh.kit 2 c s
  else if !canStartSync s c q then s
  else
    let s := startSync c q 16 (timeoutNs s c timeout / 1000) s
    let opid := startedOpid s c q
    let name := barName s.boot.chip b
    match freeSlot s c with
    | none => retireSync c q opid 9 0 (occur 0x5006 (srcStation c) name.toNat (queueParty s c q).toNat 1 s)
    | some w =>
      match arriveStatus s c b with
      | some st => retireSync c q opid st 0 s
      | none =>
        let l := (logOf s c).getD 0
        let watch : Watch := { name := name, op := 1, queue := q, valid := true, ctx := BitVec.ofNat 12 (ctxOfCore s c)
                               expires := coreTime s c + timeoutNs s c timeout, barrier := some b, opid := opid }
        let s := updStation c (fun t => { t with watches := tput {} w watch t.watches }) s
        let s := updQueue c q (fun x => { x with wait := some w }) s
        let s := updBarrier b (fun x => { x with
          arrived := x.arrived ||| BitVec.ofNat 256 (2 ^ l), latest := max x.latest (coreTime s c), gated := x.gated || gatingOn s c
          waiters := x.waiters ++ [(c, w)] }) s
        advance b s

/-- R356: the lowest logical core not yet arrived, or 0xFF. -/
def lowestMissing (x : Barrier) : Nat :=
  ((List.range 256).find? fun l => x.mask.toNat.testBit l && !x.arrived.toNat.testBit l).getD 0xFF

/-- How many cores have arrived. -/
def arrivedCount (x : Barrier) : Nat := ((List.range 256).filter fun l => x.arrived.toNat.testBit l).length

/-- R356: an ARRIVE times out; its arrival stays counted. -/
def barrierTimeoutNow (c w : Nat) (s : State) : State :=
  let k := watchOf s c w
  match k.barrier with
  | none => s
  | some b =>
    if !k.valid ∨ timerNow s c < k.expires ∨ tableauHolds s ∨
       s.sync.releases.any (fun r => r.party == waiterParty s c k.queue w && r.name == k.name) then s
    else
      let x := barrier s b
      let p := waiterParty s c k.queue w
      let s := occur 0x6003 (srcStation c) k.name.toNat p.toNat
        (arrivedCount x + x.childArrived.length * 512 + lowestMissing x * 65536) s
      let s := updBarrier b (fun x => { x with waiters := x.waiters.filter (· != (c, w)) }) s
      retireWait c k.queue w k.opid 2 0 (freeWatch c w s)

/-- R352: ARM written to PHL_SYNC_BAR_CMD. -/
def execBarrierArm (t : Nat) (r : Requester) (b : Byte) (s : State) : Host.Outcome State Fault Refusal :=
  let s := atTime t s
  .next (if callerOff s then s else armBarrier r b.toNat s)

/-- R358: DISARM written to PHL_SYNC_BAR_CMD. -/
def execBarrierDisarm (t : Nat) (r : Requester) (b : Byte) (s : State) : Host.Outcome State Fault Refusal :=
  let s := atTime t s
  .next (if callerOff s then s else disarmBarrier r b.toNat s)

/-- R353. -/
def execBarrierArrive (t : Nat) (core : Core) (queue : Queue) (b : Byte) (timeout : BitVec 24) (s : State) :
    Host.Outcome State Fault Refusal :=
  .next (arriveNow core.val queue.val b.toNat timeout (atTime t s))

/-- R356. -/
def execBarrierTimeout (t : Nat) (core : Core) (slot : Fin 16) (s : State) : Host.Outcome State Fault Refusal :=
  .next (barrierTimeoutNow core.val slot.val (atTime t s))

end Sys2Proof.Machine
end

