-- ==== Sys2Proof/Machine/Ecdsa.lean ====
section
/-! DEFINITION. ECDSA P-384 verification (R70, R72). The curve's constants are those of FIPS 186-5, which the spec names and does not print (log entry 10). -/

namespace Sys2Proof.Machine

def p384 : Nat := 2 ^ 384 - 2 ^ 128 - 2 ^ 96 + 2 ^ 32 - 1
def n384 : Nat :=
  0xFFFFFFFFFFFFFFFFFFFFFFFFFFFFFFFFFFFFFFFFFFFFFFFFC7634D81F4372DDF581A0DB248B0A77AECEC196ACCC52973
def b384 : Nat :=
  0xB3312FA7E23EE7E4988E056BE3F82D19181D9C6EFE8141120314088F5013875AC656398D8A2ED19D2A85C8EDD3EC2AEF
def gx384 : Nat :=
  0xAA87CA22BE8B05378EB1C71EF320AD746E1D3B628BA79B9859F741E082542A385502F25DBF55296C3A545E3872760AB7
def gy384 : Nat :=
  0x3617DE4A96262C6F5D9E98BF9292DC29F8F41DBD289A147CE9DA3113B5F0B8C00A60B1CE1D7E819D7A431D7C90EA0E5F

def subMod (m a b : Nat) : Nat := (a + m - b % m) % m

/-- Power modulo m over `fuel` bits of the exponent, lowest first. -/
def powMod (m : Nat) : Nat → Nat → Nat → Nat → Nat
  | 0, _, _, acc => acc
  | f + 1, b, e, acc => powMod m f (b * b % m) (e / 2) (if e % 2 = 1 then acc * b % m else acc)

/-- The inverse modulo a prime of 384 bits. -/
def invMod (m a : Nat) : Nat := powMod m 384 (a % m) (m - 2) 1

/-- A point in Jacobian coordinates; z = 0 is the point at infinity. -/
structure Jac where
  x : Nat
  y : Nat
  z : Nat

/-- Doubling on a curve with a = -3. -/
def jacDouble (q : Jac) : Jac :=
  let p := p384
  let d := q.z * q.z % p
  let g := q.y * q.y % p
  let b := q.x * g % p
  let a := 3 * (subMod p q.x d) * (q.x + d) % p
  let x := subMod p (a * a) (8 * b)
  ⟨x, subMod p (a * subMod p (4 * b) x) (8 * g * g), 2 * q.y * q.z % p⟩

/-- The sum of two points. -/
def jacAdd (q r : Jac) : Jac :=
  let p := p384
  if q.z = 0 then r
  else if r.z = 0 then q
  else
    let z1 := q.z * q.z % p
    let z2 := r.z * r.z % p
    let u1 := q.x * z2 % p
    let u2 := r.x * z1 % p
    let s1 := q.y * (r.z * z2 % p) % p
    let s2 := r.y * (q.z * z1 % p) % p
    if u1 = u2 then (if s1 = s2 then jacDouble q else ⟨1, 1, 0⟩)
    else
      let h := subMod p u2 u1
      let t := subMod p s2 s1
      let h2 := h * h % p
      let h3 := h * h2 % p
      let v := u1 * h2 % p
      let x := subMod p (t * t) (h3 + 2 * v)
      ⟨x, subMod p (t * subMod p v x) (s1 * h3), h * (q.z * r.z % p) % p⟩

/-- u·Q + v·R, both scalars over `fuel` bits, highest first. -/
def jacMul2 (q r qr : Jac) (u v : Nat) : Nat → Jac
  | 0 => ⟨1, 1, 0⟩
  | f + 1 =>
    let acc := jacDouble (jacMul2 q r qr (u / 2) (v / 2) f)
    if u % 2 = 1 then (if v % 2 = 1 then jacAdd acc qr else jacAdd acc q)
    else if v % 2 = 1 then jacAdd acc r else acc

/-- R70 check 6: the signature (r, s) over a hash verifies under the public key of R72. -/
def ecdsaVerify (key hash sigR sigS : List Byte) : Bool :=
  let x := beNat (slice 1 48 key)
  let y := beNat (slice 49 48 key)
  let r := beNat sigR
  let s := beNat sigS
  let e := beNat hash
  let p := p384
  let onCurve := key.length == 97 && key.head? == some 0x04 && decide (x < p) && decide (y < p) &&
    y * y % p == (x * x * x + (p - 3) * x + b384) % p
  let inRange := decide (0 < r) && decide (r < n384) && decide (0 < s) && decide (s < n384)
  if onCurve && inRange then
    let w := invMod n384 s
    let g : Jac := ⟨gx384, gy384, 1⟩
    let q : Jac := ⟨x, y, 1⟩
    let t := jacMul2 g q (jacAdd g q) (e * w % n384) (r * w % n384) 384
    if t.z % p = 0 then false
    else
      let zi := invMod p t.z
      (t.x * (zi * zi % p) % p) % n384 == r
  else false

end Sys2Proof.Machine
end

