-- ==== Sys2Proof/Machine/Sections.lean ====
section
/-! DEFINITION. The content of the charter's sections and its validation (R93, R142 to R148, R152, R159, R169, R171, R180, R204, R250, R258, R269, R296, R304, R305, R324, R349, R392, R408, R459). A value whose length is not what its counts give fails with CONTENT. -/

namespace Sys2Proof.Machine

/-- R71: reasons of check 10. -/
def rContent : Nat := 10
def rG3 : Nat := 11

/-- A value when a condition holds, else reason CONTENT. -/
def valid {α : Type} (ok : Bool) (v : α) : Except Nat α := if ok then .ok v else .error rContent

/-- A field whose value 0 selects a default. -/
def dflt (d v : Nat) : Nat := if v = 0 then d else v

/-- A value is 0 or within a range. -/
def zeroOr (lo hi v : Nat) : Bool := v == 0 || (decide (lo ≤ v) && decide (v ≤ hi))

/-- Cut a list into entries of `n` bytes. -/
def entries (n : Nat) : Nat → List Byte → List (List Byte)
  | 0, _ => []
  | k + 1, l => l.take n :: entries n k (l.drop n)

/-- No value appears twice. -/
def distinct {α : Type} [DecidableEq α] : List α → Bool
  | [] => true
  | a :: r => !r.contains a && distinct r

/-- A signed field. -/
def signed (w v : Nat) : Int := if v < 2 ^ (w - 1) then v else (v : Int) - 2 ^ w

/-! ### PARTITION (R304), NEGOTIATION (R93), COVERAGE (R258), RESET_POLICY (R392) -/

/-- R304: the masks of two entries share a logical core. -/
def masksMeet : List (BitVec 256) → Bool
  | [] => false
  | m :: r => r.any (fun k => m &&& k != 0) || masksMeet r

def readPartition (v : List Byte) : Except Nat (List (CtxId × BitVec 256)) :=
  let n := fieldLe 0 2 v
  let es := entries 40 n (v.drop 8)
  let ids := es.map (fieldLe 0 2)
  let masks := es.map fun e => BitVec.ofNat 256 (fieldLe 8 32 e)
  valid (decide (v.length = 8 + 40 * n) && decide (1 ≤ n) && decide (n ≤ 256) && zeroAt 2 6 v &&
      (es.all fun e => zeroAt 2 6 e) && (ids.all fun i => decide (1 ≤ i) && decide (i ≤ 0xFFE)) && distinct ids &&
      (masks.all fun m => m != 0) && !masksMeet masks)
    ((ids.map (BitVec.ofNat 12)).zip masks)

def readNegotiation (v : List Byte) : Except Nat (Nat × Nat × Nat) :=
  let f := fun o => fieldLe o 1 v
  valid (decide (v.length = 8) && decide (f 0 ≤ 3) && decide (f 1 ≤ 2) && decide (f 2 ≤ 2) && zeroAt 3 5 v)
    (dflt 1 (f 0), dflt 1 (f 1), dflt 1 (f 2))

/-- R258, R513: ranges of MODE, REPRISE_EXP and MATRIX_EXP. -/
def coverageOk (mode reprise matrix : Nat) : Bool :=
  decide (mode ≤ 2) && decide (reprise ≤ 12) && decide (matrix ≤ 8) && (matrix == 0 || mode == 2)

def readCoverage (v : List Byte) : Except Nat Coverage :=
  let f := fun o => fieldLe o 1 v
  let reh := fieldLe 4 4 v
  valid (decide (v.length = 16) && coverageOk (f 0) (f 1) (f 2) && zeroAt 3 1 v && zeroOr 60 86400 reh && zeroAt 8 8 v)
    { mode := f 0, repriseExp := f 1, matrixExp := f 2, rehInterval := reh }

def readReset (v : List Byte) : Except Nat ResetPolicy :=
  let f := fun o => fieldLe o 1 v
  valid (decide (v.length = 16) && decide (f 0 ≤ 1) && decide (f 1 ≤ 15) && decide (fieldLe 2 2 v ≤ 60000) &&
      zeroOr 60 604800 (fieldLe 4 4 v) && zeroOr 20 1000000 (fieldLe 8 4 v) && zeroAt 12 4 v)
    { startL1 := f 0 == 1, oosCount := dflt 3 (f 1), repeatMs := dflt 1000 (fieldLe 2 2 v)
      oosWindowS := dflt 86400 (fieldLe 4 4 v), floorUs := fieldLe 8 4 v }

/-! ### SYNC_TEMPLATE (R305, R324), GUARD_WINDOW (R349), SEAL (R204), NUMERICS (R159) -/

def objOf (e : List Byte) : ObjEntry :=
  { object := fieldLe 0 2 e % 8192, count := bit (fieldLe 2 1 e) 0, host := bit (fieldLe 2 1 e) 1
    init := BitVec.ofNat 32 (fieldLe 4 4 e), hostAddr := BitVec.ofNat 64 (fieldLe 8 8 e) }

def objOk (e : List Byte) : Bool :=
  let o := objOf e
  decide (fieldLe 0 2 e < 8192) && decide (fieldLe 2 1 e < 4) && zeroAt 3 1 e && (o.count || decide (o.init.toNat ≤ 1)) &&
  (o.host || o.hostAddr == 0) && o.hostAddr.toNat % 16 == 0

def monOf (ctx : CtxId) (e : List Byte) : MonEntry :=
  let c := fieldLe 14 1 e
  { addr := fieldLe 0 8 e, compare := BitVec.ofNat 32 (fieldLe 8 4 e), object := fieldLe 12 2 e % 8192, cond := c % 8
    oneshot := bit c 3, action := c / 16, addn := fieldLe 15 1 e, ctx := ctx, last := 0 }

/-- R324: FETCH serves entries 0 and 1 only, so no template entry has it. -/
def monOk (objects : List Nat) (e : List Byte) : Bool :=
  let m := monOf 0 e
  m.addr % 4 == 0 && decide (fieldLe 12 2 e < 8192) && decide (m.cond ≤ 4) && decide (1 ≤ m.action) && decide (m.action ≤ 3) &&
  (m.action != 2 || m.addn != 0) && objects.contains m.object

def readTemplate (v : List Byte) : Except Nat Template :=
  let ctx := fieldLe 0 2 v
  let n := fieldLe 2 2 v
  let m := fieldLe 4 4 v
  if v.length = 16 + 16 * n + 16 * m ∧ ctx < 4096 ∧ n ≤ 8192 ∧ m ≤ 65280 ∧ fieldLe 8 4 v ≤ 60000 ∧ zeroAt 12 4 v then
    let os := entries 16 n (v.drop 16)
    let ms := entries 16 m (v.drop (16 + 16 * n))
    let names := os.map fun e => (objOf e).object
    valid (os.all objOk && distinct names && ms.all (monOk names))
      { ctx := BitVec.ofNat 12 ctx, timeoutMs := dflt 5000 (fieldLe 8 4 v), objects := os.map objOf
        monitors := ms.map (monOf (BitVec.ofNat 12 ctx)) }
  else .error rContent

/-- A range of a guard window: (BASE, LEN). -/
def rangeOf (e : List Byte) (i : Nat) : Nat × Nat := (fieldLe (16 + 16 * i) 8 e, fieldLe (24 + 16 * i) 8 e)

def guardOf (e : List Byte) : Guard :=
  { ctx := BitVec.ofNat 12 (fieldLe 0 2 e), name := BitVec.ofNat 32 (fieldLe 4 4 e)
    ranges := (List.range (fieldLe 8 1 e)).map (rangeOf e) }

def guardOk (e : List Byte) : Bool :=
  let n := fieldLe 8 1 e
  decide (fieldLe 0 2 e < 4096) && zeroAt 2 2 e && decide (fieldLe 4 4 e < 2 ^ 27) && decide (1 ≤ n) && decide (n ≤ 4) && zeroAt 9 7 e &&
  ((List.range n).all fun i => (rangeOf e i).1 % 64 == 0 && (rangeOf e i).2 % 64 == 0 && (rangeOf e i).2 != 0) &&
  zeroAt (16 + 16 * n) (16 * (4 - n)) e

def readGuards (v : List Byte) : Except Nat (List Guard) :=
  let n := fieldLe 0 2 v
  let es := entries 80 n (v.drop 8)
  let gs := es.map guardOf
  valid (decide (v.length = 8 + 80 * n) && decide (n ≤ 16384) && zeroAt 2 6 v && es.all guardOk &&
      distinct (gs.map fun g => (g.ctx, g.name)) && gs.all fun g => decide ((gs.filter (·.ctx == g.ctx)).length ≤ 64)) gs

def sealOf (e : List Byte) : SealEntry :=
  { ctx := BitVec.ofNat 12 (fieldLe 0 2 e), request := fieldLe 2 2 e, object := fieldLe 4 2 e, enabled := bit (fieldLe 6 1 e) 0
    lateUs := dflt 2000 (fieldLe 8 4 e) }

def readSeals (v : List Byte) : Except Nat (List SealEntry) :=
  let n := fieldLe 0 2 v
  let es := entries 16 n (v.drop 8)
  valid (decide (v.length = 8 + 16 * n) && zeroAt 2 6 v && (es.all fun e => decide (fieldLe 0 2 e < 4096) && decide (fieldLe 2 2 e < 8192) &&
      decide (fieldLe 4 2 e < 8192) && decide (fieldLe 6 1 e ≤ 1) && zeroAt 7 1 e && zeroAt 12 4 e) && distinct (es.map (fieldLe 0 2)))
    (es.map sealOf)

def numOf (e : List Byte) : NumEntry :=
  { ctx := BitVec.ofNat 12 (fieldLe 0 2 e), object := fieldLe 2 2 e, writePages := bit (fieldLe 4 1 e) 0, signal := bit (fieldLe 4 1 e) 1
    satThresh := fieldLe 8 4 e, page := fieldLe 16 8 e }

def readNumerics (v : List Byte) : Except Nat (List NumEntry) :=
  let n := fieldLe 0 2 v
  let es := entries 32 n (v.drop 8)
  valid (decide (v.length = 8 + 32 * n) && zeroAt 2 6 v && es.all fun e => decide (fieldLe 0 2 e < 4096) && decide (fieldLe 2 2 e < 8192) &&
      decide (fieldLe 4 1 e ≤ 3) && zeroAt 5 3 e && zeroAt 12 4 e && fieldLe 16 8 e % 131072 == 0 && zeroAt 24 8 e)
    (es.map numOf)

/-! ### EVENT_LIMITS (R408), TOPOLOGY (R459), REHEARSAL_KIT (R250) -/

def readLimits (v : List Byte) : Except Nat (List Limit) :=
  let n := fieldLe 0 2 v
  let es := entries 8 n (v.drop 8)
  valid (decide (v.length = 8 + 8 * n) && decide (n ≤ 256) && zeroAt 2 6 v && (es.all fun e =>
      (fieldLe 0 2 e == 0 || limited (BitVec.ofNat 16 (fieldLe 0 2 e))) && zeroAt 3 1 e && decide (fieldLe 4 4 e ≤ 1000000)) &&
      distinct (es.map (fieldLe 0 2)))
    (es.map fun e => { code := fieldLe 0 2 e, depth := dflt 16 (fieldLe 2 1 e), refillUs := dflt 250 (fieldLe 4 4 e) })

def topoPortOf (e : List Byte) : TopoPort :=
  { port := fieldLe 0 1 e, optional := bit (fieldLe 1 1 e) 0, anyPeer := bit (fieldLe 1 1 e) 1, width := fieldLe 2 1 e
    floor := fieldLe 3 1 e, peerUid := fieldLe 4 16 e, peerPort := fieldLe 20 1 e }

def topoPortOk (e : List Byte) : Bool :=
  let p := topoPortOf e
  decide (p.port ≤ 35) && decide (fieldLe 1 1 e ≤ 3) && decide (1 ≤ p.width) && decide (p.width ≤ 16) && decide (1 ≤ p.floor) &&
  decide (p.floor ≤ p.width) && (!p.anyPeer || p.peerUid == 0) && decide (p.peerPort ≤ 35) && zeroAt 21 11 e

def readTopology (v : List Byte) : Except Nat Topology :=
  let n := fieldLe 2 1 v
  let es := entries 32 n (v.drop 16)
  let ps := es.map topoPortOf
  valid (decide (v.length = 16 + 32 * n) && decide (n ≤ 36) && decide (fieldLe 0 2 v < 0x3FFF) && decide (fieldLe 3 1 v ≤ 1) &&
      decide (fieldLe 4 1 v ≤ 8) && zeroAt 5 11 v && es.all topoPortOk && distinct (ps.map (·.port)))
    { chip := BitVec.ofNat 14 (fieldLe 0 2 v), degradedOk := fieldLe 3 1 v == 1, minStacks := dflt 8 (fieldLe 4 1 v), ports := ps }

/-- R227: bytes of the understudy region. -/
def regionBytes : Nat := 262144

/-- R384: a native descriptor holds at least these bytes (log entry 139). -/
def descBytes : Nat := 32

def readKit (v : List Byte) : Except Nat Kit :=
  let f := fun o => fieldLe o 4 v
  let n := fieldLe 4 2 v
  let es := entries 16 n (v.drop (f 24))
  valid (decide (64 ≤ v.length) && fieldLe 0 2 v != 0 && decide (fieldLe 3 1 v < 16) && decide (1 ≤ n) && decide (n ≤ 64) && zeroAt 6 2 v &&
      f 36 == v.length && f 16 % 64 == 0 && decide (f 16 ≤ 262144) && decide (f 20 + f 16 ≤ v.length) && decide (f 24 + 16 * n ≤ v.length) &&
      decide (f 28 + f 32 ≤ v.length) && zeroAt 40 8 v && es.all fun e => decide (fieldLe 0 4 e + descBytes * fieldLe 4 2 e ≤ f 32) &&
        decide (1 ≤ fieldLe 6 2 e) && decide (fieldLe 6 2 e ≤ 100) && fieldLe 8 4 e % 64 == 0 && fieldLe 12 4 e % 64 == 0 &&
        decide (fieldLe 8 4 e + fieldLe 12 4 e ≤ regionBytes))
    { id := fieldLe 0 2 v, ver := fieldLe 2 1 v, flags := fieldLe 3 1 v, signature := fieldLe 8 8 v, data := slice (f 20) (f 16) v
      block := slice (f 28) (f 32) v, name := slice 48 16 v
      segs := es.map fun e => { descOff := fieldLe 0 4 e, descs := fieldLe 4 2 e, budget := fieldLe 6 2 e, resOff := fieldLe 8 4 e
                                resLen := fieldLe 12 4 e } }

/-! ### TEMPO_POLICY (R296), LEDGER_POLICY (R269) -/

def readTempo (v : List Byte) : Except Nat TempoPolicy :=
  let f := fun o => fieldLe o 1 v
  let h := fun o => fieldLe o 2 v
  let w := fun o => fieldLe o 4 v
  let min_ := dflt 8 (f 7)
  let trip := dflt 3 (f 8)
  valid (decide (v.length = 40) && decide (f 0 ≤ 1) && zeroOr 1 5 (f 1) && zeroOr 5 25 (f 2) && zeroOr 15 100 (f 3) && zeroOr 10 150 (f 6) &&
      zeroOr 1 50 (f 7) && zeroOr 1 49 (f 8) && decide (trip < min_) && zeroOr 1 600 (h 10) && zeroOr 60 28800 (w 12) &&
      zeroOr 60 86400 (w 16) && zeroOr 600 604800 (w 20) && zeroOr 1 15 (f 24) && zeroAt 25 1 v && zeroOr 50 2000 (h 26) &&
      zeroOr 10 10000 (h 28) && zeroOr 3600 604800 (w 32) && zeroAt 36 4 v)
    { enable := f 0 == 1, stepDown := dflt 5 (f 1), stepUp := dflt 10 (f 2), floorMargin := dflt 15 (f 3), domains := h 4
      maxHarvest := dflt 100 (f 6), canaryMin := min_, canaryTrip := trip, failMax := f 9, evalS := dflt 10 (h 10), holdS := dflt 1800 (w 12)
      failWindowS := dflt 600 (w 16), learnS := dflt 86400 (w 20), lockCount := dflt 4 (f 24), settleUs := dflt 200 (h 26)
      spacingMs := dflt 100 (h 28), evidence := dflt 1000 (h 30), lockWindowS := dflt 86400 (w 32) }

def readLedger (v : List Byte) : Except Nat LedgerPolicy :=
  let f := fun o => fieldLe o 1 v
  let h := fun o => fieldLe o 2 v
  let w := fun o => fieldLe o 4 v
  valid (decide (v.length = 64) && h 0 != 0 && zeroAt 2 2 v && w 4 != 0 && h 8 + h 10 + h 12 + h 14 == 65536 && zeroOr 60 65535 (h 20) &&
      decide (f 22 ≤ 15) && decide (f 23 ≤ 15) && zeroOr 60 604800 (w 24) && decide (h 28 ≤ 60000) && decide (f 30 ≤ 1) && zeroAt 31 1 v &&
      decide (h 36 < 16384) && zeroAt 38 2 v && fieldLe 40 8 v % 128 == 0 && zeroAt 48 16 v)
    { alpha0 := h 0, beta0 := w 4, fMatrix := h 8, fVector := h 10, fMover := h 12, fResidual := h 14, eVf := h 16, eR := h 18
      rehRefS := dflt 600 (h 20), suspectCount := dflt 3 (f 22), stationCount := dflt 3 (f 23), windowS := dflt 86400 (w 24)
      drainMs := dflt 10000 (h 28), carry := f 30 == 1, target := dflt 20000 (w 32), fmChip := BitVec.ofNat 14 (h 36)
      fmAddr := BitVec.ofNat 64 (fieldLe 40 8 v) }

/-! ### FIGURE (R142 to R148) -/

def cellOf (w : Nat) : CellWord :=
  { type := bits w 2 0, vcell := bits w 7 3, op := bits w 14 8, clr := bit w 15, srcA := BitVec.ofNat 12 (bits w 27 16)
    srcB := BitVec.ofNat 12 (bits w 39 28), srcC := BitVec.ofNat 12 (bits w 51 40), trig := bits w 55 52, neg := bits w 59 56
    lbase := bits w 67 60, lstride := bits w 71 68, estride := bits w 75 72, nelem := bits w 79 76
    scaleA := BitVec.ofNat 12 (bits w 91 80), scaleB := BitVec.ofNat 12 (bits w 103 92), param := bits w 109 104, rest := bits w 127 110 }

def outOf (e : List Byte) : OutDesc :=
  { kind := fieldLe 0 1 e, type := fieldLe 1 1 e % 8, vcell := fieldLe 1 1 e / 8, index := fieldLe 2 1 e }

/-- R143: the parts of a figure image at their places; what the header counts. -/
def figureOf (img : List Byte) : Figure :=
  let f := fun o => fieldLe o 1 img
  let nc := f 18
  let np := f 19
  { id := fieldLe 0 2 img, ver := f 2, queues := f 4, classes := f 5, formats := fieldLe 6 2 img, ttagLo := fieldLe 8 2 img
    ttagHi := fieldLe 10 2 img, demand := (List.range 5).map fun i => f (12 + i), verdict := bit (f 17) 0, alt := bit (f 17) 1
    sample := bit (f 17) 2, census := bit (f 17) 3, imports := fieldLe 22 2 img
    cells := (entries 16 nc (img.drop 32)).map fun e => cellOf (leNat e)
    params := (entries 8 np (img.drop (32 + 16 * nc))).map fun e => BitVec.ofNat 64 (leNat e)
    outs := (entries 8 (f 20) (img.drop (32 + 16 * nc + 8 * np))).map outOf }

/-- R132: the opcodes of each type. -/
def opDefined (type op : Nat) : Bool :=
  op == 0 || match type with
    | 0 => decide (op ≤ 6) | 1 => decide (op ≤ 3) | 2 => decide (op ≤ 2) | 3 => decide (op ≤ 1) | 4 => decide (op ≤ 3) | _ => false

/-- R5, R145, R146: a source specification that needs a G3 value. -/
def srcG3 (x : BitVec 12) : Bool :=
  let n := x.toNat
  bits n 11 9 == 7 || (bits n 11 9 == 1 && decide (30 ≤ bits n 8 4))

/-- R145: the register that a CELL source names exists. -/
def regExists (type reg : Nat) : Bool :=
  match type with
  | 0 => reg == 0 | 1 => true | 4 => true | _ => false

/-- R145, R146, R148: a source specification of a cell word; a T cell's CELL source names the first of the cells swept. -/
def srcOk (f : Figure) (w : CellWord) (x : BitVec 12) : Bool :=
  let n := x.toNat
  match bits n 11 9 with
  | 0 => bits n 8 0 == 0
  | 1 => decide (bits n 8 4 ≤ 14) && bits n 3 0 == 0
  | 2 =>
    let swept := if w.type = 2 then w.nelem else 1
    regExists (bits n 8 6) (bits n 0 0) && decide (bits n 5 1 + swept ≤ f.demand.getD (bits n 8 6) 0)
  | 3 => bits n 0 0 == 0 && decide (bits n 8 4 + (bits n 3 1 + 1) * w.nelem ≤ f.demand.getD 0 0)
  | 4 => bits n 8 6 == 0 && decide (bits n 5 0 < f.params.length)
  | 5 => bits n 8 3 == 0
  | _ => false

def srcsOf (w : CellWord) : List (BitVec 12) := [w.srcA, w.srcB, w.srcC, w.scaleA, w.scaleB]

/-- R132, R169, R178: parameter words that an operation reads. -/
def paramsRead (w : CellWord) : Nat :=
  match w.type, w.op with
  | 1, 3 => 7
  | 2, 1 => 2
  | _, _ => 0

def wordG3 (w : CellWord) : Bool :=
  w.type == 7 || decide (64 ≤ w.op) || decide (14 ≤ w.trig) || w.rest != 0 || (srcsOf w).any srcG3

/-- R171: no BAND reads an A1 above −4,096; R169, R178, R180: the zero bits of the words that BAND and CMPB read. -/
def paramsOk (f : Figure) (w : CellWord) : Bool :=
  let p := fun i => (f.params.getD (w.param + i) 0).toNat
  match w.type, w.op with
  | 1, 3 => bits (p 0) 62 48 == 0 && (List.range 6).all fun i => decide (signed 32 (bits (p (i + 1)) 31 0) ≤ -4096)
  | 2, 1 => bits (p 0) 62 56 == 0 && decide (p 1 < 65536)
  | _, _ => true

def wordOk (f : Figure) (w : CellWord) : Bool :=
  decide (w.type ≤ 4) && decide (w.vcell < f.demand.getD w.type 0) && opDefined w.type w.op && decide (w.trig ≤ 6) && decide (w.neg ≤ 3) &&
  decide (1 ≤ w.nelem) && decide (w.nelem ≤ (if w.type = 2 then 8 else if w.type = 0 ∧ w.op ≠ 0 then 2 else 4)) &&
  (decide (w.param + max 1 (paramsRead w) ≤ f.params.length) || (paramsRead w == 0 && w.param == 0)) &&
  (srcsOf w).all (srcOk f w) && paramsOk f w

/-! ### Words of one cell (R128, R144) -/

/-- R128: the register that an operation writes: 0 ACC, L0 or CRC0, 1 L1 or CRC1, 2 the output of BAND. -/
def regWritten (w : CellWord) : Option Nat :=
  if w.op = 0 then none
  else match w.type, w.op with
    | 1, 2 => some 1
    | 1, 3 => some 2
    | 4, 3 => some 1
    | _, _ => some 0

/-- R140: the field on whose beats a word acts: that of SRCA, else that of SRCB, else field 0 (log entry 135). -/
def beatField (w : CellWord) : Nat :=
  let a := w.srcA.toNat
  let b := w.srcB.toNat
  if bits a 11 9 = 1 then bits a 8 4 else if bits b 11 9 = 1 then bits b 8 4 else 0

/-- A BEAT trigger on an operand field of a matrix or vector CU. -/
def engineBeat (w : CellWord) : Bool :=
  w.trig == 0 && (decide (beatField w ≤ 3) || (decide (6 ≤ beatField w) && decide (beatField w ≤ 8)))

/-- A BEAT trigger on an operand field, none of which comes after the CU's last operand beat. -/
def operandBeat (w : CellWord) : Bool := engineBeat w || (w.trig == 0 && beatField w == 10)

/-- R140, R141: two triggers that can act in one core cycle. -/
def mayMeet (a b : CellWord) : Bool :=
  if a.trig = b.trig then true
  else if a.trig = 4 ∨ a.trig = 5 ∨ b.trig = 4 ∨ b.trig = 5 then false
  else if (a.trig = 3 ∧ (operandBeat b || b.trig == 2)) ∨ (b.trig = 3 ∧ (operandBeat a || a.trig == 2)) then false
  else true

def wordsClash (a b : CellWord) : Bool :=
  a.type == b.type && a.vcell == b.vcell && (regWritten a).isSome && regWritten a == regWritten b && mayMeet a b

def anyClash : List CellWord → Bool
  | [] => false
  | w :: r => r.any (wordsClash w) || anyClash r

/-! ### Latency (R152) -/

/-- R152: a word that has acted before the CU's last tap beat, which is a result beat of a matrix or vector CU and the last
source beat of a transfer. -/
def actsEarly (mover : Bool) (w : CellWord) : Bool :=
  w.op == 0 || w.trig == 5 || w.trig == 2 || engineBeat w || (w.trig == 3 && !mover)

/-- R127: latency of an operation in core cycles. -/
def wordLatency (mover : Bool) (w : CellWord) : Nat :=
  if actsEarly mover w then 0
  else match w.type with
    | 0 => 4
    | 1 => if w.op = 3 then 8 else 3
    | 2 => 2 * w.nelem
    | _ => 2

/-- Cells of a type from a number on that a source reads, and the latency of the source itself (R145). -/
def srcReads (w : CellWord) (x : BitVec 12) : Option (Nat × Nat × Nat × Nat) :=
  let n := x.toNat
  match bits n 11 9 with
  | 2 => some (bits n 8 6, bits n 5 1, if w.type = 2 then w.nelem else 1, 0)
  | 3 => some (0, bits n 8 4, (bits n 3 1 + 1) * w.nelem, 6)
  | _ => none

/-- R140: the order of the triggers of a CU. -/
def trigRank (trig : Nat) : Nat :=
  match trig with
  | 5 => 0 | 2 => 2 | 3 => 3 | 4 => 4 | _ => 1

/-- R132: a word takes a register of its own cell that another word has written on an earlier trigger: ACC but under SUMT, both
of an E cell under BAND, else the one that both words write. -/
def takesRegister (w x : CellWord) : Bool :=
  x.type == w.type && x.vcell == w.vcell && decide (trigRank x.trig < trigRank w.trig) &&
  match w.type with
  | 0 => w.op != 2
  | 1 => w.op == 3 || x.op == w.op
  | 3 => true
  | 4 => (w.op == 3) == (x.op == 3)
  | _ => false

/-- The longest of the chains of some words. -/
def longest (l : List (CellWord × Nat)) : Nat := l.foldl (fun k a => max k a.2) 0

/-- The longest chain into a word, given the chains of all words: through its sources, and through the registers of its own cell. -/
def chainInto (all : List (CellWord × Nat)) (w : CellWord) : Nat :=
  (srcsOf w).foldl (fun m x =>
    match srcReads w x with
    | none => m
    | some (ty, v, n, lat) =>
      max m (lat + longest (all.filter fun a => a.1.type == ty && decide (v ≤ a.1.vcell) && decide (a.1.vcell < v + n))))
    (longest (all.filter fun a => takesRegister w a.1))

/-- Chains after `n` rounds; a chain that returns to its own cell grows past the limit. -/
def chains (mover : Bool) (cells : List CellWord) : Nat → List (CellWord × Nat)
  | 0 => cells.map fun w => (w, wordLatency mover w)
  | n + 1 =>
    let prev := chains mover cells n
    cells.map fun w => (w, if actsEarly mover w then 0 else wordLatency mover w + chainInto prev w)

/-- R152: the latency of a figure: its longest chain from RETIRE or the last tap beat to an output, and 64 core cycles for the tap FIFO. -/
def figureLatency (f : Figure) : Nat :=
  let verdict := f.outs.any (·.kind == 1)
  64 + ((chains (decide (4 ≤ f.queues)) f.cells 60).filter fun a =>
    (verdict && a.1.type == 2) || f.outs.any fun o => o.type == a.1.type && o.vcell == a.1.vcell).foldl (fun k a => max k a.2) 0

/-! ### The library figures' bands (R170, R171, R180) -/

/-- R170: A0, DA0, then A1 and A2 of W1 to W6. -/
def envParams : List Int :=
  [-98303, 4097, -356352, -540672, -57342, -540672, -36840, -516096, -36659, -516096, -28580, -512000, -28534, -512000]

def envFields (f : Figure) (base : Nat) : List Int :=
  let w := fun i => (f.params.getD (base + i) 0).toNat
  [signed 32 (bits (w 0) 31 0), (bits (w 0) 47 32 : Nat)] ++
  ((List.range 6).map fun i => [signed 32 (bits (w (i + 1)) 31 0), signed 32 (bits (w (i + 1)) 63 32)]).flatten

/-- R169, R171: the words that BAND reads in an image of FG-ENV keep F = 1 and every parameter within 12,288 above R170's. -/
def envOk (f : Figure) : Bool :=
  (f.cells.filter fun w => w.type == 1 && w.op == 3).all fun w =>
    bit (f.params.getD w.param 0).toNat 63 &&
    ((envFields f w.param).zip envParams).all fun x => decide (x.2 ≤ x.1) && decide (x.1 ≤ x.2 + 12288)

/-- R180: the CMPB words of a library FG-GEMM-COL or FG-CONV: ER, EC and EA not below the library's. -/
def gemmOk (f : Figure) : Bool :=
  (f.cells.filter fun w => w.type == 2 && w.op == 1).all fun w =>
    let p := (f.params.getD w.param 0).toNat
    [(23, 16, (-23 : Int)), (31, 24, -8), (39, 32, -6), (47, 40, 24), (55, 48, -125)].all fun x => decide (x.2.2 ≤ signed 8 (bits p x.1 x.2.1))

def libraryOk (f : Figure) : Bool :=
  match f.id with
  | 2 => envOk f
  | 1 => gemmOk f
  | 3 => gemmOk f
  | _ => true

/-- R142 to R148: a FIGURE section: its mask and its figure. -/
def readFigure (v : List Byte) : Except Nat (BitVec 256 × Figure) :=
  let img := v.drop 32
  let g := fun o => fieldLe o 1 img
  let f := figureOf img
  let lengthOk := decide (64 ≤ v.length) && decide (img.length = 32 + 16 * g 18 + 8 * g 19 + 8 * g 20) && fieldLe 24 4 img == img.length
  let crcOk := fieldLe 28 4 img == (crc32c (img.take 28 ++ [0, 0, 0, 0] ++ img.drop 32)).toNat
  if !lengthOk || !crcOk then .error rContent
  else if g 3 = 3 ∨ 4096 ≤ f.formats ∨ f.cells.any wordG3 then .error rG3
  else
    valid (decide (1 ≤ g 18) && decide (g 18 ≤ 54) && decide (g 19 ≤ 64) && decide (1 ≤ g 20) && decide (g 20 ≤ 8) && f.id != 0 && g 3 == 2 &&
        decide (g 4 < 16) && decide (f.formats < 512) && decide (f.ttagLo < 4096) && decide (f.ttagHi < 4096) && decide (g 17 < 16) && g 21 == 0 &&
        f.cells.all (wordOk f) && !anyClash f.cells &&
        ((entries 8 (g 20) (img.drop (32 + 16 * g 18 + 8 * g 19))).all fun e => zeroAt 3 5 e) &&
        (f.outs.all fun o => decide (1 ≤ o.kind) && decide (o.kind ≤ 5) && decide (o.type ≤ 4) && decide (o.vcell < f.demand.getD o.type 0) &&
          (if o.kind = 2 then decide (o.index ≤ 7) else o.index == 0)) &&
        decide ((f.outs.filter (·.kind == 1)).length ≤ 1) && decide (figureLatency f ≤ 172) && libraryOk f)
      (BitVec.ofNat 256 (fieldLe 0 32 v), f)

end Sys2Proof.Machine
end

