-- ==== Sys2Proof/Machine/CharterImage.lean ====
section
/-! DEFINITION. The charter image and its checks (R68 to R77). -/

namespace Sys2Proof.Machine

/-- R71: why an image is rejected: the reason, and the index of the section at fault or 0xFF. -/
structure Reject where
  reason : Nat
  section_ : Nat
deriving DecidableEq, Repr

/-- A section as the table names it (R74). -/
structure Sect where
  index : Nat
  type : Nat
  version : Nat
  flags : Nat
  offset : Nat
  value : List Byte
deriving DecidableEq, Repr

def maxImage : Nat := 0x2000000

/-! ### Header and layout (R68, R69, R70 checks 1 to 3) -/

def hdrTotal (img : List Byte) : Nat := fieldLe 8 4 img
def hdrSerial (img : List Byte) : Nat := fieldLe 12 4 img
def hdrCount (img : List Byte) : Nat := fieldLe 16 2 img
def hdrTable (img : List Byte) : Nat := fieldLe 20 4 img
def hdrSig (img : List Byte) : Nat := fieldLe 24 4 img

/-- R68, R69: the header's offsets and lengths. -/
def headerOk (img : List Byte) : Bool :=
  let t := hdrTotal img
  decide (264 ≤ t) && decide (t ≤ maxImage) && t % 8 == 0 && decide (t ≤ img.length) && decide (1 ≤ hdrCount img) && decide (hdrCount img ≤ 256) &&
  hdrTable img % 8 == 0 && decide (64 ≤ hdrTable img) && decide (hdrTable img + 8 * hdrCount img ≤ hdrSig img) && hdrSig img + 200 == t

/-- R74: a table entry with the section that it names. -/
def sectOf (img : List Byte) (i : Nat) : Sect :=
  let e := slice (hdrTable img + 8 * i) 8 img
  let o := fieldLe 4 4 e
  { index := i, type := fieldLe 0 2 e, version := fieldLe 2 1 e, flags := fieldLe 3 1 e, offset := o
    value := slice (o + 8) (fieldLe (o + 4) 4 img) img }

/-- R68, R74: a section's entry, place and header; FLAGS[7:1] are zero, and check 3 sees that they are (log entry 173). -/
def sectOk (img : List Byte) (x : Sect) : Bool :=
  x.type != 0 && decide (x.flags ≤ 1) && x.offset % 8 == 0 && decide (hdrTable img + 8 * hdrCount img ≤ x.offset) &&
  decide (x.offset + 8 + fieldLe (x.offset + 4) 4 img ≤ hdrSig img) &&
  fieldLe x.offset 2 img == x.type && fieldLe (x.offset + 2) 1 img == x.version && fieldLe (x.offset + 3) 1 img == x.flags

def overlap (a b : Sect) : Bool :=
  decide (a.offset < b.offset + 8 + b.value.length) && decide (b.offset < a.offset + 8 + a.value.length)

/-- The first section that overlaps one before it in the table. -/
def firstOverlap : List Sect → List Sect → Option Sect
  | _, [] => none
  | before, x :: r => if before.any (overlap x) then some x else firstOverlap (x :: before) r

/-! ### Section types (R74, R75) -/

/-- R74: least and greatest count of each type. -/
def sectCount : Nat → Option (Nat × Nat)
  | 1 => some (1, 1) | 2 => some (0, 64) | 3 => some (1, 1) | 4 => some (0, 256) | 5 => some (0, 1) | 6 => some (1, 1) | 7 => some (0, 1)
  | 8 => some (1, 1) | 9 => some (0, 32) | 10 => some (0, 1) | 11 => some (1, 1) | 12 => some (1, 1) | 13 => some (0, 1) | 14 => some (0, 1)
  | _ => none

/-- R75. -/
def sectKnown (minor : Nat) (x : Sect) : Bool := (sectCount x.type).isSome && x.version == 1 && !(x.type == 14 && minor == 0)

/-- R70 check 9: the first section that appears too often, else a type that is missing. -/
def countFault (known : List Sect) : Option Reject :=
  let tooMany := fun (x : Sect) => match sectCount x.type with
    | some (_, hi) => decide (hi < (known.filter fun y => y.type == x.type && decide (y.index ≤ x.index)).length)
    | none => false
  match known.find? tooMany with
  | some x => some ⟨9, x.index⟩
  | none =>
    if (List.range 15).any fun t => match sectCount t with
        | some (lo, _) => decide ((known.filter (·.type == t)).length < lo)
        | none => false
    then some ⟨9, 0xFF⟩ else none

/-! ### Content (R70 check 10) -/

/-- The sections of one type, each read by its reader, with their indices. -/
def readAll {α : Type} (known : List Sect) (type : Nat) (f : List Byte → Except Nat α) : List (Nat × Except Nat α) :=
  (known.filter (·.type == type)).map fun x => (x.index, f x.value)

def errorsOf {α : Type} (l : List (Nat × Except Nat α)) : List Reject :=
  l.filterMap fun x => match x.2 with | .error e => some ⟨e, x.1⟩ | .ok _ => none

def valuesOf {α : Type} (l : List (Nat × Except Nat α)) : List (Nat × α) :=
  l.filterMap fun x => match x.2 with | .ok v => some (x.1, v) | .error _ => none

/-- The fault in the section that stands first in the table. -/
def firstFault (l : List Reject) : Option Reject :=
  l.foldl (fun m x => match m with | none => some x | some y => if x.section_ < y.section_ then some x else some y) none

/-- R305: rules of a template that look at the partition and at the other templates. -/
def templateFaults (partition : List (CtxId × BitVec 256)) (ts : List (Nat × Template)) : List Reject :=
  (ts.filter fun x =>
    let mask := (partition.find? (·.1 == x.2.ctx)).map (·.2)
    let earlier := ts.filter fun y => decide (y.1 < x.1)
    let n : Nat := ((earlier ++ [x]).map fun y => y.2.monitors.length).sum
    mask.isNone || (earlier.any fun y => y.2.ctx == x.2.ctx) ||
      (x.2.objects.any fun o => !((mask.getD 0).toNat.testBit (o.object / 32))) ||
      decide (65280 < n)).map fun x => ⟨rContent, x.1⟩

/-- R204: the context's template places both objects in COUNT mode. -/
def sealFault (ts : List Template) (e : SealEntry) : Bool :=
  let os := ((ts.find? (·.ctx == e.ctx)).map (·.objects)).getD []
  let counts := fun (o : Nat) => os.any fun x => x.object == o && x.count
  !counts e.request || !counts e.object

/-- R70 check 10: what the known sections say, or the first fault. -/
def readContent (serial : Nat) (keygen : Nat) (known : List Sect) : Except Reject Charter :=
  let part := readAll known 1 readPartition
  let figs := readAll known 2 readFigure
  let cov := readAll known 3 readCoverage
  let tmpl := readAll known 4 readTemplate
  let guard := readAll known 5 readGuards
  let reset := readAll known 6 readReset
  let limits := readAll known 7 readLimits
  let topo := readAll known 8 readTopology
  let kits := readAll known 9 readKit
  let tempo := readAll known 10 readTempo
  let ledger := readAll known 11 readLedger
  let seals := readAll known 12 readSeals
  let nums := readAll known 13 readNumerics
  let neg := readAll known 14 readNegotiation
  let own := errorsOf part ++ errorsOf figs ++ errorsOf cov ++ errorsOf tmpl ++ errorsOf guard ++ errorsOf reset ++ errorsOf limits ++
    errorsOf topo ++ errorsOf kits ++ errorsOf tempo ++ errorsOf ledger ++ errorsOf seals ++ errorsOf nums ++ errorsOf neg
  match firstFault own with
  | some r => .error r
  | none =>
    let partition := ((valuesOf part).map (·.2)).headD []
    let ts := valuesOf tmpl
    let ks := valuesOf kits
    let cross :=
      templateFaults partition ts ++
      ((valuesOf guard).filter fun x => x.2.any fun g => !partition.any (·.1 == g.ctx)).map (fun x => ⟨rContent, x.1⟩) ++
      (ks.filter fun x => ks.any fun y => decide (y.1 < x.1) && y.2.id == x.2.id).map (fun x => ⟨rContent, x.1⟩) ++
      ((valuesOf seals).filter fun x => x.2.any (sealFault (ts.map (·.2)))).map fun x => ⟨rContent, x.1⟩
    match firstFault cross, (valuesOf cov).head?, (valuesOf reset).head?, (valuesOf topo).head?, (valuesOf ledger).head? with
    | none, some c, some r, some t, some l => .ok {
        serial := BitVec.ofNat 32 serial, keygen := keygen, partition := partition, figures := (valuesOf figs).map (·.2), coverage := c.2
        templates := ts.map (·.2), guards := ((valuesOf guard).map (·.2)).flatten, reset := r.2
        limits := ((valuesOf limits).map (·.2)).flatten, topology := t.2
        kits := (ks.map (·.2)).mergeSort fun a b => decide (a.id ≤ b.id)
        tempo := ((valuesOf tempo).map (·.2)).head?, ledger := l.2, seals := ((valuesOf seals).map (·.2)).flatten
        numerics := ((valuesOf nums).map (·.2)).flatten, floors := ((valuesOf neg).map (·.2)).headD (1, 1, 1)
        fixed := (known.filter fun x => x.type == 1 || x.type == 8 || x.type == 14).map fun x => BitVec.ofNat 8 x.type :: (toLe 4 x.flags ++ x.value)
        figSections := (valuesOf figs).map (·.1) }
    | some x, _, _, _, _ => .error x
    | none, _, _, _, _ => .error ⟨9, 0xFF⟩

/-! ### All checks (R70) -/

/-- R77: the three sections are byte for byte those of the active charter, type by type. -/
def fixedSame (a b : Charter) : Bool :=
  [1, 8, 14].all fun t => decide ((a.fixed.filter (·.head? == some t)) = (b.fixed.filter (·.head? == some t)))

/-- Checks 4 to 10, once the layout is known. `keyhash` is the active generation and its hash. -/
def checkSigned (img : List Byte) (sects : List Sect) (keyhash : Option (Nat × List Byte)) : Except Reject Charter :=
  let img := img.take (hdrTotal img)
  let sig := img.drop (hdrSig img)
  let key := sig.take 97
  let minor := fieldLe 5 1 img
  match keyhash with
  | none => .error ⟨4, 0xFF⟩
  | some (gen, hash) =>
    if fieldLe 7 1 img ≠ gen then .error ⟨4, 0xFF⟩
    else if sha384 key ≠ hash then .error ⟨5, 0xFF⟩
    else if !ecdsaVerify key (sha384 (img.take (hdrSig img))) (slice 104 48 sig) (slice 152 48 sig) then .error ⟨6, 0xFF⟩
    else if fieldLe 6 1 img ≠ 1 ∧ fieldLe 6 1 img ≠ 2 then .error ⟨7, 0xFF⟩
    else
      match sects.find? fun x => !sectKnown minor x && x.flags % 2 == 1 with
      | some x => .error ⟨8, x.index⟩
      | none =>
        let known := sects.filter (sectKnown minor)
        match countFault known with
        | some r => .error r
        | none => readContent (hdrSerial img) gen known

/-- R70: the checks in order; `active` is the charter that check 11 compares with, for a load in service. -/
def checkImage (img : List Byte) (keyhash : Option (Nat × List Byte)) (active : Option Charter) : Except Reject Charter :=
  if slice 0 4 img ≠ [0x41, 0x47, 0x43, 0x59] then .error ⟨1, 0xFF⟩
  else if fieldLe 4 1 img ≠ 2 then .error ⟨2, 0xFF⟩
  else if !headerOk img then .error ⟨3, 0xFF⟩
  else
    let sects := (List.range (hdrCount img)).map (sectOf img)
    match sects.find? fun x => !sectOk img x with
    | some x => .error ⟨3, x.index⟩
    | none =>
      match firstOverlap [] sects with
      | some x => .error ⟨3, x.index⟩
      | none =>
        match checkSigned img sects keyhash with
        | .error r => .error r
        | .ok c =>
          match active with
          | none => .ok c
          | some a => if fixedSame a c then .ok c else
            let t := [1, 8, 14].find? fun t => decide ((a.fixed.filter (·.head? == some t)) ≠ (c.fixed.filter (·.head? == some t)))
            let minor := fieldLe 5 1 img
            .error ⟨12, ((sects.find? fun x => sectKnown minor x && some (BitVec.ofNat 8 x.type) == t).map (·.index)).getD 0xFF⟩

end Sys2Proof.Machine
end

