-- ==== Sys2Proof/Machine/Recorder.lean ====
section
/-! DEFINITION. The commands of the event recorder (R398 to R423). -/

namespace Sys2Proof.Machine

/-- R402: positions wrap after 2^40 records. -/
def posMod : Nat := 2 ^ 40

/-- R405: the severity that decides forwarding: a summary goes by the code that it sums up. -/
def forwardSeverity (ev : Ev) : Nat :=
  if ev.code = 0x0002 then severity (ev.p1.truncate 16) else severity ev.code

/-- R405, R420: a record is raised at or above THRESHOLD; values 5 to 7 forward nothing. -/
def forwards (s : State) (ev : Ev) : Bool :=
  decide (s.evt.threshold.toNat ≤ 4) && decide (s.evt.threshold.toNat ≤ forwardSeverity ev)

/-- R404: the record goes to its entry of the ring, and TAIL and WRAPPED follow. -/
def ringPut (ev : Ev) (e : Recorder) : Recorder :=
  let r : Rec := { pos := e.head, ev := ev, damaged := false }
  let wrapped := e.wrapped || decide (65536 ≤ e.since)
  let head := (e.head + 1) % posMod
  { e with
    ring := tset (e.head % 65536) r e.ring
    head := head
    since := satAdd posMod e.since 1
    wrapped := wrapped
    tail := if wrapped then (head + posMod - 65536) % posMod else e.cleared }

/-- R402 to R405: write one record: ring, out-of-band copy, MSI-X vector 1 (R503), EVENT trace record (R435). -/
def writeOne (ev : Ev) (s : State) : State :=
  let r : Rec := { pos := s.evt.head, ev := ev, damaged := false }
  let s := updEvt (ringPut ev) s
  let s := if forwards s ev then msix 1 (oobAdd 1 (recordBytes true r) s) else s
  let body := List.replicate 16 0 ++ recordBytes false r
  if ev.code = 0xE002 then (if bit s.trace.ctl.toNat 31 then traceAlways 0x01 ev.source ev.time 2 body s else s)
  else if bits s.trace.ctl.toNat 28 26 ≤ severity ev.code then traceRec 0x01 ev.source ev.time 2 body s
  else s

/-- R36: the records of the three planes that are not yet written, those of waiting senders included. -/
def queuedOn (e : Recorder) : Nat → List Ev
  | 0 => e.fifoData
  | 1 => e.fifoCtl ++ e.waitCtl
  | _ => e.fifoMgmt ++ e.waitMgmt

/-- R403: the TIME of a record that the recorder itself makes past the queue: no later than that of a record of its source
that is still queued (log entry 165). -/
def dkStamp (s : State) : Nat :=
  let e := s.evt
  ((e.summaries ++ queuedOn e 0 ++ queuedOn e 1 ++ queuedOn e 2).filter fun v => v.source = srcDk 0).foldl
    (fun m v => min m v.time) s.now

/-- R402: the record that ends an era is followed by ERA_ROLL as record 0 of the next. -/
def writeRecord (ev : Ev) (s : State) : State :=
  let last := s.evt.head % 2 ^ 32 = 2 ^ 32 - 1
  let s := writeOne ev s
  if last then
    let roll := mkEv s 0x0003 (srcDk 0) (BitVec.ofNat 32 (s.evt.head / 2 ^ 32)) (BitVec.ofNat 32 (dkStamp s / 2 ^ 32)) 0 (dkStamp s) false
    eventTrigger 0x0003 (writeOne roll (updEvt (countUp 0x0003) s))
  else s

/-- R384: the record has not reached the ring. -/
def stillQueued (e : Recorder) (v : Ev) : Bool := (queuedOn e 0 ++ queuedOn e 1 ++ queuedOn e 2).contains v

/-- R384, R415: the snapshot copy in progress waits for the record that triggered it. -/
def copyWaits (s : State) : Bool :=
  match s.crash.buffer with
  | some (snap, slot) => slot != 40 && (match snap.evtOf with | some v => stillQueued s.evt v | none => false)
  | none => false

/-- R404, R415: records are written but during a clear, and then too while step 2 waits for a copy that needs one
(log entry 166). -/
def maySpool (s : State) : Bool := s.evt.clearing.isNone || copyWaits s

/-- R36: senders that wait put their records into the FIFO while it has space and records may move. -/
def admitWaiters (may : Bool) (e : Recorder) : Recorder :=
  if !may then e
  else
    let nc := min (256 - e.fifoCtl.length) e.waitCtl.length
    let nm := min (256 - e.fifoMgmt.length) e.waitMgmt.length
    { e with
      fifoCtl := e.fifoCtl ++ e.waitCtl.take nc, waitCtl := e.waitCtl.drop nc
      fifoMgmt := e.fifoMgmt ++ e.waitMgmt.take nm, waitMgmt := e.waitMgmt.drop nm }

/-- Take the first record of FIFO `i` (0 data, 1 control, 2 management). -/
def popFifo (i : Nat) (e : Recorder) : Option (Ev × Recorder) :=
  match i with
  | 0 => match e.fifoData with | [] => none | v :: r => some (v, { e with fifoData := r, turn := 1 })
  | 1 => match e.fifoCtl with | [] => none | v :: r => some (v, { e with fifoCtl := r, turn := 2 })
  | _ => match e.fifoMgmt with | [] => none | v :: r => some (v, { e with fifoMgmt := r, turn := 0 })

/-- R404: the FIFOs in turn, empty ones and those outside `ok` skipped. -/
def popTurn (ok : Nat → Bool) (e : Recorder) : Option (Ev × Recorder) :=
  ([0, 1, 2].map fun k => (e.turn + k) % 3).findSome? fun i => if ok i then popFifo i e else none

/-- R403: a plane on which an earlier record of a summary's source is still queued. -/
def holdsEarlier (e : Recorder) (v : Ev) (i : Nat) : Bool :=
  (queuedOn e i).any fun w => w.source = v.source && decide (w.time < v.time)

/-- R403, R404, R410: the next record to be written: a summary first, unless earlier records of its source stand before it;
then the FIFOs in turn. -/
def nextRecord (e : Recorder) : Option (Ev × Recorder) :=
  match e.summaries with
  | v :: r =>
    match popTurn (holdsEarlier e v) e with
    | some x => some x
    | none => some (v, { e with summaries := r })
  | [] => popTurn (fun _ => true) e

/-- RECORD_WRITE (R404, R415). -/
def recordWriteNow (s : State) : State :=
  if !maySpool s then s
  else
    match nextRecord s.evt with
    | none => s
    | some (ev, e) => writeRecord ev { s with evt := admitWaiters true e }

/-- R28, R406, R420: a record of the ring that a DK word lies in and that is not yet damaged. -/
def struckRecord (e : Recorder) (word : Nat) : Option Rec := (tfind (word / 4) e.ring).filter fun r => !r.damaged

/-- R416: where a DK word lies in the crash-dump area: the slot and the record of its event tail. -/
def tailPlace (word : Nat) : Option (Nat × Nat) :=
  let w := word - 2 ^ 18
  let kib := w / 128 - 64
  if word < 2 ^ 18 + 64 * 128 ∨ 40 ≤ kib / 152 ∨ kib % 152 < 144 then none
  else some (kib / 152, ((kib % 152 - 144) * 128 + w % 128) / 4)

/-- R28, R416: a record of an event tail that a DK word lies in and that is not yet damaged: its slot, its place, the record. -/
def struckTail (s : State) (word : Nat) : Option (Nat × Nat × Rec) :=
  (tailPlace word).bind fun (i, j) =>
    (((tget {} i s.crash.slots : DumpSlot).tail[j]?).filter fun r => !r.damaged).map fun r => (i, j, r)

/-- R28: an uncorrectable error strikes a record of an event tail. -/
def damageTail (word : Nat) (s : State) : State :=
  match struckTail s word with
  | some (i, j, r) => updCrash (fun c => { c with
      slots := tput {} i (let d : DumpSlot := tget {} i c.slots; { d with tail := d.tail.set j { r with damaged := true } }) c.slots }) s
  | none => s

/-- R28, R420: an error of DK storage, as DK_ECC reports it: a corrected one is counted; an uncorrectable one damages the
record that it strikes, in the ring or in an event tail of the crash dump (log entry 20). -/
def dkError (word detail : Word) (s : State) : State :=
  if detail.getLsbD 0 then
    let hit := struckRecord s.evt word.toNat
    let found := hit.isSome || (struckTail s word.toNat).isSome
    updEvt (fun e => { e with
      damagedCount := if found then satAdd 255 e.damagedCount 1 else e.damagedCount
      ring := match hit with | some r => tset (word.toNat / 4) { r with damaged := true } e.ring | none => e.ring })
      (damageTail word.toNat s)
  else updEvt (fun e => { e with corrected := satAdd 0xFFFF e.corrected 1 }) s

/-- EVENT_OCCURRENCE (R409), with the time of its unit (R29): a reserved code never occurs, and P3 of DK_ECC is the count of
corrected errors (R406). -/
def occurrence (code source : BitVec 16) (p1 p2 p3 : Word) (s : State) : State :=
  if code = 0x0005 then
    let s := dkError p1 p2 s
    occurEv (mkEv s code source p1 p2 (BitVec.ofNat 32 s.evt.corrected) (stampOf s source) false) s
  else if (codeInfo code).isSome then occurEv (mkEv s code source p1 p2 p3 (stampOf s source) false) s
  else s

/-- R410: the summary of a code's suppressed occurrences. -/
def summaryEv (s : State) (code : BitVec 16) (b : Bucket) : Ev :=
  mkEv s 0x0002 (srcDk 0)
    (BitVec.ofNat 32 (code.toNat + 0x10000 * b2n b.byBucket + 0x20000 * b2n b.byFifo))
    (BitVec.ofNat 32 b.suppressed) (BitVec.ofNat 32 b.first) s.now false

/-- TOKEN_REFILL (R409, R410): a token arrives, and is spent on a summary when occurrences were suppressed. -/
def refill (code : BitVec 16) (s : State) : State :=
  let b := bucketOf s.evt code
  let (depth, interval) := bucketParams s.evt.limits code
  match b.next with
  | none => s
  | some due =>
    if s.now < due then s
    else if 0 < b.suppressed then
      let ev := summaryEv s code b
      let b' : Bucket := { b with suppressed := 0, byBucket := false, byFifo := false, first := 0, next := some (due + interval) }
      eventTrigger 0x0002 (updEvt (fun e => countUp 0x0002 { updBucket code (fun _ => b') e with summaries := e.summaries ++ [ev] }) s)
    else
      let n := min depth (b.tokens + 1)
      updEvt (updBucket code fun b => { b with tokens := n, next := if n < depth then some (due + interval) else none }) s

/-! ### Reading (R413) -/

/-- R413: RESULT of a read: 0 OK, 1 NOT_YET, 2 OVERWRITTEN, 3 CLEARED. -/
def readResult (e : Recorder) (pos : Nat) : Nat :=
  let d := (e.head + posMod - pos) % posMod
  if d = 0 ∨ 2 ^ 39 ≤ d then 1
  else if e.since < d then 3
  else if 65536 < d then 2
  else 0

/-- R413, R421: latch the record of a position for a requester. -/
def latchRead (r : Requester) (era : Byte) (seq : Word) (e : Recorder) : Recorder :=
  let pos := era.toNat * 2 ^ 32 + seq.toNat
  let res := readResult e pos
  let l : ReadLatch :=
    { era := era, seq := seq, result := res, data := if res = 0 then tfind (pos % 65536) e.ring else none }
  { e with latches := tput {} (reqCode r) l e.latches }

/-- R421: the 32 bytes of PHL_EVT_READ_DATA of a requester. -/
def readData (e : Recorder) (r : Requester) : List Byte :=
  match (tget {} (reqCode r) e.latches : ReadLatch).data with
  | none => List.replicate 32 0
  | some rec => recordBytes false rec

/-! ### Clearing (R414, R415) -/

/-- R414: three consecutive MISMATCH results in the last 60 s. -/
def lockedOut (s : State) : Bool :=
  decide (3 ≤ ((s.evt.failTimes.take 3).filter fun x => s.now < x + 60000000000).length)

/-- R414: requesters 1, 3 and 5 may clear. -/
def mayClear : Requester → Bool
  | .host => true | .ccp => true | .bc => true | _ => false

/-- R414: a refusal sets RESULT and is recorded. The caller's control sequencer, which verifies, records it. -/
def refuseClear (r : Requester) (v : Nat) (s : State) : State :=
  let s := updEvt (fun e => { e with clearResults := tput 0 (reqCode r) v e.clearResults }) s
  occur 0x0004 (srcCaller 0) (reqCode r) v s.evt.fails s

/-- R414: one more consecutive MISMATCH. -/
def countMismatch (s : State) : State :=
  updEvt (fun e => { e with fails := satAdd 0xFFFFFFFF e.fails 1, failTimes := (s.now :: e.failTimes).take 3 }) s

/-- R414: draw a nonce for a requester, or refuse. -/
def challenge (r : Requester) (s : State) : State :=
  if !mayClear r then refuseClear r 6 s
  else if lockedOut s then refuseClear r 4 s
  else
    let (n, s) := fresh s
    updEvt (fun e => { e with
      nonces := tset (reqCode r) { value := Config.nonce n, drawn := s.now, bound := BitVec.ofNat 32 e.head, expired := false } e.nonces
      clearResults := tput 0 (reqCode r) 0 e.clearResults }) s

/-- R414: the 48-byte message of a log clear. -/
def clearMessage (s : State) (r : Requester) (n : NonceRec) : List Byte :=
  "PHLCLEAR".toList.map (fun c => BitVec.ofNat 8 c.toNat) ++ uidBytes s ++ toLe 16 n.value.toNat ++
  [BitVec.ofNat 8 (reqCode r), 0, 0, 0] ++ toLe 4 n.bound.toNat

/-- R414: an outstanding nonce of a requester has reached its 10 s. -/
def nonceOld (s : State) (n : NonceRec) : Bool := n.expired || decide (n.drawn + 10000000000 ≤ s.now)

def dropNonce (r : Requester) (e : Recorder) : Recorder := { e with nonces := tdel (reqCode r) e.nonces }

/-- R423: a CLEAR consumes the tag in PHL_EVT_RESPONSE. -/
def consumeTag (e : Recorder) : Recorder := { e with response := [] }

/-- R414: CLEAR, with the refusals in their order. -/
def clearLog (r : Requester) (s : State) : State :=
  if !mayClear r then refuseClear r 6 s
  else
    let tag := tgets 0 0 32 s.evt.response
    let s := updEvt consumeTag s
    if s.evt.clearing.isSome then refuseClear r 7 s
    else if lockedOut s then refuseClear r 4 s
    else if !keysUsable s then refuseClear r 5 s
    else
      match tfind (reqCode r) s.evt.nonces with
      | none => refuseClear r 1 s
      | some n =>
        let s := updEvt (dropNonce r) s
        if nonceOld s n then refuseClear r 2 s
        else if tag = hmacSha256 (clearKey s) (clearMessage s r n) then
          updEvt (fun e => { e with
            fails := 0, failTimes := [], clearing := some (reqCode r, s.now)
            clearResults := tput 0 (reqCode r) 0 e.clearResults }) s
        else refuseClear r 3 (countMismatch s)

/-- R415: crash-dump slots that were VALID or PARTIAL. -/
def filledSlots (c : Crash) : Nat := (c.slots.filter fun x => 2 ≤ x.2.state).length

/-- R415 steps 3 to 5: storage is zeroed, LOG_CLEARED becomes TAIL, and the FIFOs drain. -/
def finishClear (r : Nat) (s : State) : State :=
  let last := (s.evt.head + posMod - 1) % posMod
  let time := dkStamp s
  let ev := mkEv s 0x0001 (srcDk 0) (BitVec.ofNat 32 r) (BitVec.ofNat 32 last)
    (BitVec.ofNat 32 (filledSlots s.crash + 256 * (last / 2 ^ 32))) time false
  let s := updCrash (fun c => { c with slots := [], next := 1, firstUsed := false, cleared := time, taken := 0, skipped := 0 }) s
  let s := updEvt (fun e => { e with ring := [], counts := [], wrapped := false, since := 0, cleared := e.head, tail := e.head }) s
  let s := eventTrigger 0x0001 (writeRecord ev (updEvt (countUp 0x0001) s))
  updEvt (fun e => admitWaiters true { e with clearing := none }) s

/-- R416: the last 256 records of the ring, in ascending order. -/
def ringTail (e : Recorder) : List Rec :=
  (List.range 256).filterMap fun i =>
    if 256 - i ≤ e.since then tfind ((e.head + posMod - (256 - i)) % 65536) e.ring else none

/-- R418: NEXT goes from 39 back to 1. -/
def advanceNext (n : Nat) : Nat := if n = 39 then 1 else n + 1

/-- R416, R418: the copy of a snapshot to a slot begins. -/
def beginCopy (snap : Snapshot) (slot : Nat) (s : State) : State :=
  let d : DumpSlot := { state := 1, snap := some snap, tail := ringTail s.evt }
  updCrash (fun c => { c with
    buffer := some (snap, slot), firstUsed := true, next := if slot = 0 then c.next else advanceNext c.next
    slots := tput {} slot d c.slots }) s

/-- R382, R415: a snapshot latched during the clear is copied to slot 0 after it. -/
def startCopyAfterClear (s : State) : State :=
  match s.crash.buffer with
  | some (snap, 40) => beginCopy snap 0 s
  | _ => s

/-- LOG_CLEAR_COMPLETE (R415): not before a snapshot copy in progress has completed. -/
def logClearNow (s : State) : State :=
  match s.evt.clearing with
  | none => s
  | some (r, _) =>
    if s.crash.slots.any (fun x => x.2.state == 1) then s
    else startCopyAfterClear (finishClear r s)

/-! ### The meanings -/

/-- R413, R421: the write of the low word latches; a 64-bit write gives ERA with it. R506: PHL_EVT_READ accepts requesters 1 and 3. -/
def execEvtReadLatch (t : Nat) (r : Requester) (seq : Word) (upper : Option Word) (s : State) :
    Host.Outcome State Fault Refusal :=
  let s := atTime t s
  if s.rst.callerIn ∨ !(r == .host || r == .ccp) then .next s
  else
    let era := match upper with
      | some u => BitVec.ofNat 8 (u.toNat / 256)
      | none => (tget {} (reqCode r) s.evt.latches : ReadLatch).era
    .next (updEvt (latchRead r era seq) s)

/-- R414: CHALLENGE written to PHL_EVT_CLEAR. -/
def execEvtChallenge (t : Nat) (r : Requester) (s : State) : Host.Outcome State Fault Refusal :=
  let s := atTime t s
  .next (if callerOff s then s else challenge r s)

/-- R414: CLEAR written to PHL_EVT_CLEAR. -/
def execEvtClear (t : Nat) (r : Requester) (s : State) : Host.Outcome State Fault Refusal :=
  let s := atTime t s
  .next (if callerOff s then s else clearLog r s)

/-- R414: a nonce reaches its 10 s life. -/
def execNonceExpiry (t : Nat) (r : Requester) (s : State) : Host.Outcome State Fault Refusal :=
  let s := atTime t s
  .next (match tfind (reqCode r) s.evt.nonces with
    | none => s
    | some n =>
      if n.drawn + 10000000000 ≤ s.now then
        updEvt (fun e => { e with nonces := tset (reqCode r) { n with expired := true } e.nonces }) s
      else s)

/-- R415. -/
def execLogClearComplete (t : Nat) (s : State) : Host.Outcome State Fault Refusal :=
  .next (logClearNow (atTime t s))

/-- R409. -/
def execEventOccurrence (t : Nat) (code source : BitVec 16) (p1 p2 p3 : Word) (s : State) :
    Host.Outcome State Fault Refusal :=
  .next (occurrence code source p1 p2 p3 (atTime t s))

/-- R404. -/
def execRecordWrite (t : Nat) (s : State) : Host.Outcome State Fault Refusal :=
  .next (recordWriteNow (atTime t s))

/-- R409, R410. -/
def execTokenRefill (t : Nat) (code : BitVec 16) (s : State) : Host.Outcome State Fault Refusal :=
  .next (refill code (atTime t s))

/-- R414: LOCKED falls when the third of the MISMATCH results is 60 s old. -/
def execClearLockoutExpiry (t : Nat) (s : State) : Host.Outcome State Fault Refusal :=
  let s := atTime t s
  .next (if lockedOut s then s
    else updEvt (fun e => { e with failTimes := e.failTimes.filter fun x => s.now < x + 60000000000 }) s)

end Sys2Proof.Machine
end

