-- ==== Sys2Proof/Machine/Capture.lean ====
section
/-! DEFINITION. Hang snapshots and the crash dump (R382 to R384, R416 to R418). -/

namespace Sys2Proof.Machine

/-! ### What a snapshot holds (R383, R384) -/

/-- R44, R366: the effective deadline in µs that a descriptor's DEADLINE gives. -/
def effectiveUs (s : State) (deadline : Nat) : Nat :=
  let floor := (s.cfg.active.map (·.reset.floorUs)).getD 0
  max (if deadline = 0 then 50000 else deadline) floor

/-- R44, R366: the effective deadline of an operation in µs. -/
def deadlineUs (s : State) (u : Cu) : Nat := effectiveUs s u.op.deadline.toNat

/-- R367: an operation that its timeout bounds, and no deadline: a wait or an ARRIVE. -/
def untimed (o : SyncOp) : Bool := o.op == 5 || o.op == 6 || o.op == 7 || o.op == 16

/-- R366: the effective deadline of a sync or barrier operation in µs; a wait's timeout takes its place (R308). -/
def syncDeadlineUs (s : State) (o : SyncOp) : Nat := if untimed o then min 0xFFFFFF o.deadline else effectiveUs s o.deadline

/-- The CU or inserted operation that a queue runs: the oldest one started and not retired. -/
def currentOp (s : State) (c q : Nat) : Option Cu :=
  (station s c).cus.find? fun u => u.op.queue.val == q && u.retire.isNone

/-- R384: TAG, DEADLINE and START of the oldest operation in flight of a queue. -/
def currentWork (s : State) (c q : Nat) : Option (Word × Nat × Nat) :=
  let cu := (currentOp s c q).map fun u => (u.tag, deadlineUs s u, u.start)
  match cu, (queueOf s c q).syncOps with
  | x, [] => x
  | none, o :: _ => some (0, syncDeadlineUs s o, o.start)
  | some x, o :: _ => if o.start < x.2.2 then some (0, syncDeadlineUs s o, o.start) else some x

/-- R384: a queue's state: IDLE, RUNNING, WAITING, HALTED, STOPPED, IN_RESET. -/
def queueState (s : State) (c q : Nat) : Nat :=
  let x := queueOf s c q
  if coreInReset s c then 5
  else if x.halted then 3
  else if x.wait.isSome then 2
  else if (station s c).stopped then 4
  else if (currentWork s c q).isSome then 1
  else 0

/-- R384: a queue record. -/
def queueRec (s : State) (c q : Nat) : QRec :=
  let x := queueOf s c q
  let u := currentWork s c q
  { state := queueState s c q, head := x.nextOpid, tail := x.lastOpid, ctx := BitVec.ofNat 12 (ctxOfCore s c)
    tag := (u.map (·.1)).getD 0, deadline := (u.map (·.2.1)).getD 0, status := x.status
    start := (u.map (·.2.2)).getD 0, lastRetire := x.lastRetire }

/-- The records of all queues; one that reads as an idle queue's is not listed. -/
def queueRecs (s : State) : Tab QRec :=
  (List.range 1024).filterMap fun i =>
    let r := queueRec s (i / 4) (i % 4)
    if r = {} then none else some (i, r)

/-- R330: the record of a core's slot; a free slot reads as zero. Its timeout stands still while tableau holds the chip. -/
def watchBytes (s : State) (c slot : Nat) : List Byte :=
  let w := watchOf s c slot
  if !w.valid then List.replicate 16 0
  else toLe 4 w.name.toNat ++ toLe 4 w.target.toNat ++
    [BitVec.ofNat 8 (w.op + 16 * w.cond + 64 * w.queue), BitVec.ofNat 8 (1 + 2 * b2n (cancelSent s c slot))] ++
    toLe 2 w.ctx.toNat ++ toLe 4 ((w.expires - timerNow s c) / 1000)

/-- Every taken watch slot's record. -/
def waitRecs (s : State) : Tab (List Byte) :=
  (List.range 4096).filterMap fun i =>
    if (watchOf s (i / 16) (i % 16)).valid then some (i, watchBytes s (i / 16) (i % 16)) else none

/-- R383: items and bytes that a gate point holds, and the oldest S. -/
def gateSum (g : GatePoint) : GateSum :=
  { items := g.items.length, bytes := (g.items.map fun i => i.data.length).sum
    oldest := match g.items with | [] => 0 | i :: r => r.foldl (fun m k => min m k.start) i.start }

def gateSums (s : State) : Tab GateSum :=
  (List.range 38).filterMap fun g =>
    let x := gateSum (gate s g)
    if x = {} then none else some (g, x)

/-- R384: the snapshot of this instant. -/
def takeSnapshot (trigger : Byte) (index queue : Nat) (incomplete : Bool) (ev : Option Ev) (seq : Word) (s : State) : Snapshot :=
  { trigger := trigger, state := s.led.state, incomplete := incomplete, noEvt := false, index := BitVec.ofNat 8 index
    queue := queue, tcap := s.now, evtOf := ev, evtSeq := 0, epoch := s.cfg.epoch, rstSeq := seq
    queues := queueRecs s, waits := waitRecs s, gates := gateSums s }

/-- R382: capture a snapshot; while an earlier one is not yet copied the capture is skipped, which is recorded. One
latched while a clear is in progress waits for it (place 40). -/
def capture (trigger : Byte) (index queue : Nat) (incomplete : Bool) (ev : Option Ev) (seq : Word) (s : State) : State :=
  if s.crash.buffer.isSome then
    occur 0x7006 (srcCaller 0) seq.toNat 0 2 (updCrash (fun c => { c with skipped := satAdd 0xFFFFFFFF c.skipped 1 }) s)
  else
    let snap := takeSnapshot trigger index queue incomplete ev seq s
    if s.evt.clearing.isSome then updCrash (fun c => { c with buffer := some (snap, 40) }) s
    else beginCopy snap (if s.crash.firstUsed then s.crash.next else 0) s

/-! ### The copy (R382, R384, R416 to R418) -/

/-- R384: the sequence number that the triggering record got: none while it is not yet written. -/
def eventSeq (s : State) (ev : Option Ev) : Option (Option Word) :=
  match ev with
  | none => some none
  | some v =>
    if stillQueued s.evt v then none
    else
      match s.evt.ring.find? (fun x => x.2.ev == v) with
      | some x => some (some (BitVec.ofNat 32 x.2.pos))
      | none => some none

/-- R418: the copy is complete: the slot becomes VALID, or PARTIAL when the buffer failed its CRC, and HANG_SNAPSHOT is
recorded, with DEFERRED when the caller had to copy again. -/
def completeCopy (ok : Bool) (s : State) : State :=
  match s.crash.buffer with
  | none => s
  | some (snap, slot) =>
    if slot = 40 then s
    else
      match eventSeq s snap.evtOf with
      | none => s
      | some q =>
        let done : Snapshot := { snap with evtOf := none, evtSeq := q.getD 0, noEvt := snap.evtOf.isSome && q.isNone }
        let redo := s.crash.redo
        let s := updCrash (fun c => { c with
          buffer := none, redo := false
          taken := if ok then satAdd 0xFFFFFFFF c.taken 1 else c.taken
          serial := if ok then c.serial + 1 else c.serial
          slots := tput {} slot { (tget {} slot c.slots : DumpSlot) with
            state := if ok then 2 else 3, snap := some done, serial := if ok then c.serial + 1 else 0 } c.slots }) s
        if !ok then s
        else
          let p3 := b2n (!snap.incomplete)
          if redo then occurDeferred 0x7006 (srcCaller 0) snap.rstSeq.toNat (64 + 152 * slot) p3 s
          else occur 0x7006 (srcCaller 0) snap.rstSeq.toNat (64 + 152 * slot) p3 s

/-- HANG_SNAPSHOT_COPY_DONE: the caller makes the copy. -/
def copyDone (ok : Bool) (s : State) : State := if callerOff s then s else completeCopy ok s

/-! ### The layouts (R330, R383, R384, R417) -/

/-- The free bytes of a snapshot (log entry 3). -/
def freeBytes (serial o n : Nat) : List Byte := (List.range n).map fun i => Config.snapByte serial (o + i)

def queueRecBytes (serial i : Nat) (r : QRec) : List Byte :=
  [BitVec.ofNat 8 (i / 4), BitVec.ofNat 8 (i % 4 + 4 * r.state)] ++ toLe 2 r.head.toNat ++ toLe 2 r.tail.toNat ++
  toLe 2 r.ctx.toNat ++ toLe 4 r.tag.toNat ++ toLe 4 (r.deadline % 2 ^ 24 + r.status * 2 ^ 24) ++ toLe 8 r.start ++
  toLe 8 r.lastRetire ++ freeBytes serial (64 + 64 * i + 32) 32

/-- R384: LENGTH in KiB: without the caller part when the snapshot is incomplete. -/
def snapKib (p : Snapshot) : Nat := if p.incomplete then 135 else 143

/-- R384: the header with its CRC field as zero. -/
def snapHeader (p : Snapshot) : List Byte :=
  toLe 2 2 ++ toLe 2 (snapKib p) ++ [p.trigger, BitVec.ofNat 8 (p.state + 16 * b2n p.incomplete + 32 * b2n p.noEvt), p.index,
    BitVec.ofNat 8 p.queue] ++ toLe 8 p.tcap ++ toLe 4 p.evtSeq.toNat ++ toLe 4 p.epoch.toNat ++ toLe 4 p.rstSeq.toNat ++
  List.replicate 36 0

/-- R383: the parts after the header. -/
def snapParts (serial : Nat) (p : Snapshot) : List Byte :=
  ((List.range 1024).map fun i => queueRecBytes serial i (tget {} i p.queues)).flatten ++
  ((List.range 4096).map fun i => tget (List.replicate 16 0) i p.waits).flatten ++
  freeBytes serial 131136 6400 ++
  ((List.range 38).map fun g =>
    let x : GateSum := tget {} g p.gates
    toLe 4 x.items ++ toLe 4 x.bytes ++ toLe 8 x.oldest).flatten ++
  (if p.incomplete then [] else freeBytes serial 138144 8192)

/-- R384: a snapshot as bytes. -/
def snapBytes (serial : Nat) (p : Snapshot) : List Byte :=
  let parts := snapParts serial p
  let head := snapHeader p
  head.take 60 ++ toLe 4 (crc32c (head ++ parts)).toNat ++ parts

/-- R416: the first 144 KiB of a slot; what a copy in progress has written is free (log entry 3). -/
def slotSnap (d : DumpSlot) (p : Snapshot) : List Byte :=
  if d.state = 1 then (List.range 147456).map (Config.halfCopied p.tcap) else snapBytes d.serial p

/-- R416: a slot of 152 KiB. -/
def slotBytes (d : DumpSlot) : List Byte :=
  padTo 147456 ((d.snap.map (slotSnap d)).getD []) ++ padTo 8192 ((d.tail.map (recordBytes false)).flatten)

/-- A block of 60 bytes with its CRC. -/
def sealed64 (l : List Byte) : List Byte := padTo 60 l ++ toLe 4 (crc32c (padTo 60 l)).toNat

/-- R417: the directory's entry of a slot. -/
def dirEntry (d : DumpSlot) : List Byte :=
  let p := d.snap
  let first := d.tail.head?
  sealed64 ([BitVec.ofNat 8 d.state, (p.map (·.trigger)).getD 0] ++ toLe 2 ((p.map snapKib).getD 0) ++
    toLe 4 ((p.map fun x => x.evtSeq.toNat).getD 0) ++ toLe 8 ((p.map (·.tcap)).getD 0) ++
    toLe 4 ((p.map fun x => x.rstSeq.toNat).getD 0) ++ toLe 4 ((first.map (·.pos % 2 ^ 32)).getD 0) ++
    toLe 2 d.tail.length ++ [BitVec.ofNat 8 ((first.map (·.pos / 2 ^ 32)).getD 0), 0] ++ toLe 4 d.serial)

/-- R417: the directory. -/
def dirBytes (c : Crash) : List Byte :=
  padTo 65536 (sealed64 (toLe 2 2 ++ toLe 2 40 ++ toLe 4 c.next ++ toLe 8 c.cleared ++ toLe 4 c.taken ++ toLe 4 c.skipped) ++
    ((List.range 40).map fun i => dirEntry (tget {} i c.slots)).flatten)

/-! ### The meaning -/

/-- R382, R384, R418. -/
def execHangSnapshotCopyDone (t : Nat) (bufferOk : Bool) (s : State) : Host.Outcome State Fault Refusal :=
  .next (copyDone bufferOk (atTime t s))

end Sys2Proof.Machine
end

