-- ==== Sys2Proof/Machine/SyncOps.lean ====
section
/-! DEFINITION. Sync operations of engine queues (R308 to R316), and what happens to the watches that they take: arrival of the subscription, release, expiry, cancel (R317 to R321). -/

namespace Sys2Proof.Machine

/-! ### How an operation meets its bank -/

/-- R310: a sync operation that fails at its bank, with SYNC_ERROR for the statuses 6 to 10. -/
def failSync (c q op : Nat) (name : Word) (status : Nat) (s : State) : State :=
  let src := if isLocal s name && (bankCore s (nameObject name)).isSome then bankSrc s (nameObject name) else srcStation c
  let s := if 6 ≤ status ∧ status ≤ 10 then syncError src name (queueParty s c q) status op s else s
  retireSync c q (startedOpid s c q) status 0 s

/-- R303, R307, R310: how a queue's operation meets a local object: a status, or none when it acts. -/
def accessStatus (s : State) (c : Nat) (name : Word) : Option Nat :=
  if s.sync.ended.contains (ctxOfCore s c) then some 3
  else if !nameOk name ∨ objectStatus s (nameObject name) = 6 then some 6
  else if (object s (nameObject name)).ctx.toNat ≠ ctxOfCore s c then some 7
  else none

/-! ### Waits and watches -/

/-- R309: the condition of a watch: that of its wait operation, or COND. -/
def watchCond (w : Watch) : Nat := if w.op = 8 then w.cond else w.op - 5

/-- A release with no guard windows goes to a waiter of this chip. -/
def releaseTo (p name : Word) (status : Nat) (value : Word) : State → State :=
  updSync fun y => { y with releases := y.releases ++ [{ party := p, name := name, status := status, value := value }] }

/-- R319: a cancel removes the party's subscription to an object. -/
def cancelSub (o : Nat) (p : Word) : State → State :=
  updObject o fun x => { x with subs := dropFirst (·.party == p) x.subs }

/-- R319, R321: a cancel reaches a local object's bank: the subscription is removed, and what was released for it meanwhile is
discarded. -/
def cancelTaken (c : Nat) (k : Nat × Word × Word) (s : State) : State :=
  cancelSub (nameObject k.2.1) k.2.2
    (updSync (fun y => { y with releases := y.releases.filter fun r => r.own || !(r.party == k.2.2 && r.name == k.2.1) })
      (updStation c (fun t => { t with cancels := dropFirst (· == k) t.cancels }) s))

def cancelsTaken (c : Nat) : List (Nat × Word × Word) → State → State
  | [], s => s
  | k :: r, s => cancelsTaken c r (cancelTaken c k s)

/-- R317: the subscriptions that the bank of an object holds. -/
def bankSubs (s : State) (o : Nat) : Nat :=
  ((s.sync.objs.filter fun x => x.1 / 32 == o / 32).map fun x => x.2.subs.length).sum

/-- R317: a subscription registers at the bank of a local object, and is evaluated against the current value. A remote
release takes S from the object's last change. -/
def subscribe (o : Nat) (p : Word) (cond : Nat) (target : Word) (op : Nat) (s : State) : State :=
  let x := object s o
  let name := objName s.boot.chip o
  if 256 ≤ bankSubs s o then
    let s := occur 0x5006 (bankSrc s o) name.toNat p.toNat 2 s
    sendRelease o p 9 x.value 0 (syncError (bankSrc s o) name p 9 op s)
  else if condHolds cond target x.value then sendRelease o p 1 x.value x.lastStart s
  else updObject o (fun x => { x with subs := x.subs ++ [{ party := p, cond := cond, target := target }] }) s

/-- R307, R317: the subscription of a slot registers at its home bank, behind the cancels that the slot has sent there. -/
def register (c w : Nat) (s : State) : State :=
  let k := watchOf s c w
  let s := cancelsTaken c ((station s c).cancels.filter fun x => x.1 == w && isLocal s x.2.1) s
  let p := waiterParty s c k.queue w
  let s := updStation c (fun t => { t with watches := tput {} w { k with travelling := false } t.watches }) s
  match accessStatus s c k.name with
  | some 3 => releaseTo p k.name 3 0 s
  | some st =>
    let src := if (bankCore s (nameObject k.name)).isSome then bankSrc s (nameObject k.name) else srcStation c
    releaseTo p k.name st 0 (syncError src k.name p st k.op s)
  | none => subscribe (nameObject k.name) p (watchCond k) k.target k.op s

/-- R312: how many operations of its queue have started since a watch was taken. -/
def watchAge (s : State) (c : Nat) (k : Watch) : Nat := ((queueOf s c k.queue).nextOpid - k.opid).toNat

/-- R312: of two slots, the one whose watch came first in program order. -/
def firstWatch (s : State) (c : Nat) (m : Option Nat) (w : Nat) : Option Nat :=
  match m with
  | some v => if watchAge s c (watchOf s c v) < watchAge s c (watchOf s c w) then some w else some v
  | none => some w

/-- R312: the first of a queue's subscriptions to an object that have not reached its bank. -/
def nextTraveller (s : State) (c q : Nat) (name : Word) : Option Nat :=
  ((List.range 16).filter fun w =>
    let k := watchOf s c w
    k.valid && k.travelling && k.queue == q && k.name == name).foldl (firstWatch s c) none

/-- R312: a queue's subscriptions to an object register in program order, up to one slot's or all of them. -/
def registerUntil (c q : Nat) (name : Word) (w : Option Nat) : Nat → State → State
  | 0, s => s
  | n + 1, s =>
    match nextTraveller s c q name with
    | none => s
    | some v => if some v = w then register c v s else registerUntil c q name w n (register c v s)

/-- SUBSCRIPTION_ARRIVAL (R312, R317). -/
def subscriptionArrives (c w : Nat) (s : State) : State :=
  let k := watchOf s c w
  if !k.valid ∨ !k.travelling then s else registerUntil c k.queue k.name (some w) 16 s

/-- R308, R310: RADDR is aligned to 16 bytes and lies in this chip's HBM or the core's scratchpad; COND 3 is reserved. -/
def watchArgs (c cond : Nat) (raddr : DWord) : Option Nat :=
  if cond = 3 then some 13 else if raddr.toNat % 16 ≠ 0 ∨ Config.place c raddr = 2 then some 10 else none

/-- R340: SUBSCRIBE's timeout in µs has 24 bits; a longer one, which only a context's default can be, shows as the largest (log
entry 152). -/
def subscribeTally (s : State) (c : Nat) (timeout : BitVec 24) : Word := BitVec.ofNat 32 (min 0xFFFFFF (timeoutNs s c timeout / 1000))

/-- R315, R316: a wait or a WATCH takes its slot, and its subscription sets out. A WATCH of a local object retires as it sets
out (log entry 134), one of a remote object with the status of the home's release. -/
def takeSlot (c q op cond : Nat) (name n : Word) (timeout : BitVec 24) (raddr : DWord) (w : Nat) (s : State) : State :=
  let near := isLocal s name
  let k : Watch := {
    name := name, target := n, op := op, cond := cond, queue := q, valid := true
    ctx := BitVec.ofNat 12 (ctxOfCore s c), expires := coreTime s c + timeoutNs s c timeout, raddr := raddr, travelling := near
    opid := startedOpid s c q }
  let s := updStation c (fun t => { t with watches := tput {} w k t.watches }) s
  let s := if op ≠ 8 then updQueue c q (fun x => { x with wait := some w }) s
    else if near then retireSync c q (startedOpid s c q) 1 0 s else s
  if near then s
  else
    sendMsg 2 (nameChip name)
      (mkMsg 2 (op + 16 * cond) name (waiterParty s c q w) n (subscribeTally s c timeout) 0) s

/-- R308, R316, R341: the start of a WAIT or WATCH; a WATCH has a DEADLINE. -/
def waitOp (c q op cond : Nat) (name n : Word) (timeout : BitVec 24) (raddr : DWord) (deadline : BitVec 24) (s : State) : State :=
  if !canStartSync s c q then s
  else
    let s := startSync c q op (if op = 8 then deadline.toNat else timeoutNs s c timeout / 1000) s
    match (if op = 8 then watchArgs c cond raddr else none) with
    | some st => failSync c q op name st s
    | none =>
      if !isLocal s name ∧ (!nameOk name ∨ routeVer s (nameChip name) = 1) then failSync c q op name 6 s
      else
        match freeSlot s c with
        | none => failSync c q op name 9 (occur 0x5006 (srcStation c) name.toNat (queueParty s c q).toNat 1 s)
        | some w => takeSlot c q op cond name n timeout raddr w s

/-! ### Signals -/

/-- R309, R312, R314: SET, CLEAR, ADD or SUB of a queue on a local object, after the queue's own earlier registrations. -/
def signalLocal (c q op : Nat) (name n : Word) (s : State) : State :=
  match accessStatus s c name with
  | some st => failSync c q op name st s
  | none =>
    let s := registerUntil c q name none 16 s
    let r := applyOp (nameObject name) op n (queueParty s c q) (coreTime s c) s
    sealChanged (nameObject name) (failSync c q op name r.1 r.2)

/-- R315, R341, R344: the same on a remote object: a SIGNAL with the destination's tally, which is cleared; over an S1
route the signal waits for the acknowledgements instead. -/
def signalRemote (c q op : Nat) (name n : Word) (s : State) : State :=
  let chip := nameChip name
  let entry := tallyOf s c q chip
  let count := (entry.map (·.count)).getD 0
  let unacked := unackedOf s c q chip
  let s1 := routeVer s chip == 1
  let s := updTallies c q (fun l => l.map fun t => if t.chip == chip then { t with count := 0 } else t) s
  let m := mkMsg 1 op name (queueParty s c q) n (if s1 then 0 else BitVec.ofNat 32 count) (coreTime s c)
  gateMsg 1 (Fin.ofNat 256 c) (Fin.ofNat 4 q) (startedOpid s c q) (gatingOn s c) (coreTime s c) (if s1 then unacked else 0) chip m s

def signalOp (c q op : Nat) (name n : Word) (deadline : BitVec 24) (s : State) : State :=
  if kitSignals s c then kitInvalid (station s c).reh.kit 2 c s
  else if !canStartSync s c q then s
  else
    let s := startSync c q op deadline.toNat s
    if isLocal s name then signalLocal c q op name n s
    else if nameOk name then signalRemote c q op name n s
    else failSync c q op name 6 s

/-! ### Releases, expiries and cancels -/

/-- The release under way to a slot of this chip that is delivered next. -/
def nextRelease (s : State) (c w : Nat) : Option Release :=
  s.sync.releases.find? fun r => partyChip r.party == s.boot.chip && partyCore r.party == c && partySlot r.party == w

/-- R350: the ranges of the guard windows of an object, for the context of a core. -/
def guardRanges (s : State) (c : Nat) (name : Word) : List (Nat × Nat) :=
  match runningCtx s (ctxOfCore s c) with
  | none => []
  | some x => ((x.guards.filter (·.name == name)).map (·.ranges)).flatten

/-- R308, R318: the record of a WATCH goes to its RADDR, in the core's scratchpad or in HBM. -/
def putRecord (c w status : Nat) (raddr : DWord) (name value : Word) (s : State) : State :=
  let bytes := releaseRecord name value status w (coreTime s c % 2 ^ 32)
  if Config.place c raddr = 1 then spadPut c false (spadOffset raddr) bytes s else memStore false raddr.toNat bytes s

/-- R315, R318: how a watch ends at its station: a blocking wait retires; a WATCH writes its 16-byte record, and retires if its
object is remote. -/
def endWatch (c w status : Nat) (name value : Word) (s : State) : State :=
  let k := watchOf s c w
  let s := freeWatch c w s
  if k.op = 8 then
    let s := putRecord c w status k.raddr name value s
    if isLocal s name then s else retireSync c k.queue k.opid status value s
  else retireWait c k.queue w k.opid status value s

/-- R321: a release that the slot's earlier watch has caused: the cancel of that watch is not answered yet. -/
def staleRelease (s : State) (c w : Nat) (r : Release) : Bool :=
  !r.own && (station s c).cancels.any fun x => x.1 == w && x.2.1 == r.name && x.2.2 == r.party

/-- R318, R321: a release is for the watch that a slot holds. -/
def releaseFits (s : State) (c w : Nat) (r : Release) : Bool :=
  let k := watchOf s c w
  k.valid && k.name == r.name && k.queue == partyQueue r.party && !staleRelease s c w r

/-- SYNC_RELEASE_DELIVERY (R318, R321, R350). -/
def deliverRelease (c w : Nat) (s : State) : State :=
  if tableauHolds s then s
  else
    match nextRelease s c w with
    | none => s
    | some r =>
      let s := updSync (fun y => { y with releases := dropFirst (· == r) y.releases }) s
      if !releaseFits s c w r then s
      else
        let s := match r.guard with
          | some o => if r.status = 1 then updStation c (fun t => { t with invalidated := guardRanges s c o ++ t.invalidated }) s else s
          | none => s
        endWatch c w r.status r.name r.value s

/-- R319: a cancel sets out to the home of an object. None goes to a chip that is down, or by a route that carries none (R341). -/
def sendCancel (c w : Nat) (name p : Word) (s : State) : State :=
  let out := updStation c (fun t => { t with cancels := t.cancels ++ [(w, name, p)] }) s
  if isLocal s name then out
  else if isDown s (nameChip name) || routeVer s (nameChip name) == 1 then s
  else sendMsg 3 (nameChip name) (mkMsg 3 0 name p 0 0 0) out

/-- WAIT_TIMEOUT (R319, R320), with the value that the home's reply supplies: a release that is on its way wins when it is
delivered first (R321). -/
def expireWatch (c w : Nat) (reply : Word) (s : State) : State :=
  let k := watchOf s c w
  if !k.valid ∨ k.barrier.isSome ∨ timerNow s c < k.expires ∨ tableauHolds s then s
  else
    let p := waiterParty s c k.queue w
    let v := if isLocal s k.name then (object s (nameObject k.name)).value else reply
    let s := occur 0x5001 (srcStation c) k.name.toNat p.toNat v.toNat s
    sendCancel c w k.name p (endWatch c w 2 k.name v s)

/-- CANCEL_ARRIVAL (R319): the oldest cancel of a slot reaches the home bank on this chip. -/
def cancelArrives (c w : Nat) (s : State) : State :=
  match (station s c).cancels.find? fun x => x.1 == w && isLocal s x.2.1 with
  | none => s
  | some x => cancelTaken c x s

/-! ### The meanings -/

/-- R309: SET. -/
def execSyncSet (t : Nat) (core : Core) (issue : SyncIssue) (name operand : Word) (s : State) : Host.Outcome State Fault Refusal :=
  .next (signalOp core.val issue.queue.val 1 name operand issue.deadline (atTime t s))

/-- R309: CLEAR. -/
def execSyncClear (t : Nat) (core : Core) (issue : SyncIssue) (name : Word) (s : State) : Host.Outcome State Fault Refusal :=
  .next (signalOp core.val issue.queue.val 2 name 0 issue.deadline (atTime t s))

/-- R309: ADD. -/
def execSyncAdd (t : Nat) (core : Core) (issue : SyncIssue) (name operand : Word) (s : State) : Host.Outcome State Fault Refusal :=
  .next (signalOp core.val issue.queue.val 3 name operand issue.deadline (atTime t s))

/-- R309, R314: SUB. -/
def execSyncSub (t : Nat) (core : Core) (issue : SyncIssue) (name operand : Word) (s : State) : Host.Outcome State Fault Refusal :=
  .next (signalOp core.val issue.queue.val 4 name operand issue.deadline (atTime t s))

/-- R309: WAIT_EQ. -/
def execSyncWaitEq (t : Nat) (core : Core) (queue : Queue) (name operand : Word) (timeout : BitVec 24) (s : State) :
    Host.Outcome State Fault Refusal :=
  .next (waitOp core.val queue.val 5 0 name operand timeout 0 0 (atTime t s))

/-- R313: WAIT_GE. -/
def execSyncWaitGe (t : Nat) (core : Core) (queue : Queue) (name operand : Word) (timeout : BitVec 24) (s : State) :
    Host.Outcome State Fault Refusal :=
  .next (waitOp core.val queue.val 6 0 name operand timeout 0 0 (atTime t s))

/-- R309: WAIT_FLAG. -/
def execSyncWaitFlag (t : Nat) (core : Core) (queue : Queue) (name : Word) (timeout : BitVec 24) (s : State) :
    Host.Outcome State Fault Refusal :=
  .next (waitOp core.val queue.val 7 0 name 0 timeout 0 0 (atTime t s))

/-- R308, R318: WATCH. -/
def execSyncWatch (t : Nat) (core : Core) (issue : SyncIssue) (cond : BitVec 2) (name operand : Word) (timeout : BitVec 24)
    (raddr : DWord) (s : State) : Host.Outcome State Fault Refusal :=
  .next (waitOp core.val issue.queue.val 8 cond.toNat name operand timeout raddr issue.deadline (atTime t s))

/-- R317. -/
def execSubscriptionArrival (t : Nat) (core : Core) (slot : Fin 16) (s : State) : Host.Outcome State Fault Refusal :=
  .next (subscriptionArrives core.val slot.val (atTime t s))

/-- R318, R350. -/
def execSyncReleaseDelivery (t : Nat) (core : Core) (slot : Fin 16) (s : State) : Host.Outcome State Fault Refusal :=
  .next (deliverRelease core.val slot.val (atTime t s))

/-- R319, R320. -/
def execWaitTimeout (t : Nat) (core : Core) (expiry : Expiry) (s : State) : Host.Outcome State Fault Refusal :=
  .next (expireWatch core.val expiry.slot.val expiry.reply (atTime t s))

/-- R319. -/
def execCancelArrival (t : Nat) (core : Core) (slot : Fin 16) (s : State) : Host.Outcome State Fault Refusal :=
  .next (cancelArrives core.val slot.val (atTime t s))

end Sys2Proof.Machine
end

