-- ==== Sys2Proof/Machine/Messages.lean ====
section
/-! DEFINITION. The remote sync engine and the fabric ports: messages that arrive (R338 to R348), writes from the fabric and their notifies (R325, R346), retries (R347, R388) and the fabric manager's advice (R389, R390). -/

namespace Sys2Proof.Machine

/-- PHL_RST_PEER's place in the table of results. -/
def regRstPeer : Nat := 0x070010

/-- The remote sync engine as a source of records (R401). -/
def srcRemote : BitVec 16 := srcCaller 9

/-! ### What a port lets in -/

/-- R386: the retry-after time in units of 128 µs: what is left to the deadline of the level, at most 250 ms. -/
def retryAfter (s : State) : Nat :=
  let limit := fun (l : Level) => if l.level = 3 then l.start + 3000000000 else l.start + 8000000000
  let left := (s.rst.active.filter (fun l => decide (3 ≤ l.level))).foldl (fun n l => max n (limit l - s.now)) 0
  max 1 ((min 250000000 left + 127999) / 128000)

/-- R386: a port answers with a responder-resetting NAK. -/
def sendNak (port : Nat) (s : State) : State :=
  updOut (fun o => { o with naks := (port, 1, retryAfter s) :: o.naks }) s

/-- R91, R458: the port is up and carries sync traffic. -/
def portCarries (s : State) (port : Nat) : Bool := (fport s port).width != 0 && (fport s port).settled != 0

/-- R338: the chip from which a message came: PARTY's, but a RELEASE's PARTY is the waiter (log entry 13). -/
def senderChip (type : Nat) (m : SyncMsg) : ChipId := if type = 4 then nameChip m.name else partyChip m.party

/-- A message arrives at a port: NAKed while the chip resets, traced, discarded when its CRC fails (R340) or when its
type is not one that the port's version carries (R341). An S1 message has no CRC and no tally. -/
def receive (type : Nat) (port : Nat) (m : SyncMsg) (act : SyncMsg → State → State) (s : State) : State :=
  if (fport s port).width = 0 then s
  else if s.rst.naking then sendNak port s
  else if !portCarries s port ∨ callerOff s then s
  else if (fport s port).settled = 1 then
    if type = 1 ∨ type = 5 ∨ type = 6 then act { m with tally := 0 } s else s
  else
    let s := traceMsg 5 port type (senderChip type m) m s
    if m.crc = msgCrc type m then act m s
    else syncError srcRemote m.name m.party 13 (m.sub.toNat % 16) s

/-! ### Signals held for their tally -/

def arrivalKey (p : Word) : Nat := p.toNat % 2 ^ 24

def updArrival (p : Word) (f : Arrival → Arrival) : State → State :=
  updSync fun y => { y with arrivals := tput {} (arrivalKey p) (f (tget {} (arrivalKey p) y.arrivals)) y.arrivals }

def arrivalOf (s : State) (p : Word) : Arrival := tget {} (arrivalKey p) s.sync.arrivals

/-- R309, R315: a SIGNAL is applied at the home. -/
def applySignal (m : SyncMsg) (s : State) : State :=
  let op := m.sub.toNat % 16
  if op = 0 ∨ 4 < op then syncError srcRemote m.name m.party 13 op s
  else if !nameOk m.name ∨ !isLocal s m.name ∨ (bankCore s (nameObject m.name)).isNone then
    syncError srcRemote m.name m.party 6 op s
  else sealChanged (nameObject m.name) (actOn (nameObject m.name) op m.arg m.party m.start.toNat s).2

/-- R342, R317: a SUBSCRIBE registers, or is answered at once. -/
def applySubscribe (m : SyncMsg) (s : State) : State :=
  let op := m.sub.toNat % 16
  let cond := if op = 8 then bits m.sub.toNat 5 4 else op - 5
  let answer := fun (status : Nat) (s : State) =>
    sendMsg 4 (partyChip m.party) (mkMsg 4 status m.name m.party 0 0 0) s
  if op < 5 ∨ 8 < op ∨ cond = 3 then answer 13 (syncError srcRemote m.name m.party 13 op s)
  else if !nameOk m.name ∨ !isLocal s m.name ∨ objectStatus s (nameObject m.name) = 6 then
    let src := if (bankCore s (nameObject m.name)).isSome then bankSrc s (nameObject m.name) else srcRemote
    answer 6 (syncError src m.name m.party 6 op s)
  else subscribe (nameObject m.name) m.party cond m.arg op s

/-- R319, R338: a CANCEL removes the waiter's subscription, and is answered with the object's value. The spec names no message for
that reply: it goes as a RELEASE of status WAIT_TIMEOUT (log entry 153). -/
def applyCancel (m : SyncMsg) (s : State) : State :=
  if isLocal s m.name then
    let s := cancelSub (nameObject m.name) m.party s
    sendMsg 4 (partyChip m.party) (mkMsg 4 2 m.name m.party (object s (nameObject m.name)).value 0 0) s
  else s

/-- R346: an entry whose two counts are not both 0 is in use. -/
def entryUsed (a : Arrival) : Bool := a.arrived != 0 || a.claim != 0

/-- R346, R365: entries of the arrival table in use. -/
def entriesUsed (s : State) : Nat := (s.sync.arrivals.filter fun x => entryUsed x.2).length

/-- R346, R347: the arrival table has 16,384 entries, and none for a source. -/
def tableFull (s : State) (p : Word) : Bool := decide (16384 ≤ entriesUsed s) && !entryUsed (arrivalOf s p)

/-- R346: a CARRY adds to CLAIM. -/
def applyCarry (m : SyncMsg) (s : State) : State :=
  updArrival m.party (fun a => { a with claim := a.claim + m.tally.toNat }) s

/-- R346: the messages of one source queue in order, until a SIGNAL whose tally is not met, or a CARRY for which a full table has no
entry (log entry 154). -/
def drainHeld (p : Word) : List HeldMsg → State → List HeldMsg × State
  | [], s => ([], s)
  | h :: r, s =>
    match h.type with
    | 1 =>
      let a := arrivalOf s p
      let need := a.claim + h.msg.tally.toNat
      if a.arrived < need then (h :: r, s)
      else drainHeld p r (applySignal h.msg (updArrival p (fun a => { a with arrived := a.arrived - need, claim := 0 }) s))
    | 2 => drainHeld p r (applySubscribe h.msg s)
    | 3 => drainHeld p r (applyCancel h.msg s)
    | _ => if tableFull s p then (h :: r, s) else drainHeld p r (applyCarry h.msg s)

def drainSource (p : Word) (s : State) : State :=
  let x := drainHeld p (arrivalOf s p).held s
  updArrival p (fun a => { a with held := x.1 }) x.2

/-- A source whose first held message is a CARRY, which waits for an entry. -/
def carryWaits (a : Arrival) : Bool := match a.held with | h :: _ => h.type == 7 | [] => false

/-- R346: while the table has an entry free, the first source that waits for one takes it. -/
def drainWaiting : Nat → State → State
  | 0, s => s
  | n + 1, s =>
    if 16384 ≤ entriesUsed s then s
    else
      match s.sync.arrivals.find? fun x => carryWaits x.2 with
      | some x => drainWaiting n (drainSource (BitVec.ofNat 32 x.1) s)
      | none => s

/-- R346: what an arrival or a message lets go on: its source's messages, and those that wait for an entry. -/
def drainArrival (p : Word) (s : State) : State :=
  let s := drainSource p s
  drainWaiting (s.sync.arrivals.filter fun x => carryWaits x.2).length s

/-- R346: a message of a source queue comes behind those that its entry holds. -/
def joinQueue (type port : Nat) (m : SyncMsg) (s : State) : State :=
  let h : HeldMsg := { type := type, msg := m, arrived := s.now, stalled := false, port := Fin.ofNat 36 port }
  drainArrival m.party (updArrival m.party (fun a => { a with held := a.held ++ [h] }) s)

/-- R342: a RELEASE for a watch that still waits is delivered; any other is discarded (R321). One of status WAIT_TIMEOUT answers the
oldest cancel of its slot (log entry 153). -/
def applyRelease (m : SyncMsg) (s : State) : State :=
  let c := partyCore m.party
  let w := partySlot m.party
  let k := watchOf s c w
  let r : Release := { party := m.party, name := m.name, status := m.sub.toNat % 16, value := m.arg, guard := some m.name }
  if partyChip m.party ≠ s.boot.chip then s
  else if r.status = 2 then updStation c (fun t => { t with cancels := dropFirst (· == (w, m.name, m.party)) t.cancels }) s
  else if releaseFits s c w r ∧ k.barrier.isNone then
    let s := updStation c (fun t => { t with watches := tput {} w { k with lastValue := m.arg } t.watches }) s
    deliverRelease c w (updSync (fun y => { y with releases := y.releases ++ [r] }) s)
  else s

/-- R357. -/
def barrierStray (m : SyncMsg) (s : State) : State :=
  occur 0x6004 (srcCaller 7) m.name.toNat m.party.toNat (m.arg.toNat % 65536) s

/-- R357: the message names an armed context of this chip in its current generation. -/
def barrierCurrent (s : State) (m : SyncMsg) : Bool :=
  let x := barrier s (barIndex m.name)
  barChip m.name == s.boot.chip && decide (m.name.toNat < 2 ^ 22) && (x.state == 1 || x.state == 2) &&
  x.gen % 65536 == m.arg.toNat % 65536

/-- R354, R357: an ARRIVE from a child; one more than the chip has children adds nothing. -/
def applyArrive (m : SyncMsg) (s : State) : State :=
  let b := barIndex m.name
  let chip := partyChip m.party
  if barrierCurrent s m && (barrier s b).children.any (fun c => barChip c == chip) then
    advance b (updBarrier b (fun x => { x with
      childArrived := if x.childArrived.count chip < childrenOn x chip then chip :: x.childArrived else x.childArrived }) s)
  else barrierStray m s

/-- R354, R357: a BRELEASE from the parent ends the generation that went UP. -/
def applyBrelease (m : SyncMsg) (s : State) : State :=
  let b := barIndex m.name
  let x := barrier s b
  if barrierCurrent s m && x.state == 2 && (match x.parent with | some p => barChip p == partyChip m.party | none => false) then
    advance b (completeGen b s)
  else barrierStray m s

/-! ### Writes from the fabric -/

/-- R347: the write is refused, and TALLY_FULL is recorded at most once per millisecond. -/
def refuseSector (port : Nat) (p : Word) (s : State) : State :=
  let s := updOut (fun o => { o with naks := (port, 2, 2000) :: o.naks }) s
  if (match s.sync.lastFull with | some t => decide (t + 1000000 ≤ s.now) | none => true) then
    occur 0x6005 srcRemote (entriesUsed s) (partyChip p).toNat 0
      (updSync (fun y => { y with lastFull := some s.now }) s)
  else s

/-- FABRIC_SECTOR_COMMIT (R346, R347): the sector lands with its poison mark (R63), outside the capsule region (R224). The sector
of a scratchpad is mirrored on INB (R94), and INB_BEAT lands it. -/
def sectorCommits (port : Nat) (p : Word) (scratchpad : Bool) (addr : DWord) (data : Sector) (poison : Bool) (s : State) : State :=
  if (fport s port).width = 0 then s
  else if s.rst.naking then sendNak port s
  else if callerOff s then s
  else if tableFull s p then refuseSector port p s
  else
    drainArrival p (updArrival p (fun a => { a with arrived := a.arrived + 1 })
      (if scratchpad then s else memStore poison (addr.toNat / 64 * 64) (sectorBytes data) s))

/-- R348: the first held message that satisfies a test takes the mark of a stall. -/
def markStalled (due : HeldMsg → Bool) : List HeldMsg → List HeldMsg
  | [] => []
  | h :: r => if due h then { h with stalled := true } :: r else h :: markStalled due r

/-- TALLY_STALL (R348): a signal of a source has been held for 100 µs. -/
def tallyStalls (p : Word) (s : State) : State :=
  let a := arrivalOf s p
  let due := fun (h : HeldMsg) => h.type == 1 && !h.stalled && decide (h.arrived + 100000 ≤ s.now)
  match a.held.find? due with
  | none => s
  | some h =>
    if callerOff s then s
    else
      let s := occur 0x6001 srcRemote h.msg.name.toNat h.msg.party.toNat (a.claim + h.msg.tally.toNat - a.arrived) s
      updSync (fun y => { y with tallyStalls := satAdd 255 y.tallyStalls 1 })
        (updArrival p (fun a => { a with held := markStalled due a.held }) s)

/-! ### Monitored words (R323 to R325) -/

/-- R324: whether a word makes an entry act. -/
def monHits (e : MonEntry) (v : Word) : Bool :=
  match e.cond with
  | 0 => true
  | 1 => v == e.compare
  | 2 => condHolds 1 e.compare v
  | 3 => v != 0
  | _ => v != e.last

/-- R324: an action on an object assigned to the entry's context; one on an object of an ended context is discarded. A
FLAG object takes MIRROR as a SET. -/
def monAct (e : MonEntry) (v : Word) (s : State) : State :=
  let x := object s e.object
  if objectStatus s e.object = 6 ∨ x.ctx ≠ e.ctx then s
  else
    let p := party s.boot.chip 0 0 0 4
    match e.action with
    | 1 => (actOn e.object 1 1 p s.now s).2
    | 2 => (actOn e.object 3 (BitVec.ofNat 32 e.addn) p s.now s).2
    | 3 =>
      let s := if x.count then s else syncError (bankSrc s e.object) (objName s.boot.chip e.object) p 8 1 s
      (actOn e.object 1 v p s.now s).2
    | _ => s

/-- One entry meets a notify: the word that it saw, its action, and its removal when ONESHOT is set. -/
def monEntryAct (i : Nat) (base : Nat) (data : List Byte) (s : State) : State :=
  match tfind i s.sync.mon with
  | none => s
  | some e =>
    let v : Word := BitVec.ofNat 32 (fieldLe (e.addr - base) 4 data)
    if monHits e v then
      let s := updSync (fun y => { y with mon := if e.oneshot then tdel i y.mon else tset i { e with last := v } y.mon }) s
      sealChanged e.object (monAct e v s)
    else updSync (fun y => { y with mon := tset i { e with last := v } y.mon }) s

def monEntriesAct (base : Nat) (data : List Byte) : List Nat → State → State
  | [], s => s
  | i :: r, s => monEntriesAct base data r (monEntryAct i base data s)

/-- R325, R333: writes that the full notify FIFO had made the controller hold before this notify. -/
def noteHolds (n : Nat) (s : State) : State :=
  if callerOff s then s else updSync (fun y => { y with monStalls := satAdd 0x7FFF y.monStalls n }) s

/-- WRITE_NOTIFY (R325): the sector after the write, and every entry of the sector in turn. -/
def writeNotified (addr : DWord) (data : Sector) (poison : Bool) (s : State) : State :=
  let base := addr.toNat / 64 * 64
  let bytes := sectorBytes data
  let s := memStore poison base bytes s
  if callerOff s then s
  else
    let hit := (s.sync.mon.filter fun x => decide (base ≤ x.2.addr) && decide (x.2.addr < base + 64)).map (·.1)
    monEntriesAct base bytes hit s

/-! ### Retries and acknowledgements -/

/-- R341: acknowledgements of a queue's sectors reach its count and its S1 signals at the gate point. -/
def acknowledge (core : Core) (queue : Queue) (chip : ChipId) (n : Nat) (s : State) : State :=
  let s := updUnacked core.val queue.val chip (· - n) s
  releaseItems 37 (updGate 37 (fun g => { g with items := g.items.map fun i =>
    if i.core == core && i.queue == queue && i.dest == chip then { i with ackNeed := i.ackNeed - n } else i }) s)

/-- R339: the requests that a port holds, with one more: a sync message that was sent again and refused again comes before those
held for its chip, which left after it (log entry 155). -/
def holdRequest (x : Nat × ChipId × Nat × Bool) (f : FPort) : FPort :=
  let l := f.retry.filter (·.1 != x.1)
  { f with
    retry := if f.resent.contains x.1 then x :: l else l ++ [x]
    resent := f.resent.filter (· != x.1) }

/-- R347, R388: a port holds a request for retry; one for a chip that is down is discarded (R389). -/
def holdForRetry (port : Nat) (chip : ChipId) (request : Nat) (sync : Bool) (at_ : Nat) (s : State) : State :=
  if isDown s chip then s else updFPort port (holdRequest (request, chip, at_, sync)) s

/-- R339: no sync message for the same chip is held before a request. -/
def retryFirst (f : FPort) (x : Nat × ChipId × Nat × Bool) : Bool :=
  !x.2.2.2 || ((f.retry.find? fun k => k.2.2.2 && k.2.1 == x.2.1) == some x)

/-- R339: the requests that a port holds, without one that is sent again. -/
def sendAgain (x : Nat × ChipId × Nat × Bool) (f : FPort) : FPort :=
  let l := f.retry.filter (·.1 != x.1)
  { f with retry := l, resent := if l.any (·.2.2.2) then (if x.2.2.2 then x.1 :: f.resent else f.resent) else [] }

/-- R339, R388: messages that a port held behind those for retry leave. -/
def sendBehind (port : Nat) (s : State) : State :=
  releaseItems 37 (sendWaiting (fport s port).waiting (updFPort port (fun f => { f with waiting := [] }) s))

/-- R388: a held request is sent again. -/
def retryNow (port request : Nat) (s : State) : State :=
  match (fport s port).retry.find? (·.1 == request) with
  | none => s
  | some x =>
    if s.now < x.2.2.1 ∨ !retryFirst (fport s port) x then s
    else
      sendBehind port (updOut (fun o => { o with retried := (port, request) :: o.retried }) (updFPort port (sendAgain x) s))

/-! ### Advice of the fabric manager (R389, R390) -/

/-- The watches of every core on objects of a chip. -/
def watchesOn (s : State) (chip : ChipId) : List (Nat × Nat) :=
  (heldWatches s (List.range 256)).filter fun x =>
    (watchOf s x.1 x.2).barrier.isNone && nameChip (watchOf s x.1 x.2).name == chip

/-- R389: every subscription of a chip's waiters is removed. -/
def removeSubsOf (chip : ChipId) (s : State) : State :=
  updSync (fun y => { y with objs := y.objs.map fun x =>
    (x.1, { x.2 with subs := x.2.subs.filter fun u => partyChip u.party != chip }) }) s

/-- R389: held signals are discarded with their entries, and their objects' subscriptions are released. -/
def dropArrivalsOf : List (Nat × Arrival) → State → State
  | [], s => s
  | x :: r, s =>
    let signals := x.2.held.filter (·.type == 1)
    let os := (signals.map fun h => nameObject h.msg.name).filter fun o => objectStatus s o == 1
    dropArrivalsOf r (releaseObjectSubs 4 os (updSync (fun y => { y with arrivals := tdel x.1 y.arrivals }) s))

/-- Sync messages for a chip that the ports hold. -/
def portMessages (s : State) (chip : ChipId) : Nat :=
  (s.sync.ports.map fun x =>
    (x.2.retry.filter fun k => k.2.1 == chip && k.2.2.2).length + (x.2.waiting.filter fun k => k.2.1 == chip).length).sum

/-- R389: what a port holds for a chip is discarded. -/
def portForgets (chip : ChipId) (f : FPort) : FPort :=
  { f with retry := f.retry.filter (·.2.1 != chip), resent := [], waiting := f.waiting.filter (·.2.1 != chip) }

def dropPortHeld (chip : ChipId) : List Nat → State → State
  | [], s => s
  | p :: r, s => dropPortHeld chip r (updFPort p (portForgets chip) s)

/-- R319, R389: no reply of a chip that is down comes any more. -/
def forgetCancels (chip : ChipId) (s : State) : State :=
  { s with stations := s.stations.map fun x => (x.1, { x.2 with cancels := x.2.cancels.filter fun k => nameChip k.2.1 != chip }) }

/-- R389. -/
def applyDown (chip : ChipId) (s : State) : State :=
  let ws := watchesOn s chip
  let s := removeSubsOf chip (forgetCancels chip (releaseWatches 4 ws s))
  let mine := s.sync.arrivals.filter fun x => x.1 % 2 ^ 14 == chip.toNat && x.2.held.any (·.type == 1)
  let held := (mine.map fun x => (x.2.held.filter (·.type == 1)).length).sum
  let os := ((mine.map fun x => (x.2.held.filter (·.type == 1)).map fun h => nameObject h.msg.name).flatten).eraseDups
  let released := ws.length + subCount s os
  let discarded := held + portMessages s chip
  let s := dropArrivalsOf mine (dropPortHeld chip (List.range 36) s)
  let s := breakBarriers (fun x => x.children.any (fun c => barChip c == chip) ||
    (match x.parent with | some p => barChip p == chip | none => false)) (List.range 256) s
  let s := updSync (fun y => { y with down := chip :: y.down.filter (· != chip) }) s
  occur 0x6002 (srcCaller 0) (chip.toNat + 2 ^ 31) released discarded (releaseItems 37 s)

/-- R390, R396: advice, with its RESULT. -/
def advise (r : Requester) (down : Bool) (chip : ChipId) (seq : BitVec 16) (s : State) : State :=
  if r ≠ .host ∧ r ≠ .ccp then s
  else
    let s := updCfg (fun c => { c with rstPeer := BitVec.ofNat 32 (chip.toNat * 65536 + seq.toNat) }) s
    let key := 2 * chip.toNat + b2n down
    if down ∧ chip = s.boot.chip then setResult regRstPeer r 2 s
    else if tfind key s.sync.advice = some seq then setResult regRstPeer r 1 s
    else
      let s := setResult regRstPeer r 0 (updSync (fun y => { y with advice := tset key seq y.advice }) s)
      if down then applyDown chip s
      else updSync (fun y => { y with down := y.down.filter (· != chip) }) s

/-! ### The meanings -/

/-- R346. -/
def execSignalMessage (t : Nat) (port : Port) (msg : SyncMsg) (s : State) : Host.Outcome State Fault Refusal :=
  .next (receive 1 port.val msg (joinQueue 1 port.val) (atTime t s))

/-- R342. -/
def execSubscribeMessage (t : Nat) (port : Port) (msg : SyncMsg) (s : State) : Host.Outcome State Fault Refusal :=
  .next (receive 2 port.val msg (joinQueue 2 port.val) (atTime t s))

/-- R338. -/
def execCancelMessage (t : Nat) (port : Port) (msg : SyncMsg) (s : State) : Host.Outcome State Fault Refusal :=
  .next (receive 3 port.val msg (joinQueue 3 port.val) (atTime t s))

/-- R342. -/
def execReleaseMessage (t : Nat) (port : Port) (msg : SyncMsg) (s : State) : Host.Outcome State Fault Refusal :=
  .next (receive 4 port.val msg applyRelease (atTime t s))

/-- R357. -/
def execArriveMessage (t : Nat) (port : Port) (msg : SyncMsg) (s : State) : Host.Outcome State Fault Refusal :=
  .next (receive 5 port.val msg applyArrive (atTime t s))

/-- R354. -/
def execBreleaseMessage (t : Nat) (port : Port) (msg : SyncMsg) (s : State) : Host.Outcome State Fault Refusal :=
  .next (receive 6 port.val msg applyBrelease (atTime t s))

/-- R346. -/
def execCarryMessage (t : Nat) (port : Port) (msg : SyncMsg) (s : State) : Host.Outcome State Fault Refusal :=
  .next (receive 7 port.val msg (joinQueue 7 port.val) (atTime t s))

/-- R346, R347. -/
def execFabricSectorCommit (t : Nat) (port : Port) (party : Word) (addr : SectorAddr) (data : MarkedSector) (s : State) :
    Host.Outcome State Fault Refusal :=
  .next (sectorCommits port.val party addr.scratchpad addr.addr data.data data.poison (atTime t s))

/-- R348. -/
def execTallyStall (t : Nat) (party : Word) (s : State) : Host.Outcome State Fault Refusal :=
  .next (tallyStalls party (atTime t s))

/-- R325. -/
def execWriteNotify (t : Nat) (addr : DWord) (data : MarkedSector) (holds : Nat) (s : State) :
    Host.Outcome State Fault Refusal :=
  .next (writeNotified addr data.data data.poison (noteHolds holds (atTime t s)))

/-- R341. -/
def execEndToEndAcknowledgement (t : Nat) (core : Core) (queue : Queue) (chip : ChipId) (sectors : Nat) (s : State) :
    Host.Outcome State Fault Refusal :=
  .next (acknowledge core queue chip sectors (atTime t s))

/-- R388: the retry-after time is in units of 128 µs. -/
def execResponderResettingNak (t : Nat) (port : Port) (chip : ChipId) (request : BitVec 16) (sync : Bool) (retryAfter : Nat)
    (s : State) : Host.Outcome State Fault Refusal :=
  let s := atTime t s
  .next (holdForRetry port.val chip request.toNat sync (s.now + 128000 * retryAfter) s)

/-- R347: a sector write is held for 2 µs. -/
def execResponderNotReadyNak (t : Nat) (port : Port) (chip : ChipId) (request : BitVec 16) (s : State) :
    Host.Outcome State Fault Refusal :=
  let s := atTime t s
  .next (holdForRetry port.val chip request.toNat false (s.now + 2000) s)

/-- R388. -/
def execNakRetry (t : Nat) (port : Port) (request : BitVec 16) (s : State) : Host.Outcome State Fault Refusal :=
  .next (retryNow port.val request.toNat (atTime t s))

/-- R389: DOWN written to PHL_RST_PEER. -/
def execPeerDown (t : Nat) (r : Requester) (chip : ChipId) (seq : BitVec 16) (s : State) : Host.Outcome State Fault Refusal :=
  let s := atTime t s
  .next (if callerOff s then s else advise r true chip seq s)

/-- R390: UP written to PHL_RST_PEER. -/
def execPeerUp (t : Nat) (r : Requester) (chip : ChipId) (seq : BitVec 16) (s : State) : Host.Outcome State Fault Refusal :=
  let s := atTime t s
  .next (if callerOff s then s else advise r false chip seq s)

end Sys2Proof.Machine
end

