-- ==== Sys2Proof/Machine/Residency.lean ====
section
/-! DEFINITION. Which figures a station holds and on which cells (R85, R88, R149 to R151). -/

namespace Sys2Proof.Machine

/-! ### Cells -/

/-- R127: cells of each type: X, E, T, N, C. -/
def cellCount : Nat → Nat
  | 0 => 32 | 1 => 8 | 2 => 4 | 3 => 4 | 4 => 2 | 5 => 4 | _ => 0

/-- A cell by type and number. -/
def cellKey (type n : Nat) : Nat := type * 32 + n

/-- Good cells of a type that no slot is bound to, or is to be bound to, lowest first. -/
def freeCells (t : Station) (slots : Tab Slot) (type : Nat) : List Nat :=
  (List.range (cellCount type)).filter fun i =>
    !t.faulty.contains (cellKey type i) &&
    !slots.any fun x => (x.2.bind.any fun b => b.2 == cellKey type i) || x.2.moves.any fun b => b.2 == cellKey type i

def demandOf (f : Figure) (type : Nat) : Nat := f.demand.getD type 0

/-! ### ALT pairs (R151) -/

/-- R151: two figures that no CU can match both. -/
def disjointAlt (f g : Figure) : Bool :=
  f.alt && g.alt &&
  (f.queues &&& g.queues == 0 || f.formats &&& g.formats == 0 || decide (f.ttagHi < g.ttagLo) || decide (g.ttagHi < f.ttagLo) ||
   (f.queues == 2 && g.queues == 2 && f.classes &&& g.classes == 0))

/-- R149: the cell to which a slot's cell goes at the next CU boundary. -/
def movedCell (x : Slot) (key : Nat) : Nat := ((x.moves.find? fun m => m.1 == key).map (·.2)).getD key

/-- Two slots share a cell. -/
def shareCells (a b : Slot) : Bool := a.bind.any fun x => b.bind.any fun y => movedCell a x.2 == movedCell b y.2

/-- R151: the slot whose cells a figure may share: a disjoint ALT partner that has no partner yet. -/
def altPartner (slots : Tab Slot) (f : Figure) : Option Slot :=
  (slots.find? fun x => disjointAlt x.2.fig f && !slots.any (fun y => y.1 != x.1 && shareCells x.2 y.2)).map (·.2)

/-! ### Binding (R149) -/

/-- Cells of a type for a figure: its partner's that are not faulty (R162), with their pending moves, then free ones; none when
they do not suffice. -/
def bindType (t : Station) (slots : Tab Slot) (partner : Option Slot) (f : Figure) (type : Nat) : Option (List (Nat × Nat)) :=
  let shared := match partner with
    | some p => (List.range (demandOf p.fig type)).filterMap fun v => ((p.bind.find? (·.1 == cellKey type v)).map fun b => movedCell p b.2).filter fun k => !t.faulty.contains k
    | none => []
  let cells := shared ++ (freeCells t slots type).map (cellKey type)
  let n := demandOf f type
  if cells.length < n then none else some ((List.range n).map fun v => (cellKey type v, cells.getD v 0))

def bindFigure (t : Station) (slots : Tab Slot) (f : Figure) : Option (List (Nat × Nat)) :=
  let p := altPartner slots f
  let parts := (List.range 5).map (bindType t slots p f)
  if parts.all (·.isSome) then some (parts.map fun x => x.getD []).flatten else none

/-- Why a station cannot hold figures: the slots (R88) or the cells (R149). -/
inductive NoFit where
  | slots | cells
deriving DecidableEq, Repr

/-- R149: load figures into free slots, in order. -/
def loadFigures (t : Station) : List Figure → Tab Slot → Except NoFit (Tab Slot)
  | [], slots => .ok slots
  | f :: r, slots =>
    match (List.range 4).find? fun i => (tfind i slots).isNone with
    | none => .error .slots
    | some i =>
      match bindFigure t slots f with
      | none => .error .cells
      | some b => loadFigures t r (tset i { fig := f, state := 1, bind := b, broken := false } slots)

/-- R142: the figures of a charter for the station of a logical core. -/
def figuresFor (ch : Charter) (l : Nat) : List Figure :=
  (ch.figures.filter fun x => x.1.toNat.testBit l).map (·.2)

/-- The figures that a station must hold under the charter in force. -/
def stationFigures (s : State) (c : Nat) : List Figure :=
  match s.cfg.active, logOf s c with
  | some ch, some l => figuresFor ch l
  | _, _ => []

/-- R149: the demands of all figures of a station, an ALT pair's shared cells counted once, fit within its good cells. -/
def demandsFit (t : Station) (slots : Tab Slot) : Bool :=
  (List.range 5).all fun type =>
    let bound := ((slots.map fun x => x.2.bind.map (·.2)).flatten.eraseDups).filter fun k => k / 32 == type
    let good := (List.range (cellCount type)).filter fun i => !t.faulty.contains (cellKey type i)
    decide (bound.length ≤ good.length)

/-- R88, R149: what a station's slots become when it is to hold figures: those it does not hold yet are loaded. -/
def planSlots (t : Station) (figs : List Figure) : Except NoFit (Tab Slot) :=
  match loadFigures t (figs.filter fun f => !t.slots.any fun x => x.2.state != 3 && decide (x.2.fig = f)) t.slots with
  | .ok slots => if demandsFit t slots then .ok slots else .error .cells
  | .error e => .error e

/-- R82: preload, when it fits. -/
def preload (c : Nat) (figs : List Figure) (s : State) : State :=
  match planSlots (station s c) figs with
  | .ok slots => updStation c (fun t => { t with slots := slots }) s
  | .error _ => s

/-- R85, R88: a station takes the epoch: loaded figures become active, and the others retire. -/
def takeEpoch (c : Nat) (s : State) : State :=
  let figs := stationFigures s c
  let cov := coverageNow s
  updStation c (fun t => sweepSlots (heldFigs s) { t with
    epoch := s.cfg.epoch
    cov := cov
    slots := t.slots.map fun x =>
      if figs.any (fun f => decide (f = x.2.fig)) && x.2.state != 3 then (x.1, { x.2 with state := 2 }) else (x.1, { x.2 with state := 3 }) }) s

/-- STATION_EPOCH_TAKE (R85): due while the station holds another epoch than the one in force. -/
def epochTaken (c : Nat) (s : State) : State :=
  if (station s c).epoch = s.cfg.epoch ∨ clusterInReset s (c / 16) then s else takeEpoch c s

/-! ### Faulty cells (R149) -/

/-- R149: the cell to which a slot is bound through its pending moves. -/
def isToHold (key : Nat) (x : Slot) : Bool :=
  x.moves.any (fun m => m.2 == key) || (x.bind.any (fun b => b.2 == key) && !x.moves.any fun m => m.1 == key)

/-- A move joins the pending ones: one that led to the faulty cell now leads to the new one. -/
def addMove (key k : Nat) (l : List (Nat × Nat)) : List (Nat × Nat) :=
  if l.any fun m => m.2 == key then l.map fun m => if m.2 == key then (m.1, k) else m else l ++ [(key, k)]

/-- R149: a slot's virtual cell moves from a faulty cell to a good one at its figure's next CU boundary; without one the
figure gives NONE from then on. -/
def moveCell (key : Nat) (new : Option Nat) (x : Slot) : Slot :=
  if isToHold key x then
    match new with
    | some k => { x with moves := addMove key k x.moves }
    | none => { x with broken := true }
  else x

/-- R149: a cell is marked faulty, and the virtual cells bound to it go to a free good cell of its type; an ALT pair takes
one cell. -/
def markFaulty (key : Nat) (t : Station) : Station :=
  let t := { t with faulty := if t.faulty.contains key then t.faulty else t.faulty ++ [key] }
  let new := (freeCells t t.slots (key / 32)).head?.map (cellKey (key / 32))
  { t with slots := t.slots.map fun x => (x.1, moveCell key new x.2) }

/-- R149: the CU boundary of a figure: its pending moves take effect. -/
def rebind (x : Slot) : Slot :=
  { x with
    bind := x.bind.map fun b => (b.1, movedCell x b.2)
    moves := [] }

/-- R149: a CU starts under the figures of some slots. -/
def rebindSlots (l : List Nat) (t : Station) : Station :=
  { t with slots := t.slots.map fun x => if l.contains x.1 then (x.1, rebind x.2) else x }

/-! ### The meaning -/

/-- R85. -/
def execStationEpochTake (t : Nat) (core : Core) (s : State) : Host.Outcome State Fault Refusal :=
  .next (epochTaken core.val (atTime t s))

end Sys2Proof.Machine
end

