-- ==== Sys2Proof/Machine/Lattice.lean ====
section
/-! DEFINITION. The checking lattice: W96 arithmetic (R129, R130), log-domain values (R133), cell operations (R132 to R137), and how a figure runs on what a tap carries (R138 to R147, R153 to R155, R166 to R182). -/

namespace Sys2Proof.Machine

/-! ### W96 (R129, R130) -/

/-- How a value that W96 cannot hold is rounded. -/
inductive Round where
  | even | away
deriving DecidableEq, Repr

/-- |m| / 2^k rounded to a whole number. -/
def roundShift (r : Round) (m k : Nat) : Nat :=
  let q := m / 2 ^ k
  let rem := m % 2 ^ k
  match r with
  | .away => if rem = 0 then q else q + 1
  | .even => if 2 * rem < 2 ^ k ∨ (2 * rem = 2 ^ k ∧ q % 2 = 0) then q else q + 1

/-- R129, R130: the W96 value of an exact value, with INX and OVF. -/
def w96By (r : Round) (d : Dy) : Acc :=
  if d.m = 0 then {}
  else
    let m := d.m.natAbs
    let n := Nat.log2 m + 1
    let want : Int := max ((n : Int) - 96) (-32768 - d.e)
    let q := if want ≤ 0 then m * 2 ^ (-want).toNat else roundShift r m want.toNat
    let inx := decide (0 < want) && m % 2 ^ want.toNat != 0
    let q' := if q = 2 ^ 96 then 2 ^ 95 else q
    let e := d.e + want + (if q = 2 ^ 96 then 1 else 0)
    let sign : Int := if d.m < 0 then -1 else 1
    if 32767 < e then { v := ⟨sign * ((2 : Int) ^ 96 - 1), 32767⟩, inx := inx, ovf := true }
    else if q' = 0 then { inx := inx }
    else { v := ⟨sign * (q' : Int), e⟩, inx := inx }

def w96 (d : Dy) : Acc := w96By .even d

/-! ### Log-domain values (R133) -/

/-- 2^(2^i / 4096) in units of 2^-100, rounded up, for i = 0 to 11. -/
def lvRoots : List Nat :=
  [0x1000b175effdc76ba38e31671d, 0x100162f3904051fa128bca9c56, 0x1002c605e2e8cec506d21bfc8a, 0x10058c86da1c09ea1ff19d294d,
   0x100b1afa5abcbed6129ab13ec2, 0x10163da9fb33356d84a66ae337, 0x102c9a3e778060ee6f7caca4f8, 0x1059b0d31585743ae7c548eb69,
   0x10b5586cf9890f6298b92b7185, 0x1172b83c7d517adcdf7c8c50ec, 0x1306fe0a31b7152de8d5a46306, 0x16a09e667f3bcc908b2fb1366f]

/-- 2^(r / 4096) for r below 4096, from above, in units of 2^-100. -/
def lvFrac (r : Nat) : Nat :=
  (lvRoots.zip (List.range 12)).foldl (fun a p => if r.testBit p.2 then roundShift .away (a * p.1) 100 else a) (2 ^ 100)

/-- The linear value of an LV, from above; 0x80000000 stands for zero. -/
def lvPow (a : Int) : Dy :=
  if a = -2147483648 then ⟨0, 0⟩
  else ⟨(lvFrac (a % 4096).toNat : Int), a / 4096 - 100⟩

/-- The least LV whose linear value is not below a value, found bit by bit. -/
def lvSearch (d : Dy) (base : Int) : Nat → Nat → Int
  | 0, r => if dyLe d (lvPow (base + r)) then base + r else base + r + 1
  | k + 1, r => if dyLe d (lvPow (base + (r + 2 ^ k : Nat) - 1)) then lvSearch d base k r else lvSearch d base k (r + 2 ^ k)

/-- The LV of an exact value: rounded upward, and up to 2 steps above its log2 in all (log entry 3). -/
def lvOf (slack : Nat) (d : Dy) : Int :=
  if d.m ≤ 0 then -2147483648
  else
    let top := 4096 * dyTop d
    let least := lvSearch d top 12 0
    let exact := decide (d.m.natAbs = 2 ^ Nat.log2 d.m.natAbs)
    least + (if exact then (slack : Int) else min 1 (slack : Int))

/-! ### Words and sources (R144, R145) -/

/-- R145. -/
inductive Src where
  | absent
  | tap (field : Nat)
  | cell (type v : Nat) (second : Bool)
  | run (first len : Nat)
  | param (i : Nat)
  | imp (k : Nat)
  | bad
deriving DecidableEq, Repr

def srcOf (b : BitVec 12) : Src :=
  let n := b.toNat
  match n / 512 with
  | 0 => .absent
  | 1 => .tap (bits n 8 4)
  | 2 => .cell (bits n 8 6) (bits n 5 1) (bit n 0)
  | 3 => .run (bits n 8 4) (bits n 3 1 + 1)
  | 4 => .param (bits n 5 0)
  | 5 => .imp (bits n 2 0)
  | _ => .bad

/-- R127, R132, R134: lane positions of a word's slot. -/
def lanePos (w : CellWord) (lane e : Nat) : Nat := w.lbase + lane * w.lstride + e * w.estride

/-- R154: lanes of the T cells of lower number. -/
def tBase (ws : List CellWord) (v : Nat) : Nat :=
  (List.range v).foldl (fun n i => n + match ws.find? (fun w => w.type == 2 && w.vcell == i && w.op != 0) with
    | some w => 16 * w.nelem
    | none => 0) 0

/-! ### What a trigger carries -/

/-- What the cells see at one trigger: the fields that the beat fills, by selector (R146). -/
structure Feed where
  /-- R140: the TRIG values that hold. -/
  trigs : List Nat
  /-- elements by field and position; a position that is not filled is none -/
  elems : Tab (List (Option Elem)) := []
  /-- R131: scale exponents by field 2 and 3; none is a NaN scale -/
  scales : Tab (List (Option (Option Int))) := []
  /-- stored format and codes by field, for CENSUS (R136) -/
  codes : Tab (Nat × List (Option Nat)) := []
  /-- byte position and bytes by field, for the CRCs (R137) -/
  bytes : Tab (List (Nat × List Byte)) := []
  /-- the beat is a C0 row -/
  c0 : Bool := false
  /-- ROW of the beat -/
  row : Nat := 0
  /-- a WRITE_DONE: CRC and bytes covered -/
  wdone : Option (Word × Nat) := none
deriving DecidableEq, Repr

/-- A lane's value: exact, with the flags that travel with it. -/
structure LaneVal where
  v : Dy
  nf : Bool := false
  ovf : Bool := false
deriving DecidableEq, Repr

/-- What a figure's words read besides the beat. -/
structure FigEnv where
  regs : Tab CellRegs
  params : List DWord
  /-- R145: exported values by output and cell step: the value of a lane; none when the import did not attach -/
  imports : List (Nat × List (List (Option LaneVal)))
  op : OpStart
  maxA : Nat
  maxB : Nat
  /-- R155: under FG-MOV, every WRITE_DONE so far had a valid CRC -/
  writesValid : Bool
  /-- the number of the free value that this trigger takes -/
  free : Nat
deriving DecidableEq, Repr

def cellRegs (r : Tab CellRegs) (type v : Nat) : CellRegs := tget {} (cellKey type v) r
def updRegs (type v : Nat) (f : CellRegs → CellRegs) (r : Tab CellRegs) : Tab CellRegs :=
  tput {} (cellKey type v) (f (cellRegs r type v)) r

def accLane (a : Acc) : LaneVal := { v := a.v, nf := a.nf, ovf := a.ovf }

/-- The CRC-32C of a source that comes in pieces, by position (R137). -/
def crcOfBytes (wide : Bool) (len : Nat) (t : Tab Byte) : Nat :=
  let l := tgets 0 0 len t
  if wide then crc64 l else (crc32c l).toNat

/-- Product of two polynomials modulo that of CRC-32C, in the reflected form. -/
def crcMul (a b : Nat) : Nat :=
  ((List.range 32).foldl (fun (x : Nat × Nat) i =>
    ((if a.testBit (31 - i) then x.1 ^^^ x.2 else x.1), crcBit 0x82F63B78 x.2)) (0, b)).1

/-- x^(8·n) modulo that polynomial. -/
def crcShift : Nat → Nat → Nat → Nat
  | 0, _, _ => 0x80000000
  | fuel + 1, n, p => if n = 0 then 0x80000000
    else
      let r := crcShift fuel (n / 2) (crcMul p p)
      if n % 2 = 1 then crcMul p r else r

/-- R132: CRCCAT: the CRC of two runs of bytes one after the other. -/
def crcJoin (a : Word) (b : Word × Nat) : Word := BitVec.ofNat 32 (crcMul (crcShift 40 b.2 0x800000) a.toNat ^^^ b.1.toNat)

def crcJoined : List (Word × Nat) → Word
  | [] => 0
  | x :: r => r.foldl crcJoin x.1

/-- A cell's register as a lane reads it. -/
def cellLane (env : FigEnv) (type v lane : Nat) (second : Bool) : LaneVal :=
  let r := cellRegs env.regs type v
  match type with
  | 0 => accLane (tget {} lane r.acc)
  | 1 =>
    let l : Lv := tget {} lane (if second then r.l1 else r.l0)
    { v := lvPow (lvOf (Config.lvSlack (4096 * env.free + 16 * v + lane)).val l.sum), nf := l.nf }
  | 4 => { v := dyOfNat (if second then (crcJoined r.crc1).toNat else crcOfBytes r.wide r.crc0Len r.crc0) }
  | _ => { v := ⟨0, 0⟩ }

/-- R145: the exact sum of every lane of a run of X cells, rounded once. -/
def runSum (env : FigEnv) (first len : Nat) : LaneVal :=
  let ls := ((List.range len).map fun i => (List.range 16).map fun l => cellLane env 0 (first + i) l false).flatten
  let a := w96 (dySum (ls.map (·.v)))
  { v := a.v, nf := ls.any (·.nf), ovf := a.ovf || ls.any (·.ovf) }

/-- R146: ROWCOUNT. -/
def rowCount (op : OpStart) : Nat := op.len.toNat % 2 ^ 24 / (opCode op + 1)

def oneElem (n : Nat) : List (Option Elem) := [some (.fin (dyOfNat n))]

/-- R146: the elements of a field: those that the trigger's beat fills, and the control fields 12 to 14 of the CU's
OP_START (LEN, operation code, ROWCOUNT), which every trigger of the CU sees. -/
def fieldElems (op : OpStart) (f : Feed) (sel : Nat) : List (Option Elem) :=
  match sel with
  | 12 => oneElem op.len.toNat
  | 13 => oneElem (opCode op)
  | 14 => oneElem (rowCount op)
  | _ => tget [] sel f.elems

/-- R144: a position that the field does not fill contributes nothing. -/
def fieldAt (op : OpStart) (f : Feed) (sel pos : Nat) : Option Elem := (fieldElems op f sel).getD pos none

/-- R131: an element with its scale binding; a NaN or infinite element, or a NaN scale, is NF. A scale specification that
names no scale field of the beat binds nothing (log entry 135). -/
def bound (f : Feed) (scale : Src) (pos : Nat) (e : Elem) : LaneVal :=
  match e with
  | .fin v =>
    match scale with
    | .tap k =>
      match (tget [] k f.scales : List (Option (Option Int))).getD pos none with
      | some (some n) => { v := dyScale n v }
      | some none => { v := ⟨0, 0⟩, nf := true }
      | none => { v := v }
    | _ => { v := v }
  | _ => { v := ⟨0, 0⟩, nf := true }

/-- What a source delivers to slot `e` of a lane; none contributes nothing. -/
def srcLane (env : FigEnv) (f : Feed) (w : CellWord) (src scale : Src) (lane e : Nat) : Option LaneVal :=
  match src with
  | .tap k => (fieldAt env.op f k (lanePos w lane e)).map (bound f scale (lanePos w lane e))
  | .cell type v second => some (cellLane env type v lane second)
  | .run first len => some (runSum env (first + e * len) len)
  | .param i => some { v := ⟨(env.params.getD i 0).toInt, 0⟩ }
  | .imp k => match env.imports.find? (·.1 == k) with
    | some x => (x.2.getD 0 []).getD lane none
    | none => none
  | _ => none

/-- R132: t_e of a lane. -/
def termOf (env : FigEnv) (f : Feed) (w : CellWord) (lane e : Nat) : Option LaneVal :=
  match srcLane env f w (srcOf w.srcA) (srcOf w.scaleA) lane e with
  | none => none
  | some a =>
    match srcOf w.srcB with
    | .absent => some a
    | b => (srcLane env f w b (srcOf w.scaleB) lane e).map fun y =>
        { v := dyMul a.v y.v, nf := a.nf || y.nf, ovf := a.ovf || y.ovf }

def aOf (env : FigEnv) (f : Feed) (w : CellWord) (lane e : Nat) : Option LaneVal :=
  srcLane env f w (srcOf w.srcA) (srcOf w.scaleA) lane e

/-- The slots of a lane that contribute something. -/
def slotsOf (n : Nat) (g : Nat → Option LaneVal) : List LaneVal := (List.range n).filterMap g

/-! ### X cells (R130, R132) -/

/-- R132: the NEG condition. -/
def negated (w : CellWord) (f : Feed) : Bool :=
  match w.neg with
  | 1 => true
  | 2 => f.trigs.contains 1 && f.c0
  | 3 => f.trigs.contains 1 && !f.c0
  | _ => false

/-- Add an exact value to an accumulator and round once. -/
def accAdd (a : Acc) (d : Dy) (nf ovf : Bool) : Acc :=
  let r := w96 (dyAdd a.v d)
  { v := r.v, nf := a.nf || nf, inx := a.inx || r.inx, ovf := a.ovf || r.ovf || ovf }

/-- R130, R132: the exact value of an X operation's expression on one lane, with the NF and OVF that it takes; none where the
lane does not act. MAX compares exactly. -/
def xExact (env : FigEnv) (f : Feed) (w : CellWord) (lane : Nat) (a : Acc) : Option (Dy × Bool × Bool) :=
  let ts := slotsOf w.nelem (termOf env f w lane)
  let as := slotsOf w.nelem (aOf env f w lane)
  let take := fun (old : Acc) (d : Dy) (l : List LaneVal) => some (d, old.nf || l.any (·.nf), old.ovf || l.any (·.ovf))
  let sign := fun (d : Dy) => if negated w f then dyNeg d else d
  let sum := sign (dySum (ts.map (·.v)))
  match w.op with
  | 1 => take a (dyAdd a.v sum) ts
  | 2 => take {} sum ts
  | 3 => take a (dyAdd a.v (dySum (ts.map fun t => dyAbs t.v))) ts
  | 4 => take a (dyAdd a.v (dySum (as.map fun t => dyMul t.v t.v))) as
  | 5 => take a (as.foldl (fun m t => dyMax m t.v) a.v) as
  | 6 => if lanePos w lane 0 = f.row then take a (dyAdd a.v (sign (dySum ((as.take 1).map (·.v))))) (as.take 1) else none
  | _ => none

/-- R129, R130: the exact value is rounded once. SUMT discards what the lane held, its flags with it (log entry 135). -/
def xLane (env : FigEnv) (f : Feed) (w : CellWord) (lane : Nat) (a : Acc) : Acc :=
  match xExact env f w lane a with
  | none => a
  | some (d, nf, ovf) =>
    let r := w96 d
    { v := r.v, nf := nf, inx := (w.op != 2 && a.inx) || r.inx, ovf := ovf || r.ovf }

/-- R160: the residue modulo 255 of a value, in which a shift by s bits counts as a factor of 2^(s mod 8). -/
def residue255 (d : Dy) : Nat := (d.m * 2 ^ (d.e % 8).toNat % 255).toNat

/-- The sum of residues, with its sign. -/
def residueSum (neg : Bool) (l : List Nat) : Nat := if neg then (255 - l.sum % 255) % 255 else l.sum % 255

/-- R160: the residue of t_e, from those of its factors. -/
def termResidue (env : FigEnv) (f : Feed) (w : CellWord) (lane e : Nat) : Option Nat :=
  match srcLane env f w (srcOf w.srcA) (srcOf w.scaleA) lane e with
  | none => none
  | some a =>
    match srcOf w.srcB with
    | .absent => some (residue255 a.v)
    | b => (srcLane env f w b (srcOf w.scaleB) lane e).map fun y => residue255 a.v * residue255 y.v % 255

/-- R160: the residue of an X operation's expression, from those of the accumulator and the operands; MAX takes that of the
operand it selects. -/
def operandResidue (env : FigEnv) (f : Feed) (w : CellWord) (lane : Nat) (a : Acc) (d : Dy) : Nat :=
  let ts := (List.range w.nelem).filterMap (termResidue env f w lane)
  let as := slotsOf w.nelem (aOf env f w lane)
  match w.op with
  | 1 => (residue255 a.v + residueSum (negated w f) ts) % 255
  | 2 => residueSum (negated w f) ts
  | 3 => (residue255 a.v + ((slotsOf w.nelem (termOf env f w lane)).map fun t => residue255 (dyAbs t.v)).sum) % 255
  | 4 => (residue255 a.v + (as.map fun t => residue255 t.v * residue255 t.v).sum) % 255
  | 6 => (residue255 a.v + residueSum (negated w f) ((as.take 1).map fun t => residue255 t.v)) % 255
  | _ => residue255 d

/-- R160: what an X lane reports of an operation whose operands give a residue, and whose exact value is rounded. -/
def residuesOf (operands : Nat) (d : Dy) : Residues :=
  let kept := (w96 d).v
  { operands := operands, exact := residue255 d, kept := residue255 kept, lost := residue255 (dySub d kept) }

/-- R160: the S lane takes the residues of the X lane's operation. -/
def sLane (env : FigEnv) (f : Feed) (w : CellWord) (lane : Nat) (a : Acc) (t : Tab Residues) : Tab Residues :=
  match xExact env f w lane a with
  | none => t
  | some (d, _, _) => tput {} lane (residuesOf (operandResidue env f w lane a d) d) t

/-- R160: the two checks of an S lane: the value that one of them expects and the one that it finds, when they differ. -/
def sCheck (r : Residues) : Option (Nat × Nat) :=
  if r.operands ≠ r.exact then some (r.operands, r.exact)
  else if (r.kept + r.lost) % 255 ≠ r.exact then some (r.exact, (r.kept + r.lost) % 255)
  else none

/-- R160: residues of which one is reported wrong. -/
def wrongResidue (part observed : Nat) (r : Residues) : Residues :=
  match part with
  | 0 => { r with operands := observed % 255 }
  | 1 => { r with exact := observed % 255 }
  | 2 => { r with kept := observed % 255 }
  | _ => { r with lost := observed % 255 }

def xWord (env : FigEnv) (f : Feed) (w : CellWord) (r : Tab CellRegs) : Tab CellRegs :=
  updRegs 0 w.vcell (fun c => { c with
    acc := (List.range 16).foldl (fun t l => tput {} l (xLane env f w l (tget {} l t)) t) c.acc
    residue := (List.range 16).foldl (fun t l => sLane env f w l (tget {} l c.acc) t) c.residue }) r

/-! ### E cells (R133, R169) -/

/-- R133: the head sum of slot `e`: over every position p of the SRCA field with p ≡ e (mod NELEM). A source that is no
field has no positions, and gives zero (log entry 135). -/
def headSum (op : OpStart) (f : Feed) (w : CellWord) (e : Nat) : LaneVal :=
  match srcOf w.srcA with
  | .tap k =>
    let l : List (Option Elem) := fieldElems op f k
    let xs := (List.range l.length).filterMap fun p =>
      if p % w.nelem = e % w.nelem then (l.getD p none).map (bound f (srcOf w.scaleA) p) else none
    { v := dySum (xs.map fun x => dyAbs x.v), nf := xs.any (·.nf) }
  | _ => { v := ⟨0, 0⟩ }

def lvAdd (l : Lv) (d : Dy) (nf : Bool) : Lv := { sum := dyAdd l.sum d, nf := l.nf || nf }

def envWord (env : FigEnv) (f : Feed) (w : CellWord) (r : Tab CellRegs) : Tab CellRegs :=
  let heads := (List.range w.nelem).map (headSum env.op f w)
  updRegs 1 w.vcell (fun c => { c with l0 := (List.range 16).foldl (fun t l =>
    let xs := (List.range w.nelem).filterMap fun e => (srcLane env f w (srcOf w.srcB) (srcOf w.scaleB) l e).map fun b =>
      let h := heads.getD e { v := ⟨0, 0⟩ }
      ({ v := dyMul h.v (dyAbs b.v), nf := h.nf || b.nf } : LaneVal)
    tput {} l (lvAdd (tget {} l t) (dySum (xs.map (·.v))) (xs.any (·.nf))) t) c.l0 }) r

/-- R132, R155: MAG takes the rows of C, not those of C0 (log entry 16). -/
def magWord (env : FigEnv) (f : Feed) (w : CellWord) (r : Tab CellRegs) : Tab CellRegs :=
  if f.trigs.contains 1 ∧ f.c0 then r
  else updRegs 1 w.vcell (fun c => { c with l1 := (List.range 16).foldl (fun t l =>
    let xs := slotsOf w.nelem (aOf env f w l)
    tput {} l (lvAdd (tget {} l t) (dySum (xs.map fun x => dyAbs x.v)) (xs.any (·.nf))) t) c.l1 }) r

/-- R169: the case of an output: 0 FP32 or INT32, 1 BF16 under RNE, 2 BF16 under SR. -/
def outCase (op : OpStart) : Nat :=
  if op.mode.toNat % 16 = 5 then (if bits op.mode.toNat 5 4 = 1 then 2 else 1) else 0

def hasC0 (op : OpStart) : Bool := bit op.extra.toNat 3

/-- n = K/32 (R133). -/
def blocksOf (op : OpStart) : Nat := op.len.toNat / 32

/-- R169: the band of a lane, before the excess that R167 allows. -/
def bandExact (env : FigEnv) (p : Nat) (l0 l1 : Dy) : Dy :=
  let w0 := (env.params.getD p 0).toNat
  let c := hasC0 env.op
  let w := (env.params.getD (p + 1 + 2 * outCase env.op + b2n c) 0).toNat
  let a0 := signedOf 32 (bits w0 31 0) + (if c then (bits w0 47 32 : Int) else 0)
  let n := if bit w0 63 then dyOfNat (blocksOf env.op) else dyOfNat 1
  dyAdd (dyAdd (dyMul (dyMul (lvPow a0) n) l0) (dyMul (lvPow (signedOf 32 (bits w 31 0))) l1)) (lvPow (signedOf 32 (bits w 63 32)))

/-- R133, R167: BAND, above its expression by what the free value says. -/
def bandWord (env : FigEnv) (w : CellWord) (r : Tab CellRegs) : Tab CellRegs :=
  updRegs 1 w.vcell (fun c => { c with band := (List.range 16).foldl (fun t l =>
    let a : Lv := tget {} l c.l0
    let b : Lv := tget {} l c.l1
    let k := (Config.bandSlack (4096 * env.free + 16 * w.vcell + l)).val
    let x := w96By .away (dyMul (bandExact env w.param a.sum b.sum) ⟨((2 ^ 21 + k : Nat) : Int), -21⟩)
    tput {} l { x with nf := a.nf || b.nf, inx := false } t) c.band }) r

/-! ### T cells (R134, R135, R177 to R180) -/

/-- R179, R180: the coarse band. -/
def coarseBand (env : FigEnv) (p : Nat) : Dy :=
  let w := (env.params.getD p 0).toNat
  let op := env.op
  if bit w 63 ∨ op.mode.toNat % 16 = 8 then ⟨0, 0⟩
  else
    let er := match outCase op with
      | 0 => signedOf 8 (bits w 23 16)
      | 1 => signedOf 8 (bits w 31 24)
      | _ => signedOf 8 (bits w 39 32)
    let ec := signedOf 8 (bits w 47 40)
    let ea := signedOf 8 (bits w 55 48)
    let n := blocksOf op
    let fa := op.fmt.toNat % 16
    let fb := op.fmt.toNat / 16
    let sc := fun (f x : Nat) => (⟨1, if fmtIsMx f then (x : Int) - 127 else 0⟩ : Dy)
    let prod := dyMul (dyMul (fmtMax fa) (fmtMax fb)) (dyMul (sc fa env.maxA) (sc fb env.maxB))
    let c0t := if hasC0 op then (⟨128, ec⟩ : Dy) else ⟨0, 0⟩
    dyAdd (dyScale er (dyMul (dyOfNat n) (dyAdd (dyMul (dyOfNat (4096 * n)) prod) c0t))) ⟨1, ea⟩

/-- R134, R144: a source of a T cell at a sweep step: lane l of the s-th cell from the one that it names, or the field
position of lane l, slot s. -/
def sweepLane (env : FigEnv) (f : Feed) (w : CellWord) (base : Nat) (src scale : Src) (s lane : Nat) : Option LaneVal :=
  match src with
  | .cell type v second => some (cellLane env type (v + s) lane second)
  | .run first len => some (runSum env (first + s * len) len)
  | .param i => some { v := ⟨(env.params.getD i 0).toInt, 0⟩ }
  | .imp k => match env.imports.find? (·.1 == k) with
    | some x => (x.2.getD (base + s) []).getD lane none
    | none => none
  | .tap k => (fieldAt env.op f k (lanePos w lane s)).map (bound f scale (lanePos w lane s))
  | _ => none

/-- Cells that the T cells of lower number have swept of the same import (log entry 17). -/
def importBase (ws : List CellWord) (w : CellWord) (src : BitVec 12) : Nat :=
  (ws.filter fun x => x.type == 2 && x.op != 0 && decide (x.vcell < w.vcell) && (x.srcA == src || x.srcB == src || x.srcC == src)).foldl
    (fun n x => n + x.nelem) 0

/-- R135: the band of a lane: an import, a CELL with its exponent, or the coarse band, which also serves a TAP, RUN or
PARAM in the place of the band (log entry 135). -/
def bandLane (env : FigEnv) (f : Feed) (ws : List CellWord) (w : CellWord) (s lane : Nat) : Dy :=
  match srcOf w.srcC with
  | .imp _ =>
    match sweepLane env f w (importBase ws w w.srcC) (srcOf w.srcC) .absent s lane with
    | some x => if x.nf then coarseBand env w.param else x.v
    | none => coarseBand env w.param
  | .cell type v second =>
    let x := cellLane env type (v + s) lane second
    if x.nf then coarseBand env w.param
    else dyScale (signedOf 16 (bits (env.params.getD w.param 0).toNat 15 0)) x.v
  | _ => coarseBand env w.param

/-- R135: the result of a lane: 1 EXEMPT, 2 PASS, 3 FAIL. -/
def cmpbCode (env : FigEnv) (w : CellWord) (p r : LaneVal) (band d : Dy) : Nat :=
  if p.nf ∨ p.ovf ∨ r.ovf then 1
  else if r.nf then
    let t : Dy := ⟨1, signedOf 16 (bits (env.params.getD (w.param + 1) 0).toNat 15 0)⟩
    if dyLe t (dyAdd (dyAbs p.v) band) then 2 else 3
  else if dyLe (dyAbs d) band then 2 else 3

/-- R132: CMPEQ: equal in every bit of the W96 form, which a value has once only. NF on either side gives EXEMPT (log entry 135),
and so does FG-MOV once a WRITE_DONE lacked a valid CRC (R155). -/
def cmpeqCode (env : FigEnv) (p r : LaneVal) : Nat :=
  if !env.writesValid ∨ p.nf ∨ r.nf then 1 else if (w96 p.v).v = (w96 r.v).v then 2 else 3

/-- R132, R147: a parameter word that CMPEQ reads is the 64 bits that a CRC register holds. -/
def eqSource (env : FigEnv) (src : Src) (x : Option LaneVal) : Option LaneVal :=
  match src with
  | .param i => some { v := dyOfNat (env.params.getD i 0).toNat }
  | _ => x

/-- A T cell's word at one lane of one step. A word that triggers more than once in a CU keeps its latest result (log
entry 135). -/
def tLane (env : FigEnv) (f : Feed) (ws : List CellWord) (w : CellWord) (s lane : Nat) (c : CellRegs) : CellRegs :=
  let side := fun (src scale : BitVec 12) =>
    let x := sweepLane env f w (importBase ws w src) (srcOf src) (srcOf scale) s lane
    if w.op = 2 then eqSource env (srcOf src) x else x
  match side w.srcA w.scaleA, side w.srcB w.scaleB with
  | some p, some r =>
    let b := if w.op = 1 then bandLane env f ws w s lane else ⟨0, 0⟩
    let d := (w96By .away (dySub p.v r.v)).v
    let code := if w.op = 1 then cmpbCode env w p r b d else cmpeqCode env p r
    let bad := p.nf || r.nf
    let q : Quantity := { p := p.v, r := r.v, b := if bad then ⟨-1, 0⟩ else b, m := ⟨0, 0⟩ }
    { c with res := tput 0 (16 * s + lane) code c.res, evid := tset (16 * s + lane) q c.evid
             acc := tput {} (16 * s + lane) { v := d, nf := bad } c.acc }
  | _, _ => { c with res := tput 0 (16 * s + lane) 1 c.res }

def tWord (env : FigEnv) (f : Feed) (ws : List CellWord) (w : CellWord) (r : Tab CellRegs) : Tab CellRegs :=
  updRegs 2 w.vcell (fun c => (List.range w.nelem).foldl (fun c s => (List.range 16).foldl (fun c l => tLane env f ws w s l c) c) c) r

/-! ### N and C cells (R136, R137) -/

/-- FP32 bits of a magnitude. -/
def fp32Bits (d : Dy) : Nat :=
  if d.m = 0 then 0
  else
    let m := d.m.natAbs
    let top := dyTop d
    if Nat.log2 m > 23 ∧ m % 2 ^ (Nat.log2 m - 23) ≠ 0 then (Config.amaxInt (dyAt (dyAbs d) 0).toNat).toNat
    else
      let e : Int := max top (-126)
      let frac := (dyAt (dyAbs d) (e - 23)).toNat
      let frac := if d.e < e - 23 then m / 2 ^ (e - 23 - d.e).toNat else frac
      if frac < 2 ^ 23 then frac else (e + 127).toNat * 2 ^ 23 + frac % 2 ^ 23

/-- R136: one element of a stored format. -/
def censusElem (fmt code : Nat) (c : Census) : Census :=
  match decodeElem fmt code with
  | .fin v =>
    let m := dyAbs v
    { c with
      zeros := if v.m = 0 then c.zeros + 1 else c.zeros
      sats := if dyLe (fmtSat fmt) m && dyLe m (fmtSat fmt) then c.sats + 1 else c.sats
      amax := max c.amax (fp32Bits m) }
  | .nan | .inf _ => { c with nonfinite := c.nonfinite + 1 }

/-- R136: the elements of a lane's slots join its counts. -/
def censusLane (w : CellWord) (fmt : Nat) (cs : List (Option Nat)) (t : Tab Census) (l : Nat) : Tab Census :=
  tput {} l ((List.range w.nelem).foldl (fun z e =>
    match cs.getD (lanePos w l e) none with
    | some x => censusElem fmt x z
    | none => z) (tget {} l t)) t

/-- R132, R136: CENSUS by lane, of results and not of C0 rows (log entry 16); of the elements of a field (log entry 135). -/
def censusWord (f : Feed) (w : CellWord) (r : Tab CellRegs) : Tab CellRegs :=
  match srcOf w.srcA with
  | .tap k =>
    if f.trigs.contains 1 ∧ f.c0 then r
    else
      match tfind k f.codes with
      | none => r
      | some (fmt, cs) =>
        updRegs 3 w.vcell (fun c => { c with counts := (List.range 16).foldl (censusLane w fmt cs) c.counts }) r
  | _ => r

/-- R137: bytes folded in at their position, within a length taken from LEN. -/
def foldBytes (len : Nat) : List (Nat × List Byte) → Tab Byte → Tab Byte
  | [], t => t
  | (pos, bs) :: r, t => foldBytes len r (tputs 0 pos (bs.take (len - pos)) t)

/-- Bytes that LEN gives a CU for each of its sources (R103); a CRC over a vector source or result runs over the sectors
that LEN names (log entry 135). -/
def lenBytes (op : OpStart) : Nat :=
  if 2 ≤ op.queue.val then op.len.toNat else 64 * (op.len.toNat % 2 ^ 24)

/-- R132, R137: the CRC operations, of a field's bytes (log entry 135). -/
def crcWord (f : Feed) (op : OpStart) (w : CellWord) (r : Tab CellRegs) : Tab CellRegs :=
  match w.op, srcOf w.srcA with
  | 3, .tap 11 =>
    match f.wdone with
    | some x => updRegs 4 w.vcell (fun c => { c with crc1 := c.crc1 ++ [x] }) r
    | none => r
  | 3, _ => r
  | _, .tap k =>
    let len := lenBytes op
    updRegs 4 w.vcell (fun c => { c with
      wide := decide (w.op = 2), crc0Len := len, crc0 := foldBytes len (tget [] k f.bytes) c.crc0 }) r
  | _, _ => r

/-! ### Figures -/

/-- R140: a word acts at a trigger; on a BEAT only when the beat carries its SRCA field; one whose SRCA is no field goes by
its SRCB field, and else acts on the beats that carry field 0 (log entry 135). -/
def fires (f : Feed) (w : CellWord) : Bool :=
  f.trigs.contains w.trig && w.op != 0 &&
  (w.trig != 0 ||
    match srcOf w.srcA with
    | .tap k => (tfind k f.elems).isSome || (tfind k f.bytes).isSome
    | _ =>
      match srcOf w.srcB with
      | .tap k => (tfind k f.elems).isSome
      | _ => (tfind 0 f.elems).isSome)

/-- The X, E and C cells that a source reads. -/
def readsCell (src : Src) (n type v : Nat) : Bool :=
  match src with
  | .cell t c _ => t == type && decide (c ≤ v) && decide (v < c + n)
  | .run first len => type == 0 && decide (first ≤ v) && decide (v < first + n * len)
  | _ => false

/-- A word reads a cell that another word writes. -/
def readsFrom (w x : CellWord) : Bool :=
  let n := if w.type = 2 then w.nelem else 1
  let m := w.nelem
  readsCell (srcOf w.srcA) (if w.type = 2 then n else m) x.type x.vcell || readsCell (srcOf w.srcB) (if w.type = 2 then n else m) x.type x.vcell ||
  readsCell (srcOf w.srcC) n x.type x.vcell

/-- R141: words in an order in which each follows those whose results it reads. -/
def inOrder : Nat → List CellWord → List CellWord
  | 0, ws => ws
  | fuel + 1, ws =>
    let ready := ws.filter fun w => !ws.any fun x => decide (x ≠ w) && (x.type != w.type || x.vcell != w.vcell) && readsFrom w x
    if ready = [] then ws else ready ++ inOrder fuel (ws.filter fun w => !ready.contains w)

/-- One word acts. -/
def doWord (env : FigEnv) (ws : List CellWord) (f : Feed) (w : CellWord) (r : Tab CellRegs) : Tab CellRegs :=
  let env := { env with regs := r }
  match w.type, w.op with
  | 0, _ => xWord env f w r
  | 1, 1 => envWord env f w r
  | 1, 2 => magWord env f w r
  | 1, 3 => bandWord env w r
  | 2, _ => tWord env f ws w r
  | 3, _ => censusWord f w r
  | 4, _ => crcWord f env.op w r
  | _, _ => r

/-- A figure acts on a trigger. -/
def runFigure (env : FigEnv) (fig : Figure) (f : Feed) : Tab CellRegs :=
  let ws := fig.cells.filter (fires f)
  (inOrder ws.length ws).foldl (fun r w => doWord env fig.cells f w r) env.regs

/-- The figures that select their operation by its code: FG-RED, FG-SMX, FG-AFF (log entry 18). -/
def selectsByCode (fig : Figure) : Bool := fig.id == 4 || fig.id == 5 || fig.id == 6

/-- R138: cells with a CLR word are cleared at START, and all of a figure that selects by code. -/
def clearedRegs (fig : Figure) (r : Tab CellRegs) : Tab CellRegs :=
  if selectsByCode fig then [] else fig.cells.foldl (fun r w => if w.clr then tdel (cellKey w.type w.vcell) r else r) r

/-! ### The library's vector figures (R155, R182) -/

/-- Elements of a field with NF apart. -/
def fieldVals (f : Feed) (k : Nat) : List LaneVal :=
  ((tget [] k f.elems : List (Option Elem)).filterMap id).map (bound f .absent 0)

/-- The elements of a field's sectors at the byte positions that another field of the beat carries too, in its order. -/
def sharedElems (f : Feed) (i j : Nat) : List Elem :=
  let other : List (Nat × List Byte) := tget [] j f.bytes
  let mine : List (Nat × List Byte) := tget [] i f.bytes
  let fmt : Nat := ((tfind i f.codes).map (·.1)).getD 0
  let low := if i ≤ j then mine else other
  let bytes := (low.filterMap fun x =>
    if other.any fun y => y.1 == x.1 then (mine.find? fun y => y.1 == x.1).map (·.2) else none).flatten
  (elemsOf fmt bytes).map (decodeElem fmt)

/-- R155: products of two fields, paired by the shared sector offset. -/
def fieldProducts (f : Feed) (i j : Nat) : List LaneVal :=
  ((sharedElems f i j).zip (sharedElems f j i)).map fun x =>
    let a := bound f .absent 0 x.1
    let b := bound f .absent 0 x.2
    { v := dyMul a.v b.v, nf := a.nf || b.nf }

/-- Add the values of a beat to accumulator `v` of the figure: X cells 0 the prediction, 1 the result, 2 the band; FG-SMX, whose
prediction is ROWCOUNT, has the result in 0 and the band in 1 (log entry 18). -/
def addVals (v : Nat) (g : Dy → Dy) (l : List LaneVal) (r : Tab CellRegs) : Tab CellRegs :=
  if l = [] then r
  else updRegs 0 v (fun c =>
    let a : Acc := tget {} 0 c.acc
    let d := dyAdd a.v (dySum (l.map fun x => g x.v))
    { c with acc := tput {} 0 (accAdd a (dySum (l.map fun x => g x.v)) (l.any (·.nf)) false) c.acc
             residue := tput {} 0 (residuesOf ((residue255 a.v + (l.map fun x => residue255 (g x.v)).sum) % 255) d) c.residue }) r

/-- Running maximum, or minimum, of the values of the beats so far. -/
def extreme (v : Nat) (mini : Bool) (l : List LaneVal) (r : Tab CellRegs) : Tab CellRegs :=
  if l = [] then r
  else updRegs 0 v (fun c =>
    let l := if mini then l.map fun x => { x with v := dyNeg x.v } else l
    let old : Option Acc := tfind 0 c.acc
    let start := (old.map fun a => if mini then dyNeg a.v else a.v).getD ((l.map (·.v)).headD ⟨0, 0⟩)
    let m := l.foldl (fun m x => dyMax m x.v) start
    let d := if mini then dyNeg m else m
    { c with acc := tset 0 { v := (w96 d).v, nf := ((old.map (·.nf)).getD false) || l.any (·.nf) } c.acc
             residue := tput {} 0 (residuesOf (residue255 d) d) c.residue }) r

/-- R155, R182: one beat of a CU under a figure that selects by code. -/
def codeBeat (fig : Figure) (op : OpStart) (f : Feed) (r : Tab CellRegs) : Tab CellRegs :=
  let out := fieldVals f 9
  let x := fieldVals f 6
  let y := fieldVals f 7
  match fig.id, opCode op with
  | 4, 0 => addVals 1 id out (addVals 2 dyAbs x (addVals 0 id x r))
  | 4, 1 => extreme 1 false out (extreme 0 false x r)
  | 4, 2 => extreme 1 true out (extreme 0 true x r)
  | 4, 3 => addVals 1 id out (addVals 2 (fun v => dyMul v v) x (addVals 0 (fun v => dyMul v v) x r))
  | 5, 0 => addVals 0 id out (addVals 1 dyAbs out r)
  | 6, 0 => addVals 1 id out (addVals 2 dyAbs y (addVals 2 dyAbs x (addVals 0 id y (addVals 0 id x r))))
  | 6, 1 => addVals 1 id out (addVals 2 dyAbs y (addVals 2 dyAbs x (addVals 0 dyNeg y (addVals 0 id x r))))
  | 6, 2 => addVals 1 id out (addVals 2 dyAbs (fieldProducts f 6 7) (addVals 0 id (fieldProducts f 6 7) r))
  | 6, 3 =>
    let p := fieldProducts f 6 7
    let w := fieldVals f 8
    addVals 1 id out (addVals 2 dyAbs w (addVals 2 dyAbs p (addVals 0 id w (addVals 0 id p r))))
  | _, _ => r

/-- The CMPB word of a figure, from which its comparison takes SHIFT, ZERO and the threshold (R178, R180). -/
def cmpbWord (fig : Figure) : Option CellWord := fig.cells.find? fun w => w.type == 2 && w.op == 1

/-- R155: the operation codes that such a figure lists. -/
def codeListed (fig : Figure) (op : OpStart) : Bool :=
  (fig.id == 4 && decide (opCode op ≤ 3)) || (fig.id == 5 && opCode op == 0) || (fig.id == 6 && decide (opCode op ≤ 3))

/-- R135, R155, R182: the comparison of such a figure at RETIRE: the band is the X cell of magnitudes, of the finite ones alone
(log entry 61), scaled by SHIFT of the image's CMPB word, or zero under MAX and MIN; a code that it does not list gives NONE. -/
def codeRetire (env : FigEnv) (fig : Figure) (r : Tab CellRegs) : Tab CellRegs :=
  let op := env.op
  match cmpbWord fig with
  | some w =>
    if codeListed fig op then
      let acc := fun v => accLane (tget {} 0 (cellRegs r 0 v).acc)
      let p : LaneVal := if fig.id = 5 then { v := dyOfNat (rowCount op) } else acc 0
      let x := acc (if fig.id = 5 then 0 else 1)
      let m := acc (if fig.id = 5 then 1 else 2)
      let zero := fig.id == 4 && (opCode op == 1 || opCode op == 2)
      let word := (env.params.getD w.param 0).toNat
      let b := if zero then (⟨0, 0⟩ : Dy) else dyScale (signedOf 16 (bits word 15 0)) m.v
      let d := (w96By .away (dySub p.v x.v)).v
      let code := cmpbCode env w p x b d
      let bad := p.nf || x.nf
      let q : Quantity := { p := p.v, r := x.v, b := if bad then ⟨-1, 0⟩ else b, m := ⟨0, 0⟩ }
      updRegs 2 0 (fun c => { c with res := tset 0 code c.res, evid := tset 0 q c.evid }) r
    else updRegs 2 0 (fun c => { c with res := [], evid := [] }) r
  | none => updRegs 2 0 (fun c => { c with res := [], evid := [] }) r

/-- A figure acts on a trigger, by its words or by its code. -/
def figureActs (env : FigEnv) (fig : Figure) (f : Feed) : Tab CellRegs :=
  if selectsByCode fig then
    let r := if f.trigs.contains 0 then codeBeat fig env.op f env.regs else env.regs
    if f.trigs.contains 4 then codeRetire env fig r else r
  else runFigure env fig f

/-! ### Outcomes (R153, R154) -/

/-- R153: the T cells of a figure, in ascending order. -/
def tCells (fig : Figure) : List Nat :=
  if selectsByCode fig then [0]
  else (List.range 4).filter fun v => fig.cells.any fun w => w.type == 2 && w.vcell == v && w.op != 0

def tResults (fig : Figure) (r : Tab CellRegs) : List (Nat × Nat) :=
  ((tCells fig).map fun v => (cellRegs r 2 v).res.map fun x => (tBase fig.cells v + x.1, x.2)).flatten

/-- R147: the figure has an output of a kind: 1 VERDICT, 2 EXPORT, 3 CENSUS, 4 MACS, 5 BYTES. -/
def hasOutput (fig : Figure) (kind : Nat) : Bool := fig.outs.any (·.kind == kind)

/-- R153: 1 NONE, 2 PASS, 3 FAIL. -/
def figOutcome (fig : Figure) (r : Tab CellRegs) : Nat :=
  if !hasOutput fig 1 then 1
  else
    let l := (tResults fig r).map (·.2)
    if l.any (· == 3) then 3 else if l.any (· == 2) then 2 else 1

/-- The failing lanes, by global index. -/
def failingLanes (fig : Figure) (r : Tab CellRegs) : List Nat :=
  ((tResults fig r).filter (·.2 == 3)).map (·.1)

/-- R235: the evidence: prediction, result, band and checker margin (R172) of every lane that was compared. -/
def figEvidence (fig : Figure) (margin : Nat → Dy) (r : Tab CellRegs) : List Quantity :=
  ((tCells fig).map fun v =>
    let c := cellRegs r 2 v
    (c.evid.filter fun x => decide (2 ≤ tget 0 x.1 c.res)).map fun x =>
      { x.2 with b := if x.2.b.m < 0 then ⟨0, 0⟩ else x.2.b, m := margin (tBase fig.cells v + x.1) }).flatten

/-- R154: log2(|d|/B) in Q8.8, truncated, and 0x7FFF where it is not finite. -/
def logRatio (q : Quantity) : Nat :=
  let d := dyAbs ((w96By .away (dySub q.p q.r)).v)
  if q.b.m ≤ 0 ∨ d.m = 0 then 0x7FFF
  else
    let e := min d.e q.b.e
    let num := (dyAt d e).toNat ^ 256
    let den := (dyAt q.b e).toNat ^ 256
    min 0x7FFF (Nat.log2 (num / den))

/-- R154: the ratio of the first failing lane. -/
def firstRatio (fig : Figure) (r : Tab CellRegs) : Nat :=
  let all := ((tCells fig).map fun v =>
    let c := cellRegs r 2 v
    (c.res.filter (·.2 == 3)).map fun x => (tfind x.1 c.evid).map logRatio).flatten
  ((all.headD none).getD 0x7FFF)

/-- R156: the sum of two census entries. -/
def addCensus (a b : Census) : Census :=
  { zeros := satAdd 0xFFFFFFFF a.zeros b.zeros, sats := satAdd 0xFFFFFFFF a.sats b.sats
    nonfinite := satAdd 0xFFFFFFFF a.nonfinite b.nonfinite, amax := max a.amax b.amax }

/-- R136, R147, R158: the census results of a figure: those of the N cells that its CENSUS outputs name. -/
def figCensus (fig : Figure) (r : Tab CellRegs) : Option Census :=
  if hasOutput fig 3 then
    some ((((fig.outs.filter fun o => o.kind == 3 && o.type == 3).map (·.vcell)).eraseDups).foldl (fun a v =>
      (cellRegs r 3 v).counts.foldl (fun a l => addCensus a l.2) a) {})
  else none

/-! ### Exports (R145, R147) -/

/-- The value of a cell that a figure exports: of a T cell its W96 register; an N cell has counts and no value (log entry 135). -/
def exportLane (r : Tab CellRegs) (o : OutDesc) (step lane : Nat) : Option LaneVal :=
  let c := cellRegs r o.type (o.vcell + step)
  match o.type with
  | 0 => some (accLane (tget {} lane c.acc))
  | 1 => some (accLane (tget {} lane c.band))
  | 2 => some (accLane (tget {} (16 * step + lane) (cellRegs r 2 o.vcell).acc))
  | 4 => some { v := dyOfNat (crcOfBytes c.wide c.crc0Len c.crc0) }
  | _ => none

def exportsOf (fig : Figure) (r : Tab CellRegs) : List (Nat × List (List (Option LaneVal))) :=
  (fig.outs.filter (·.kind == 2)).map fun o =>
    (o.index, (List.range 8).map fun st => (List.range 16).map fun l => exportLane r o st l)

end Sys2Proof.Machine
end

