-- ==== Sys2Proof/Machine/Verdicts.lean ====
section
/-! DEFINITION. How a station's figures run for a CU, the verdict unit (R185 to R191), the census unit (R156, R158), and self-check (R160 to R162). -/

namespace Sys2Proof.Machine

/-! ### Figures of a CU -/

/-- The operation of a list that another stands for: a CU's tag and start time name it (R109), and an inserted operation's
queue and start time. -/
def sameCu (u x : Cu) : Bool :=
  x.inserted == u.inserted && x.tag == u.tag && x.start == u.start && x.op.queue == u.op.queue

/-- R138: the bank of a figure slot that a CU's OPID selects. -/
def isBank (u : Cu) (slot : Nat) (b : LatticeBank) : Bool :=
  b.slot == slot && b.queue == u.op.queue.val && b.bank == u.op.opid.toNat % 4

def bankRegs (t : Station) (u : Cu) (slot : Nat) : Tab CellRegs := ((t.banks.find? (isBank u slot)).map (·.regs)).getD []

/-- A figure acts for a CU unless its bank was busy at the start (R139) or a cell of it is lost (R149). -/
def figureRuns (t : Station) (u : Cu) (slot : Nat) : Bool :=
  u.attached.contains slot && !u.busy.contains slot && !((tfind slot t.slots).map (·.broken)).getD true

/-- The FIG_ID in a slot, or 0. -/
def slotFig (t : Station) (slot : Nat) : Nat := ((tfind slot t.slots).map (·.fig.id)).getD 0

/-- The FIG_ID that the figure of a slot imports, or 0. -/
def slotImport (t : Station) (slot : Nat) : Nat := ((tfind slot t.slots).map (·.fig.imports)).getD 0

/-- The slots of a CU's figures, each after the one that it imports. -/
def runOrder (t : Station) : Nat → List Nat → List Nat
  | 0, l => l
  | n + 1, l =>
    let ready := l.filter fun i => !l.any fun j => j != i && slotImport t i != 0 && slotFig t j == slotImport t i
    if ready = [] then l else ready ++ runOrder t n (l.filter fun i => !ready.contains i)

/-- R145: what the figure of a slot may import: the exports of an attached figure. -/
def importsOf (t : Station) (u : Cu) (slot : Nat) : List (Nat × List (List (Option LaneVal))) :=
  if slotImport t slot = 0 then []
  else
    match u.attached.find? fun j => slotFig t j == slotImport t slot && figureRuns t u j with
    | none => []
    | some j =>
      match tfind j t.slots with
      | some x => exportsOf x.fig (bankRegs t u j)
      | none => []

/-- The figure of a slot acts on a trigger of a CU. -/
def runSlot (free : Nat) (f : Feed) (u : Cu) (t : Station) (slot : Nat) : Station :=
  match tfind slot t.slots with
  | none => t
  | some x =>
    let env : FigEnv := {
      regs := bankRegs t u slot, params := x.fig.params, imports := importsOf t u slot, op := u.op, maxA := u.maxA, maxB := u.maxB
      writesValid := x.fig.id != 7 || (u.writes.all (fun w => w.2.1) && !u.itemDropped), free := free }
    let r := figureActs env x.fig f
    { t with banks := t.banks.map fun b => if isBank u slot b then { b with regs := r } else b }

/-- R140, R141: every figure of a CU acts on a trigger; the trigger takes one free value (log entry 3). -/
def runFigs (c : Nat) (u : Cu) (f : Feed) (s : State) : State :=
  let t := station s c
  match runOrder t 4 (u.attached.filter (figureRuns t u)) with
  | [] => s
  | slots =>
    let x := fresh s
    updStation c (fun t => slots.foldl (runSlot x.1 f u) t) x.2

/-- R153: the outcome of a slot's figure: 1 NONE, 2 PASS, 3 FAIL. -/
def outcomeOf (t : Station) (u : Cu) (slot : Nat) : Nat :=
  match tfind slot t.slots with
  | some x => if figureRuns t u slot then figOutcome x.fig (bankRegs t u slot) else 1
  | none => 1

def outcomesOf (t : Station) (u : Cu) : List (Nat × Nat) := u.attached.map fun i => (i, outcomeOf t u i)

/-- Outcomes while figures are outstanding: none of them has given one (R189, R190). -/
def outstanding (u : Cu) : List (Nat × Nat) := u.attached.map fun i => (i, 1)

/-! ### The verdict (R186, R187) -/

/-- R186: the verdict, and the reason of a WAIVED one. -/
def verdictKind (u : Cu) (outs : List (Nat × Nat)) : Nat × Nat :=
  if u.poison then (2, 0)
  else if u.gap ≠ 0 then (3, 3)
  else if u.waive ≠ 0 then (3, u.waive)
  else if outs.any (·.2 == 3) || u.forced != 0 then (1, 0)
  else if outs.any (·.2 == 2) then (0, 0)
  else (3, if u.busy != [] then 7 else 6)

/-- R191: the verdict record. -/
def verdictRecord (u : Cu) (k : Nat × Nat) (outs : List (Nat × Nat)) (cycles : Nat) : VRec :=
  { tag := u.tag, retireLo := BitVec.ofNat 32 (u.retire.getD 0)
    kind := BitVec.ofNat 8 (k.1 + 4 * u.op.queue.val + 16 * k.2 + 128 * b2n u.late)
    disp := if k.1 = 1 then 1 else 0
    figs := BitVec.ofNat 8 (outs.foldl (fun n x => n + x.2 * 4 ^ x.1) 0)
    epoch := BitVec.ofNat 16 u.epoch.toNat, latency := BitVec.ofNat 16 (min 0xFFFF cycles) }

/-- R191, R435: the record goes to PHL_ST_VHIST and to trace. -/
def recordVerdict (c : Nat) (u : Cu) (k : Nat × Nat) (outs : List (Nat × Nat)) (cycles : Nat) (s : State) : State :=
  let r := verdictRecord u k outs cycles
  let s := updStation c (fun t => { t with vhist := tput {} (vhistIndex u.tag) r t.vhist }) s
  if traceCore s c then traceRec 0x03 (srcStation c) (stampOf s (srcStation c)) 1 (vrecBytes r) s else s

/-- The low 16 bits of a CU's epoch. -/
def epoch16 (u : Cu) : Nat := u.epoch.toNat % 65536

/-! ### The census unit (R136, R156, R158) -/

/-- R159: the numerics entry of a context in the charter in force. -/
def numericsOf (s : State) (ctx : Nat) : Option NumEntry := s.cfg.active.bind fun ch => ch.numerics.find? fun e => e.ctx.toNat == ctx

/-- The census of one CU, if a census figure ran for it. -/
def cuCensus (t : Station) (u : Cu) : Option Census :=
  (u.attached.filter (figureRuns t u)).foldl (fun a i =>
    match (tfind i t.slots).bind fun x => figCensus x.fig (bankRegs t u i) with
    | some z => some (addCensus (a.getD {}) z)
    | none => a) none

/-- R158: the cause of an overflow and its count: 1 non-finite, 2 saturation. -/
def overflowOf (u : Cu) (thresh : Nat) (z : Census) : Option (Nat × Nat) :=
  if z.nonfinite ≠ 0 ∧ !u.inputNf then some (1, z.nonfinite)
  else if thresh ≠ 0 ∧ thresh < z.sats then some (2, z.sats)
  else none

/-- R158: the numerics object is signalled: ADD 1 in COUNT mode, SET in FLAG mode. -/
def signalNumerics (ctx : Nat) (s : State) : State :=
  match numericsOf s ctx with
  | some e =>
    if e.signal then (actOn e.object (if (object s e.object).count then 3 else 1) 1 (callerParty s) s.now s).2 else s
  | none => s

/-- R156, R158: a CU's census results reach the table of its step. -/
def takeCensus (c : Nat) (u : Cu) (s : State) : State :=
  match cuCensus (station s c) u with
  | none => s
  | some z =>
    let key := 4096 * u.step + u.op.ttag.toNat % 4096
    let s := updStation c (fun t => { t with census := tput {} key (addCensus (tget {} key t.census) z) t.census }) s
    let thresh := ((numericsOf s u.ctx.toNat).map (·.satThresh)).getD 0
    match overflowOf u thresh z with
    | none => s
    | some (cause, n) =>
      signalNumerics u.ctx.toNat
        (occur 0xB001 (srcStation c) u.tag.toNat (u.op.ttag.toNat % 4096 + 4096 * cause) (min 0xFFFFFFFF n) s)

/-! ### What a verdict does -/

/-- R155: the BYTES output of a transfer: the bytes whose WRITE_DONE has a valid CRC. -/
def bytesChecked (u : Cu) : Nat := ((u.writes.filter (·.2.1)).map (·.2.2)).sum

/-- R260: checked work: MACS and BYTES outputs, and vector CUs checked by figure only. -/
def countChecked (c : Nat) (u : Cu) (s : State) : State :=
  let t := station s c
  let has := fun (kind : Nat) => (u.attached.filter (figureRuns t u)).any fun i => ((tfind i t.slots).map fun x => hasOutput x.fig kind).getD false
  match u.op.queue.val with
  | 0 => if has 4 then updLed (fun l => { l with mc := satAdd (2 ^ 64 - 1) l.mc (16384 * u.op.len.toNat) }) s else s
  | 1 =>
    match capsuleOf s c u.tag with
    | some k =>
      match k.verdict with
      | none => updCapsule c u.tag (fun k => { k with checked := true }) s
      | some v => if v ≤ 1 then s else updLed (fun l => { l with vf := satAdd 0xFFFFFFFF l.vf 1 }) s
    | none => updLed (fun l => { l with vf := satAdd 0xFFFFFFFF l.vf 1 }) s
  | _ => if has 5 then updLed (fun l => { l with bc := satAdd (2 ^ 64 - 1) l.bc (bytesChecked u) }) s else s

/-- R154: one CHECK_FAIL for a figure that failed the CU. -/
def checkFail (c : Nat) (u : Cu) (slot : Nat) (s : State) : State :=
  match tfind slot (station s c).slots with
  | none => s
  | some x =>
    let r := bankRegs (station s c) u slot
    let lanes := failingLanes x.fig r
    let first := min 255 (lanes.foldl min (lanes.headD 0))
    occur 0x1001 (srcStation c) u.tag.toNat (x.fig.id + 65536 * first + 16777216 * min 255 lanes.length)
      (firstRatio x.fig r + 65536 * epoch16 u) s

def checkFails (c : Nat) (u : Cu) : List Nat → State → State
  | [], s => s
  | i :: r, s => checkFails c u r (checkFail c u i s)

/-- R154, R162, R189, R190: the one CHECK_FAIL of a forced FAIL. -/
def checkForced (c : Nat) (u : Cu) : State → State :=
  occur 0x1001 (srcStation c) u.tag.toNat u.forcedFig (u.forced + 65536 * epoch16 u)

/-- R186: CHECK_POISONED for each figure that failed a poisoned CU. -/
def checkPoisoned (c : Nat) (u : Cu) : List Nat → State → State
  | [], s => s
  | i :: r, s => checkPoisoned c u r (occur 0x1002 (srcStation c) u.tag.toNat (slotFig (station s c) i) (epoch16 u) s)

/-- R237: the figures that a re-execution needs: those of the CU with a VERDICT output, and those of the CU that they import. -/
def neededFigs (t : Station) (u : Cu) : List Figure :=
  let verdict := u.attached.filter fun i => ((tfind i t.slots).map fun x => hasOutput x.fig 1).getD false
  let needed := u.attached.filter fun i =>
    verdict.contains i || verdict.any fun j => slotImport t j != 0 && slotImport t j == slotFig t i
  needed.filterMap fun i => (tfind i t.slots).map (·.fig)

/-- R172, R173: M of a lane of a matrix figure: of its column, and of its row under FG-CONV (log entry 138). -/
def marginOf (u : Cu) (fig : Figure) (lane : Nat) : Dy :=
  if 128 ≤ lane then ⟨0, 0⟩ else if fig.id = 3 then tget ⟨0, 0⟩ (128 + lane) u.margins else tget ⟨0, 0⟩ lane u.margins

/-- R235: the evidence of a CU whose figures have given their outcomes. -/
def evidenceOf (t : Station) (u : Cu) : List Quantity :=
  ((u.attached.filter (figureRuns t u)).map fun i =>
    match tfind i t.slots with
    | some x => if hasOutput x.fig 1 then figEvidence x.fig (marginOf u x.fig) (bankRegs t u i) else []
    | none => []).flatten

/-- R241: the CRC of a mover's source: CRC0 of the C cell of its mover (R155). -/
def sourceCrc (t : Station) (u : Cu) : Word :=
  match u.attached.find? (figureRuns t u) with
  | some i =>
    let r := cellRegs (bankRegs t u i) 4 (u.op.queue.val - 2)
    BitVec.ofNat 32 (crcOfBytes false r.crc0Len r.crc0)
  | none => 0

/-- R235: the adjudication of a CU's FAIL. -/
def adjOf (s : State) (c : Nat) (u : Cu) (evid : List Quantity) : Adj :=
  { core := Fin.ofNat 256 c, tag := u.tag, start := u.start, retire := u.retire.getD s.now, queue := u.op.queue, ctx := u.ctx
    step := u.step, epoch := u.epoch, opening := if u.op.queue.val = 0 then 0 else 1, opened := s.now, slotted := s.now, evid := evid
    results := [], srcCrc := sourceCrc (station s c) u, op := u.op, figs := neededFigs (station s c) u, descs := u.descs
    u := none, v := none, uOut := none, vOut := none, hOut := none, replaced := false, needH := false, noH := false
    reread := false, pinLost := false, closing := none }

/-- A PASS is evidence for the tempo domain of its core (R289.7). -/
def afterPass (c : Nat) (u : Cu) (s : State) : State :=
  countChecked c u (updDomain (c / 16) (fun d => { d with passes := d.passes + 1 }) s)

/-- A FAIL: CHECK_FAIL, PIN and STOP for a matrix CU (R116), and pas de trois (R235). -/
def afterFail (c : Nat) (u : Cu) (outs : List (Nat × Nat)) (s : State) : State :=
  let bad := (outs.filter (·.2 == 3)).map (·.1)
  let evid := if bad = [] ∧ 0x8001 ≤ u.forced then [] else evidenceOf (station s c) u
  let a := adjOf s c u evid
  let s := if bad = [] then checkForced c u s else checkFails c u bad s
  let s := countChecked c u s
  let s := if u.op.queue.val = 0 then
      loadPin c u (updDomain (c / 16) (fun d => { d with fails := (s.now, u.tag) :: d.fails }) s)
    else s
  openAdj a s

/-- A POISONED verdict (R64, R203, R223, R407). -/
def afterPoison (c : Nat) (u : Cu) (outs : List (Nat × Nat)) (s : State) : State :=
  let s := occur 0xC001 (srcStation c) u.tag.toNat (u.ctx.toNat + 4096 + 16777216 * c) u.poisonCount s
  let s := checkPoisoned c u ((outs.filter (·.2 == 3)).map (·.1)) s
  let s := if ctxLives s u.ctx.toNat u.start then openIncident u.ctx.toNat 3 u.step u.tag s else s
  if u.reprise then skipSample c u.tag 4 s else s

/-- R138: the banks of a CU are free. -/
def releaseBanks (c : Nat) (u : Cu) : State → State :=
  updStation c fun t => { t with banks := t.banks.map fun b =>
    if b.queue == u.op.queue.val && b.holder == u.tag then { b with held := false } else b }

/-- R186, R188, R191, R192: the verdict unit gives a CU its verdict; only a FAIL leaves it unsettled. -/
def giveVerdict (c : Nat) (u : Cu) (outs : List (Nat × Nat)) (cycles : Nat) (s : State) : State :=
  let k := verdictKind u outs
  let s := updCus c (sameCu u) (fun x => { x with verdict := some k.1 }) s
  let s := if k = (3, 3) then updStation c (fun t => { t with gaps := satAdd 255 t.gaps 1 }) s else s
  let s := takeCensus c u (recordVerdict c u k outs cycles s)
  let s := match k.1 with
    | 0 => afterPass c u s
    | 1 => afterFail c u outs s
    | 2 => afterPoison c u outs s
    | _ => s
  let s := releaseBanks c u s
  if k.1 = 1 then s else settleCu c u.tag s

/-! ### Verdict timing (R188, R189) -/

/-- A retired CU of the pending list that has no verdict, at a station out of reset. -/
def awaiting (s : State) (c : Nat) (tag : Word) : Option Cu :=
  if clusterInReset s (c / 16) || scanned s then none
  else (cuOf s c tag).filter fun u => u.pending && u.verdict.isNone && u.retire.isSome

/-- R189: the slots whose outcome is outstanding. -/
def outstandingMask (t : Station) (u : Cu) : Nat := (u.attached.filter (figureRuns t u)).foldl (fun n i => n + 2 ^ i) 0

/-- R189: VERDICT_LATE, a station fault (R261). -/
def noteLate (c : Nat) (u : Cu) (s : State) : State :=
  if u.late then s
  else
    let s := occur 0x1010 (srcStation c) u.tag.toNat (outstandingMask (station s c) u) (epoch16 u) s
    backoffCore c 3 u.tag (stationFault c u.tag (updCus c (sameCu u) (fun x => { x with late := true }) s))

/-- VERDICT_GIVEN: before the FAIL that R189 forces. -/
def verdictArrives (c : Nat) (tag : Word) (cycles : Nat) (s : State) : State :=
  match awaiting s c tag with
  | none => s
  | some u =>
    if 1024 ≤ cycles then s
    else
      let late := decide (180 < cycles)
      let s := if late then noteLate c u s else s
      giveVerdict c { u with late := u.late || late } (outcomesOf (station s c) u) cycles s

/-- VERDICT_LATE (R189). -/
def verdictIsLate (c : Nat) (tag : Word) (cycles : Nat) (s : State) : State :=
  match awaiting s c tag with
  | none => s
  | some u => if cycles < 180 then s else noteLate c u s

/-- R189: 1,024 core cycles after retire the station forces FAIL. -/
def forceVerdict (c : Nat) (tag : Word) (cycles : Nat) (s : State) : State :=
  match awaiting s c tag with
  | none => s
  | some u =>
    if cycles < 1024 then s
    else
      let t := station s c
      let low := ((List.range 4).find? fun i => (u.attached.filter (figureRuns t u)).contains i).getD 0
      let forced := if u.forced = 0 then 0x8001 else u.forced
      let fig := if u.forced = 0 then slotFig t low else u.forcedFig
      let s := noteLate c u s
      giveVerdict c { u with late := true, forced := forced, forcedFig := fig } (outstanding u) cycles s

/-! ### Self-check (R160 to R162) -/

/-- R162: the lowest slot whose figure is bound to a cell, among a CU's figures. -/
def boundSlot (t : Station) (u : Cu) (key : Nat) : Option Nat :=
  (List.range 4).find? fun i => u.attached.contains i && ((tfind i t.slots).map fun x => x.bind.any fun b => b.2 == key).getD false

/-- R162 step 2: FAIL is forced for every CU without a verdict that a figure bound to the cell serves. -/
def forceCus (key : Nat) (t : Station) : Station :=
  { t with cus := t.cus.map fun u =>
      if u.verdict.isNone && u.forced == 0 then
        match boundSlot t u key with
        | some i => { u with forced := 0x8000, forcedFig := slotFig t i }
        | none => u
      else u }

/-- R162 steps 1 to 3: a self-check failure. -/
def selfCheckFails (c : Nat) (cell : ResFault) (tag : Word) (s : State) : State :=
  let key := cellKey cell.ctype.val cell.index.val
  let p1 := cell.ctype.val + 8 * cell.index.val + 256 * cell.lane.val
  let s := occur 0x1003 (srcStation c) p1 tag.toNat (cell.expected.toNat + 256 * cell.observed.toNat) s
  let s := updStation c (fun t => forceCus key { t with
    selfFails := satAdd 0xFFFF t.selfFails 1, lastCell := BitVec.ofNat 8 p1, retests := t.retests ++ [key] }) s
  backoffCore c 3 tag (stationFault c tag s)

/-- R160: the failure record of an X lane that reports one residue of its last operation wrong, when a check of its S lane sees
it (log entry 158); a cell that no figure of the operation is bound to does nothing. -/
def residueFault (t : Station) (u : Cu) (f : LaneFault) : Option ResFault :=
  let key := cellKey 0 f.index.val
  match (u.attached.filter (figureRuns t u)).find? fun i => ((tfind i t.slots).map fun x => x.bind.any fun b => b.2 == key).getD false with
  | none => none
  | some i =>
    let v := (((tfind i t.slots).bind fun x => x.bind.find? fun b => b.2 == key).map (·.1)).getD 0
    let r : Residues := tget {} f.lane.val (cellRegs (bankRegs t u i) 0 (v % 32)).residue
    (sCheck (wrongResidue f.part.val f.observed.toNat r)).map fun x =>
      { ctype := 0, index := f.index, lane := f.lane, expected := BitVec.ofNat 8 x.1, observed := BitVec.ofNat 8 x.2 }

/-- R160, R162: the S cells check the X operations of an operation of a queue and OPID. -/
def checkResidue (c : Nat) (u : Cu) (fault : Option LaneFault) (s : State) : State :=
  match fault, (station s c).cus.find? (sameCu u) with
  | some f, some v =>
    match residueFault (station s c) v f with
    | some r => selfCheckFails c r v.tag s
    | none => s
  | _, _ => s

/-- R237 to R241: what an inserted operation's station has formed when it retires: its figures' quantities and outcome, the
bytes of the results, and the CRC of a mover's source. -/
def outcomeFormed (t : Station) (u : Cu) : ExecOutcome :=
  let mover := decide (2 ≤ u.op.queue.val)
  let bytes := tgets 0 0 (if mover then u.op.len.toNat else 64 * u.resSectors) u.got
  { gave := true, quants := evidenceOf t u, fails := (outcomesOf t u).any (·.2 == 3) || u.forced != 0
    results := if mover then [] else bytes, srcCrc := if mover then crc32c bytes else 0, dstCrc := none }

/-- STATION_PATTERN_RUN (R161, R162). -/
def patternRun (c : Nat) (cell : ResFault) (passed : Bool) (s : State) : State :=
  if passed ∨ clusterInReset s (c / 16) then s else selfCheckFails c cell 0 s

/-- SELFCHECK_RETEST_DONE (R162 steps 4 and 5, R273 cause 4). -/
def retestDone (c passes : Nat) (s : State) : State :=
  match (station s c).retests with
  | [] => s
  | key :: r =>
    let s := updStation c (fun t => { t with retests := r }) s
    if passes = 3 then s
    else
      let cell : Word := BitVec.ofNat 32 (key / 32 + 8 * (key % 32))
      backoffCore c 3 0 (suspect 4 4 c 0 cell (updStation c (markFaulty key) s))

/-- R117: every queue of a core is idle: no operation is in flight, and none is blocked in a wait. -/
def queuesIdle (t : Station) : Bool :=
  t.cus.all (fun u => u.retire.isSome) && t.queues.all fun x => x.2.wait.isNone

/-- CORE_STOPPED (R117): STOP is asserted and every queue is idle. The home reruns of its matrix CUs start (R238). -/
def coreStops (c : Nat) (s : State) : State :=
  if (station s c).stopReq ∧ queuesIdle (station s c) then
    startHomes c (List.range 8) (updStation c (fun t => { t with stopped := true }) s)
  else s

/-! ### The meanings -/

/-- R186, R188. -/
def execVerdictGiven (t : Nat) (core : Core) (tag : Word) (cycles : Nat) (s : State) : Host.Outcome State Fault Refusal :=
  .next (verdictArrives core.val tag cycles (atTime t s))

/-- R189. -/
def execVerdictLate (t : Nat) (core : Core) (tag : Word) (cycles : Nat) (s : State) : Host.Outcome State Fault Refusal :=
  .next (verdictIsLate core.val tag cycles (atTime t s))

/-- R189. -/
def execVerdictForcedFail (t : Nat) (core : Core) (tag : Word) (cycles : Nat) (s : State) : Host.Outcome State Fault Refusal :=
  .next (forceVerdict core.val tag cycles (atTime t s))

/-- R161, R162. -/
def execStationPatternRun (t : Nat) (core : Core) (cell : ResFault) (passed : Bool) (s : State) :
    Host.Outcome State Fault Refusal :=
  .next (patternRun core.val cell passed (atTime t s))

/-- R161, R162: an injected wrong residue must be seen. -/
def execSelfcheckInjection (t : Nat) (core : Core) (cell : ResFault) (seen : Bool) (s : State) :
    Host.Outcome State Fault Refusal :=
  .next (patternRun core.val cell seen (atTime t s))

/-- R162. -/
def execSelfcheckRetestDone (t : Nat) (core : Core) (passes : Fin 4) (s : State) : Host.Outcome State Fault Refusal :=
  .next (retestDone core.val passes.val (atTime t s))

/-- R117. -/
def execCoreStopped (t : Nat) (core : Core) (s : State) : Host.Outcome State Fault Refusal :=
  .next (coreStops core.val (atTime t s))

end Sys2Proof.Machine
end

