-- ==== Sys2Proof/Machine/Rehearsal.lean ====
section
/-! DEFINITION. Rehearsals (R247 to R253). -/

namespace Sys2Proof.Machine

/-! ### Kits (R247, R250) -/

/-- The enabled kits of the charter in force that the chip has not disabled, in KIT_ID order. -/
def enabledKits (s : State) : List Kit :=
  ((s.cfg.active.map (·.kits)).getD []).filter fun k => bit k.flags 3 && !s.led.badKits.contains k.id

/-- R247: round-robin, separately for each core. -/
def nextKit (s : State) (c : Nat) : Option Kit :=
  let ks := enabledKits s
  match ks.find? fun k => decide ((station s c).reh.turn < k.id) with
  | some k => some k
  | none => ks.head?

/-- R257, R258: the rehearsal interval in ns. -/
def rehInterval (s : State) : Nat :=
  let v := coverageNow s
  (if v.rehInterval ≠ 0 then v.rehInterval else if v.mode = 0 then 600 else 3600) * second

/-- R86, R250: the segment in progress, of the kit as the charter gave it under which the run began. -/
def segmentOf (s : State) (c : Nat) : Segment :=
  let r := (station s c).reh
  (r.image.bind fun k => k.segs[r.seg]?).getD ⟨0, 0, 0, 0, 0⟩

/-! ### The gap (R248) -/

/-- The replay of a capsule in flight. -/
def replayOf (s : State) (c : Nat) (tag : Word) : Option Replay := s.adj.replays.find? fun r => r.core.val == c && r.tag == tag

/-- COMPLETE capsules that wait for a replay: (core, capsule). -/
def waitingCapsules (s : State) : List (Nat × Capsule) :=
  (s.stations.map fun x => (x.2.capsules.filter fun k =>
    k.state == 1 && k.verdict.isNone && (replayOf s x.1 k.tag).isNone).map fun k => (x.1, k)).flatten

/-- R230: idle reprise goes before rehearsals: a capsule waits that the core could replay. -/
def repriseWaits (s : State) (c : Nat) : Bool := (waitingCapsules s).any fun x => mayServe s x.1 c []

/-- R248: every queue of the core has been empty for 20 µs. -/
def queuesEmpty (s : State) (c : Nat) : Bool :=
  (station s c).cus.all (fun u => u.retire.isSome) &&
  (List.range 4).all fun q =>
    let x := queueOf s c q
    x.wait.isNone && decide (x.lastRetire + 20000 ≤ s.now)

/-- R248, R467: nothing holds the core or uses it as an understudy, and no shutdown is in progress. -/
def gapOpen (s : State) (c : Nat) : Bool :=
  inService s c && !coreInReset s c && !tableauHolds s && !(station s c).stopReq && !busyInAdj s c && !callerOff s && s.boot.shutdown == 0 &&
  (station s c).notices == [] && !repriseWaits s c &&
  !s.adj.replays.any (fun r => r.under.val == c) && queuesEmpty s c

/-- R248: a segment begins: the core goes into REH mode (R54). A core that checks a kit of its own stays CHECKING (R256). -/
def beginSegment (c : Nat) (k : Kit) (seg : Nat) : State → State :=
  updReh c fun r => { r with
    state := if r.recheck.isSome then 3 else 1, rehMode := true, kit := k.id, image := some k, seg := seg, stale := false
    bytes := if seg = 0 then [] else r.bytes }

/-- R248: a run begins, for a core that is checked or as a rehearsal: the kit's data goes into the understudy region. -/
def beginRun (c : Nat) (k : Kit) (for_ : Option Core) (s : State) : State :=
  let s := beginSegment c k 0 (spadPut c false regionBase k.data s)
  updReh c (fun r => { r with runFor := for_, sig := none, segStart := s.now }) s

/-- R248: a suspended run goes on at its next segment, or from the first when the region was overwritten. -/
def resumeRun (c : Nat) (k : Kit) (s : State) : State :=
  let r := (station s c).reh
  if r.stale ∨ r.seg = 0 then beginRun c k r.runFor s
  else updReh c (fun r => { r with segStart := s.now }) (beginSegment c k r.seg s)

/-- R253: a core of another cluster whose check still needs a run elsewhere, and its kit. -/
def checkElsewhere (s : State) (c : Nat) : Option (Core × Kit) :=
  (s.stations.filterMap fun x =>
    let r := x.2.reh
    let taken := s.stations.any fun y => y.1 != x.1 && (y.2.reh.runFor.map (·.val)) == some x.1
    match r.image with
    | some k => if r.recheck.isSome ∧ r.other.isNone ∧ x.1 / 16 ≠ c / 16 ∧ !taken then some ((Fin.ofNat 256 x.1 : Core), k) else none
    | none => none).head?

/-- REHEARSAL_GAP_START (R247, R248, R253): what the core does in the gap: the check of a kit elsewhere, the rehearsal that is
due, or the run that was suspended. -/
def gapStarts (c : Nat) (s : State) : State :=
  let r := (station s c).reh
  if !gapOpen s c ∨ r.rehMode ∨ r.sig.isSome then s
  else if r.recheck.isSome then
    match r.image with
    | some k => if r.again.isNone then resumeRun c k (updReh c (fun r => { r with runFor := some (Fin.ofNat 256 c) }) s) else s
    | none => s
  else
    match r.state, r.image with
    | 0, _ =>
      match checkElsewhere s c, nextKit s c with
      | some (d, k), _ => beginRun c k (some d) s
      | none, some k => if s.now < r.lastDone + rehInterval s then s else beginRun c k none s
      | none, none => s
    | 2, some k =>
      if s.led.badKits.contains k.id then updReh c (fun r => { r with state := 0, runFor := none }) s else resumeRun c k s
    | _, _ => s

/-! ### Segments (R248, R251, R252) -/

/-- R251: the signature of a kit's result bytes. -/
def signature (bs : List Byte) : Nat := crc64 bs

/-- R247, R260: a rehearsal has completed. -/
def kitDone (c : Nat) (k : Kit) (sig : Nat) (s : State) : State :=
  if sig = k.signature then
    countDet 6 (updReh c (fun r => { r with
      state := 0, rehMode := false, lastKit := k.id, turn := k.id, lastDone := s.now, lastPass := some s.now, lateDone := false, overdue := false }) s)
  else
    updReh c (fun r => { r with
      state := 3, rehMode := false, lastKit := k.id, turn := k.id, lastDone := s.now, lastPass := none, lateDone := false, overdue := false
      observed := sig, recheck := some s.now, again := none, other := none, seg := 0 }) s

/-- R252: a segment that runs 100 µs past its BUDGET. -/
def overBudget (s : State) (c : Nat) : Bool :=
  let r := (station s c).reh
  r.rehMode && decide (r.segStart + ((segmentOf s c).budget + 100) * 1000 < s.now)

/-- REHEARSAL_BUDGET_OVERRUN (R252). -/
def budgetOverrun (c : Nat) (s : State) : State :=
  if overBudget s c then kitInvalid (station s c).reh.kit 3 c s else s

/-- R251: the bytes of a segment's result range in the core's understudy region. -/
def segmentResult (s : State) (c : Nat) : List Byte :=
  let g := segmentOf s c
  tgets 0 (regionBase + g.resOff) g.resLen (station s c).spad

/-- R248: the core's work goes on outside REH mode: a job operation waits, the caller needs the core, or the chip shuts down. -/
def suspends (s : State) (c : Nat) (jobWaits : Bool) : Bool :=
  jobWaits || (station s c).notices != [] || s.boot.shutdown != 0

/-- A run has come to its end: a rehearsal, or a recheck run whose signature the caller then takes. -/
def runEnds (c : Nat) (k : Kit) (s : State) : State :=
  let r := (station s c).reh
  let sig := signature r.bytes
  match r.runFor with
  | none => kitDone c k sig s
  | some _ => updReh c (fun r => { r with state := if r.recheck.isSome then 3 else 0, rehMode := false, seg := 0, sig := some sig }) s

/-- REHEARSAL_SEGMENT_END (R248, R251). A kit whose data the caller's work overwrote meanwhile is suspended, and starts again. -/
def segmentEnds (c : Nat) (jobWaits : Bool) (s : State) : State :=
  let r := (station s c).reh
  match r.image with
  | none => s
  | some k =>
    if !r.rehMode then s
    else if overBudget s c then budgetOverrun c s
    else
      let bytes := segmentResult s c
      let s := updReh c (fun r => { r with bytes := r.bytes ++ bytes, seg := r.seg + 1 }) s
      if k.segs.length ≤ r.seg + 1 ∧ !r.stale then runEnds c k s
      else if suspends s c jobWaits ∨ r.stale then
        updReh c (fun r => { r with state := if r.recheck.isSome then 3 else 2, rehMode := false }) s
      else updReh c (fun r => { r with segStart := s.now }) s

/-- REHEARSAL_LATE (R249): once for each period of twice the interval. -/
def rehearsalIsLate (c : Nat) (s : State) : State :=
  let r := (station s c).reh
  if !inService s c ∨ r.lateDone ∨ (enabledKits s) = [] ∨ s.now < r.lastDone + 2 * rehInterval s ∨ callerOff s then s
  else
    let kit := match nextKit s c with | some k => k.id | none => r.turn
    let s := updReh c (fun r => { r with lateDone := true, overdue := true }) s
    occur 0x2011 srcReh c (if r.state = 0 ∧ r.recheck.isNone then kit else r.kit) ((s.now - r.lastDone) / second) s

/-! ### The recheck (R253) -/

/-- R250, R273: the queues that a kit's FLAGS name. -/
def kitQueues (k : Kit) : List Nat :=
  (if bit k.flags 0 then [0] else []) ++ (if bit k.flags 1 then [1] else []) ++ (if bit k.flags 2 then [2, 3] else [])

def chargeAll (c : Nat) (tag : Word) : List Nat → State → State
  | [], s => s
  | q :: r, s => chargeAll c tag r (chargeEngine c q tag s)

/-- R273, R275: the unit and the mask of a trigger that charges engines. -/
def unitOf (qs : List Nat) : Nat := if qs.length = 1 then qs.headD 0 else 5
def maskOf (qs : List Nat) : Nat := qs.foldl (fun n q => n + 2 ^ q) 0

/-- R253: a check is over: the core is idle, and no run for it goes on. -/
def endCheck (c : Nat) (s : State) : State :=
  { s with stations := s.stations.map fun x => (x.1,
      if x.1 = c ∨ (x.2.reh.runFor.map (·.val)) = some c then { x.2 with reh := { x.2.reh with
        state := 0, rehMode := false, runFor := none, sig := none, recheck := none, again := none, other := none } }
      else x.2) }

/-- R253, R261, R273, R292: REHEARSAL_FAIL. -/
def rehearsalFails (c : Nat) (k : Kit) (transient : Bool) (s : State) : State :=
  let r := (station s c).reh
  let id : Word := BitVec.ofNat 32 k.id
  let s := updReh c (fun r => { r with fails := satAdd 255 r.fails 1 }) (endCheck c s)
  let s := occur 0x2010 srcReh (c + 256 * b2n transient + 65536 * k.id) (k.signature % 2 ^ 32) (r.observed % 2 ^ 32) s
  let s := countConfirmed (countDet 5 s)
  if transient then backoffCore c 1 id (chargeAll c id (kitQueues k) s)
  else backoffCore c 2 id (suspect 3 (unitOf (kitQueues k)) c (maskOf (kitQueues k)) id s)

/-- R253: the table of outcomes, as far as the two runs decide it. -/
def settleRecheck (c : Nat) (k : Kit) (s : State) : State :=
  let r := (station s c).reh
  match r.again, r.other with
  | some true, _ => rehearsalFails c k true s
  | some false, some true => rehearsalFails c k false s
  | some false, some false => kitInvalid k.id 4 c (endCheck c s)
  | _, _ => s

/-- R253: the caller takes the signature of a recheck run. -/
def takeRun (runner : Nat) : State → State := updReh runner fun r => { r with runFor := none, sig := none }

/-- REHEARSAL_RECHECK_DONE (R253): the run on the same core or on one of another cluster has ended, within 60 s. -/
def recheckDone (c runner : Nat) (s : State) : State :=
  let r := (station s c).reh
  let x := (station s runner).reh
  match r.image, r.recheck, x.sig with
  | some k, some t, some sig =>
    if (x.runFor.map (·.val)) ≠ some c ∨ t + 60 * second ≤ s.now ∨ callerOff s then s
    else
      let ok := decide (sig = k.signature)
      settleRecheck c k (updReh c (fun r => if runner = c then { r with again := some ok } else { r with other := some ok }) (takeRun runner s))
  | _, _, _ => s

/-- REHEARSAL_RECHECK_TIMEOUT (R253): 60 s without a decision. -/
def recheckTimeout (c : Nat) (s : State) : State :=
  let r := (station s c).reh
  match r.recheck, r.image with
  | some t, some k => if t + 60 * second ≤ s.now then rehearsalFails c k false s else s
  | _, _ => s

/-! ### The meanings -/

/-- R247, R248. -/
def execRehearsalGapStart (t : Nat) (core : Core) (s : State) : Host.Outcome State Fault Refusal :=
  .next (gapStarts core.val (atTime t s))

/-- R248, R251. The result that the sender saw is not read: the model takes it from the scratchpad (log entry 149). -/
def execRehearsalSegmentEnd (t : Nat) (core : Core) (jobWaits : Bool) (result : List Byte) (s : State) :
    Host.Outcome State Fault Refusal :=
  let _ := result
  .next (segmentEnds core.val jobWaits (atTime t s))

/-- R252. -/
def execRehearsalBudgetOverrun (t : Nat) (core : Core) (s : State) : Host.Outcome State Fault Refusal :=
  .next (budgetOverrun core.val (atTime t s))

/-- R249. -/
def execRehearsalLate (t : Nat) (core : Core) (s : State) : Host.Outcome State Fault Refusal :=
  .next (rehearsalIsLate core.val (atTime t s))

/-- R253. The signature that the sender saw is not read: the run has left its own (log entry 149). -/
def execRehearsalRecheckDone (t : Nat) (core runner : Core) (signature : DWord) (s : State) :
    Host.Outcome State Fault Refusal :=
  let _ := signature
  .next (recheckDone core.val runner.val (atTime t s))

/-- R253. -/
def execRehearsalRecheckTimeout (t : Nat) (core : Core) (s : State) : Host.Outcome State Fault Refusal :=
  .next (recheckTimeout core.val (atTime t s))

end Sys2Proof.Machine
end

