-- ==== Sys2Proof/Machine/Reprise.lean ====
section
/-! DEFINITION. Reprise: capsules that are complete, replays, and their comparison (R222 to R234). -/

namespace Sys2Proof.Machine

/-! ### Capsules -/

/-- CAPSULE_COMPLETE (R225): once its CU has retired. -/
def capsuleDone (c : Nat) (tag : Word) (s : State) : State :=
  match capsuleOf s c tag with
  | none => s
  | some k =>
    if k.state ≠ 0 ∨ k.retire = 0 ∨ k.verdict.isSome then s
    else writeCapsuleHead c { k with state := 1 } (updCapsule c tag (fun k => { k with state := 1 }) s)

/-- R230: capsules are taken in order of retire time. -/
def isNext (s : State) (k : Capsule) : Bool := (waitingCapsules s).all fun x => decide (k.retire ≤ x.2.retire)

/-! ### Replays (R228 to R230) -/

/-- R228, R231: who may serve for a replay; a new attempt goes to another understudy than the one whose reset ended the first. -/
def replayCores (s : State) (c : Nat) (lost : Option Core) : List Nat :=
  (List.range 256).filter fun d => mayServe s c d [] && (lost.map (·.val)) != some d

/-- R230: an idle replay starts at once, so its understudy's queue is empty and no segment of a kit runs on it (R248). -/
def idleCores (s : State) (empty : Nat → Bool) (l : List Nat) : List Nat :=
  l.filter fun d => empty d && !(station s d).reh.rehMode

/-- R229, R230: a replay is assigned to its understudy: its operation, of the original's descriptor fields, is due at the next
boundary of its vector queue. -/
def beginReplay (c : Nat) (k : Capsule) (d : Nat) (s : State) : State :=
  let core : Core := Fin.ofNat 256 c
  let r : Replay := { core := core, tag := k.tag, under := Fin.ofNat 256 d, epoch := (station s d).epoch, began := s.now, discarded := false }
  let s := updAdj (fun a => { a with
    replays := a.replays ++ [r], assigned := (d, s.now) :: a.assigned.filter fun x => decide (s.now < x.2 + second) }) s
  notify d { queue := 1, figs := [], use := .replay core k.tag, op := some k.op } s

/-- R230, R231: the caller takes a capsule: it reads it, and a CRC that fails abandons the sample. -/
def takeCapsule (c : Nat) (tag : Word) (forced : Bool) (empty : Nat → Bool) (s : State) : State :=
  match capsuleOf s c tag with
  | none => s
  | some k =>
    if k.state ≠ 1 ∨ k.verdict.isSome ∨ (replayOf s c tag).isSome ∨ 64 ≤ s.adj.replays.length ∨ tableauHolds s ∨ callerOff s ∨
        !isNext s k then s
    else if forced ∧ s.now < k.limitFrom + 1000000 then s
    else if !capsuleCrcOk s c k then abandonReprise false c tag 3 s
    else
      let cs := replayCores s c k.lost
      match prefer s empty (if forced then cs else idleCores s empty cs) with
      | some d => beginReplay c k d s
      | none => s

/-! ### Abandoned samples (R230, R231) -/

/-- R230: a sample's verdict is not in 1.9 ms after its retire. -/
def repriseLate (s : State) (k : Capsule) : Bool := !tableauHolds s && decide (k.limitFrom + 1900000 ≤ s.now)

/-- REPRISE_ABANDON: for causes 1 to 4 of R231 when they hold; cause 5 comes with the caller's restart. -/
def repriseGivesUp (c : Nat) (tag : Word) (cause : Nat) (s : State) : State :=
  match capsuleOf s c tag with
  | none => s
  | some k =>
    if k.verdict.isSome ∨ k.retire = 0 ∨ callerOff s then s
    else
      let started := (replayOf s c tag).isSome || decide (0 < k.attempts)
      match cause with
      | 1 => if repriseLate s k ∧ !started ∧ replayCores s c k.lost = [] then abandonReprise false c tag 1 s else s
      | 2 => if repriseLate s k then abandonReprise false c tag 2 s else s
      | 3 => if k.state = 1 ∧ !capsuleCrcOk s c k then abandonReprise false c tag 3 s else s
      | 4 => if 2 ≤ k.attempts ∧ (replayOf s c tag).isNone then abandonReprise false c tag 4 s else s
      | _ => s

/-- R231, R246: a reset of the understudy during a replay: one new attempt, and then the sample is abandoned. -/
def replayLost (r : Replay) (s : State) : State :=
  let c := r.core.val
  let s := updAdj (fun a => { a with replays := a.replays.filter fun x => !(x.core == r.core && x.tag == r.tag) }) s
  if r.discarded then s
  else
    let s := updCapsule c r.tag (fun k => { k with attempts := k.attempts + 1, lost := some r.under }) s
    match capsuleOf s c r.tag with
    | some k => if 2 ≤ k.attempts then abandonReprise false c r.tag 4 s else s
    | none => s

/-- An inserted operation was abandoned (R231, R239, R246): its replay is lost, or its execution gives no outcome. -/
def insertedLost (u : Cu) (s : State) : State :=
  match u.use with
  | .copy => s
  | .kit => s
  | .replay core tag =>
    match replayOf s core.val tag with
    | some r => if r.results.isNone then replayLost r s else s
    | none => s
  | .exec core tag start m w =>
    match adjSlotOf s core tag start m with
    | some i =>
      match tfind i s.adj.slots with
      | some a => takeOutcome i w noOutcome a s
      | none => s
    | none => s

def insertedAllLost : List Cu → State → State
  | [], s => s
  | u :: r, s => insertedAllLost r (if u.inserted then insertedLost u s else s)

/-! ### The comparison (R233, R234) -/

/-- R89: the comparison is exempt. -/
def straddle (c : Nat) (k : Capsule) (r : Replay) (s : State) : State :=
  giveReprise c k.tag 2 (occur 0xA003 srcAdj k.tag.toNat k.tag.toNat (k.epoch.toNat % 65536 + 65536 * (r.epoch.toNat % 65536)) s)

/-- R233: N and Σ|terms| of the comparison, from the capsule's source 0. -/
def capsuleReduction (s : State) (c : Nat) (k : Capsule) : Nat × List Dy :=
  reduction k.op (capsuleSource s c k 0) (elemsOf (k.op.mode.toNat % 16) (capsuleResults s c k)).length

/-- R235, R237: the adjudication of a mismatch: U is the replay already made. -/
def mismatchAdj (s : State) (c : Nat) (k : Capsule) (r : Replay) (results : List Byte) : Adj :=
  let n := capsuleReduction s c k
  { core := Fin.ofNat 256 c, tag := k.tag, start := k.start, retire := k.retire, queue := 1, ctx := k.ctx, step := k.step, epoch := k.epoch
    opening := 2, opened := s.now, slotted := s.now, evid := [], results := capsuleResults s c k, srcCrc := 0, op := k.op, figs := []
    u := some r.under, v := none
    uOut := some { gave := true, quants := [], fails := false, results := results, srcCrc := 0, dstCrc := none }
    vOut := none, hOut := none, replaced := false, needH := false, noH := false, reread := false, pinLost := false
    redLen := n.1, terms := n.2, closing := none }

/-- R234: MISMATCH: recorded, the capsule HELD, the incident opened, the verdict delivered. -/
def mismatch (c : Nat) (k : Capsule) (r : Replay) (results : List Byte) (bad : List Nat) (s : State) : State :=
  let s := occur 0x2001 srcAdj k.tag.toNat (r.under.val + 256 * (k.op.extra.toNat % 8) + 65536 * min 0xFFFF bad.length) (bad.headD 0) s
  let a := mismatchAdj s c k r results
  giveReprise c k.tag 1 (openAdj a (holdCapsuleOf c k s))

/-- The replay of a capsule is no longer in flight. -/
def dropReplay (r : Replay) : State → State :=
  updAdj fun a => { a with replays := a.replays.filter fun x => !(x.core == r.core && x.tag == r.tag) }

/-- R233, R234: the results of a replay that has retired are compared with the capsule's. -/
def compareReplay (c : Nat) (r : Replay) (results : List Byte) (s : State) : State :=
  match capsuleOf s c r.tag with
  | none => s
  | some k =>
    if r.discarded ∨ k.verdict.isSome then s
    else if r.epoch ≠ k.epoch then straddle c k r s
    else
      let n := capsuleReduction s c k
      match compareResults k.op n.1 n.2 (capsuleResults s c k) results with
      | [] => giveReprise c r.tag 0 s
      | bad => mismatch c k r results bad s

/-- REPRISE_COMPARE_DONE: the comparison ends once the replay has retired. -/
def compareDone (c : Nat) (tag : Word) (s : State) : State :=
  if callerOff s then s
  else
    match replayOf s c tag with
    | none => s
    | some r =>
      match r.results with
      | none => s
      | some results => compareReplay c r results (dropReplay r s)

/-! ### The meanings -/

/-- R225. -/
def execCapsuleComplete (t : Nat) (core : Core) (tag : Word) (s : State) : Host.Outcome State Fault Refusal :=
  .next (capsuleDone core.val tag (atTime t s))

/-- R230: an idle replay; the operand says which cores' vector queues are empty. -/
def execReplayStart (t : Nat) (core : Core) (tag : Word) (emptyQueues : BitVec 256) (s : State) : Host.Outcome State Fault Refusal :=
  .next (takeCapsule core.val tag false (fun c => emptyQueues.toNat.testBit c) (atTime t s))

/-- R230: a forced replay, 1.0 ms after retire. -/
def execRepriseForce (t : Nat) (core : Core) (tag : Word) (emptyQueues : BitVec 256) (s : State) : Host.Outcome State Fault Refusal :=
  .next (takeCapsule core.val tag true (fun c => emptyQueues.toNat.testBit c) (atTime t s))

/-- R230, R231. -/
def execRepriseAbandon (t : Nat) (core : Core) (tag : Word) (cause : BitVec 4) (s : State) : Host.Outcome State Fault Refusal :=
  .next (repriseGivesUp core.val tag cause.toNat (atTime t s))

/-- R233, R234. What the sender says it compared is not read: the model forms it of its own state (log entry 149). -/
def execRepriseCompareDone (t : Nat) (core : Core) (tag : Word) (results : List Byte) (redLen : Nat) (sums : List Dy) (s : State) :
    Host.Outcome State Fault Refusal :=
  let _ := (results, redLen, sums)
  .next (compareDone core.val tag (atTime t s))

end Sys2Proof.Machine
end

