-- ==== Sys2Proof/Machine/Standstill.lean ====
section
/-! DEFINITION. What stands still while tableau holds the chip (R429), and the end of the hold (R431). -/

namespace Sys2Proof.Machine

/-- R429: a limit that stands still runs from an instant that the hold moves: by its part after that instant. -/
def moved (now tt at_ : Nat) : Nat := at_ + (now - max tt at_)

/-- R367: deadline timers of operations in flight. -/
def holdCu (now tt : Nat) (u : Cu) : Cu :=
  if u.retire.isNone then { u with held := u.held + (now - max tt u.start) } else u

def holdSyncOp (now tt : Nat) (o : SyncOp) : SyncOp := { o with held := o.held + (now - max tt o.start) }

/-- R230, R232: the limits of a capsule that has no reprise verdict. -/
def holdCapsule (now tt : Nat) (k : Capsule) : Capsule :=
  if k.verdict.isNone then { k with limitFrom := moved now tt k.limitFrom } else k

/-- R119, R230, R252, R321, R358, R367: what stands still at a station. -/
def holdStation (now tt : Nat) (t : Station) : Station :=
  { t with
    cus := t.cus.map (holdCu now tt)
    queues := t.queues.map fun q => (q.1, { q.2 with syncOps := q.2.syncOps.map (holdSyncOp now tt) })
    watches := t.watches.map fun w => (w.1, if w.2.valid then { w.2 with expires := w.2.expires + (now - tt) } else w.2)
    pins := t.pins.map fun p => (p.1, { p.2 with paused := p.2.paused + (now - max tt p.2.loaded) })
    capsules := t.capsules.map (holdCapsule now tt)
    reh := if t.reh.rehMode then { t.reh with segStart := moved now tt t.reh.segStart } else t.reh }

/-- R429: everything that stood still goes on from where it stood. -/
def holdAll (now tt : Nat) (s : State) : State :=
  let s := { s with stations := s.stations.map fun x => (x.1, holdStation now tt x.2) }
  let s := updAdj (fun a => { a with slots := a.slots.map fun x => (x.1, { x.2 with slotted := moved now tt x.2.slotted }) }) s
  let s := updLed (fun l => { l with drainHeld := if l.state = 2 ∨ l.state = 4 then l.drainHeld + (now - max tt l.e) else l.drainHeld }) s
  updTempo (fun t => { t with began := moved now tt t.began }) s

/-- R431: tableau's hold ends: STATUS returns to IDLE, and STOP_OUT falls (R499). -/
def endHold (s : State) : State :=
  updTab (fun b => { b with state := 0, cores := 0, stopOut := false }) (holdAll s.now s.tab.tt s)

end Sys2Proof.Machine
end

