-- ==== Sys2Proof/Machine/Taps.lean ====
section
/-! DEFINITION. The tap protocol at the stations (R94 to R126): negotiation, operations in flight, data beats, gaps, and what OP_START and OP_RETIRE bring about. -/

namespace Sys2Proof.Machine

/-! ### Lanes (R94, R100) -/

/-- The parity of a 64-bit number. -/
def oddBits (n : Nat) : Bool :=
  let a := n ^^^ (n >>> 32)
  let b := a ^^^ (a >>> 16)
  let c := b ^^^ (b >>> 8)
  let d := c ^^^ (c >>> 4)
  let e := d ^^^ (d >>> 2)
  (e ^^^ (e >>> 1)).testBit 0

/-- R94: even parity over each 64 data bits. -/
def parityOk (l : Lane) : Bool :=
  (List.range 8).all fun i => oddBits (bits l.data.toNat (64 * i + 63) (64 * i)) == l.parity.getLsbD i

def laneAt (b : Beat) (i : Nat) : Lane := b.lanes.getD i { valid := false, poison := false, parity := 0, data := 0 }

/-- The bytes of successive lanes; a lane that is not VALID reads as zero. -/
def lanesBytes (b : Beat) (first n : Nat) : List Byte :=
  ((List.range n).map fun i => let l := laneAt b (first + i); sectorBytes (if l.valid then l.data else 0)).flatten

/-- Poisoned sectors of a beat (R100); under T1 the beat has one POISON bit, set when any sector is poisoned (R121). -/
def poisonLanes (ver : Nat) (b : Beat) : Nat :=
  let n := (b.lanes.filter fun l => l.valid && l.poison).length
  if ver ≤ 1 then min 1 n else n

/-- R94, R115: the parity of the lanes that carry a sector; that of a lane that is not VALID is not checked (log entry 140). -/
def lanesParityOk (l : List Lane) : Bool := l.all fun l => !l.valid || parityOk l

def beatParityOk (b : Beat) : Bool := lanesParityOk b.lanes

/-! ### Ports and links (R94, R121 to R123) -/

/-- R94: the queue whose work a port shows; INB has none. -/
def portQueue : Nat → Option Nat
  | 0 => some 0 | 1 => some 0 | 2 => some 1 | 3 => some 1 | 4 => some 2 | 5 => some 3 | _ => none

/-- R102: the port of a queue's records: of its starts, or of its ends. -/
def recordPort (q : Nat) (ending : Bool) : Nat :=
  match q with
  | 0 => b2n ending
  | 1 => 2 + b2n ending
  | 2 => 4
  | _ => 5

/-- The station hears its tap: READY, out of reset, and the port is one of the settled version's (R121). -/
def hears (s : State) (c port : Nat) : Bool :=
  let t := station s c
  t.tapReady && !clusterInReset s (c / 16) && (decide (2 ≤ t.tapVer) || decide (port ≤ 3))

/-! ### Gaps (R115) -/

/-- R115: a gap waives a CU; after retire the verdict comes when the gap is seen. -/
def touchGap (c cause : Nat) (u : Cu) (s : State) : State :=
  if u.inserted ∨ u.gap ≠ 0 ∨ u.verdict.isSome then s
  else
    let s := updCus c (sameCu u) (fun x => { x with gap := cause }) s
    let s := if u.reprise then skipSample c u.tag 5 s else s
    if u.pending then
      giveVerdict c { u with gap := cause, reprise := false } (outcomesOf (station s c) u)
        (coreCycles s c (u.retire.getD s.now) s.now) s
    else s

def touchAll (c cause : Nat) : List Cu → State → State
  | [], s => s
  | u :: r, s => touchAll c cause r (touchGap c cause u s)

/-- R115: TAP_GAP. -/
def recordGap (c port cause : Nat) (tag : Word) (type opid lost : Nat) : State → State :=
  occur 0x1011 (srcStation c) tag.toNat (port + 16 * cause + 256 * type + 65536 * opid) lost

/-- R115: a gap that names an operation: a CU, or an inserted operation by the record's type (0 for a beat) and its OPID. -/
def gapOf (c port cause type lost : Nat) (u : Cu) (s : State) : State :=
  touchGap c cause u (recordGap c port cause u.tag (if u.inserted then type else 0) (if u.inserted then u.op.opid.toNat else 0) lost s)

/-- R115: a gap that no operation can be named for waives every CU of the queue in flight, up to the next OP_RETIRE. -/
def gapUntied (c port cause q type opid lost : Nat) (s : State) : State :=
  let us := (station s c).cus.filter fun u => u.op.queue.val == q && u.retire.isNone
  let s := recordGap c port cause 0 type opid lost s
  touchAll c cause us (updQueue c q (fun x => { x with gapOpen := true }) s)

/-- R114: an overflow while only library figures are resident is a station fault. -/
def overflowFault (c : Nat) (tag : Word) (s : State) : State :=
  if (station s c).slots.all fun x => decide (x.2.fig.id ≤ 0xFF) then stationFault c tag s else s

/-- A gap of a record: tied to an operation where one is named, else to the queue. -/
def recordFails (c port cause q type opid : Nat) (s : State) : State :=
  match opOf s c (Fin.ofNat 4 q) (BitVec.ofNat 16 opid) with
  | some u => gapOf c port cause type 0 u s
  | none => gapUntied c port cause q type opid 0 s

/-- A protocol error of a record. -/
def recordError (c port q type opid : Nat) : State → State := recordFails c port 3 q type opid

/-- R113 to R115: a record that arrives at a FIFO that holds `fill` records acts, or is lost to overflow. -/
def withRoom (c port q type opid fill : Nat) (act : State → State) (s : State) : State :=
  if 64 ≤ fill then
    if !(station s c).tapReady ∨ clusterInReset s (c / 16) then s
    else
    let tag := ((opOf s c (Fin.ofNat 4 q) (BitVec.ofNat 16 opid)).map (·.tag)).getD 0
    overflowFault c tag (recordFails c port 1 q type opid s)
  else act s

/-! ### Figures that attach (R150, R259) -/

def vectorClass (o : OpStart) : Nat := o.extra.toNat % 8

/-- R150: a figure matches an operation; with FLAGS.SAMPLE it takes only sampled matrix CUs. -/
def matchesFigure (f : Figure) (o : OpStart) (sampled : Bool) : Bool :=
  f.queues.testBit o.queue.val && (o.queue.val != 1 || f.classes.testBit (vectorClass o)) &&
  (decide (2 ≤ o.queue.val) || f.formats.testBit (o.fmt.toNat % 16)) &&
  decide (f.ttagLo ≤ o.ttag.toNat % 4096) && decide (o.ttag.toNat % 4096 ≤ f.ttagHi) &&
  (o.queue.val != 0 || sampled || !f.sample)

def isFp46 (f : Nat) : Bool := f == 2 || f == 3 || f == 4

/-- R122: what T1 cannot check. -/
def t1Waives (o : OpStart) : Bool :=
  decide (2 ≤ o.queue.val) || isFp46 (o.fmt.toNat % 16) || (o.queue.val == 0 && isFp46 (o.fmt.toNat / 16)) ||
  isFp46 (o.mode.toNat % 16)

/-- R187: the reason of a waiver at the start, in the order of R186; 0 when the CU is checked. -/
def waiveReason (t : Station) (o : OpStart) (sampled : Bool) : Nat :=
  let checked := t.slots.any fun x => x.2.state == 2 && matchesFigure x.2.fig o sampled && hasOutput x.2.fig 1
  let retiring := t.slots.any fun x => x.2.state == 3 && matchesFigure x.2.fig o sampled && hasOutput x.2.fig 1
  if t.tapVer = 1 ∧ t1Waives o then 5
  else if checked then 0
  else if retiring then 2
  else if o.queue.val = 0 ∧ !sampled then 4
  else 1

/-- R222, R259: the exponents in force, defaults taken. -/
def repriseExp (v : Coverage) : Nat := if v.repriseExp ≠ 0 then v.repriseExp else if v.mode = 0 then 6 else 9
def matrixExp (v : Coverage) : Nat := if v.matrixExp ≠ 0 then v.matrixExp else 4

/-! ### Trace (R435, R437) -/

/-- R435: an OP record: 0 START, 1 RETIRE, 2 ABANDON. -/
def traceOp (c dir time : Nat) (u : Cu) (s : State) : State :=
  let o := u.op
  if traceCore s c ∧ o.opid.toNat % 2 ^ bits s.trace.ctl.toNat 25 22 = 0 then
    traceRec 0x02 (srcStation c) time 1
      (toLe 4 u.tag.toNat ++ toLe 2 o.opid.toNat ++ [BitVec.ofNat 8 (o.queue.val + 4 * dir + 16 * vectorClass o), o.fmt] ++
       toLe 4 o.len.toNat ++ toLe 2 o.ttag.toNat ++ toLe 2 u.ctx.toNat) s
  else s

/-! ### The capsule tee (R225) -/

def sectorsOf (bytes : Nat) : Nat := (bytes + 63) / 64

/-- Sectors that the OPDESC records give for a role. -/
def roleSectors (u : Cu) (role : Nat) : Nat := ((u.descs.filter fun d => d.role.toNat == role).map fun d => sectorsOf d.len.toNat).sum

/-- R225: under T1 the operand sectors that LEN gives lie in equal parts to the sources of the operation (log entry 23). -/
def t1Sectors (o : OpStart) : List Nat :=
  let n := o.len.toNat % 2 ^ 24
  let m := if vectorClass o = 0 then (if opCode o ≤ 2 then 2 else if opCode o = 3 then 3 else 1) else 1
  ((List.range 3).map fun i => if i < m then n / m else 0) ++ [0]

/-- A capsule of a CU with its sectors of source 0, 1, 2 and results. -/
def capsuleFor (u : Cu) (sects : List Nat) : Capsule :=
  { tag := u.tag, pos := 0, units := 1 + sects.sum, sects := sects, state := 0, ctx := u.ctx, start := u.start, retire := 0, op := u.op
    epoch := u.epoch, step := u.step, verdict := none, attempts := 0, checked := false, limitFrom := 0 }

/-- R223, R225: the tee claims a capsule, or the sample is skipped. -/
def claimFor (c : Nat) (u : Cu) (sects : List Nat) (s : State) : State :=
  if 4095 < sects.sum then skipSample c u.tag 2 s
  else
    match claimCapsule c (capsuleFor u sects) s with
    | some s => updCus c (sameCu u) (fun x => { x with capsule := true }) s
    | none => skipSample c u.tag 1 s

/-- The capsule of a sampled CU is claimed once its OPDESCs are in. -/
def teeBegins (c : Nat) (u : Cu) (s : State) : State :=
  if u.reprise ∧ !u.capsule then claimFor c u ((List.range 4).map (roleSectors u)) s else s

/-- R225: under T1 a result sector is claimed as it arrives, directly after the sources; a capsule behind which another one lies
finds no space (log entry 163). -/
def growT1 (c : Nat) (k : Capsule) (off : Nat) (s : State) : State :=
  let t := station s c
  let more := off + 1 - k.sects.getD 3 0
  if t.tapVer ≠ 1 ∨ more = 0 then s
  else if 4095 < k.sects.sum + more then skipSample c k.tag 2 s
  else
    let last : Bool := match t.capsules.getLast? with | some l => decide (l.tag = k.tag ∧ l.pos = k.pos) | none => false
    if last ∧ k.pos + k.units + more ≤ 32768 ∧ more ≤ ringFree t then
      updStation c (fun t => { t with capTail := (t.capTail + more) % 32768 })
        (updCapsule c k.tag (fun k => { k with units := k.units + more, sects := k.sects.set 3 (off + 1) }) s)
    else skipSample c k.tag 1 s

/-- R225: a sector of source 0, 1 or 2, or of the results (3), goes to its place in the capsule. -/
def teeSector (c : Nat) (tag : Word) (part off : Nat) (bytes : List Byte) (s : State) : State :=
  match capsuleOf s c tag with
  | none => s
  | some k =>
    let s := if part = 3 then growT1 c k off s else s
    match capsuleOf s c tag with
    | none => s
    | some k =>
      if off < k.sects.getD part 0 then memWrite (capsuleAt s c (k.pos + 1 + (k.sects.take part).sum + off)) bytes s else s

def teeSectors (c : Nat) (tag : Word) : List (Nat × Nat × List Byte) → State → State
  | [], s => s
  | (part, off, bs) :: r, s => teeSectors c tag r (teeSector c tag part off bs s)

/-! ### Results that land in the core's own scratchpad -/

/-- R105: the range that an operation writes, once its OPDESC has come. -/
def outputDesc (u : Cu) : Option OpDesc := u.descs.find? fun d => d.role == 3 || d.role == 4

/-- Bytes of an output range at an offset: written into the scratchpad or this chip's HBM where the range lies there, with
their poison mark (R63). A write into a pinned range by an operation that had started before PIN proceeds and is counted
(R118). Of HBM these are the addresses that lie there (log entry 159). -/
def landOutput (c : Nat) (u : Cu) (off : Nat) (poison : Bool) (bs : List Byte) (s : State) : State :=
  match outputDesc u with
  | none => s
  | some d =>
    if 2 ≤ d.res.toNat then (if Config.place c d.addr = 0 then memStore poison (d.addr.toNat + off) bs s else s)
    else
    let a := spadOffset d.addr + off
    let hits := (List.range (sectorsOf bs.length)).filter fun i =>
      (station s c).pins.any fun p => decide (u.start < p.2.loaded) && p.2.ranges.any (meets (a + 64 * i))
    updStation c (fun t => { t with pinOverwrites := satAdd 255 t.pinOverwrites hits.length }) (spadPut c poison a bs s)

/-- Sectors of an output land at their offsets. -/
def landSectors (c : Nat) (u : Cu) : List (Nat × Bool × List Byte) → State → State
  | [], s => s
  | (off, poison, bs) :: r, s => landSectors c u r (landOutput c u (64 * off) poison bs s)

/-! ### MX-OP (R96, R97, R131) -/

def fmtA (o : OpStart) : Nat := o.fmt.toNat % 16
def fmtB (o : OpStart) : Nat := o.fmt.toNat / 16
def bothFp4 (o : OpStart) : Bool := fmtA o == 4 && fmtB o == 4

/-- R97: data beats of a block, and of the operation. -/
def blockBeats (o : OpStart) : Nat := if bothFp4 o then 16 else 32
def opsBeats (o : OpStart) : Nat := if bothFp4 o then o.len.toNat / 2 else o.len.toNat

/-- R96, R146: the elements of field 0 or 1: position 2i + h is row or column i of the h-th index. -/
def mxField (o : OpStart) (f : Nat) (bytes : List Byte) : List (Option Elem) :=
  let codes := elemsOf f bytes
  (List.range 256).map fun p =>
    if p % 2 = 0 ∨ bothFp4 o then (codes[128 * (p % 2) + p / 2]?).map (decodeElem f) else none

/-- The scales that bind the positions of a field; a format without block scales has none. -/
def mxScales (f : Nat) (bytes : List Byte) : List (Option (Option Int)) :=
  if fmtIsMx f then (List.range 256).map fun p => (bytes[p / 2]?).map scaleExp else []

/-- The largest scale among bytes; 0xFF is no scale. -/
def maxScale (l : List Byte) : Nat := (l.filter (· != 255)).foldl (fun n b => max n b.toNat) 0

/-- R131, R179: a block's scales are in force. -/
def withScales (u : Cu) (bytes : List Byte) : Cu :=
  let a := bytes.take 128
  let b := bytes.drop 128
  { u with
    scales := bytes, maxA := max u.maxA (maxScale a), maxB := max u.maxB (maxScale b)
    inputNf := u.inputNf || (fmtIsMx (fmtA u.op) && a.any (· == 255)) || (fmtIsMx (fmtB u.op) && b.any (· == 255)) }

/-- R97: beat i of a block carries the next block's scales of eight rows and eight columns. -/
def takeScaleField (u : Cu) (i : Nat) (field : BitVec 128) : List Byte :=
  if 16 ≤ i ∨ !fmtIsMx (fmtA u.op) then u.nextScales
  else
    let l := padTo 256 u.nextScales
    let f := toLe 16 field.toNat
    l.take (8 * i) ++ f.take 8 ++ slice (8 * i + 8) (120 - 8 * i) l ++ slice 128 (8 * i) l ++ f.drop 8 ++ l.drop (128 + 8 * i + 8)

def anyNf (l : List (Option Elem)) : Bool := l.any fun e => match e with | some (.fin _) => false | some _ => true | none => false

/-- R146: the stored codes of field 0 or 1, for CENSUS (R136). -/
def mxCodes (o : OpStart) (f : Nat) (bytes : List Byte) : List (Option Nat) :=
  let codes := elemsOf f bytes
  (List.range 256).map fun p => if p % 2 = 0 ∨ bothFp4 o then codes[128 * (p % 2) + p / 2]? else none

/-- R146: fields 2 and 3: the scales, as elements, at the positions that fields 0 and 1 fill. -/
def scaleElems (scales : List (Option (Option Int))) (elems : List (Option Elem)) : List (Option Elem) :=
  (scales.zip elems).map fun x =>
    match x.1, x.2 with
    | some (some n), some _ => some (.fin ⟨1, n⟩)
    | some none, some _ => some .nan
    | _, _ => none

/-- R96, R146: what the cells see of a reduction step. -/
def mxFeed (u : Cu) (a b : List Byte) : Feed :=
  let o := u.op
  let fa := mxField o (fmtA o) a
  let fb := mxField o (fmtB o) b
  let sa := mxScales (fmtA o) (u.scales.take 128)
  let sb := mxScales (fmtB o) (u.scales.drop 128)
  { trigs := [0], elems := [(0, fa), (1, fb), (2, scaleElems sa fa), (3, scaleElems sb fb)], scales := [(2, sa), (3, sb)]
    codes := [(0, (fmtA o, mxCodes o (fmtA o) a)), (1, (fmtB o, mxCodes o (fmtB o) b))] }

/-- The magnitude of an operand element with its scale. -/
def absOperand (f : Feed) (k p : Nat) : Dy :=
  match (tget [] k f.elems : List (Option Elem)).getD p none with
  | some e => dyAbs (bound f (.tap (k + 2)) p e).v
  | none => ⟨0, 0⟩

/-- R172: what a reduction step adds to L0* of each column, and of each row from 128 on, times 2^-79. -/
def stepMargins (f : Feed) (m : Tab Dy) : Tab Dy :=
  (List.range 2).foldl (fun m h =>
    let a := (List.range 128).map fun i => absOperand f 0 (2 * i + h)
    let b := (List.range 128).map fun j => absOperand f 1 (2 * j + h)
    let add := fun (base : Nat) (sum : Dy) (l : List Dy) (m : Tab Dy) => (List.range 128).foldl (fun m i =>
      tput ⟨0, 0⟩ (base + i) (dyAdd (tget ⟨0, 0⟩ (base + i) m) (dyScale (-79) (dyMul sum (l.getD i ⟨0, 0⟩)))) m) m
    add 128 (dySum b) a (add 0 (dySum a) b m)) m

/-- R172: what a row of C or C0 adds to the margins of its columns and of its own row, times 2^-87. -/
def rowMargins (row : Nat) (l : List (Option Elem)) (m : Tab Dy) : Tab Dy :=
  (List.range 128).foldl (fun m j =>
    match l.getD j none with
    | some (.fin v) =>
      let x := dyScale (-87) (dyAbs v)
      let m := tput ⟨0, 0⟩ j (dyAdd (tget ⟨0, 0⟩ j m) x) m
      tput ⟨0, 0⟩ (128 + row) (dyAdd (tget ⟨0, 0⟩ (128 + row) m) x) m
    | _ => m) m

/-- R96, R140: one reduction step: the CU after it, and the triggers that it brings. -/
def mxStep (u : Cu) (a b : List Byte) (scale : BitVec 128) : Cu × List Feed :=
  let o := u.op
  let f := mxFeed u a b
  let fa : List (Option Elem) := tget [] 0 f.elems
  let fb : List (Option Elem) := tget [] 1 f.elems
  let n := u.beats + 1
  let u := { u with beats := n, margins := stepMargins f u.margins, half := none, inputNf := u.inputNf || anyNf fa || anyNf fb
                    nextScales := takeScaleField u (u.beats % blockBeats o) scale }
  let block := n % blockBeats o = 0
  let u := if block ∧ n < opsBeats o ∧ fmtIsMx (fmtA o) then withScales u (padTo 256 u.nextScales) else u
  (u, [f] ++ (if block then [{ trigs := [2] }] else []) ++ (if n = opsBeats o then [{ trigs := [3] }] else []))

/-- R96, R97: a beat of MX-OP. -/
def mxOperand (u : Cu) (b : Beat) : Cu × List Feed :=
  match b.kind.val with
  | 1 => ({ withScales u (lanesBytes b 0 4) with phase := max 1 u.phase }, [])
  | 2 => ({ u with half := some b }, [])
  | 3 =>
    match u.half with
    | some a => mxStep u (lanesBytes a 0 4) (lanesBytes b 0 4) 0
    | none => (u, [])
  | _ => mxStep u (lanesBytes b 0 2) (lanesBytes b 2 2) b.scale

/-! ### MX-RES (R98, R175, R176) -/

/-- R98: the format of a row: C0 is FP32 or INT32; C is the output format. -/
def rowFormat (o : OpStart) (c0 : Bool) : Nat := if c0 then (if fmtA o = 6 then 8 else 7) else o.mode.toNat % 16

/-- R176: a stored result that counts as infinite. -/
def asStored (o : OpStart) (f code : Nat) : Elem :=
  if f = 5 ∧ bit o.mode.toNat 6 ∧ code % 0x8000 = 0x7F7F then .inf (code.testBit 15)
  else if f = 8 ∧ (code = 0x7FFFFFFF ∨ code = 0x80000000) then .inf (code.testBit 31)
  else decodeElem f code

def rowCodes (o : OpStart) (b : Beat) : List Nat :=
  let f := rowFormat o b.c0
  (elemsOf f (lanesBytes b 0 (if f = 5 then 4 else 8))).take 128

def rowElems (o : OpStart) (b : Beat) : List (Option Elem) :=
  let f := rowFormat o b.c0
  (rowCodes o b).map fun x => some (if b.c0 then decodeElem f x else asStored o f x)

/-- What the cells see of a row. -/
def rowFeed (o : OpStart) (b : Beat) : Feed :=
  { trigs := [0, 1], elems := [(4, rowElems o b), (5, oneElem b.row.val)]
    codes := [(4, (rowFormat o b.c0, (rowCodes o b).map some))], c0 := b.c0, row := b.row.val }

/-- R175: a non-finite C0 element sets NF in the prediction lane of its column (FG-GEMM-COL) or row (FG-CONV, whose row i is taken
to stand in X cell 8 + i / 16: log entry 160). -/
def markPrediction (u : Cu) (lanes : List Nat) (id : Nat) (t : Station) : Station :=
  { t with banks := t.banks.map fun b =>
      if u.attached.any (fun i => isBank u i b && slotFig t i == id) then
        { b with regs := lanes.foldl (fun r j => updRegs 0 (8 + j / 16) (fun k =>
            { k with acc := tput {} (j % 16) { (tget {} (j % 16) k.acc : Acc) with nf := true } k.acc }) r) b.regs }
      else b }

def markC0 (c : Nat) (u : Cu) (b : Beat) : State → State :=
  let cols := (List.range 128).filter fun j => match (rowElems u.op b).getD j none with
    | some (.fin _) => false
    | some _ => true
    | none => false
  updStation c fun t =>
    if cols = [] then t else markPrediction u [b.row.val] 3 (markPrediction u cols 1 t)

/-! ### VX and mover ports (R99) -/

/-- The valid lanes of a half, with their sector offsets. -/
def halfSectors (b : Beat) (first n at_ : Nat) : List (Nat × List Byte) :=
  (List.range n).filterMap fun i =>
    let l := laneAt b (first + i)
    if l.valid then some (b.offset.toNat + at_ + i, sectorBytes l.data) else none

/-- The sectors that a result or mover beat lands, with their poison marks. -/
def poisonSectors (b : Beat) (n : Nat) : List (Nat × Bool × List Byte) :=
  (List.range n).filterMap fun i =>
    let l := laneAt b i
    if l.valid then some (b.offset.toNat + i, l.poison, sectorBytes l.data) else none

def sectorElems (f : Nat) (l : List (Nat × List Byte)) : List Nat := elemsOf f ((l.map (·.2)).flatten)

/-- The halves of a VX-OP beat: source and sectors. Both count from the beat's offset; when they carry one source, lanes 8 to
15 follow lanes 0 to 7, so that each sector appears once (log entry 141). -/
def vxHalves (b : Beat) : List (Nat × List (Nat × List Byte)) :=
  [(b.srcLo.val, halfSectors b 0 8 0), (b.srcHi.val, halfSectors b 8 8 (if b.srcHi = b.srcLo then 8 else 0))].filter fun x => x.1 != 3

/-- The sectors of one source in a beat. -/
def vxSource (b : Beat) (k : Nat) : List (Nat × List Byte) := (((vxHalves b).filter (·.1 == k)).map (·.2)).flatten

def vxFeed (o : OpStart) (b : Beat) : Feed :=
  let srcs := (List.range 3).filter fun k => (vxHalves b).any (·.1 == k)
  { trigs := [0]
    elems := srcs.map fun k => (6 + k, (sectorElems (fmtA o) (vxSource b k)).map fun x => some (decodeElem (fmtA o) x))
    codes := srcs.map fun k => (6 + k, (fmtA o, (sectorElems (fmtA o) (vxSource b k)).map some))
    bytes := srcs.map fun k => (6 + k, (vxSource b k).map fun x => (64 * x.1, x.2)) }

def vxResFeed (o : OpStart) (b : Beat) : Feed :=
  let f := o.mode.toNat % 16
  let l := halfSectors b 0 8 0
  { trigs := [0], elems := [(9, (sectorElems f l).map fun x => some (asStored o f x))]
    codes := [(9, (f, (sectorElems f l).map some))], bytes := [(9, l.map fun x => (64 * x.1, x.2))] }

/-- R146: the bytes of a mover beat's lane, at their positions. -/
def mvLane (b : Beat) (i : Nat) : List (Option Elem) :=
  let l := laneAt b i
  (sectorBytes l.data).map fun x => if l.valid then some (.fin (dyOfNat x.toNat)) else none

def mvFeed (b : Beat) : Feed :=
  let l := halfSectors b 0 2 0
  { trigs := [0], elems := [(10, mvLane b 0 ++ mvLane b 1)]
    bytes := [(10, l.map fun x => (64 * x.1, x.2))] }

/-- R140: the trigger after the last operand sector. -/
def sectorsDone (u : Cu) (n total : Nat) : List Feed :=
  if u.beats < total ∧ total ≤ u.beats + n then [{ trigs := [3] }] else []

/-! ### A data beat -/

/-- Replace a CU in its list. -/
def putCu (c : Nat) (old new : Cu) : State → State := updCus c (sameCu old) (fun _ => new)

/-- R140, R237: the triggers of an operation that has not retired reach its figures. -/
def runFeeds (c : Nat) (u : Cu) : List Feed → State → State
  | [], s => s
  | f :: r, s => runFeeds c u r (if u.retire.isSome then s else runFigs c u f s)

/-- R101, R107: the operation to which a port's beat belongs. -/
def beatOwner (s : State) (c port : Nat) (b : Beat) : Option Cu :=
  let us := (station s c).cus.filter fun u => some u.op.queue.val == portQueue port && u.verdict.isNone
  let open_ := us.filter (·.retire.isNone)
  match port with
  | 1 =>
    if b.c0 then
      match open_.find? fun u => hasC0 u.op && decide (u.c0Rows < 128) with
      | some u => some u
      | none => open_.getLast?
    else open_.head?
  | 3 => open_.head?
  | _ => us.getLast?

/-- R64, R98: a poisoned operand sector: any of an operand port, or of a C0 row. -/
def notePoison (ver port : Nat) (b : Beat) (u : Cu) : Cu :=
  let n := if port = 3 ∨ (port = 1 ∧ !b.c0) then 0 else poisonLanes ver b
  { u with poison := u.poison || decide (0 < n), poisonCount := u.poisonCount + n }

/-- The bytes of an inserted operation that the caller or its station takes, by position. -/
def gather (u : Cu) (l : List (Nat × List Byte)) : Cu :=
  if u.inserted then { u with got := l.foldl (fun t x => tputs 0 (64 * x.1) x.2 t) u.got } else u

/-- Lanes of a row of a matrix result (R98). -/
def rowLanes (o : OpStart) (c0 : Bool) : Nat := if rowFormat o c0 = 5 then 4 else 8

/-- R225: the tee takes the sectors of a CU, and none of an operation that the caller inserts. -/
def teeBeat (c : Nat) (u : Cu) (l : List (Nat × Nat × List Byte)) (s : State) : State :=
  if u.inserted then s else teeSectors c u.tag l s

/-- R96, R97: a beat of MX-OP. -/
def mxOpBeat (c : Nat) (b : Beat) (u v : Cu) (s : State) : State :=
  let x := mxOperand v b
  runFeeds c x.1 x.2 (putCu c u x.1 s)

/-- R98: a beat of MX-RES. -/
def mxResBeat (c : Nat) (b : Beat) (u v : Cu) (s : State) : State :=
  let l := rowElems v.op b
  let w := rowLanes v.op b.c0
  let v := { v with margins := rowMargins b.row.val l v.margins }
  let v := if b.c0 then { v with c0Rows := v.c0Rows + 1, inputNf := v.inputNf || anyNf l } else { v with resSectors := v.resSectors + w }
  let s := runFeeds c v [rowFeed v.op b] (putCu c u v s)
  if b.c0 then markC0 c v b s
  else landSectors c v ((List.range w).map fun i => (w * b.row.val + i, (laneAt b i).poison, lanesBytes b i 1)) s

/-- R99: a beat of VX-OP. -/
def vxOpBeat (c : Nat) (b : Beat) (u v : Cu) (s : State) : State :=
  let f := vxFeed v.op b
  let n := ((vxHalves b).map fun x => x.2.length).sum
  let v' := { v with beats := v.beats + n, inputNf := v.inputNf || f.elems.any fun x => anyNf x.2 }
  let s := teeBeat c v (((List.range 3).map fun k => (vxSource b k).map fun x => (k, x.1, x.2)).flatten) (putCu c u v' s)
  runFeeds c v' ([f] ++ sectorsDone v n (v.op.len.toNat % 2 ^ 24)) s

/-- R99: a beat of VX-RES. -/
def vxResBeat (c : Nat) (b : Beat) (u v : Cu) (s : State) : State :=
  let l := halfSectors b 0 8 0
  let v := gather { v with resSectors := v.resSectors + l.length } l
  let s := teeBeat c v (l.map fun x => (3, x.1, x.2)) (putCu c u v s)
  runFeeds c v [vxResFeed v.op b] (landSectors c v (poisonSectors b 8) s)

/-- R99: a beat of a mover port. -/
def mvBeat (c : Nat) (b : Beat) (u v : Cu) (s : State) : State :=
  let l := halfSectors b 0 2 0
  let v' := gather { v with beats := v.beats + l.length } l
  let s := landSectors c v (poisonSectors b 2) (putCu c u v' s)
  runFeeds c v' ([mvFeed b] ++ sectorsDone v l.length (sectorsOf v.op.len.toNat)) s

/-- R96 to R99, R131, R140: what a sound beat brings to its operation. -/
def beatActs (c port : Nat) (b : Beat) (u : Cu) (s : State) : State :=
  let v := notePoison (station s c).tapVer port b u
  match port with
  | 0 => mxOpBeat c b u v s
  | 1 => mxResBeat c b u v s
  | 2 => vxOpBeat c b u v s
  | 3 => vxResBeat c b u v s
  | _ => mvBeat c b u v s

/-! ### The order of an operation's records and beats (R105, R107) -/

/-- R49, R155: the sources of a vector operation: the least number, and the greatest. The spec gives that of the codes of V0 to
V3; of the others it gives none, and any from 1 to 3 is taken (log entry 156). -/
def vectorSources (o : OpStart) : Nat × Nat :=
  match vectorClass o with
  | 0 => if opCode o ≤ 2 then (2, 2) else if opCode o = 3 then (3, 3) else (1, 3)
  | 1 | 2 | 3 => (1, 1)
  | _ => (1, 3)

/-- R105: the roles whose ranges an operation must send: a matrix operation's A, B, output and any C0, a vector operation's
sources and output, a transfer's source and destination. -/
def rolesDue (o : OpStart) : List Nat :=
  match o.queue.val with
  | 0 => [0, 1, 3] ++ (if hasC0 o then [2] else [])
  | 1 => List.range (vectorSources o).1 ++ [3]
  | _ => [0, 4]

/-- R105: the roles that an operation has. -/
def roleFits (o : OpStart) (role : Nat) : Bool :=
  match o.queue.val with
  | 0 => decide (role ≤ 1) || role == 3 || (role == 2 && hasC0 o)
  | 1 => decide (role < (vectorSources o).2) || role == 3
  | _ => role == 0 || role == 4

/-- R105: an operation sends one OPDESC for each operand, output and destination. -/
def descsMissing (ver : Nat) (u : Cu) : Bool := decide (2 ≤ ver) && (rolesDue u.op).any fun r => !u.descs.any fun d => d.role.toNat == r

/-- R97: a SCALE beat. -/
def isScale (port : Nat) (b : Beat) : Bool := port == 0 && b.kind.val == 1

/-- R105, R107: a beat that comes against the order: a SCALE beat after data, or the first data before all OPDESCs. -/
def orderBreach (ver port : Nat) (b : Beat) (u : Cu) : Bool :=
  if isScale port b then decide (2 ≤ u.phase) else decide (u.phase ≤ 1) && descsMissing ver u

/-- R107: how far an operation has come. -/
def afterBeat (port : Nat) (b : Beat) (u : Cu) : Cu := { u with phase := if isScale port b then max 1 u.phase else 2 }

/-- R126: the highest fill of any tap FIFO. -/
def notePeak (c fill : Nat) : State → State := updStation c fun t => { t with fifoPeak := max t.fifoPeak (min 15 (fill / 4)) }

/-- R223: the capsule tee could not write a sector of this beat to HBM at the tap's rate, so its sample is skipped. -/
def teeLoss (c port : Nat) (u : Cu) (s : State) : State :=
  if (port = 2 ∨ port = 3) ∧ (cuOf s c u.tag).any (·.capsule) then skipSample c u.tag 3 s else s

/-- R107: a sound beat of an operation, in its order or against it: a SCALE beat after data is not applied. -/
def beatTaken (c port : Nat) (b : Beat) (lost : Bool) (u : Cu) (s : State) : State :=
  let breach := orderBreach (station s c).tapVer port b u
  let s := if breach then gapOf c port 3 0 0 u s else s
  if breach ∧ isScale port b then s
  else
    let s := updCus c (sameCu u) (afterBeat port b) s
    let s := if u.inserted ∨ port ≠ 2 ∨ u.beats ≠ 0 then s else teeBegins c u s
    match (station s c).cus.find? (sameCu u) with
    | some u => let s := beatActs c port b u s; if lost then teeLoss c port u s else s
    | none => s

/-- R113 to R115: a beat that arrives at a FIFO that holds `fill` beats; `lost` says that the capsule tee lost a sector of it. -/
def beatArrives (c port : Nat) (b : Beat) (fill : Nat) (lost : Bool) (s : State) : State :=
  let q := (portQueue port).getD 0
  let owner := beatOwner s c port b
  let gap := fun (cause : Nat) (s : State) => match owner with
    | some u => gapOf c port cause 0 1 u s
    | none => gapUntied c port cause q 0 0 1 s
  if 64 ≤ fill then overflowFault c ((owner.map (·.tag)).getD 0) (gap 1 (notePeak c 64 s))
  else
    let s := notePeak c (fill + 1) s
    if !beatParityOk b then gap 2 s
    else
      match owner with
      | none => gap 3 s
      | some u => beatTaken c port b lost u s

/-- TAP_DATA_BEAT (R94 to R100, R113 to R115, R160). A record of a type held for G3 is ignored (R5, R102). -/
def tapBeat (c port : Nat) (arrival : TapIn) (fill : Nat) (fault : Option LaneFault) (lost : Bool) (s : State) : State :=
  if !hears s c port then s
  else
    match arrival with
    | .beat b =>
      let owner := beatOwner s c port b
      let s := beatArrives c port b fill lost s
      match owner with
      | some u => checkResidue c u fault s
      | none => s
    | .badRecord type q opid =>
      withRoom c port q.val type.toNat opid.toNat fill
        (fun s => if 0xC0 ≤ type.toNat then s else recordError c port q.val type.toNat opid.toNat s) s

/-! ### OP_START (R103, R108 to R111) -/

/-- R103, R104: an OP_START that holds what its layout does not allow. -/
def startBreach (o : OpStart) : Bool :=
  decide (8 < fmtA o) || decide (8 < fmtB o) || (decide (2 ≤ o.queue.val) && o.fmt != 0) ||
  (decide (o.queue.val < 2) && decide (8 < o.mode.toNat % 16)) || (o.queue.val == 1 && decide (fmtB o ≠ 0)) || decide (4096 ≤ o.ttag.toNat) || decide (16 ≤ o.extra.toNat) ||
  (o.queue.val != 1 && decide (vectorClass o ≠ 0)) || (o.queue.val != 0 && hasC0 o)

/-- R138, R139: the figures of a CU take their banks; a bank that is held gives BANK_BUSY. -/
def takeBank (c : Nat) (u : Cu) (slot : Nat) (s : State) : State :=
  let t := station s c
  match tfind slot t.slots with
  | none => s
  | some x =>
    match t.banks.find? (isBank u slot) with
    | some b =>
      if b.held then
        occur 0x1014 (srcStation c) u.tag.toNat x.fig.id b.holder.toNat
          (updCus c (sameCu u) (fun k => { k with busy := k.busy ++ [slot] }) s)
      else
        let take := fun (k : LatticeBank) =>
          if isBank u slot k then { k with held := true, holder := u.tag, regs := clearedRegs x.fig k.regs } else k
        updStation c (fun t => { t with banks := t.banks.map take }) s
    | none =>
      updStation c (fun t => { t with banks := t.banks ++
        [{ slot := slot, queue := u.op.queue.val, bank := u.op.opid.toNat % 4, holder := u.tag, held := true, regs := [] }] }) s

def takeBanks (c : Nat) (u : Cu) : List Nat → State → State
  | [], s => s
  | i :: r, s => takeBanks c u r (takeBank c u i s)

/-- R222, R259: a draw below 2^(16 − e). -/
def drawBelow (n e : Nat) : Bool := decide ((Config.draw n).toNat < 2 ^ (16 - e))

/-- R101: an OP_START shares its OPID with an operation that has not retired, or does not take the queue's next one. -/
def opidBreach (t : Station) (o : OpStart) : Bool :=
  let q : QState := tget {} o.queue.val t.queues
  (t.cus.any fun u => u.op.queue == o.queue && u.op.opid == o.opid && u.retire.isNone) || (q.opidKnown && q.nextOpid != o.opid)

/-- R101: a queue's numbers after an OP_START; firmware has resumed a queue that was halted (R311), and STEP counts (R205). -/
def queueStarts (o : OpStart) (job : Bool) (x : QState) : QState :=
  { x with halted := false, nextOpid := o.opid + 1, opidKnown := true
           step := if job && bit o.mode.toNat 7 then x.step + 1 else x.step }

/-- R118: FEED ties of operations that lie 1,024 or more behind in their queue are over. -/
def pruneFeeds (o : OpStart) (t : Station) : Station :=
  if o.queue.val ≠ 0 then t
  else { t with feeds := t.feeds.filter fun f => decide ((o.opid - f.fed).toNat < 1024) || decide (2 ^ 15 ≤ (o.opid - f.fed).toNat) }

/-- R111, R140: the figures of an operation that has started act on START, and its S cells check them (R160). -/
def startFigs (c : Nat) (u : Cu) (fault : Option LaneFault) (s : State) : State :=
  let s := takeBanks c u u.attached s
  match (station s c).cus.find? (sameCu u) with
  | some u => checkResidue c u fault (runFigs c u { trigs := [5] } s)
  | none => s

/-- R115: an OP_START that breaks R101 or R103. -/
def startGap (c : Nat) (u : Cu) (bad : Bool) (s : State) : State :=
  if bad then
    match (station s c).cus.find? (sameCu u) with
    | some u => gapOf c (recordPort u.op.queue.val false) 3 1 0 u s
    | none => s
  else s

/-- R115: a CU that starts after an error that no operation could be named for, and before the queue's next OP_RETIRE, is waived
with those in flight, without a record of its own (log entry 157). -/
def waivedStart (c : Nat) (u : Cu) (gapOpen : Bool) (s : State) : State :=
  if gapOpen then touchAll c 3 ((station s c).cus.filter (sameCu u)) s else s

/-- The queues of a set below some number. -/
def queuesIn (m : BitVec 4) (n : Nat) : Nat := ((List.range n).filter m.getLsbD).length

/-- R109: the OP_STARTs of one core cycle take their numbers in ascending queue order: the first number of the cycle, and the
queues of it taken before this one. -/
def cycleBase (t : Station) (all : BitVec 4) (q : Nat) : Nat × BitVec 4 :=
  if t.cycle.1 = all ∧ !t.cycle.2.getLsbD q then (t.seq, t.cycle.2) else ((t.seq + queuesIn t.cycle.1 4) % 2 ^ 24, 0)

/-- R109: a job OP_START of a queue takes its number among those of its core cycle: the number, and the station after it. -/
def takeNumber (together : BitVec 4) (q : Queue) (t : Station) : Nat × Station :=
  let all := together ||| BitVec.ofNat 4 (2 ^ q.val)
  let x := cycleBase t all q.val
  let taken := x.2 ||| BitVec.ofNat 4 (2 ^ q.val)
  ((x.1 + queuesIn all q.val) % 2 ^ 24,
   if taken = all then { t with seq := (x.1 + queuesIn all 4) % 2 ^ 24, cycle := (0, 0) } else { t with seq := x.1, cycle := (all, taken) })

/-- R101, R112: a queue takes an OPID anew: no OP_ABANDON of an older operation of that number is due any more. -/
def takesOpid (o : OpStart) (t : Station) : Station := { t with abandoned := t.abandoned.filter fun x => x != (o.queue, o.opid) }

/-- R108, R109: a job operation becomes a CU. -/
def cuStarts (c start : Nat) (together : BitVec 4) (o : OpStart) (fault : Option LaneFault) (s : State) : State :=
  let t := station s c
  let cov := t.cov
  let audit := cov.mode = 2 ∧ o.queue.val = 0
  let vector := o.queue.val = 1
  let x := if audit ∨ vector then fresh s else (0, s)
  let s := x.2
  let sampled := if audit then drawBelow x.1 (matrixExp cov) else true
  let reprise := if vector then drawBelow x.1 (repriseExp cov) else false
  let q := queueOf s c o.queue.val
  let attached := (t.slots.filter fun k => k.2.state == 2 && matchesFigure k.2.fig o sampled).map (·.1)
  let waive := waiveReason t o sampled
  let u : Cu := {
    op := o, tag := BitVec.ofNat 32 (c * 2 ^ 24 + (takeNumber together o.queue t).1), inserted := false, start := start, epoch := t.epoch
    ctx := BitVec.ofNat 12 (ctxOfCore s c), step := q.step, waive := waive, sampled := sampled, reprise := reprise
    attached := attached, figsOff := waive == 2 }
  let s := updStation c (fun t => takesOpid o (pruneFeeds o (rebindSlots attached
    { (takeNumber together o.queue t).2 with cus := t.cus ++ [u] }))) s
  let s := updQueue c o.queue.val (queueStarts o true) s
  let s := startFigs c u fault (traceOp c 0 start u s)
  let s := if reprise ∧ t.tapVer = 1 then claimFor c u (t1Sectors o) s else s
  waivedStart c u q.gapOpen (startGap c u (startBreach o || opidBreach t o) s)

/-- R230: work of pas de trois. -/
def isExec (u : Use) : Bool :=
  match u with
  | .exec _ _ _ _ _ => true
  | .copy | .kit | .replay _ _ => false

/-- R108: the notice that an inserted operation of a queue answers, pas de trois before reprise (R230); in REH mode the
operations are the kit's (R248). -/
def noticeFor (t : Station) (q : Queue) : Option Notice :=
  if t.reh.rehMode then none
  else
    let ns := t.notices.filter fun n => n.queue == q
    match ns.find? fun n => isExec n.use with
    | some n => some n
    | none => ns.head?

/-- R229: the operation that the caller inserts has the original's descriptor fields; its number is that of its OP_START, whose
other fields are not read then (log entry 149). -/
def formedOp (n : Option Notice) (o : OpStart) : OpStart :=
  match n.bind (·.op) with
  | some x => { x with queue := o.queue, opid := o.opid, inserted := true }
  | none => o

/-- R229, R237: before its operation is inserted, the core's mover copies the sources of the capsule into the understudy region. -/
def copyInputs (d : Nat) (use : Use) (s : State) : State :=
  match use with
  | .replay core tag =>
    match capsuleOf s core.val tag with
    | some k => copySources core.val k d s
    | none => s
  | .exec core tag start m _ =>
    match ((adjSlotOf s core tag start m).bind fun i => tfind i s.adj.slots).bind (inputCapsule s) with
    | some k => copySources core.val k d s
    | none => s
  | .copy | .kit => s

/-- R89, R229: a replay's first operand read stamps it with the epoch that its station holds. -/
def replayStarts (c : Nat) (use : Use) (s : State) : State :=
  match use with
  | .replay core tag =>
    let e := (station s c).epoch
    updAdj (fun a => { a with replays := a.replays.map fun r => if r.core == core && r.tag == tag then { r with epoch := e } else r }) s
  | .copy | .kit | .exec _ _ _ _ _ => s

/-- R108, R237: an operation that the caller inserts is no CU. The station runs the figures that its notice names; work other
than a kit's overwrites a kit's data (R248). -/
def insertedStarts (c start : Nat) (o : OpStart) (fault : Option LaneFault) (s : State) : State :=
  let t := station s c
  let n := noticeFor t o.queue
  let use := if t.reh.rehMode then .kit else (n.map (·.use)).getD .copy
  let figs := (n.map (·.figs)).getD []
  let attached := (t.slots.filter fun k => decide (2 ≤ k.2.state) && figs.contains k.2.fig).map (·.1)
  let bad := startBreach o || opidBreach t o
  let s := copyInputs c use s
  let u : Cu := { op := formedOp n o, tag := 0, inserted := true, use := use, start := start, epoch := t.epoch, ctx := 0, step := 0
                  sampled := false, attached := attached }
  let s := updStation c (fun t => takesOpid o (rebindSlots attached { t with
    cus := t.cus ++ [u], notices := match n with | some n => t.notices.erase n | none => t.notices
    reh := if t.reh.rehMode then t.reh else { t.reh with stale := true } })) s
  let s := replayStarts c use (updQueue c o.queue.val (queueStarts o false) s)
  startGap c u bad (startFigs c u fault (traceOp c 0 start u s))

/-- R108: an operation is inserted on either sign: its INSERTED bit, or a notice of the caller. -/
def isInserted (t : Station) (o : OpStart) : Bool := o.inserted || t.reh.rehMode || (noticeFor t o.queue).isSome

/-- OP_START, with the stamp of its core's replica (R29, R110). The caller may insert work where STOP would keep a job operation
from starting. -/
def opStarts (c : Nat) (stamp : Stamp) (o : OpStart) (fault : Option LaneFault) (s : State) : State :=
  let start := min stamp.time (coreTime s c)
  if isInserted (station s c) o then
    if inService s c && !coreInReset s c && !tableauStops s c start && (station s c).tapReady then insertedStarts c start o fault s else s
  else if canStartAt s c o.queue.val start then cuStarts c start stamp.together o fault s
  else s

/-- ISSUE_FAIL (R525): causes 1 to 5; the queue halts. -/
def issueFails (c q opid cause : Nat) (s : State) : State :=
  if !canStart s c q ∨ cause = 0 ∨ 5 < cause then s
  else occur 0x7007 (srcStation c) (c + 256 * q + 65536 * opid) cause 0 (updQueue c q (fun x => { x with halted := true, nextOpid := BitVec.ofNat 16 opid + 1, opidKnown := true }) s)

/-! ### The other records (R105, R106) -/

/-- R252: a kit operation names a range outside the understudy region. -/
def kitRangeBad (s : State) (c : Nat) (u : Cu) (d : OpDesc) : Bool :=
  u.inserted && (station s c).reh.rehMode && (decide (2 ≤ d.res.toNat) || !inRegion (spadOffset d.addr) d.len.toNat)

/-- R118: a transfer's source that comes after its FEED joins the tie. -/
def feedDesc (u : Cu) (d : OpDesc) (t : Station) : Station :=
  if u.op.queue.val < 2 ∨ d.role ≠ 0 then t
  else { t with feeds := t.feeds.map fun f =>
      if f.queue == u.op.queue && f.opid == u.op.opid then { f with sources := f.sources ++ [d] } else f }

/-- R105, R107: an OPDESC that breaks its rules: a reserved ROLE or RES, a role that the operation does not have or that has its
range already, or one that comes after a SCALE or data beat. -/
def descBreach (u : Cu) (d : OpDesc) : Bool :=
  !roleFits u.op d.role.toNat || d.res == 3 || u.phase != 0 || u.descs.any fun x => x.role == d.role

/-- OPDESC (R105). T1 has none, so one that comes is ignored (log entry 142). -/
def descArrives (c : Nat) (q : Queue) (opid : BitVec 16) (d : OpDesc) (s : State) : State :=
  let port := recordPort q.val false
  if (station s c).tapVer ≤ 1 ∨ !hears s c port then s
  else
    match opOf s c q opid with
    | none => gapUntied c port 3 q.val 2 opid.toNat 0 s
    | some u =>
      if descBreach u d then gapOf c port 3 2 0 u s
      else
        let s := updStation c (feedDesc u d) (updCus c (sameCu u) (fun u => { u with descs := u.descs ++ [d] }) s)
        if kitRangeBad s c u d then kitInvalid (station s c).reh.kit 1 c s else s

/-- WRITE_DONE (R106, R140, R155), of a mover's queue; T1 has none, so one that comes is ignored (log entry 142). -/
def writeIsDone (c : Nat) (q : Queue) (opid : BitVec 16) (crc : Word) (valid : Bool) (bytes : Word) (fault : Option LaneFault)
    (s : State) : State :=
  let port := recordPort q.val true
  if (station s c).tapVer ≤ 1 ∨ !hears s c port then s
  else if q.val < 2 then recordError c port q.val 5 opid.toNat s
  else
    match opOf s c q opid with
    | none => gapUntied c port 3 q.val 5 opid.toNat 0 s
    | some u =>
      let v := { u with writes := u.writes ++ [(crc, valid, bytes.toNat)] }
      let f : Feed := { trigs := [6], elems := [(11, oneElem crc.toNat)], wdone := some (crc, bytes.toNat) }
      checkResidue c v fault (runFeeds c v [f] (putCu c u v s))

/-- FEED (R106, R118), of a mover's queue: T3 only, so under T2 it is a protocol error (R102); T1 ignores it (log entry 142). -/
def feedArrives (c : Nat) (q : Queue) (opid fed : BitVec 16) (role : Nat) (s : State) : State :=
  let port := recordPort q.val true
  if (station s c).tapVer ≤ 1 ∨ !hears s c port then s
  else if (station s c).tapVer ≠ 3 ∨ q.val < 2 ∨ 2 < role then recordError c port q.val 6 opid.toNat s
  else
    match opOf s c q opid with
    | none => gapUntied c port 3 q.val 6 opid.toNat 0 s
    | some u =>
      let tie : FeedTie := { fed := fed, queue := q, opid := opid, sources := u.descs.filter fun d => d.role == 0 }
      updStation c (fun t => { t with feeds := t.feeds ++ [tie] }) s

/-! ### OP_ABANDON (R61, R112) -/

/-- R61: the scratchpad locations that the operation was writing hold undefined values. -/
def undefineOutput (c : Nat) (d : OpDesc) (s : State) : State :=
  if (d.role == 3 || d.role == 4) && decide (d.res.toNat ≤ 1) then
    let x := fresh s
    let a := spadOffset d.addr
    updStation c (fun t => { t with spad := tputs 0 a ((List.range d.len.toNat).map fun i => Config.undefByte (2 ^ 21 * x.1 + i)) t.spad }) x.2
  else s

/-- R61: without an OPDESC of its output the ranges that an abandoned operation was writing are free (log entry 142). -/
def undefineRanges (c n : Nat) : List (Nat × Nat) → State → State
  | [], s => s
  | (a, len) :: r, s =>
    undefineRanges c n r (updStation c (fun t => { t with
      spad := tputs 0 (a % 2 ^ 21) ((List.range (len % 2 ^ 21)).map fun i => Config.undefByte (2 ^ 21 * n + (a + i) % 2 ^ 21)) t.spad }) s)

def undefineOutputs (c : Nat) : List OpDesc → State → State
  | [], s => s
  | d :: r, s => undefineOutputs c r (undefineOutput c d s)

/-- R61: what an abandoned operation was writing in its core's scratchpad. -/
def undefineWritten (c : Nat) (u : Cu) (s : State) : State :=
  match outputDesc u with
  | some _ => undefineOutputs c u.descs s
  | none => let x := fresh s; undefineRanges c x.1 (Config.lostRanges x.1) x.2

/-- R61: sectors that a transfer was writing in other cores' scratchpads hold undefined values. -/
def undefineSectors : List (Nat × Nat) → State → State
  | [], s => s
  | (c, a) :: r, s =>
    let x := fresh s
    undefineSectors r (spadPut c false a ((List.range 64).map fun i => Config.undefByte (2 ^ 21 * x.1 + i)) x.2)

/-- R61, R112: an operation in flight is abandoned: no verdict, no capsule, no counts. -/
def abandonOp (c : Nat) (u : Cu) (s : State) : State :=
  let s := traceOp c 2 u.start u s
  let s := if u.reprise ∧ !u.inserted then skipSample c u.tag 6 s else s
  let s := releaseBanks c u s
  let s := updStation c (fun t => sweepSlots (heldFigs s) { t with cus := t.cus.filter fun x =>
    !(x.op.queue == u.op.queue && x.op.opid == u.op.opid && x.start == u.start && x.retire.isNone) }) s
  observeStep u.ctx.toNat (undefineSectors u.wrote (undefineWritten c u s))

def abandonOps (c : Nat) : List Cu → State → State
  | [], s => s
  | u :: r, s => abandonOps c r (abandonOp c u s)

/-- R61, R106: the OP_ABANDONs of operations that the complex has abandoned itself are due. -/
def abandonsDue (c : Nat) (us : List Cu) : State → State :=
  updStation c fun t => { t with abandoned := t.abandoned ++ us.map fun u => (u.op.queue, u.op.opid) }

/-- OP_ABANDON: of an operation that is still in flight here, or that the complex has abandoned; of any other it is a protocol
error (R107). -/
def opAbandoned (c : Nat) (q : Queue) (opid : BitVec 16) (s : State) : State :=
  match opOf s c q opid with
  | some u => insertedAllLost [u] (abandonOp c u s)
  | none =>
    let port := recordPort q.val true
    if (station s c).abandoned.contains (q, opid) then
      updStation c (fun t => { t with abandoned := t.abandoned.filter fun x => x != (q, opid) }) s
    else if hears s c port then gapUntied c port 3 q.val 4 opid.toNat 0 s
    else s

/-! ### OP_RETIRE (R30, R110, R188, R190, R260, R425) -/

/-- R46, R425: the format under which a matrix operation counts. -/
def countedFormat (o : OpStart) : Nat := if fmtA o = 4 ∧ fmtB o ≠ 4 then fmtB o else fmtA o

/-- R424: the counter of an operation and what it adds. -/
def counterOf (o : OpStart) : Nat × Nat :=
  match o.queue.val with
  | 0 =>
    let i := match countedFormat o with | 0 => 0 | 1 => 1 | 2 => 2 | 3 => 2 | 4 => 3 | 5 => 4 | _ => 5
    (i, 16384 * o.len.toNat)
  | 1 => (6 + vectorClass o, 1)
  | 2 => (14, o.len.toNat)
  | _ => (15, o.len.toNat)

/-- R424, R425: an operation counts at its retire; the counters stand still while tableau holds the chip stopped. -/
def countOp (c retire : Nat) (o : OpStart) (s : State) : State :=
  if tableauStops s c retire then s
  else
    let k := counterOf o
    updStation c (fun t => { t with counters := tput 0 k.1 ((tget 0 k.1 t.counters + k.2) % 2 ^ 64) t.counters }) s

/-- R260: work executed. -/
def countExecuted (o : OpStart) : State → State :=
  updLed fun l =>
    match o.queue.val with
    | 0 => { l with mt := satAdd (2 ^ 64 - 1) l.mt (16384 * o.len.toNat) }
    | 1 => { l with vt := satAdd 0xFFFFFFFF l.vt 1 }
    | _ => { l with bt := satAdd (2 ^ 64 - 1) l.bt o.len.toNat }

/-- R207: the retire of the last CU of a step. -/
def noteStepRetire (u : Cu) (retire : Nat) : State → State :=
  updCtx u.ctx.toNat fun x => { x with lastRetire := tput 0 u.step (max retire (tget 0 u.step x.lastRetire)) x.lastRetire }

/-- R225: the retire time goes into the capsule. -/
def capsuleRetires (c : Nat) (u : Cu) (retire : Nat) (s : State) : State :=
  let s := if u.reprise then teeBegins c u s else s
  updCapsule c u.tag (fun k => { k with retire := retire, limitFrom := retire }) s

/-- R30: CUs in the pending list. -/
def pendingCount (t : Station) : Nat := (t.cus.filter (·.pending)).length

/-- R188, R190: a CU enters the pending list, or has its verdict at retire. -/
def enterPending (c : Nat) (u : Cu) (s : State) : State :=
  let mark := fun (s : State) => updCus c (sameCu u) (fun x => { x with pending := true }) s
  if !u.poison ∧ (u.gap ≠ 0 ∨ u.waive ≠ 0) then giveVerdict c u (outcomesOf (station s c) u) 0 s
  else if 128 ≤ pendingCount (station s c) then
    if u.poison then giveVerdict c u (outstanding u) 0 s
    else giveVerdict c { u with pending := true, forced := 0x8002, forcedFig := 0 } (outstanding u) 0 (mark s)
  else mark s

/-- R107: an operation of the queue that started before is still in flight. -/
def retiresEarly (t : Station) (u : Cu) : Bool :=
  (t.cus.takeWhile fun x => !sameCu u x).any fun x => x.op.queue == u.op.queue && x.retire.isNone

/-- R107, R110: an OP_RETIRE that comes before the last result beat, or before the WRITE_DONEs of a transfer, or from an
operation that has not sent its OPDESCs. -/
def retireBreach (ver : Nat) (u : Cu) (sectors : Nat) : Bool :=
  (decide (2 ≤ ver) && decide (u.phase ≤ 1) && descsMissing ver u) ||
  match u.op.queue.val with
  | 0 => decide (u.resSectors < 128 * rowLanes u.op false)
  | 1 => decide (u.resSectors < sectors)
  | _ => decide (2 ≤ ver) && decide ((u.writes.map (·.2.2)).sum < u.op.len.toNat)

/-- R108, R229, R237: an inserted operation retires: what its station formed goes to the caller alone. -/
def insertedRetires (c : Nat) (u : Cu) (retire : Nat) (s : State) : State :=
  let o := outcomeFormed (station s c) u
  let s := updQueue c u.op.queue.val (fun x => { x with lastOpid := u.op.opid, lastRetire := retire, gapOpen := false }) s
  let s := releaseBanks c u (traceOp c 1 retire u s)
  let s := updStation c (fun t => sweepSlots (heldFigs s) { t with cus := t.cus.filter fun x => !(sameCu u x) }) s
  match u.use with
  | .copy | .kit => s
  | .replay core tag => replayEnds core tag o.results s
  | .exec core tag start m w => execEnds c core tag start m w o s

/-- A job operation retires. -/
def cuRetires (c : Nat) (u : Cu) (retire : Nat) (s : State) : State :=
  let s := countExecuted u.op (countOp c retire u.op s)
  let s := noteStepRetire u retire (capsuleRetires c u retire s)
  let s := updCus c (sameCu u) (fun x => { x with retire := some retire }) s
  let s := updQueue c u.op.queue.val (fun x => { x with lastOpid := u.op.opid, lastRetire := retire, gapOpen := false }) s
  let s := observeStep u.ctx.toNat (traceOp c 1 retire u s)
  match (station s c).cus.find? (sameCu u) with
  | some u => enterPending c u s
  | none => s

/-- OP_RETIRE. -/
def opRetires (c : Nat) (q : Queue) (opid : BitVec 16) (retire sectors : Nat) (fault : Option LaneFault) (s : State) : State :=
  let port := recordPort q.val true
  if clusterInReset s (c / 16) ∨ !(station s c).tapReady then s
  else
    match opOf s c q opid with
    | none => gapUntied c port 3 q.val 3 opid.toNat 0 s
    | some u =>
      let r := max u.start (min retire (coreTime s c))
      let bad := retireBreach (station s c).tapVer u sectors || retiresEarly (station s c) u
      let s := if bad then gapOf c port 3 3 0 u s else s
      let s := checkResidue c u fault (runFigs c u { trigs := [4] } s)
      match (station s c).cus.find? (sameCu u) with
      | some u => if u.inserted then insertedRetires c u r s else cuRetires c u r s
      | none => s

/-! ### INB (R94, R118, R119, R227) -/

/-- R227: a refused write's operation is abandoned at its core. -/
def abandonWriter (srcChip : ChipId) (src : Nat) (opid : BitVec 16) (s : State) : State :=
  if srcChip ≠ s.boot.chip then s
  else
    match (station s src).cus.find? fun u => decide (2 ≤ u.op.queue.val) && u.op.opid == opid && u.retire.isNone with
    | some u => abandonsDue src [u] (insertedAllLost [u] (abandonOp src u s))
    | none => s

/-- R61: a transfer of a core of this chip writes a sector into another core's scratchpad. -/
def noteWrote (c : Nat) (w : InbWrite) (s : State) : State :=
  if w.chip ≠ s.boot.chip then s
  else updCus w.core.val (fun u => decide (2 ≤ u.op.queue.val) && u.op.opid == w.opid && u.retire.isNone)
    (fun u => { u with wrote := u.wrote ++ [(c, w.addr.toNat)] }) s

/-- R118, R119, R227: a sector that another agent writes into the core's scratchpad: refused in the understudy region, held in
a pinned range, else landed. -/
def inbSector (c : Nat) (callerMover : Bool) (w : InbWrite) (s : State) : State :=
  let a := w.addr.toNat
  let region := inRegion a 64
  if region ∧ !callerMover then
    abandonWriter w.chip w.core.val w.opid (updOut (fun o => { o with refused := (c, w.core.val, w.opid.toNat) :: o.refused }) s)
  else
    let s := noteWrote c w s
    match pinAt (station s c) a with
    | some _ => updStation c (fun t => countHeld { t with heldWrites := t.heldWrites ++ [w] }) s
    | none =>
      let s := landSector c a w s
      if region then updReh c (fun r => { r with stale := true }) s else s

def inbSectors (c : Nat) (callerMover : Bool) : List InbWrite → State → State
  | [], s => s
  | w :: r, s => inbSectors c callerMover r (inbSector c callerMover w s)

/-- R94, R113, R115: the mirror of the write on the INB port: a full FIFO or a lane's parity error is a tap gap of no CU. -/
def inbMirror (c : Nat) (lanes : List Lane) (fill : Nat) (s : State) : State :=
  if !hears s c 6 then s
  else if 64 ≤ fill then overflowFault c 0 (recordGap c 6 1 0 0 0 1 (notePeak c 64 s))
  else
    let s := notePeak c (fill + 1) s
    if lanesParityOk lanes then s else recordGap c 6 2 0 0 0 1 s

/-- INB_BEAT: the sectors of a beat, from its address on. -/
def inbArrives (c : Nat) (addr : BitVec 21) (srcChip : ChipId) (srcCore : Core) (srcOpid : BitVec 16) (lanes : List Lane) (fill : Nat)
    (callerMover : Bool) (s : State) : State :=
  let ws := (List.range 2).filterMap fun i =>
    match lanes[i]? with
    | some l =>
      if l.valid then
        some ({ addr := BitVec.ofNat 21 (addr.toNat / 64 * 64 + 64 * i), data := l.data, poison := l.poison, chip := srcChip
                core := srcCore, opid := srcOpid } : InbWrite)
      else none
    | none => none
  inbSectors c callerMover ws (inbMirror c lanes fill s)

/-! ### Negotiation (R121 to R126) -/

/-- R123: the highest version of an offer at or above the floor, or 0. -/
def settleTap (mask : Byte) (floor : Nat) : Nat :=
  ((List.range 3).map fun i => 3 - i).find? (fun v => mask.getLsbD (v - 1) && decide (floor ≤ v)) |>.getD 0

/-- TAP_OFFER: after each release of the core from reset. The whole mask is kept, its bits held for G3 too (log entry 143). -/
def tapOffered (c : Nat) (mask : Byte) (s : State) : State :=
  if coreInReset s c ∨ (station s c).tapReady then s
  else
    let floor := s.cfg.floors.1
    let v := settleTap mask floor
    let s := updStation c (fun t => { t with tapOffer := mask, tapFloor := floor, tapVer := v, tapSettled := true }) s
    let s := occur 0xA006 (srcStation c) 1 c (v + 256 * floor) s
    let s := epochTaken c s
    if v = 0 ∧ inService s c ∧ s.boot.mapped then suspect 4 4 c 0 0 s else s

/-- TAP_READY: the station asserts READY, once it has settled on an offer since the core last left reset. -/
def tapIsReady (c : Nat) (s : State) : State :=
  if coreInReset s c ∨ (station s c).tapVer = 0 ∨ !(station s c).tapSettled then s else updStation c (fun t => { t with tapReady := true }) s

/-! ### The meanings -/

/-- R121 to R123. -/
def execTapOffer (t : Nat) (core : Core) (mask : Byte) (s : State) : Host.Outcome State Fault Refusal :=
  .next (tapOffered core.val mask (atTime t s))

/-- R123. -/
def execTapReady (t : Nat) (core : Core) (s : State) : Host.Outcome State Fault Refusal :=
  .next (tapIsReady core.val (atTime t s))

/-- R525. -/
def execIssueFail (t : Nat) (core : Core) (queue : Queue) (opid : BitVec 16) (cause : BitVec 4) (s : State) :
    Host.Outcome State Fault Refusal :=
  .next (issueFails core.val queue.val opid.toNat cause.toNat (atTime t s))

/-- R103, R108, R109. -/
def execOpStart (t : Nat) (tap : FaultIntake) (start : Stamp) (rec : OpStart) (s : State) :
    Host.Outcome State Fault Refusal :=
  .next (withRoom tap.core.val (recordPort rec.queue.val false) rec.queue.val 1 rec.opid.toNat tap.fill
    (opStarts tap.core.val start rec tap.fault) (atTime t s))

/-- R105. -/
def execOpdesc (t : Nat) (tap : Intake) (queue : Queue) (opid : BitVec 16) (d : OpDesc) (s : State) :
    Host.Outcome State Fault Refusal :=
  .next (withRoom tap.core.val (recordPort queue.val false) queue.val 2 opid.toNat tap.fill (descArrives tap.core.val queue opid d) (atTime t s))

/-- R94 to R100, R141. -/
def execTapDataBeat (t : Nat) (core : Core) (port : Fin 6) (arrival : TapIn) (fill : Nat) (fault : Option LaneFault)
    (teeLost : Bool) (s : State) : Host.Outcome State Fault Refusal :=
  .next (tapBeat core.val port.val arrival fill fault teeLost (atTime t s))

/-- R94, R118, R119, R227. -/
def execInbBeat (t : Nat) (tap : Intake) (addr : BitVec 21) (srcChip : ChipId) (srcCore : Core) (srcOpid : BitVec 16)
    (lanes : List Lane) (callerMover : Bool) (s : State) : Host.Outcome State Fault Refusal :=
  .next (inbArrives tap.core.val addr srcChip srcCore srcOpid lanes tap.fill callerMover (atTime t s))

/-- R106, R110, R188. The count of poisoned result sectors changes nothing in the complex. -/
def execOpRetire (t : Nat) (tap : FaultIntake) (queue : Queue) (opid : BitVec 16) (retire : Nat) (sectors : Word) (poisoned : BitVec 16) (s : State) : Host.Outcome State Fault Refusal :=
  let _ := poisoned
  .next (withRoom tap.core.val (recordPort queue.val true) queue.val 3 opid.toNat tap.fill
    (opRetires tap.core.val queue opid retire sectors.toNat tap.fault) (atTime t s))

/-- R112. -/
def execOpAbandon (t : Nat) (tap : Intake) (queue : Queue) (opid : BitVec 16) (cause : Byte) (s : State) :
    Host.Outcome State Fault Refusal :=
  let _ := cause
  .next (withRoom tap.core.val (recordPort queue.val true) queue.val 4 opid.toNat tap.fill (opAbandoned tap.core.val queue opid) (atTime t s))

/-- R106, R155. -/
def execWriteDone (t : Nat) (tap : FaultIntake) (queue : Queue) (opid : BitVec 16) (crc : Word) (valid : Bool) (bytes : Word) (s : State) : Host.Outcome State Fault Refusal :=
  .next (withRoom tap.core.val (recordPort queue.val true) queue.val 5 opid.toNat tap.fill
    (writeIsDone tap.core.val queue opid crc valid bytes tap.fault) (atTime t s))

/-- R106, R118. -/
def execFeed (t : Nat) (tap : Intake) (queue : Queue) (opid fed : BitVec 16) (role : Byte) (s : State) :
    Host.Outcome State Fault Refusal :=
  .next (withRoom tap.core.val (recordPort queue.val true) queue.val 6 opid.toNat tap.fill
    (feedArrives tap.core.val queue opid fed role.toNat) (atTime t s))

end Sys2Proof.Machine
end

