-- ==== Sys2Proof/Machine/Ladder.lean ====
section
/-! DEFINITION. Deadlines and the reset ladder (R27, R366 to R397). -/

namespace Sys2Proof.Machine

/-- The caller's control sequencer as a source of records (R401). -/
def srcControl : BitVec 16 := srcCaller 0

/-- PHL_RST_CMD's place in the table of results. -/
def regRstCmd : Nat := 0x070000

/-! ### Scopes (R369, R374) -/

/-- A level of the ladder with its scope: cause, level, index and queue. -/
structure Scope where
  cause : Nat
  level : Nat
  index : Nat
  queue : Nat
deriving DecidableEq, Repr

/-- R369: the next level above, whose scope contains the scope. -/
def scopeAbove (x : Scope) : Scope :=
  match x.level with
  | 0 => { x with level := 1, queue := 0 }
  | 1 => { x with level := 2, index := x.index / 16, queue := 0 }
  | n => { x with level := min 4 (n + 1), index := 0, queue := 0 }

/-- R374: a level in progress whose scope holds another scope. -/
def holds (l : Level) (x : Scope) : Bool :=
  decide (x.level ≤ l.level) &&
  (match l.level with
   | 0 => l.index == x.index && l.queue == x.queue
   | 1 => l.index == x.index
   | 2 => l.index == (if x.level = 2 then x.index else x.index / 16)
   | _ => true)

/-- R392: the values that 0 selects, for the time without a charter. -/
def unsetPolicy : ResetPolicy := { startL1 := false, oosCount := 3, repeatMs := 1000, oosWindowS := 86400, floorUs := 0 }

/-- R374: the scope holds a level in progress. -/
def heldBy (x : Scope) (l : Level) : Bool :=
  holds { seq := 0, level := x.level, cause := 0, index := x.index, queue := x.queue, start := 0, phase := 0, contexts := 0, counted := false
          policy := unsetPolicy }
    { cause := 0, level := l.level, index := l.index, queue := l.queue }

/-- The physical cores of a level's scope. -/
def scopeCores (l : Level) : List Nat := (List.range 256).filter fun c => if l.level = 0 then l.index == c else inScope l c 0

/-- The clusters that a level resets (R60). -/
def scopeClusters (l : Level) : List Nat :=
  if l.level < 2 then [] else if l.level = 2 then [l.index] else List.range 16

/-- Bits of a mask from a list of places. -/
def maskBits (w : Nat) (l : List Nat) : BitVec w := l.foldl (fun m i => m ||| BitVec.ofNat w (2 ^ i)) 0

def activeOf (s : State) (seq : Word) : Option Level := s.rst.active.find? (·.seq == seq)

/-- Change a level in progress, and the latest level with it when it is that one. -/
def updLevel (seq : Word) (f : Level → Level) : State → State :=
  updRst fun r => { r with
    active := r.active.map fun l => if l.seq == seq then f l else l
    latest := r.latest.map fun l => if l.seq == seq then f l else l }

/-- R372, R374: a level ends: it is no longer in progress. -/
def endLevel (seq : Word) (phase : Nat) (s : State) : State :=
  let s := updLevel seq (fun l => { l with phase := phase }) s
  updRst (fun r => { r with active := r.active.filter (·.seq != seq) }) s

/-! ### Policy (R392) -/

def resetPolicy (s : State) : ResetPolicy :=
  (s.cfg.active.map (·.reset)).getD unsetPolicy

/-- R391: counted resets within the window of a policy. -/
def resetsWithin (s : State) (p : ResetPolicy) : Nat :=
  (s.rst.hist.filter fun t => decide (s.now < t + p.oosWindowS * second)).length

/-- R391: counted resets within the window. -/
def countedResets (s : State) : Nat := resetsWithin s (resetPolicy s)

/-- R373: the level that a fault starts: the next above a recent reset of the same scope, again and again. -/
def raiseRepeat (s : State) : Nat → Scope → Scope
  | 0, x => x
  | n + 1, x =>
    if x.level < 4 ∧ s.rst.done.any (fun d => d.1 == x.level && d.2.1 == x.index && d.2.2.1 == x.queue &&
        decide (s.now < d.2.2.2 + (resetPolicy s).repeatMs * 1000000)) then
      raiseRepeat s n { scopeAbove x with cause := 3 }
    else x

/-! ### Notices (R386, R387) -/

/-- R387: a withdrawal notice. -/
def noticeBytes (s : State) (kind : Nat) (late : Bool) (l : Level) (time expect : Nat) : List Byte :=
  sealed64 ([2, 0, BitVec.ofNat 8 kind, BitVec.ofNat 8 (b2n late)] ++ toLe 2 s.boot.chip.toNat ++
    [BitVec.ofNat 8 l.level, BitVec.ofNat 8 l.cause] ++ toLe 8 time ++ toLe 4 expect ++ toLe 2 (l.seq.toNat % 65536) ++ [0, 0] ++
    toLe 4 s.cfg.epoch.toNat)

/-- R386: a notice goes to the fabric manager and to the board controller. -/
def sendNotice (bytes : List Byte) (s : State) : State :=
  oobAdd 2 bytes (sendMgmt bytes s)

/-- R387: deadline of a level in ms. -/
def expectMs (l : Level) : Nat := if l.level = 3 then 3000 else 8000

def sendWithdraw (late : Bool) (l : Level) (s : State) : State :=
  updRst (fun r => { r with withdrawn := true }) (sendNotice (noticeBytes s 1 late l l.start (expectMs l)) s)

/-! ### Starting a level (R374 to R376) -/

/-- R393: the scope word. -/
def scopeWord (l : Level) : Nat := l.level + 16 * l.cause + 256 * l.queue + 65536 * (if 3 ≤ l.level then 0 else l.index)

/-- R376: running contexts with a core in the scope. -/
def contextsIn (s : State) (l : Level) : List Nat :=
  if l.level = 0 then [] else (s.ctxs.filter fun x => (ctxCores s x.1).any fun c => inScope l c 0).map (·.1)

/-- R376: the earliest start of a core's sync and barrier operations in flight, or an instant. -/
def earliestSync (s : State) (c : Nat) (m : Nat) : Nat :=
  (List.range 4).foldl (fun m q => (queueOf s c q).syncOps.foldl (fun m o => min m o.start) m) m

/-- R376: the earliest time from which results of the scope may be lost, before the 4 ns. -/
def earliestLost (s : State) (l : Level) : Nat :=
  (scopeCores l).foldl (fun m c => (station s c).cus.foldl (fun m u =>
    match u.retire with
    | none => min m u.start
    | some r => if u.pending ∧ 2 ≤ l.level then min m r else m) (earliestSync s c m)) l.start

/-- R376: contain the contexts, each with an incident of reason 5. -/
def containFor (seq : Word) (tc : Nat) : List Nat → State → State
  | [], s => s
  | x :: r, s => containFor seq tc r (openAtUnsealed x 5 (contain x tc none (some seq) s))

/-- R391: a start of L3 or L4 counts, unless the chip is STARTING or the level descends from a counted one. -/
def countStart (l : Level) (s : State) : State :=
  if l.level < 3 ∨ l.counted ∨ s.led.state = 0 then s
  else
    let before := countedResets s
    let s := updRst (fun r => { r with
      hist := (s.now :: r.hist).take 16
      oosSeq := if (resetPolicy s).oosCount ≤ before then r.oosSeq else l.seq }) s
    updLevel l.seq (fun l => { l with counted := true }) s

/-- R374: an absorbed cause is counted. -/
def absorb (cause : Nat) : State → State :=
  updRst fun r => { r with absorbed := tput 0 cause (tget 0 cause r.absorbed + 1) r.absorbed }

/-- R375 steps 1 to 3; smaller resets in progress end. -/
def startLevel (x : Scope) (counted : Bool) (s : State) : State :=
  let l : Level := {
    seq := s.rst.seq + 1, level := x.level, cause := x.cause, index := if 3 ≤ x.level then 0 else x.index
    queue := if x.level = 0 then x.queue else 0, start := s.now, phase := 1, contexts := 0, counted := counted
    policy := resetPolicy s }
  let ctxs := if s.rst.callerIn then [] else contextsIn s l
  let l := { l with contexts := ctxs.length }
  let s := updRst (fun r => { r with
    seq := l.seq, latest := some l, active := r.active.filter (fun a => !heldBy x a) ++ [l] }) s
  let s := countStart l s
  let ev := mkEv s 0x7004 srcControl (BitVec.ofNat 32 (scopeWord l)) l.seq (BitVec.ofNat 32 l.contexts) s.now false
  let s := msix 3 (occurEv ev s)
  let s := if 1 ≤ l.level then capture (BitVec.ofNat 8 (l.level + 16 * l.cause)) l.index l.queue (decide (l.cause = 5)) (some ev) l.seq s else s
  let s := if 3 ≤ l.level ∧ l.cause ≠ 5 ∧ !s.rst.callerIn then sendWithdraw false l s else s
  containFor l.seq (earliestLost s l - 4) ctxs s

/-- R374: a reset starts, is absorbed, or waits for the tableau release. -/
def startReset (x : Scope) (s : State) : State :=
  if s.led.state = 5 then s
  else if tableauHolds s then updRst (fun r => { r with waiting := r.waiting ++ [(x.cause, x.level, x.index, x.queue)] }) s
  else if s.rst.active.any fun l => holds l x then absorb x.cause s
  else startLevel x false s

/-- R373, R374: a fault starts a reset: at the level given, or above a recent one. -/
def startFault (x : Scope) (s : State) : State := startReset (raiseRepeat s 4 x) s

/-- R374: the resets that waited for the tableau release start. -/
def startWaiting : List (Nat × Nat × Nat × Nat) → State → State
  | [], s => s
  | (c, l, i, q) :: r, s => startWaiting r (startReset { cause := c, level := l, index := i, queue := q } s)

/-! ### Deadline misses (R366 to R368) -/

/-- R366, R367: a CU or inserted operation of a queue that has missed its deadline and is not recorded. -/
def overdueOp (s : State) (c q : Nat) : Option Cu :=
  (station s c).cus.find? fun u =>
    u.op.queue.val == q && u.retire.isNone && !u.missed && decide (u.start + deadlineUs s u * 1000 + u.held ≤ coreTime s c)

/-- R366, R367: the same of a sync operation: a signal at its gate point, or a WATCH of a remote object (log entry 127). -/
def overdueSync (s : State) (c q : Nat) : Option SyncOp :=
  (queueOf s c q).syncOps.find? fun o =>
    !untimed o && !o.missed && decide (o.start + syncDeadlineUs s o * 1000 + o.held ≤ coreTime s c)

/-- R368: tag, OPID and effective deadline of the operation of a queue that has missed. -/
def missOf (s : State) (c q : Nat) : Option (Word × BitVec 16 × Nat) :=
  match overdueOp s c q with
  | some u => some (u.tag, u.op.opid, deadlineUs s u)
  | none => (overdueSync s c q).map fun o => (0, o.opid, syncDeadlineUs s o)

/-- R366: a miss is recorded once. -/
def markMissed (c q : Nat) (opid : BitVec 16) (s : State) : State :=
  updQueue c q (fun x => { x with syncOps := x.syncOps.map fun o => if o.opid == opid then { o with missed := true } else o })
    (updCus c (fun v => v.op.queue.val == q && v.op.opid == opid && v.retire.isNone) (fun v => { v with missed := true }) s)

/-- R370, R373: the level that a miss starts: L0 or L1, raised over a recent reset; inside a reset in progress it is not raised, and
nothing starts (R368). -/
def missScope (s : State) (c q : Nat) : Scope :=
  let l1 := (resetPolicy s).startL1
  let x : Scope := { cause := 1, level := if l1 then 1 else 0, index := c, queue := if l1 then 0 else q }
  if s.rst.active.any fun l => holds l x then x else raiseRepeat s 4 x

/-- R368: the miss is recorded, a snapshot captured, the ladder started. -/
def deadlineMissed (c q : Nat) (s : State) : State :=
  if tableauHolds s ∨ clusterInReset s (c / 16) then s
  else
    match missOf s c q with
    | none => s
    | some m =>
      let x := missScope s c q
      let s := markMissed c q m.2.1 s
      let ev := mkEv s 0x7001 (srcStation c) m.1 (BitVec.ofNat 32 (c + 256 * q + 65536 * m.2.1.toNat))
        (BitVec.ofNat 32 (m.2.2 % 2 ^ 24 + 2 ^ 24 * x.level)) (stampOf s (srcStation c)) false
      let s := occurEv ev s
      if callerOff s then s else startReset x (capture 0x17 c q false (some ev) 0 s)

/-! ### Step 5: the scope stops (R375, R381, R385) -/

/-- The objects of a core's bank. -/
def bankObjects (s : State) (c : Nat) : List Nat :=
  match logOf s c with
  | none => []
  | some l => (List.range 32).map (32 * l + ·)

/-- R375: a watch slot of the scope is freed, and its cancel goes to the home. -/
def cancelSlot (c w : Nat) (s : State) : State :=
  let k := watchOf s c w
  let p := waiterParty s c k.queue w
  let s := freeWatch c w s
  let s := updQueue c k.queue (fun x => { x with
    wait := if x.wait = some w then none else x.wait, syncOps := x.syncOps.filter (·.opid != k.opid) }) s
  match k.barrier with
  | some b => updBarrier b (fun x => { x with waiters := x.waiters.filter (· != (c, w)) }) s
  | none => if s.rst.callerIn ∧ !isLocal s k.name then s else sendCancel c w k.name p s

def cancelSlots (c : Nat) : List Nat → State → State
  | [], s => s
  | w :: r, s => cancelSlots c r (cancelSlot c w s)

/-- R381: the slots that a level frees on a core: at L0 the blocking wait of the queue. -/
def slotsFreed (s : State) (l : Level) (c : Nat) : List Nat :=
  (List.range 16).filter fun w =>
    (watchOf s c w).valid && (l.level != 0 || ((queueOf s c l.queue).wait == some w))

/-- R375, R385: an object's subscriptions: local waiters are released at every level; remote ones below L3 only. -/
def dropSubs (level o : Nat) (s : State) : State :=
  let x := object s o
  let near := x.subs.filter fun u => partyChip u.party == s.boot.chip
  sendReleases o 4 x.value s.now (if level < 3 then x.subs else near) (updObject o (fun x => { x with subs := [] }) s)

def dropAllSubs (level : Nat) : List Nat → State → State
  | [], s => s
  | o :: r, s => dropAllSubs level r (dropSubs level o s)

/-- Subscriptions that are released. -/
def releasedSubs (s : State) (level : Nat) (os : List Nat) : Nat :=
  os.foldl (fun n o => n + ((object s o).subs.filter fun u => decide (level < 3) || partyChip u.party == s.boot.chip).length) 0

/-- R385: a held signal for an object of the scope. -/
def heldFor (s : State) (os : List Nat) (h : HeldMsg) : Bool := h.type == 1 && isLocal s h.msg.name && os.contains (nameObject h.msg.name)

/-- R385: held messages without the signals that satisfy a test and without their claims: the CARRYs that came before them, after the
signal before. `l` are the messages since that signal. -/
def withoutSignals (hit : HeldMsg → Bool) (l : List HeldMsg) : List HeldMsg → List HeldMsg
  | [] => l
  | h :: r =>
    if h.type ≠ 1 then withoutSignals hit (l ++ [h]) r
    else if hit h then l.filter (·.type != 7) ++ withoutSignals hit [] r
    else l ++ h :: withoutSignals hit [] r

/-- R385: held signals are discarded with their claim (log entry 25): that of a source's first held signal is CLAIM. -/
def discardSignals (hit : HeldMsg → Bool) (a : Arrival) : Arrival :=
  { a with
    claim := if ((a.held.find? (·.type == 1)).map hit).getD false then 0 else a.claim
    held := withoutSignals hit [] a.held }

/-- R346: sources whose first held signal was discarded go on. -/
def drainSources : List Nat → State → State
  | [], s => s
  | k :: r, s => drainSources r (drainArrival (BitVec.ofNat 32 k) s)

def dropHeld (os : List Nat) (s : State) : State :=
  let keys := (s.sync.arrivals.filter fun a => a.2.held.any (heldFor s os)).map (·.1)
  drainSources keys (keys.foldl (fun s k => updArrival (BitVec.ofNat 32 k) (discardSignals (heldFor s os)) s) s)

def heldCount (s : State) (os : List Nat) : Nat := (s.sync.arrivals.map fun a => (a.2.held.filter (heldFor s os)).length).sum

/-- R321, R385: the subscriptions and held signals of a core's bank go; PARTNER_RESET counts them. -/
def dropBank (l : Level) (c : Nat) (mid : State → State) (s : State) : State :=
  let os := if l.level = 0 then [] else bankObjects s c
  let n := releasedSubs s l.level os
  let d := heldCount s os
  let s := mid (dropHeld os (dropAllSubs l.level os s))
  if n = 0 ∧ d = 0 then s else occur 0x6002 srcControl (c + 256 * l.level) n d s

/-- R375 step 5 on one core. -/
def quiesceCore (l : Level) (c : Nat) (s : State) : State :=
  dropBank l c (fun s => cancelSlots c (slotsFreed s l c) s) s

def quiesceCores (l : Level) : List Nat → State → State
  | [], s => s
  | c :: r, s => quiesceCores l r (quiesceCore l c s)

/-- R358, R378: the barrier contexts that a level breaks. -/
def breaksBarrier (s : State) (l : Level) (x : Barrier) : Bool :=
  decide (3 ≤ l.level) || (scopeCores l).any fun c => match logOf s c with | some n => x.mask.toNat.testBit n | none => false

/-- R194, R376: CONTAINED for each context that a reset contained; no CU is named. -/
def recordContained (seq : Word) : List (Nat × Containment) → State → State
  | [], s => s
  | x :: r, s =>
    let s := updContainment x.1 (fun k => { k with resets := k.resets.filter (· != seq) }) s
    recordContained seq r (occur 0x1015 srcAdj x.1 0 ((x.2.entry.tc.getD 0) % 2 ^ 32) s)

/-- RESET_CONTAIN_ACKED: steps 4 and 5. R277: contexts that lose cores during a drain end. -/
def containAcked (seq : Word) (s : State) : State :=
  match activeOf s seq with
  | none => s
  | some l =>
    let mine := s.hz.contained.filter fun x => x.2.resets.contains seq
    if l.phase ≠ 1 ∨ !(mine.all fun x => allAcked x.2) then s
    else
      let s := recordContained seq mine s
      let s := updRst (fun r => { r with naking := r.naking || (decide (3 ≤ l.level) && r.withdrawn) }) s
      let s := if s.rst.callerIn then s else quiesceCores l (scopeCores l) s
      let s := if l.level = 0 then s else breakBarriers (breaksBarrier s l) (List.range 256) s
      let s := if l.level ≠ 0 ∧ draining s then endAll 4 (contextsIn s l) s else s
      updLevel seq (fun l => { l with phase := 2 }) s

/-! ### Step 6: the reset is asserted -/

/-- R321, R378: an object of a core in reset keeps its assignment, mode, context and HOST flag. -/
def resetObject (x : Obj) : Obj := { x with value := 0, lastOp := 0, lastParty := 0, lastTime := 0, subs := [] }

def resetObjects : List Nat → State → State
  | [], s => s
  | o :: r, s => resetObjects r (updObject o resetObject s)

/-- R256, R381: what a cluster reset leaves of a rehearsal: the register's fields are cleared, and the caller's scheduler goes on:
a rehearsal starts over, and a check, whose STATE shows again with its next run, goes on (log entry 148). -/
def wipeRehearsal (r : Rehearsal) : Rehearsal :=
  { r with
    lastKit := 0, fails := 0, overdue := false, rehMode := false, stale := true, seg := 0, bytes := []
    state := 0, runFor := if r.recheck.isSome ∨ r.sig.isSome then r.runFor else none }

/-- R163, R381: what a cluster reset leaves of a station; the capsules lie in memory, and a ring starts anew (R254). -/
def wipeStation (t : Station) : Station :=
  { ({} : Station) with
    spad := t.spad, spadPoison := t.spadPoison, capsules := t.capsules.map (fun k => { k with old := true }), cancels := t.cancels
    retiring := (t.slots.filter fun x => x.2.state == 3).map (·.2.fig), invalidated := t.invalidated, reh := wipeRehearsal t.reh
    queues := t.queues.map fun x => (x.1, { ({} : QState) with halted := x.2.halted, step := x.2.step }) }

/-- R371, R375: the queues of the scope are halted; operations due by insertion there are not made. -/
def haltQueues (c : Nat) : List Nat → State → State
  | [], s => s
  | q :: r, s =>
    haltQueues c r (updStation c (fun t => { t with notices := t.notices.filter fun n => n.queue.val != q })
      (updQueue c q (fun x => { x with halted := true, wait := none, syncOps := [], gapOpen := false, opidKnown := false }) s))

/-- R120, R123, R246: STOP, the pins and the settlement of a core are lost; its adjudications go on without pinned inputs. -/
def loseStop (c : Nat) (s : State) : State :=
  let tags := (station s c).pins.map fun p => p.2.tag
  let s := updStation c (fun t =>
    let r : Rehearsal := { t.reh with rehMode := false, stale := true, state := if t.reh.state = 1 then 2 else t.reh.state }
    { t with stopReq := false, stopped := false, stopAt := 0, keepStop := false, tapReady := false, tapSettled := false, feeds := [], reh := r }) s
  let s := dropPins c (fun _ => true) s
  let s := mapAdjs (fun a => a.opening == 0 && a.core.val == c) (fun a => { a with noH := true }) s
  tags.foldl (fun s g => losePin c g s) s

/-- R61: the operations in flight that a level abandons on a core. -/
def opsLost (s : State) (l : Level) (c : Nat) : List Cu :=
  (station s c).cus.filter fun u => u.retire.isNone && inScope l c u.op.queue.val

/-- R231, R246: inserted operations that a level below L3 abandons. -/
def loseInserted (l : Level) (us : List Cu) (s : State) : State := if l.level ≤ 2 then insertedAllLost us s else s

/-- R425: counters 16 to 23 of a core are zero. -/
def clearCauses (c : Nat) (s : State) : State := { s with causes := s.causes.filter fun x => x.1 / 16 != c }

/-- R375 step 6 on one core. -/
def assertCore (l : Level) (c : Nat) (s : State) : State :=
  let s := abandonsDue c (opsLost s l c) (loseInserted l (opsLost s l c) (abandonOps c (opsLost s l c) s))
  if l.level = 0 then haltQueues c [l.queue] s
  else
    let s := haltQueues c (List.range 4) (loseStop c s)
    let s := if s.rst.callerIn then s else dropBank l c id s
    let s := resetObjects (bankObjects s c) s
    let s := updStation c (fun t => { t with watches := [] }) s
    let s := updRst (fun r => { r with coresIn := r.coresIn ||| BitVec.ofNat 256 (2 ^ c) }) s
    let s := if 2 ≤ l.level then clearCauses c (updStation c wipeStation s) else s
    if l.level = 4 then updStation c (fun t => { t with queues := [], cancels := [] }) s else s

def assertCores (l : Level) : List Nat → State → State
  | [], s => s
  | c :: r, s => assertCores l r (assertCore l c s)

/-- R231, R246: replays whose understudy is in the scope are lost. -/
def loseReplays : List Replay → State → State
  | [], s => s
  | r :: k, s => loseReplays k (replayLost r s)

/-- R246: the core of an execution that has not ended is in the scope. -/
def execHit (l : Level) (a : Adj) (core : Option Core) (w : ExecName) : Bool :=
  a.closing.isNone && (outcomeOfExec a w true).isNone && (match core with | some c => inScope l c.val a.queue.val | none => false)

/-- A test of the adjudication of a slot leads to a change. -/
def onSlot (i : Nat) (p : Adj → Bool) (f : Adj → State → State) (s : State) : State :=
  match tfind i s.adj.slots with
  | some a => if p a then f a s else s
  | none => s

/-- R239, R246: the executions of an adjudication that a level ends: an understudy's, and H, which then gives no outcome; H that
cannot be held is omitted. -/
def loseExecutions (l : Level) (i : Nat) (s : State) : State :=
  let s := onSlot i (fun a => a.uOut.isNone && execHit l a a.u .u) (fun a s => understudyLost i a true s) s
  let s := onSlot i (fun a => a.vOut.isNone && execHit l a a.v .v) (fun a s => understudyLost i a false s) s
  let s := onSlot i (fun a => a.needH && a.hOut.isNone && execHit l a (some a.core) .h) (fun a s => takeOutcome i .h noOutcome a s) s
  onSlot i (fun a => a.closing.isNone && a.noH && a.needH && a.hOut.isNone) (fun _ s => evaluate i s) s

def loseUnderstudies (l : Level) : List Nat → State → State
  | [], s => s
  | i :: r, s => loseUnderstudies l r (loseExecutions l i s)

/-- R246: every open adjudication closes as UNRESOLVED; one that waits for its containment has its class already. -/
def closeUnresolved (deferred : Bool) : List Adj → State → State
  | [], s => s
  | a :: r, s =>
    closeUnresolved deferred r
      (if a.closing.isSome then updAdj (fun d => { d with closing := d.closing ++ [a] }) s else closeUnslotted deferred a s)

def closeAllAdjs (deferred : Bool) (s : State) : State :=
  let l := openAdjs s
  closeUnresolved deferred l (updAdj (fun d => { d with slots := [], queue := [] }) s)

/-- R34, R218: every gate point holds its traffic closed at once. -/
def closeGates : List Nat → State → State
  | [], s => s
  | g :: r, s => closeGates r (updGate g (fun p => { p with closed := 1 }) s)

/-- R26, R34, R382: the caller domain enters reset; tableau's hold and a shutdown end with it (R471), a copy in progress must
be redone, and an I3C command that waits is answered with CALLER_DOWN (R496). -/
def callerDown (s : State) : State :=
  let s := closeGates (List.range 38) (updHz (fun h => { h with cause := 1, point := 63 }) s)
  let s := updTab (fun b => { ({} : Tableau) with scans := b.scans }) s
  let s := updCrash (fun c => { c with redo := c.redo || c.buffer.isSome }) s
  let s := updBoot (fun b => { b with shutdown := 0, zeroising := none }) s
  let s := dropShutRecord (updI3c (fun i => { i with resp := i.resp.map fun x => if x.1 = 1 then (4, []) else x }) s)
  updRst (fun r => { r with callerIn := true, waiting := [] }) s

/-- R380, R386: the links go down. -/
def portsDown (s : State) : State :=
  updSync (fun y => { y with ports := y.ports.map fun p => (p.1, { p.2 with width := 0, settled := 0 }) }) s

/-- RESET_ASSERT: step 6. At L4 the PHYs go down for retraining, and the NAKs end (R386). -/
def assertReset (seq : Word) (s : State) : State :=
  match activeOf s seq with
  | none => s
  | some l =>
    if l.phase ≠ 2 then s
    else
      let s := updRst (fun r => { r with clustersIn := r.clustersIn ||| maskBits 16 (scopeClusters l) }) s
      let s := updHz (fun h => { h with forwarding := h.forwarding &&& ~~~(maskBits 16 (scopeClusters l)) }) s
      let s := assertCores l (scopeCores l) s
      let s := loseReplays (s.adj.replays.filter fun r => inScope l r.under.val 1 && r.results.isNone) s
      let s := if l.level ≤ 2 then loseUnderstudies l (List.range 8) s else s
      let s := if l.level = 3 then closeAllAdjs false s else s
      let s := if l.level = 4 then updRst (fun r => { r with naking := false }) (portsDown s) else s
      let s := if l.level = 4 ∧ !s.rst.callerIn then callerDown s else s
      updLevel seq (fun l => { l with phase := 3 }) s

/-! ### Step 7: release and restore (R377 to R379) -/

/-- R378: seal and seal-request objects of a bank are set to the steps sealed, as caller actions. -/
def restoreSeals (os : List Nat) : List (Nat × Ctx) → State → State
  | [], s => s
  | x :: r, s =>
    let s := match x.2.seal_ with
      | some e =>
        if e.enabled then
          let steps := fun (o : Nat) (s : State) =>
            if os.contains o then sealChanged o (change o (BitVec.ofNat 32 x.2.sealed) 1 (callerParty s) s.now s) else s
          steps e.request (steps e.object s)
        else s
      | none => s
    restoreSeals os r s

/-- R84, R378: the caller loads the figures of the epoch in force and those still retiring, and then the epoch. -/
def reloadStation (c : Nat) (s : State) : State :=
  let old := (station s c).retiring
  updStation c (fun t => { t with retiring := [] }) (takeEpoch c (old.foldl (fun s f => preload c [f] s) (preload c (stationFigures s c) s)))

/-- R378: one core leaves reset. -/
def restoreCore (l : Level) (c : Nat) (s : State) : State :=
  let s := restoreSeals (bankObjects s c) s.ctxs s
  if 2 ≤ l.level ∧ inService s c then reloadStation c s else s

def restoreCores (l : Level) : List Nat → State → State
  | [], s => s
  | c :: r, s => restoreCores l r (restoreCore l c s)

/-- R377: the gate points discard what they hold before the first broadcast. -/
def discardItems : List Nat → State → State
  | [], s => s
  | g :: r, s =>
    let n := (gate s g).items.length
    let s := updHz (fun h => { h with dropContain := satAdd 0xFFFF h.dropContain n }) s
    discardItems r (updGate g (fun p => { ({} : GatePoint) with closed := p.closed, vh := p.vh, heard := p.heard }) s)

/-- R82, R84: TXN_ROLLBACK of a transaction. -/
def recordRollback (deferred : Bool) (x : Txn) (reason : Nat) (s : State) : State :=
  let p1 := x.id.toNat + 65536 * reqCode x.owner + 2 ^ 20 * b2n (x.staged.isSome || x.loading)
  if deferred then occurDeferred 0xA002 (srcCaller 10) p1 reason x.shadow.length s
  else occur 0xA002 (srcCaller 10) p1 reason x.shadow.length s

/-- R231: every sampled CU without a reprise verdict, at the caller's restart. -/
def abandonCapsules : List (Nat × Word) → State → State
  | [], s => s
  | (c, g) :: r, s => abandonCapsules r (abandonReprise true c g 5 s)

/-- R379, R381: the state of the caller domain at its restart, apart from the charter in force and tempo: what lies in DK, in OTP
or in memory stays. R252: kits stay disabled while the charter stays. -/
def wipeCaller (s : State) : State :=
  let s := linesDown s
  let cfg : Cfg := { ({} : Cfg) with epoch := s.cfg.epoch, image := s.cfg.image, floors := s.cfg.floors, active := s.cfg.active }
  let hz : Horizon := { ({} : Horizon) with
    gates := s.hz.gates, since := s.now, cause := s.hz.cause, point := s.hz.point, dropPoison := s.hz.dropPoison, dropContain := s.hz.dropContain }
  let led : Ledger := { ({} : Ledger) with
    state := s.led.state, cause := s.led.cause, unit := s.led.unit, core := s.led.core, engines := s.led.engines, flag := s.led.flag
    flagBc := s.led.flagBc, aboveTarget := s.led.aboveTarget, returns := s.led.returns, quiescent := s.led.quiescent, e := s.led.e
    eEpoch := s.led.eEpoch, drainHeld := s.led.drainHeld, limitEnded := s.led.limitEnded, badKits := s.led.badKits, fm := fmOf s }
  let sync : Sync := { ({} : Sync) with
    ports := s.sync.ports.filterMap fun p => if p.2.disabled then some (p.1, { ({} : FPort) with disabled := true }) else none }
  let trace : Trace := { ({} : Trace) with
    buf := s.trace.buf, wr := s.trace.wr, rd := s.trace.rd, drops := s.trace.drops, ready := s.trace.ready, line := s.trace.line }
  let boot : Boot := { s.boot with trained := 0, memValid := false, memset := [], ccp := false, awaitsDone := false, otpJob := none }
  let adj : Adjudicator := { s.adj with replays := [], assigned := [], lastClass := 0 }
  { s with
    cfg := cfg, hz := hz, led := led, sync := sync, trace := trace, boot := boot, adj := adj, ctxs := []
    rst := { s.rst with waiting := [] }
    i3c := { s.i3c with need := none, wanted := [] } }

/-- R292, R297: the commands that the restart cuts short are recorded. -/
def recordOpenSteps : List Nat → State → State
  | [], s => s
  | d :: r, s => recordOpenSteps r (match openBackoff s d with | some c => recordBackoff d c s | none => recordReplaced true d s)

/-- R294, R298, R379: tempo and the charter in force at the restart: the charter is applied again at B8. -/
def wipePolicy (s : State) : State :=
  let s := recordOpenSteps (List.range 16) s
  updCfg (fun c => { c with active := none }) (updTempo (fun t => { t with
    reported := false, aboveHalf := false
    doms := t.doms.map fun d => (d.1, { d.2 with cmd := none, frame := none, negotiated := false, fault := false }) }) s)

/-- R246, R292: the adjudications that an L4 ends are closed when the caller restarts, and their containments with them. -/
def closeAtRestart (s : State) : State :=
  let s := closeAllAdjs true s
  let s := s.adj.closing.foldl (fun s a => finishClose a s) (updHz (fun h => { h with contained := [] }) s)
  updAdj (fun d => { d with closing := [] }) s

/-- R379: the caller restarts for an L4. -/
def callerRestart (l : Level) (s : State) : State :=
  let txn := s.cfg.txn
  let s := updRst (fun r => { r with callerIn := false, l4 := true, late := false }) (discardItems (List.range 38) s)
  let s := if l.cause = 5 ∨ s.rst.withdrawn = false then sendWithdraw true l s else s
  let s := endAll 4 (s.ctxs.map (·.1)) s
  let caps := (s.stations.map fun x => (x.2.capsules.filter fun k => k.verdict.isNone && k.state != 3).map fun k => (x.1, k.tag)).flatten
  let s := wipePolicy (closeAtRestart (wipeCaller s))
  let s := abandonCapsules caps s
  let s := match txn with | some x => recordRollback true x 4 s | none => s
  updBoot (fun b => { b with stage := 2, state := 0, worst := 0, kind := 3, stageStart := s.now, failed := 0, mapped := b.mapped && s.cfg.image != [] }) s

/-- RESET_RELEASE: step 7. -/
def releaseReset (seq : Word) (s : State) : State :=
  match activeOf s seq with
  | none => s
  | some l =>
    if l.phase ≠ 3 then s
    else
      let s :=
        if l.level = 0 then s
        else if l.level = 4 then callerRestart l s
        else
          let s := restoreCores l (scopeCores l) s
          updRst (fun r => { r with
            coresIn := r.coresIn &&& ~~~(maskBits 256 (scopeCores l)), clustersIn := r.clustersIn &&& ~~~(maskBits 16 (scopeClusters l)) }) s
      updLevel seq (fun l => { l with phase := 4 }) s

/-! ### Step 8: completion, overrun and DEAD (R371, R372, R380, R391) -/

/-- R371: the conditions of a level's completion that the complex sees. -/
def levelReady (s : State) (l : Level) : Bool :=
  match l.level with
  | 0 => true
  | 4 => s.boot.stage == 9 && s.boot.state == 2 && decide (s.boot.worst ≤ 1)
  | _ =>
    ((scopeCores l).all fun c => !inService s c || ((station s c).tapReady && (l.level == 1 || (station s c).epoch == s.cfg.epoch))) &&
    (l.level != 2 || s.hz.forwarding.toNat.testBit l.index)

/-- R391: the count is at or above OOS_COUNT. -/
def checkCount (p : ResetPolicy) (s : State) : State :=
  let n := resetsWithin s p
  if p.oosCount ≤ n then outOfService n p.oosWindowS s.rst.oosSeq s else s

/-- RESET_LEVEL_COMPLETE: step 8. -/
def levelComplete (seq : Word) (s : State) : State :=
  match activeOf s seq with
  | none => s
  | some l =>
    if l.phase ≠ 4 ∨ !levelReady s l ∨ callerOff s then s
    else
      let s := endLevel seq 5 s
      let s := updRst (fun r => { r with
        done := (l.level, l.index, l.queue, s.now) :: r.done.filter fun d => !(d.1 == l.level && d.2.1 == l.index && d.2.2.1 == l.queue) }) s
      let s := if 3 ≤ l.level then
          let s := updRst (fun r => { r with naking := false, withdrawn := false, l4 := false }) s
          sendNotice (noticeBytes s 2 false l s.now 0) s
        else s
      checkCount l.policy (msix 3 (occur 0x7005 srcControl (scopeWord l) seq.toNat ((s.now - l.start) / 1000) s))

/-- R270, R380: the chip enters DEAD; the caller, when it runs, sends the notice and the report of the change first. -/
def enterDead (l : Level) (s : State) : State :=
  let s := if s.rst.callerIn then s else sendNotice (noticeBytes s 3 false l s.now 0) s
  let s := unscheduledReport (setState 5 s)
  updRst (fun r => { r with naking := false, l4 := false }) (callerDown (portsDown s))

/-- R369: the deadline of a level in ns. -/
def levelDeadline : Nat → Nat
  | 0 => 20000 | 1 => 200000 | 2 => 5000000 | 3 => 3000000000 | _ => 8000000000

/-- R372: RESET_ESCALATE, and the next level or DEAD. -/
def escalate (l : Level) (s : State) : State :=
  let s := occur 0x7002 srcControl (l.level + 8 * (l.level + 1) + 65536 * (if 3 ≤ l.level then 0 else l.index)) l.seq.toNat l.phase s
  if l.level = 4 then enterDead l (endLevel l.seq 7 s)
  else
    startLevel { scopeAbove { cause := 2, level := l.level, index := l.index, queue := l.queue } with cause := 2 } l.counted (endLevel l.seq 6 s)

/-- RESET_LEVEL_OVERRUN. -/
def levelOverrun (seq : Word) (s : State) : State :=
  match activeOf s seq with
  | none => s
  | some l => if s.now < l.start + levelDeadline l.level then s else escalate l s

/-! ### Requests and the caller watchdog -/

/-- R432: an L4 requested in SCANNED ends tableau, and then starts; resets that waited meet it under R374. -/
def startRequested (x : Scope) (s : State) : State :=
  if s.tab.state = 5 ∧ x.level = 4 then
    startWaiting s.rst.waiting (startReset x (updRst (fun r => { r with waiting := [] }) (endHold s)))
  else startReset x s

/-- R394: RESULT of a request: 0 OK, 1 ABSORBED, 2 INVALID, 3 REFUSED. R471: refused during a shutdown. -/
def requestReset (cause level index queue : Nat) (s : State) : Nat × State :=
  let x : Scope := { cause := cause, level := level, index := if 3 ≤ level then 0 else index, queue := if level = 0 then queue else 0 }
  if s.led.state = 0 ∨ s.led.state = 5 ∨ s.boot.shutdown ≠ 0 then (3, s)
  else if 4 < level ∨ (level ≤ 1 ∧ !inService s index) ∨ (level = 2 ∧ 15 < index) then (2, s)
  else if !tableauHolds s ∧ s.rst.active.any (fun l => holds l x) then (1, absorb cause s)
  else (0, startRequested x s)

/-- R394: a write to PHL_RST_CMD; R489: the board controller's RESET acts as one of requester 5. -/
def writeRstCmd (r : Requester) (value : Word) (s : State) : State :=
  if !(r == .host || r == .ccp || r == .bc) then s
  else
    let s := updCfg (fun c => { c with rstCmd := value &&& 0x000703FF }) s
    if bits value.toNat 31 30 ≠ 1 then s
    else
      let a := requestReset (if r = .ccp then 6 else if r = .host then 7 else 8) (bits value.toNat 18 16) (bits value.toNat 7 0) (bits value.toNat 9 8) s
      setResult regRstCmd r a.1 a.2

/-- R27: the caller watchdog expires: DEADLINE_MISS, the caller domain in reset, L4. An L4 in progress goes on with step 6 (log entry
75). -/
def watchdogExpires (s : State) : State :=
  if callerOff s then s
  else
    let s := occur 0x7001 srcControl 0 0x800 (10000 + 4 * 2 ^ 24) s
    let s := updRst (fun r => { r with late := true }) (callerDown s)
    match s.rst.active.find? (·.level == 4) with
    | some l => updLevel l.seq (fun l => { l with phase := 2 }) (absorb 5 s)
    | none =>
      updCrash (fun c => { c with redo := c.buffer.isSome }) (startLevel { cause := 5, level := 4, index := 0, queue := 0 } false s)

/-! ### The meanings -/

/-- R366, R368. -/
def execDeadlineMiss (t : Nat) (core : Core) (queue : Queue) (s : State) : Host.Outcome State Fault Refusal :=
  .next (deadlineMissed core.val queue.val (atTime t s))

/-- R27. -/
def execCallerWatchdogExpiry (t : Nat) (s : State) : Host.Outcome State Fault Refusal := .next (watchdogExpires (atTime t s))

/-- R375, R376. -/
def execResetContainAcked (t : Nat) (seq : Word) (s : State) : Host.Outcome State Fault Refusal :=
  .next (containAcked seq (atTime t s))

/-- R61, R375. -/
def execResetAssert (t : Nat) (seq : Word) (s : State) : Host.Outcome State Fault Refusal := .next (assertReset seq (atTime t s))

/-- R375, R377 to R379. -/
def execResetRelease (t : Nat) (seq : Word) (s : State) : Host.Outcome State Fault Refusal := .next (releaseReset seq (atTime t s))

/-- R371, R375. -/
def execResetLevelComplete (t : Nat) (seq : Word) (s : State) : Host.Outcome State Fault Refusal :=
  .next (levelComplete seq (atTime t s))

/-- R372. -/
def execResetLevelOverrun (t : Nat) (seq : Word) (s : State) : Host.Outcome State Fault Refusal :=
  .next (levelOverrun seq (atTime t s))

/-- R394. -/
def execResetRequest (t : Nat) (r : Requester) (value : Word) (s : State) : Host.Outcome State Fault Refusal :=
  let s := atTime t s
  .next (if callerOff s ∨ r = .bc then s else writeRstCmd r value s)

end Sys2Proof.Machine
end

