-- ==== Sys2Proof/Machine/Charter.lean ====
section
/-! DEFINITION. Charter loads, configuration transactions and the host's generation (R66, R67, R71, R76 to R93, R502, R513). -/

namespace Sys2Proof.Machine

/-- The configuration unit as a source of records (R401). -/
def srcConfig : BitVec 16 := srcCaller 10

/-- PHL_CFG_TXN's place in the table of results. -/
def regTxn : Nat := 0x000014

def covOvrOff : Nat := 0x000040
def tempoOvrOff : Nat := 0x000044

/-- R81, R92, R521: requester 2 exists while SETTLED is G1. -/
def hears2 (s : State) (r : Requester) : Bool := r != .hostG1 || s.cfg.hostGen == 1

/-! ### Rejection and acceptance (R67, R71) -/

/-- STATE once nothing is loading or staged: ACTIVE; before the first charter is in force NONE, or STAGED while one that is
verified waits for B8 (log entry 145). -/
def restState (s : State) : Nat := if s.cfg.active.isSome then 3 else if s.cfg.first.isSome then 4 else 0

/-- R67, R71: CHARTER_REJECTED, with STATE, REASON and SECTION. -/
def rejectCharter (e : Reject) (serial : Nat) (r : Requester) (s : State) : State :=
  let s := updCfg (fun c => { c with state := 5, reason := BitVec.ofNat 8 e.reason, section_ := BitVec.ofNat 8 e.section_ }) s
  occur 0xA005 srcConfig (e.reason + 256 * e.section_) serial (reqCode r) s

/-- R73: the active KEYHASH generation and its hash. -/
def activeKeyhash (s : State) : Option (Nat × List Byte) :=
  match (otpRecord s 4).2 with
  | some l => if keyGen s = 0 then none else some (keyGen s, slice 4 48 l)
  | none => none

/-- R71: CHARTER_ACCEPTED; STATE becomes ACTIVE and the serial shows. -/
def acceptCharter (ch : Charter) (img : List Byte) (s : State) : State :=
  let s := updCfg (fun c => { c with active := some ch, image := img, serial := ch.serial, state := 3, reason := 0, section_ := 0xFF }) s
  let s := updTempo (fun t => { t with section_ := ch.tempo.orElse fun _ => t.section_ }) s
  occur 0xA004 srcConfig ch.serial.toNat ch.keygen s.cfg.epoch.toNat s

/-! ### The end of a transaction (R76, R78, R82) -/

/-- R76, R82: the shadow, a staged charter and a load in progress are discarded. -/
def dropTxn (x : Txn) (s : State) : State :=
  let lost := x.staged.isSome || x.loading
  updCfg (fun c => { c with
    txn := none, copy := if x.loading then none else c.copy, loader := if x.loading then none else c.loader
    state := if lost then restState s else c.state }) s

/-- R79, R82: a transaction ends without effect. -/
def rollback (x : Txn) (reason : Nat) (s : State) : State := recordRollback false x reason (dropTxn x s)

/-- R79: the 100 ms mark. -/
def txnLate (s : State) (x : Txn) : Bool := !x.committing && decide (x.began + 100000000 ≤ s.now)

/-- R79: a transaction that has reached its limit is rolled back with EXPIRED. -/
def expireTxn (s : State) : State :=
  match s.cfg.txn with
  | none => s
  | some x => if txnLate s x then setResult regTxn x.owner 5 (rollback x 2 s) else s

/-! ### Commands (R79 to R81) -/

/-- R79, R80: a command to PHL_CFG_TXN: 1 BEGIN, 2 COMMIT, 3 ROLLBACK. -/
def txnCommand (cmd : Nat) (r : Requester) (id : BitVec 16) (s : State) : State :=
  if callerOff s ∨ r = .bc ∨ !hears2 s r then s
  else
    match s.cfg.txn with
    | none =>
      if cmd ≠ 1 then setResult regTxn r 2 s
      else if id = 0 then setResult regTxn r 6 s
      else
        setResult regTxn r 0 (updCfg (fun c => { c with txn := some {
          id := id, owner := r, began := s.now, committing := false, shadow := [], staged := none, loading := false } }) s)
    | some x =>
      if txnLate s x then setResult regTxn r 5 (expireTxn s)
      else if cmd = 1 ∨ x.committing ∨ r ≠ x.owner then setResult regTxn r 1 s
      else if id ≠ x.id then setResult regTxn r 3 s
      else if cmd = 3 then setResult regTxn r 0 (rollback x 1 s)
      else if x.loading then setResult regTxn r 1 s
      else setResult regTxn r 0 (updCfg (fun c => { c with txn := some { x with committing := true } }) s)

/-- R513: the writable bits of a shadowed register. -/
def shadowMask (off : Nat) (v : Word) : Word := if off = covOvrOff then v &&& 0x800F0F03 else v &&& 0x8000FFFF

/-- R81: a write to a shadowed register is staged, or refused. -/
def shadowWrite (r : Requester) (off : Nat) (v : Word) (s : State) : State :=
  if callerOff s ∨ r = .bc ∨ r = .hostG1 ∨ (off ≠ covOvrOff ∧ off ≠ tempoOvrOff) then s
  else
    let s := expireTxn s
    match s.cfg.txn with
    | none => setResult regTxn r 2 s
    | some x =>
      if x.committing ∨ r ≠ x.owner then setResult regTxn r 1 s
      else if 4096 ≤ x.shadow.length then setResult regTxn r 7 s
      else updCfg (fun c => { c with txn := some { x with shadow := x.shadow ++ [(off, shadowMask off v)] } }) s

/-! ### Loads (R66, R67, R76) -/

/-- R66: the image as it lies at PHL_CFG_CHARTER_ADDR. -/
def sourceImage (s : State) : List Byte :=
  let a := s.cfg.charterAddr.toNat / 4096 * 4096
  memRead s a (max 64 (min maxImage (hdrTotal (memRead s a 64))))

/-- R66: the copy begins. R73: a key hash that the board controller holds is needed for the check. -/
def beginLoad (r : Requester) (s : State) : State :=
  let s := if !s.boot.mapped && otpFull s 4 then wantObjects [boardObject 4] s else s
  updCfg (fun c => { c with copy := some (sourceImage s), loader := some r, loadAt := s.now, state := 1 }) s

/-- CHARTER_LOAD_GO (R66, R67, R76, R81, R455, R511). While a load is COPYING or VERIFYING it is ignored, whoever writes it (log
entry 134). -/
def loadGo (r : Requester) (value : Word) (s : State) : State :=
  if callerOff s ∨ !(r == .host || r == .hostG1 || r == .ccp) ∨ !hears2 s r ∨ !value.getLsbD 0 ∨ s.boot.stage < 5 ∨ s.cfg.copy.isSome then s
  else
    let s := expireTxn s
    match s.cfg.txn with
    | some x =>
      if r ≠ x.owner ∨ x.committing then setResult regTxn r 1 s
      else beginLoad r (updCfg (fun c => { c with txn := some { x with staged := none, loading := true } }) s)
    | none =>
      if s.boot.mapped then rejectCharter ⟨12, 0xFF⟩ (hdrSerial (sourceImage s)) r s
      else beginLoad r (updCfg (fun c => { c with first := none }) s)

/-- R461: the first charter, with who loaded it (R71), waits for B8, and B7's wait ends; R267, R493: with CARRY, one that comes during B8 needs the
LEDGER record there. -/
def keepFirst (ch : Charter) (img : List Byte) (r : Requester) (s : State) : State :=
  let s := updBoot (fun b => { b with waitEnd := s.now }) (updCfg (fun c => { c with first := some (ch, img), firstBy := r, state := 4 }) s)
  if s.boot.stage = 8 ∧ ch.ledger.carry ∧ (tfind 3 s.i3c.store).isNone then wantObjects [3] s else s

/-- CHARTER_VERIFIED (R70, R76): the checks of a load complete. -/
def loadVerified (s : State) : State :=
  if callerOff s ∨ (!s.boot.mapped && otpFull s 4 && needing s) then s
  else
    let s := expireTxn s
    match s.cfg.copy, s.cfg.loader with
    | some img, some r =>
      let s := updCfg (fun c => { c with copy := none, loader := none }) s
      match s.cfg.txn with
      | some x =>
        if x.loading then
          match checkImage img (activeKeyhash s) s.cfg.active with
          | .error e => rejectCharter e (hdrSerial img) r (updCfg (fun c => { c with txn := some { x with loading := false } }) s)
          | .ok ch =>
            let x := { x with loading := false, staged := some (ch, img) }
            updCfg (fun c => { c with txn := some x, state := 4 }) s
        else
          match checkImage img (activeKeyhash s) none with
          | .error e => rejectCharter e (hdrSerial img) r s
          | .ok ch => keepFirst ch img r s
      | none =>
        match checkImage img (activeKeyhash s) none with
        | .error e => rejectCharter e (hdrSerial img) r s
        | .ok ch => keepFirst ch img r s
    | _, _ => s

/-! ### Commit (R82, R86, R88) -/

/-- The last value staged for a shadowed register. -/
def stagedValue (x : Txn) (off : Nat) : Option Word := ((x.shadow.filter (·.1 == off)).getLast?).map (·.2)

/-- R513: the staged override values keep their ranges. -/
def shadowOk (x : Txn) : Bool :=
  match stagedValue x covOvrOff with
  | none => true
  | some v => coverageOk (bits v.toNat 1 0) (bits v.toNat 11 8) (bits v.toNat 19 16)

/-- R88, R149: why the figures of a charter do not fit, if they do not: the first station's reason. -/
def residencyFault (s : State) (ch : Charter) : Option NoFit :=
  (List.range s.boot.map.length).findSome? fun l =>
    match physOf s l with
    | none => none
    | some c =>
      match planSlots (station s c) (figuresFor ch l) with
      | .ok _ => none
      | .error e => some e

/-- R82, R149: the FIGURE sections of a charter whose figure does not fit a station that it names even alone. -/
def figuresAtFault (s : State) (ch : Charter) : List Nat :=
  (ch.figures.zip ch.figSections).filterMap fun x =>
    let bad := (List.range s.boot.map.length).any fun l =>
      x.1.1.toNat.testBit l &&
      (match physOf s l with | some c => (bindFigure (station s c) [] x.1.2).isNone | none => false)
    if bad then some x.2 else none

/-- R71, R82, R88, R149: the rejection of a charter whose figures do not fit: the section index is that of the one FIGURE section
at fault, if one is. -/
def noFitReject (s : State) (ch : Charter) (e : NoFit) : Reject :=
  match e, figuresAtFault s ch with
  | .cells, [i] => ⟨rContent, i⟩
  | .cells, _ => ⟨rContent, 0xFF⟩
  | .slots, _ => ⟨13, 0xFF⟩

/-- R82: the figures of the charter in force are preloaded into every station in service. -/
def preloadAll : List Nat → State → State
  | [], s => s
  | c :: r, s => preloadAll r (preload c (stationFigures s c) s)

/-- R252: a kit that was disabled is enabled again once a charter replaces it. -/
def keepBad (old new : Charter) (ids : List Nat) : List Nat :=
  ids.filter fun i => match old.kits.find? (·.id == i), new.kits.find? (·.id == i) with
    | some a, some b => decide (a = b)
    | _, _ => false

/-- R86, R274, R294, R391, R411: what a charter's sections change in the caller at the commit instant. A section is committed when
the charter holds it, or held it before (log entry 96). -/
def callerSettings (old new : Charter) (s : State) : State :=
  let s := if old.limits = [] ∧ new.limits = [] then s else updEvt (setLimits s.now new.limits) s
  let s := updLed (fun l => { l with badKits := keepBad old new l.badKits }) s
  let s := if s.led.state = 1 then recheckUnits new.ledger (List.range 2048) s else s
  checkCount (resetPolicy s) s

/-- R83. -/
def nextEpoch (e : Word) : Word := if e = 0xFFFFFFFF then 1 else e + 1

/-- R82: the transaction takes effect. -/
def commitTxn (x : Txn) (s : State) : State :=
  let old := s.cfg.active
  let s := updCfg (fun c => { c with
    txn := none, epoch := nextEpoch c.epoch
    covOvr := (stagedValue x covOvrOff).getD c.covOvr, tempoOvr := (stagedValue x tempoOvrOff).getD c.tempoOvr }) s
  let s := occur 0xA001 srcConfig (x.id.toNat + 65536 * reqCode x.owner + 2 ^ 20 * b2n x.staged.isSome) s.cfg.epoch.toNat x.shadow.length s
  let s := setResult regTxn x.owner 0 s
  match x.staged, old with
  | some (ch, img), some o =>
    let s := noteGating (preloadAll (serviceCores s) (acceptCharter ch img s))
    callerSettings o ch (applyPolicy (o.tempo.isSome || ch.tempo.isSome) (List.range 16) s)
  | _, _ => applyPolicy false (List.range 16) (noteGating s)

/-- COMMIT_VALIDATED (R82): a commit before the first charter has nothing to validate against. -/
def commitValidated (s : State) : State :=
  match s.cfg.txn with
  | none => s
  | some x =>
    if callerOff s ∨ !x.committing then s
    else
      let fit := match x.staged, s.cfg.active with
        | some (ch, _), _ => residencyFault s ch
        | none, some a => residencyFault s a
        | none, none => none
      let invalid := fun s => setResult regTxn x.owner 4 s
      match fit, x.staged with
      | some e, some (ch, _) =>
        let s := rejectCharter (noFitReject s ch e) ch.serial.toNat x.owner (dropTxn x s)
        invalid (recordRollback false x 3 s)
      | some _, none => invalid (rollback x 3 s)
      | none, _ => if shadowOk x ∧ s.cfg.active.isSome then commitTxn x s else invalid (rollback x 3 s)

/-! ### The host's generation (R91, R93, R501, R502) -/

/-- R92: NEGOTIATED for the host. -/
def recordHostGen (s : State) : State := occur 0xA006 srcConfig 5 0 (s.cfg.hostGen + 256 * s.cfg.floors.2.2) s

/-- R91, R502: the highest generation offered at or above the floor; 0 when there is none. -/
def settleHostGen (offer : BitVec 3) (floor : Nat) : Nat :=
  if offer.getLsbD 1 ∧ floor ≤ 2 then 2 else if offer.getLsbD 0 ∧ floor ≤ 1 then 1 else 0

/-- HOST_GEN_OFFER (R91, R502); R5: bit 2 is held for G3 and reads as zero. -/
def hostGenOffer (r : Requester) (value : Word) (s : State) : State :=
  if callerOff s ∨ !(r == .host || r == .ccp) then s
  else
    let o := BitVec.ofNat 3 value.toNat
    let s := updCfg (fun c => { c with hostOffer := o &&& 3, hostGen := settleHostGen o c.floors.2.2 }) s
    if o = 0 then s else recordHostGen s

/-- R501: a Function Level Reset. -/
def functionReset (s : State) : State :=
  if callerOff s then s else recordHostGen (updCfg (fun c => { c with hostOffer := 0, hostGen := 0 }) s)

/-! ### The meanings -/

/-- R66. -/
def execCharterLoadGo (t : Nat) (r : Requester) (value : Word) (s : State) : Host.Outcome State Fault Refusal :=
  .next (loadGo r value (atTime t s))

/-- R70. -/
def execCharterVerified (t : Nat) (s : State) : Host.Outcome State Fault Refusal := .next (loadVerified (atTime t s))

/-- R79. -/
def execTxnBegin (t : Nat) (r : Requester) (id : BitVec 16) (s : State) : Host.Outcome State Fault Refusal :=
  .next (txnCommand 1 r id (atTime t s))

/-- R79. -/
def execTxnCommit (t : Nat) (r : Requester) (id : BitVec 16) (s : State) : Host.Outcome State Fault Refusal :=
  .next (txnCommand 2 r id (atTime t s))

/-- R79. -/
def execTxnRollback (t : Nat) (r : Requester) (id : BitVec 16) (s : State) : Host.Outcome State Fault Refusal :=
  .next (txnCommand 3 r id (atTime t s))

/-- R79. -/
def execTxnExpired (t : Nat) (s : State) : Host.Outcome State Fault Refusal :=
  let s := atTime t s
  .next (if callerOff s then s else expireTxn s)

/-- R82. -/
def execCommitValidated (t : Nat) (s : State) : Host.Outcome State Fault Refusal := .next (commitValidated (atTime t s))

/-- R81. -/
def execShadowWrite (t : Nat) (r : Requester) (offset : Fin 0x400000) (value : Word) (s : State) : Host.Outcome State Fault Refusal :=
  .next (shadowWrite r offset.val value (atTime t s))

/-- R502. -/
def execHostGenOffer (t : Nat) (r : Requester) (value : Word) (s : State) : Host.Outcome State Fault Refusal :=
  .next (hostGenOffer r value (atTime t s))

/-- R501. -/
def execFunctionLevelReset (t : Nat) (s : State) : Host.Outcome State Fault Refusal := .next (functionReset (atTime t s))

end Sys2Proof.Machine
end

