-- ==== Sys2Proof/Machine/Fabric.lean ====
section
/-! DEFINITION. The fabric links: the sync version at B6 and after a retrain, and the comparison with the TOPOLOGY section (R91, R92, R458 to R460). -/

namespace Sys2Proof.Machine

/-! ### Blocks on the defect list (R457, R462) -/

def blockBad (s : State) (b : Nat) : Bool := s.boot.defect.toNat.testBit b
/-- R457: a core on the list, or in a cluster whose network is. -/
def coreBad (s : State) (c : Nat) : Bool := blockBad s c || blockBad s (256 + c / 16)
def portBad (s : State) (p : Nat) : Bool := blockBad s (280 + p)
def goodCores (s : State) : List Nat := (List.range 256).filter fun c => !coreBad s c
def stacksIn (m : Byte) : List Nat := (List.range 8).filter fun i => m.toNat.testBit i

/-! ### One port (R91, R458) -/

/-- R91: the highest version of an offer at or above the floor; 0 when there is none. -/
def settleSync (offer : BitVec 2) (floor : Nat) : Nat :=
  if offer.getLsbD 1 ∧ floor ≤ 2 then 2 else if offer.getLsbD 0 ∧ floor ≤ 1 then 1 else 0

/-- The TOPOLOGY section that this start compares with: of the charter in force, or of the one verified for B8. -/
def topology (s : State) : Option Topology :=
  match s.cfg.active with
  | some c => some c.topology
  | none => s.cfg.first.map (·.1.topology)

/-- R459: the expected width of a port; 0 when none is known. -/
def widthExpected (s : State) (p : Nat) : Nat :=
  (((topology s).bind fun t => t.ports.find? (·.port == p)).map (·.width)).getD 0

/-- LINK_DEGRADED (R406). -/
def linkDegraded (p cause : Nat) (s : State) : State :=
  occur 0xD001 (srcPort p) (p + 256 * cause) (widthExpected s p + 256 * (fport s p).width) (fport s p).settled s

/-- R91, R92: a trained port settles its sync version. -/
def settlePort (p : Nat) (offer : BitVec 2) (s : State) : State :=
  let floor := s.cfg.floors.2.1
  let v := settleSync offer floor
  let s := updFPort p (fun f => { f with offer := offer, settled := v, floor := floor }) s
  let s := occur 0xA006 (srcPort p) 2 p (v + 256 * floor) s
  if v = 0 then linkDegraded p 2 s else s

/-- R458: a port trains its link; a port on the defect list or disabled does not. -/
def trainPort (p : Nat) (rep : Option PortReport) (s : State) : State :=
  match rep with
  | none => updFPort p (fun f => { f with width := 0, settled := 0 }) s
  | some r =>
    if portBad s p ∨ (fport s p).disabled ∨ r.width = 0 then updFPort p (fun f => { f with width := 0, settled := 0 }) s
    else
      settlePort p r.offer (updFPort p (fun f => { f with
        width := r.width.toNat, peerUid := r.peerUid.toNat, peerPort := r.peerPort.toNat }) s)

def trainPorts (reports : List (Option PortReport)) : List Nat → State → State
  | [], s => s
  | p :: r, s => trainPorts reports r (trainPort p (reports.getD p none) s)

/-- Ports of which a test holds. -/
def portsWith (s : State) (f : FPort → Bool) : Nat := ((List.range 36).filter fun p => f (fport s p)).length

/-- R449: the detail of B6. -/
def fabricDetail (s : State) : Nat :=
  portsWith s (fun f => f.width != 0) + 64 * portsWith s (fun f => f.width != 0 && f.settled == 2) +
  4096 * portsWith s (fun f => f.width != 0 && f.settled == 0)

/-! ### A link in service (R91, R388) -/

/-- FABRIC_LINK_RETRAIN: the link is lost, or trained again; what the port held for it then leaves. -/
def linkChanges (p : Nat) (ev : LinkEvent) (s : State) : State :=
  if callerOff s ∨ (fport s p).disabled ∨ portBad s p ∨ s.led.state = 5 then s
  else
    match ev with
    | .lost => linkDegraded p 3 (updFPort p (fun f => { f with width := 0, settled := 0 }) s)
    | .retrained w offer =>
      let s := settlePort p offer (updFPort p (fun f => { f with width := w.toNat }) s)
      let s := if (fport s p).settled = 0 then s else linkDegraded p (if w.toNat < widthExpected s p then 1 else 4) s
      let held := (fport s p).waiting
      sendWaiting held (updFPort p (fun f => { f with waiting := [] }) s)

/-! ### TOPOLOGY (R460) -/

/-- TOPOLOGY_MISMATCH (R406). -/
def mismatchRecord (p kind expected found : Nat) : State → State :=
  occur 0x8002 srcControl (p + 256 * kind) (expected % 2 ^ 32) (found % 2 ^ 32)

/-- R460: a port that is disabled until the next power-on. -/
def disablePort (p : Nat) : State → State :=
  updFPort p fun f => { f with width := 0, settled := 0, disabled := true, waiting := [], retry := [] }

/-- What B7 counts: ports missing, narrower, and with an unexpected peer; and its worst finding. -/
structure TopoCount where
  missing : Nat := 0
  narrow : Nat := 0
  peer : Nat := 0
  worst : Nat := 0
deriving DecidableEq, Repr

/-- R460: the rows of one listed port. -/
def compareListed (t : TopoPort) (x : TopoCount × State) : TopoCount × State :=
  let (k, s) := x
  let f := fport s t.port
  let bad := if t.optional then 0 else 2
  if f.width = 0 then
    ({ k with missing := k.missing + 1, worst := max k.worst bad }, mismatchRecord t.port 2 t.width 0 s)
  else
    let peerBad := !t.anyPeer && (f.peerUid != t.peerUid || f.peerPort != t.peerPort)
    let low := decide (f.width < t.floor)
    let (k, s) := if f.width < t.width then
        ({ k with narrow := k.narrow + 1, worst := max k.worst (if low then bad else 1) }, mismatchRecord t.port 1 t.width f.width s)
      else (k, s)
    let (k, s) := if peerBad then
        ({ k with peer := k.peer + 1, worst := max k.worst bad },
          if f.peerUid = t.peerUid then mismatchRecord t.port 3 t.peerPort f.peerPort s else mismatchRecord t.port 3 t.peerUid f.peerUid s)
      else (k, s)
    let k := if f.settled = 0 then { k with worst := max k.worst 1 } else k
    (k, if low || peerBad then disablePort t.port s else s)

/-- R460: a trained port that is not listed. -/
def compareUnlisted (t : Topology) (p : Nat) (x : TopoCount × State) : TopoCount × State :=
  if (fport x.2 p).width = 0 ∨ t.ports.any (·.port == p) then x
  else ({ x.1 with peer := x.1.peer + 1 }, disablePort p (mismatchRecord p 3 0 (fport x.2 p).peerUid x.2))

/-- R460: the ports and the stacks against the section. -/
def compareTopology (t : Topology) (s : State) : TopoCount × State :=
  let (k, s) := t.ports.foldl (fun x p => compareListed p x) ({}, s)
  let (k, s) := (List.range 36).foldl (fun x p => compareUnlisted t p x) (k, s)
  let u := (stacksIn s.boot.stackBits).length
  ({ k with worst := max k.worst (if u < t.minStacks then 2 else if u < 8 then 1 else 0) }, s)

/-! ### The meaning -/

/-- R91, R388. -/
def execFabricLinkRetrain (t : Nat) (port : Port) (ev : LinkEvent) (s : State) : Host.Outcome State Fault Refusal :=
  .next (linkChanges port.val ev (atTime t s))

end Sys2Proof.Machine
end

