-- ==== Sys2Proof/Machine/Bringup.lean ====
section
/-! DEFINITION. Bring-up: stages B0 to B9, the logic slices and the defect map (R448 to R465, R379). A stage's command is what ends it. -/

namespace Sys2Proof.Machine

/-! ### Stages (R448, R449, R477) -/

/-- R451: the stages whose delivery a stage needs (log entry 27). -/
def stageNeeds : Nat → List Nat
  | 3 => [2] | 4 => [3] | 5 => [2] | 6 => [2, 5] | 7 => [3, 4, 6] | 8 => [1, 3, 4, 5] | _ => []

/-- R448: an earlier stage did not deliver what the stage needs. -/
def mustSkip (s : State) (n : Nat) : Bool := (stageNeeds n).any fun k => s.boot.failed.getLsbD k

/-- R379: the stage that follows. -/
def stageAfter (s : State) (n : Nat) : Nat := if s.rst.l4 ∧ n = 3 then 6 else n + 1

/-- The stage is the one in progress. -/
def inStage (s : State) (n : Nat) : Bool := s.boot.pwrOk && s.boot.stage == n && s.boot.state == 0 && !callerOff s

/-- R448: STAGE_REPORT of a stage: result 0 OK, 1 READY_DEGRADED, 2 NOT_READY, 3 SKIPPED. R452: NOT_READY of a power-on start
stands until the next (log entry 167). -/
def reportStage (n result p3 : Nat) (s : State) : State :=
  let s := updBoot (fun b => { b with
    worst := if result = 3 then b.worst else max b.worst result, barred := b.barred || (result == 2 && !s.rst.l4) }) s
  occur 0x8001 srcControl (n + 16 * result) ((s.now - s.boot.stageStart) / 1000000) p3 s

/-- R379: the charter store holds an image that an L4 reapplies. -/
def reapplies (s : State) : Bool := s.rst.l4 && s.cfg.image != []

/-- The charter that is verified for B8 sets CARRY (R267). -/
def firstCarries (s : State) : Bool := (s.cfg.first.map (·.1.ledger.carry)).getD false

/-- R493: the objects that a stage needs. At B1: the images of records whose generations are used up. At B3: the saved memory
image, and first the shutdown record, by which R453 chooses its slices (log entry 103). At B8: the LEDGER record when CARRY is set,
and after an L4 the KEYHASH image. -/
def stageWants (s : State) (n : Nat) : List Nat :=
  if mustSkip s n then []
  else
    match n with
    | 1 => ([5, 6, 7].filter (otpFull s)).map boardObject
    | 3 => if s.rst.l4 then [1] else [2, 1]
    | 8 => (if reapplies s && otpFull s 4 then [boardObject 4] else []) ++ (if reapplies s || firstCarries s then [3] else [])
    | _ => []

/-- R448: the next stage starts, and asks for what it needs (R493). R479: with the end of B8 the windows show. -/
def startStage (n : Nat) (s : State) : State :=
  wantObjects (stageWants s n) (updBoot (fun b => { b with
    stage := n, state := 0, stageStart := s.now, sliceStart := s.now, ran := 0, ranFailed := 0, added := 0, awaitsDone := false
    mapped := b.mapped || n == 9 }) s)

/-- A stage did not deliver. -/
def stageFails (n : Nat) : State → State := updBoot fun b => { b with failed := b.failed ||| BitVec.ofNat 10 (2 ^ n) }

/-- R448: a stage that cannot run reports SKIPPED and does not deliver either. -/
def skipStage (n : Nat) (s : State) : State := startStage (stageAfter s n) (reportStage n 3 0 (stageFails n s))

/-! ### B0 and B1 -/

/-- STAGE_B0_SUPPLY. -/
def stageB0 (ctl core hbm io : Bool) (s : State) : State :=
  if !inStage s 0 then s
  else
    let all := ctl && core && hbm && io
    startStage 1 (reportStage 0 (if all then 0 else 2) (b2n ctl + 2 * b2n core + 4 * b2n hbm + 8 * b2n io) s)

/-- R472: a record of OTP is present and cannot be read. -/
def unreadable (s : State) (type : Nat) : Bool := otpGen s type != 0 && (otpRecord s type).2.isNone

/-- R474: a bit of a FLAG record's byte 6. -/
def returned (l : List Byte) : Bool := bit (fieldLe 6 1 l) 0

/-- R279: an unreturned FLAG record. -/
def unreturnedFlag (s : State) : Option (List Byte) := (otpRecord s 7).2.filter fun l => !returned l

/-- R279, R472: POLICY.RETURN. -/
def policyReturn (s : State) : Bool := match (otpRecord s 6).2 with | some l => bit (fieldLe 4 1 l) 0 | none => false

/-- R475: FLAG records with RETURNED set, in OTP and at the board controller. -/
def countReturns (s : State) : Nat :=
  (([1, 2].map (otpSlot s 7)).filter fun l => programmed l && returned l).length +
  (match boardImage s 7 with | some l => b2n (returned l) | none => 0)

/-- R449: the records of OTP, and those held at the board controller, that are valid. -/
def validRecords (s : State) : BitVec 7 := maskBits 7 ((List.range 7).filter fun i => (otpRecord s (i + 1)).2.isSome)

/-- R449: the detail of B1. -/
def callerDetail (s : State) : Nat :=
  (validRecords s).toNat + 256 * ([4, 5, 6, 7].filter fun t => otpFull s t && (boardImage s t).isSome).length

/-- STAGE_B1_CALLER (R449, R472, R473, R279). -/
def stageB1 (s : State) : State :=
  if !inStage s 1 || needing s then s
  else
    let bad := [1, 2, 4, 5].any (unreadable s)
    let flagBad := unreadable s 7
    let flag := unreturnedFlag s
    let mask := match (otpRecord s 5).2 with | some l => fieldLe 4 40 l | none => 0
    let back := flag.isSome && policyReturn s
    let s := updBoot (fun b => { b with
      valid := validRecords s, flagBad := flagBad, flagPending := flagBad || flag.isSome, defectOtp := BitVec.ofNat 316 mask
      flagged := flag.bind fun l => if fieldLe 4 1 l % 16 = 6 then none else some (fieldLe 5 1 l)
      kind := if back then 2 else b.kind }) s
    let s := updLed (fun l => { l with returns := min 15 (countReturns s) }) s
    let s := if bad then updBoot (fun b => { b with failed := b.failed ||| (if unreadable s 4 then 2 else 0) }) s else s
    startStage 2 (reportStage 1 (if bad then 2 else 0) (callerDetail s) s)

/-- R279, R450: a RETURN start. -/
def isReturn (s : State) : Bool := s.boot.kind == 2

/-! ### B2 (R55, R283, R497) -/

/-- R91, R283: one regulator is negotiated and set to nominal, with its transition rate, and read back. -/
def setRegulator (ok : Bool) (vout d : Nat) (s : State) : State :=
  let s := avsSend d [.version] (updDomain d (fun x => { x with negotiated := ok, cmd := none, frame := none }) s)
  let s := occur 0xA006 (srcAvs d) 3 d (b2n ok + 256) s
  let s := setPoint d 1500 s
  let s := updDomain d (fun x => { x with chosen := false, state := if x.locked then 6 else 0 }) s
  if ok then
    avsSend d [.rate 1, .vout] (updOut (fun o => { o with avs := (d, 750) :: o.avs })
      (updDomain d (fun x => { x with readback := vout, rate := 1 }) s))
  else s

def setRegulators (ok : BitVec 16) (vout : List Nat) : List Nat → State → State
  | [], s => s
  | d :: r, s => setRegulators ok vout r (setRegulator (ok.getLsbD d) (vout.getD d 0) d s)

/-- A readback near 750 mV (R284). -/
def nearNominal (v : Nat) : Bool := decide (745 ≤ v) && decide (v ≤ 755)

/-- R285: what a domain reads back: the repeated readback where the first is not near 750 mV. -/
def lastReadback (readback again : List Nat) : List Nat :=
  (List.range 16).map fun d => if nearNominal (readback.getD d 0) then readback.getD d 0 else again.getD d 0

/-- R284, R285: the domains whose readback is not near 750 mV even when it is repeated. -/
def offNominal (ok : BitVec 16) (vout : List Nat) : List Nat :=
  (List.range 16).filter fun d => ok.getLsbD d && !nearNominal (vout.getD d 0)

def faultAll (vout : List Nat) : List Nat → State → State
  | [], s => s
  | d :: r, s => faultAll vout r (avsFault d 3 750 (vout.getD d 0) s)

/-- R55: at the lock of the timebase PLL the replicas load the master's value; R29: each may lag by up to 2 ticks from then on
(log entry 5). -/
def loadReplicas (timebase : Bool) (lags : List (Fin 3)) (s : State) : State :=
  if timebase ∧ !s.boot.locked then { s with replicas := tlist 0 0 ((List.range 16).map fun k => (lags.getD k 0).val) } else s

/-- R449: the detail of B2. -/
def clocksDetail (s : State) : Nat :=
  (maskBits 16 ((List.range 16).filter fun d => (domain s d).negotiated) : BitVec 16).toNat + 65536 * b2n s.boot.locked +
  131072 * b2n s.trace.pll

/-- STAGE_B2_CLOCKS. R379, R382: after an L4 an interrupted snapshot copy is made before the stage ends. -/
def stageB2 (regulators : BitVec 16) (readback again : List Nat) (timebase tracePll : Bool) (lags : List (Fin 3)) (s : State) : State :=
  if !inStage s 2 then s
  else
    let s := if s.crash.redo then completeCopy true s else s
    let vout := lastReadback readback again
    let s := setRegulators regulators vout (List.range 16) s
    let bad := offNominal regulators vout
    let s := if bad = [] then updTempo (fun t => { t with vsafe := t.off }) s else faultAll vout bad s
    let s := loadReplicas timebase lags s
    let s := updBoot (fun b => { b with locked := b.locked || timebase, ccp := true }) s
    let s := startFlush (linesLock tracePll s)
    let ok := s.boot.locked
    let s := if ok then s else stageFails 2 s
    startStage 3 (reportStage 2 (if ok then 0 else 2) (clocksDetail s) s)

/-! ### The shutdown record (R469, R470) and the saved image (R454) -/

/-- R470: the shutdown record that the board controller delivered, if it verifies. -/
def shutRecord (s : State) : Option (List Byte) :=
  match tfind 2 s.i3c.store with
  | none => none
  | some l =>
    if l.length = 160 ∧ slice 0 4 l = [0x4C, 0x42, 0x53, 0x52] ∧ fieldLe 4 2 l = 2 ∧ fieldLe 6 2 l = 160 ∧ slice 8 16 l = uidBytes s ∧
        l.drop 128 = hmacSha256 (bistKey s) (l.take 128) then some l else none

/-- R469: the result of a slice in a shutdown record. -/
def recordResult (l : List Byte) (i : Nat) : Nat := bits (fieldLe (32 + i / 4) 1 l) (2 * (i % 4) + 1) (2 * (i % 4))

/-- R454: the header of a saved memory image. -/
def imageValid (s : State) (l : List Byte) : Bool :=
  let n := fieldLe 8 4 l
  slice 0 4 l == [0x4D, 0x54, 0x53, 0x56] && fieldLe 4 2 l == 2 && fieldLe 6 2 l == 0 && decide (32 ≤ n) && decide (n ≤ 65536) && decide (n ≤ l.length) &&
  slice 12 16 l == uidBytes s && fieldLe 28 4 l == (crc32c (l.take 28 ++ [0, 0, 0, 0] ++ (l.take n).drop 32)).toNat

/-- R453, R454: the image that the board controller delivered, if it is valid. -/
def savedImage (s : State) : Option (List Byte) := (tfind 1 s.i3c.store).filter (imageValid s)

/-! ### Slices (R456, R468) -/

/-- R453, R456: the slices that B3 and B5 run: those that a valid record leaves UNDONE, else all of the stage. -/
def slicesDue (s : State) (n : Nat) : List Nat :=
  let mem := fun i => decide (272 ≤ i) && decide (i ≤ 279)
  let all := (List.range 316).filter fun i => mem i == (n == 3)
  match shutRecord s with
  | some l => if isReturn s then all else all.filter fun i => recordResult l i == 0
  | none => all

/-- Slices of the stage that have no result yet. -/
def slicesLeft (s : State) (n : Nat) : List Nat := (slicesDue s n).filter fun i => tget 0 i s.boot.slices == 0

/-- R453, R493: the shutdown record is asked for and has not been answered. -/
def recordAwaited (s : State) : Bool := (match s.i3c.need with | some (o, _, _) => o == 2 | none => false) || s.i3c.wanted.contains 2

/-- A slice that may give its result now: at B3 before memory is trained, at B5, and at shutdown in ascending order. -/
def sliceRuns (s : State) (i : Nat) : Bool :=
  if callerOff s then false
  else if s.boot.shutdown = 2 then
    s.boot.zeroised && s.boot.zeroising.isNone && i == s.boot.slices.length && decide (s.boot.sliceStart ≤ s.boot.slicesBegan + 15000000000)
  else if inStage s 3 then
    !mustSkip s 3 && !s.boot.awaitsDone && !s.rst.l4 && !recordAwaited s && (slicesLeft s 3).contains i
  else inStage s 5 && !mustSkip s 5 && (slicesLeft s 5).contains i

/-- R456, R468: when the budget of the slice that runs ends; slices run one after the other (log entry 170). -/
def budgetEnd (s : State) : Nat := s.boot.sliceStart + (if s.boot.shutdown = 2 then s.boot.budget else 40) * 1000000

/-- R456, R468: what a slice gives: 1 PASS, 2 FAIL, 3 TIMEOUT; none while a slice without an MISR still has its budget. -/
def sliceOutcome (gave : Bool) (expected observed : Word) (s : State) : Option Nat :=
  if gave && decide (s.now ≤ budgetEnd s) then some (if expected = observed then 1 else 2)
  else if s.now < budgetEnd s then none
  else some 3

/-- R456, R468: a slice has a result; a failure is recorded. -/
def sliceResult (i : Nat) (gave : Bool) (expected observed : Word) (s : State) : State :=
  match sliceOutcome gave expected observed s with
  | none => s
  | some res =>
    if !sliceRuns s i then s
    else
      let s := updBoot (fun b => { b with
        slices := tput 0 i res b.slices, sliceStart := s.now, ran := b.ran + 1, ranFailed := b.ranFailed + b2n (res != 1) }) s
      if res = 1 then s else occur 0x9001 srcControl i expected.toNat observed.toNat s

/-! ### B3 and B4 -/

/-- R224, R453: the charter store and the capsule region lie in the trained stack of lowest number. -/
def placeRegions (s : State) : State :=
  match stacksIn s.boot.stackBits with
  | [] => s
  | k :: _ => updAdj (fun a => { a with capsuleBase := Config.capsuleBase k }) (updBoot (fun b => { b with storeAt := Config.storeBase k }) s)

/-- R453, R457: stacks whose controller logic is on the defect record, failed its slice now, or failed at shutdown. -/
def stacksRetired (s : State) : Byte :=
  maskBits 8 ((List.range 8).filter fun k =>
    s.boot.defectOtp.toNat.testBit (272 + k) || decide (2 ≤ tget 0 (272 + k) s.boot.slices) ||
    (match shutRecord s with | some l => decide (2 ≤ recordResult l (272 + k)) | none => false))

/-- R449: the detail of B3. -/
def memDetail (s : State) : Nat :=
  s.boot.stackBits.toNat + 256 * b2n s.boot.memValid + 512 * b2n s.boot.memUsed + 1024 * min 15 s.boot.ran + 16384 * min 15 s.boot.ranFailed

/-- R55, R60: cores and clusters leave reset, so that their taps can be negotiated; none does before the timebase has locked. -/
def coresOut (s : State) : State :=
  if s.boot.locked then updRst (fun r => { r with coresIn := 0, clustersIn := 0 }) s else s

/-- R453: memory is trained, and B3 ends. -/
def endB3 (trained : Byte) (used : Bool) (s : State) : State :=
  let s := updBoot (fun b => { b with stackBits := trained &&& ~~~stacksRetired s, memUsed := used && b.memValid }) s
  let ok := s.boot.stackBits != 0
  let s := placeRegions (if ok then s else stageFails 3 s)
  startStage 4 (reportStage 3 (if ok then 0 else 2) (memDetail s) s)

/-- R379: after an L4 the caller restores the training state from the saved image; cores leave reset with memory back. -/
def restoreMemory (s : State) : State :=
  let ok := s.boot.memValid
  let s := updBoot (fun b => { b with memUsed := ok }) (if ok then s else stageFails 3 s)
  startStage 6 (coresOut (reportStage 3 (if ok then 0 else 2) (memDetail s) s))

/-- STAGE_B3_MEMTRAIN (R453): once the slices are done, the saved image goes into the window, and firmware trains. -/
def stageB3 (s : State) : State :=
  if !inStage s 3 || s.boot.awaitsDone || needing s then s
  else if mustSkip s 3 then skipStage 3 s
  else if !s.rst.l4 && slicesLeft s 3 != [] then s
  else
    let img := savedImage s
    let s := updBoot (fun b => { b with memValid := img.isSome, memset := tlist 0 0 (img.getD []) }) s
    if s.rst.l4 then restoreMemory s
    else updBoot (fun b => { b with awaitsDone := true }) s

/-- PHL_BOOT_MEMTRAIN's place in the table of results. -/
def regMemtrain : Nat := 0x080008

/-- MEMTRAIN_DONE (R453, R480): a write to PHL_BOOT_MEMTRAIN. -/
def writeMemtrain (r : Requester) (value : Word) (s : State) : State :=
  if callerOff s ∨ !(r == .host || r == .ccp) then s
  else
    let v := value.toNat
    let s := updBoot (fun b => { b with trained := BitVec.ofNat 8 (bits v 23 16) }) s
    if bits v 31 30 ≠ 1 then s
    else if !inStage s 3 || !s.boot.awaitsDone then setResult regMemtrain r 1 s
    else
      let n := max 32 (min 65536 (leNat (tgets 0 8 4 s.boot.memset)))
      let s := if bit v 26 then offerObject 1 (tgets 0 0 n s.boot.memset) s else s
      endB3 (BitVec.ofNat 8 (bits v 23 16)) (bit v 25) (setResult regMemtrain r 0 s)

/-- R450: B3 restored from a valid image, and B5 found a clean record with no slice UNDONE. -/
def startKind (s : State) : Nat := if isReturn s then 2 else if s.boot.memUsed && s.boot.recordClean then 1 else 0

/-- R456 steps 3 and 4: the shutdown record is accepted, and SECRETS_ZEROISED is recorded before the first slice. -/
def enterB5 (s : State) : State :=
  let rec_ := shutRecord s
  let clean := match rec_ with
    | some l => bit (fieldLe 25 1 l) 0 && (List.range 316).all fun i => recordResult l i != 0
    | none => false
  let s := startStage 5 (updBoot (fun b => { b with recordUsed := rec_.isSome, recordClean := clean }) s)
  if mustSkip s 5 then s
  else occur 0x9002 srcControl 3 0 0 (coresOut (updBoot (fun b => { b with kind := startKind s }) s))

/-- R455: B4 ends with what the screen found. -/
def endB4 (found : Nat → StackScreen) (s : State) : State :=
  let screened := stacksIn s.boot.stackBits
  let passed := screened.filter fun k => !(found k).failed
  let rows := screened.filter fun k => decide (0 < (found k).repaired)
  let total := (screened.map fun k => (found k).repaired).sum
  let s := placeRegions (updBoot (fun b => { b with stackBits := maskBits 8 passed }) s)
  let s := if passed = [] then stageFails 4 s else s
  enterB5 (reportStage 4 (if passed = [] then 2 else 0)
    ((maskBits 8 passed : Byte).toNat + 256 * (maskBits 8 rows : Byte).toNat + 65536 * min 255 total) s)

/-- STAGE_B4_MEMSCREEN (R455). -/
def stageB4 (found : List StackScreen) (s : State) : State :=
  if !inStage s 4 then s
  else if mustSkip s 4 then enterB5 (skipStage 4 s)
  else endB4 (fun k => found.getD k { failed := false, repaired := 0 }) s

/-! ### B5 (R456, R464) -/

/-- R456 steps 1 to 5: the defect list before the cores are tested. -/
def listFromSlices (s : State) : BitVec 316 :=
  let flagged := if isReturn s then (s.boot.flagged.map fun c => BitVec.ofNat 316 (2 ^ c)).getD 0 else 0
  let failed := (List.range 316).filter fun i =>
    decide (2 ≤ tget 0 i s.boot.slices) || (match shutRecord s with | some l => decide (2 ≤ recordResult l i) | none => false)
  s.boot.defectOtp ||| flagged ||| maskBits 316 failed

/-- The blocks of a list. -/
def defectBlocks (m : BitVec 316) : List Nat := (List.range 316).filter fun i => m.toNat.testBit i

/-- R449, R464: the blocks of the defect list that the DEFECT record does not hold. -/
def countAdded : State → State :=
  updBoot fun b => { b with added := (defectBlocks (b.defect &&& ~~~b.defectOtp)).length }

/-- R449: the detail of B5. -/
def coresDetail (s : State) : Nat := (goodCores s).length + 512 * s.boot.ran + 262144 * min 255 s.boot.added

/-- R456 steps 6 to 8: cores that fail their pattern, their negotiation or the known-answer test join the list. -/
def endB5 (bad : Nat → Bool) (s : State) : State :=
  let s := updBoot (fun b => { b with defect := listFromSlices s }) s
  let lost := (goodCores s).filter fun c => bad c || (station s c).tapVer == 0
  let s := updBoot (fun b => { b with
    defect := b.defect ||| maskBits 316 lost, keyStore := true, zeroised := false
    stackBits := b.stackBits &&& ~~~(maskBits 8 ((List.range 8).filter fun k => b.defect.toNat.testBit (272 + k))) }) s
  let s := countAdded s
  startStage 6 (reportStage 5 (if s.boot.added = 0 then 0 else 1) (coresDetail s) s)

/-- STAGE_B5_CORES: due once every slice that the stage runs has its result. -/
def stageB5 (patternFail katFail : BitVec 256) (s : State) : State :=
  if !inStage s 5 then s
  else if mustSkip s 5 then skipStage 5 s
  else if slicesLeft s 5 != [] then s
  else endB5 (fun c => patternFail.getLsbD c || katFail.getLsbD c) s

/-! ### B6 and B7 -/

/-- R449, R458: B6 ends. -/
def endB6 (reports : List (Option PortReport)) (s : State) : State :=
  let s := trainPorts reports (List.range 36) s
  startStage 7 (reportStage 6 0 (fabricDetail s) s)

/-- STAGE_B6_FABRIC. -/
def stageB6 (reports : List (Option PortReport)) (s : State) : State :=
  if !inStage s 6 then s else if mustSkip s 6 then skipStage 6 s else endB6 reports s

/-- R379: the TOPOLOGY section of the image in the charter store, which its last acceptance had checked. -/
def storedTopology (s : State) : Option Topology :=
  let img := s.cfg.image
  let sects := (List.range (hdrCount img)).map (sectOf img)
  match (sects.find? (·.type == 8)).map fun x => readTopology x.value with
  | some (.ok t) => some t
  | _ => none

/-- R449: B7 ends. -/
def endB7 (k : TopoCount) (s : State) : State :=
  startStage 8 (reportStage 7 k.worst (k.missing + 64 * k.narrow + 4096 * k.peer) s)

/-- STAGE_B7_TOPOLOGY (R460, R461): it waits for the first charter. -/
def stageB7 (s : State) : State :=
  if !inStage s 7 then s
  else if mustSkip s 7 then skipStage 7 s
  else
    match (if reapplies s then storedTopology s else s.cfg.first.map (·.1.topology)) with
    | none => s
    | some t => let (k, s) := compareTopology t s; endB7 k s

/-! ### B8 (R461, R463, R93, R267) -/

/-- R124: cores below the floor join the defect list. -/
def applyTapFloor (floor : Nat) (s : State) : State :=
  let low := (goodCores s).filter fun c => decide ((station s c).tapVer < floor)
  updBoot (fun b => { b with defect := b.defect ||| maskBits 316 low }) s

/-- R461: one more than the highest logical core that a mask names. -/
def coresNamed (ch : Charter) : Nat :=
  (List.range 256).foldl (fun n l => if ch.partition.any (fun e => e.2.toNat.testBit l) then l + 1 else n) 0

/-- R93: a port whose settled version is below SYNC_FLOOR carries no sync traffic. -/
def applySyncFloor (floor : Nat) : List Nat → State → State
  | [], s => s
  | p :: r, s =>
    let f := fport s p
    let s := updFPort p (fun f => { f with floor := floor }) s
    let s := if f.settled ≠ 0 ∧ f.settled < floor then linkDegraded p 2 (updFPort p (fun f => { f with settled := 0 }) s) else s
    applySyncFloor floor r s

/-- R93: a host generation below HOST_FLOOR is withdrawn. -/
def applyHostFloor (floor : Nat) (s : State) : State :=
  if s.cfg.hostGen ≠ 0 ∧ s.cfg.hostGen < floor then recordHostGen (updCfg (fun c => { c with hostGen := 0 }) s) else s

/-- R267, R494: X and k as the board controller carried them, if the record names this chip. -/
def restoreLedger (ch : Charter) (s : State) : State :=
  if !ch.ledger.carry then s
  else
    match tfind 3 s.i3c.store with
    | none => s
    | some l =>
      if l.length = 32 ∧ slice 0 16 l = uidBytes s ∧ fieldLe 28 4 l = (crc32c (l.take 28)).toNat then
        updLed (fun d => { d with x := BitVec.ofNat 64 (fieldLe 16 8 l), k := fieldLe 24 4 l, carried := true }) s
      else s

/-- R82, R461: every good core's station is loaded with its figures. -/
def loadStations : List Nat → State → State
  | [], s => s
  | c :: r, s => loadStations r (preload c (stationFigures s c) (updStation c (fun t => { t with slots := [], banks := [] }) s))

/-- The figures of a charter do not fit a station whose slots are empty (R149). -/
def freshFault (s : State) (ch : Charter) : Option NoFit :=
  (List.range s.boot.map.length).findSome? fun l =>
    match physOf s l with
    | none => none
    | some c => match planSlots { station s c with slots := [] } (figuresFor ch l) with | .ok _ => none | .error e => some e

/-- R83, R461: steps 4 and 5, and what the charter's other sections set. -/
def applyCharter (ch : Charter) (img : List Byte) (s : State) : State :=
  let s := updCfg (fun c => { c with epoch := nextEpoch c.epoch, floors := ch.floors, first := none }) s
  let s := noteGating (acceptCharter ch img s)
  let s := loadStations (serviceCores s) s
  let s := updBoot (fun b => { b with chip := ch.topology.chip }) s
  let s := applySyncFloor ch.floors.2.1 (List.range 36) s
  let s := applyHostFloor ch.floors.2.2 s
  let s := updEvt (setLimits s.now ch.limits) s
  let s := restoreLedger ch (applyPolicy false (List.range 16) s)
  if draining s then drainBegins s else s

/-- R461: the core rule: its finding, and the state with its record. -/
def coreRule (ch : Charter) (s : State) : Nat × State :=
  let g := s.boot.map.length
  let n := coresNamed ch
  if n ≤ g then (0, s) else (if ch.topology.degradedOk then 1 else 2, mismatchRecord 0 4 n g s)

/-- R449: B8 ends. -/
def endB8 (result serial : Nat) (s : State) : State :=
  startStage 9 (reportStage 8 result serial s)

/-- R461: the first charter is applied. R149: one whose figures do not fit is rejected, and B8 waits for another. -/
def applyFirst (ch : Charter) (img : List Byte) (s : State) : State :=
  let t := applyTapFloor ch.floors.1 s
  let t := updBoot (fun b => { b with map := goodCores t }) t
  match freshFault t ch with
  | some e =>
    rejectCharter (noFitReject t ch e) ch.serial.toNat s.cfg.firstBy (updCfg (fun c => { c with first := none }) s)
  | none =>
    let (res, t) := coreRule ch t
    endB8 res ch.serial.toNat (applyCharter ch img t)

/-- R379: the active image is verified and applied again; a rejected one leaves B8 NOT_READY. -/
def reapply (s : State) : State :=
  let img := s.cfg.image
  match checkImage img (activeKeyhash s) none with
  | .error e => endB8 2 (hdrSerial img) (rejectCharter e (hdrSerial img) .caller s)
  | .ok ch =>
    match freshFault s ch with
    | some e =>
      endB8 2 (hdrSerial img) (rejectCharter (noFitReject s ch e) (hdrSerial img) .caller s)
    | none =>
      let (res, s) := coreRule ch s
      endB8 res ch.serial.toNat (applyCharter ch img s)

/-- STAGE_B8_CHARTER. -/
def stageB8 (s : State) : State :=
  if !inStage s 8 || needing s then s
  else if mustSkip s 8 then skipStage 8 s
  else if reapplies s then reapply s
  else
    match s.cfg.first with
    | none => s
    | some (ch, img) => applyFirst ch img s

/-! ### B9 (R452, R279, R465) -/

/-- R465: the DEFECT record of a RETURN start: a new generation with the flagged core. -/
def addFlagged (s : State) : State :=
  match s.boot.flagged with
  | none => s
  | some c =>
    let mask := s.boot.defectOtp ||| BitVec.ofNat 316 (2 ^ c)
    let g := (otpRecord s 5).1
    let img := withCrc 5 ([5, BitVec.ofNat 8 (g + 1), 0, 0] ++ toLe 40 mask.toNat ++ List.replicate 20 0)
    if otpFull s 5 then offerImage 5 img s else otpBurn (0x0A40 + 64 * g) img s

/-- R465, R474: RETURNED is set in the FLAG record. -/
def markReturned (s : State) : State :=
  match unreturnedFlag s with
  | none => s
  | some l =>
    let g := otpGen s 7
    let s := if heldAtBoard s 7 then offerImage 7 (l.set 6 1) s else otpBurn (0x0BC0 + 32 * (g - 1) + 6) [1] s
    updLed (fun d => { d with returns := min 15 (d.returns + 1) }) s

/-- R279, R452: the service state that B9 of a power-on start enters. -/
def serviceAt (s : State) : State :=
  if s.boot.flagBad || (s.boot.flagPending && !isReturn s) then setState 3 s
  else
    let s := setState 1 s
    if isReturn s then markReturned (addFlagged s) else s

/-- R270, R452: the change of state at B9, with its report; a chip whose power-on start was NOT_READY stays STARTING. -/
def enterService (s : State) : State := if s.boot.worst = 2 ∨ s.boot.barred then s else unscheduledReport (serviceAt s)

/-- R266: intervals run from here on; after an L4 in SERVING exposure starts again. -/
def startIntervals (s : State) : State :=
  if s.led.state = 0 then s
  else
    updLed (fun l => { l with
      running := l.running || decide (l.state ≠ 3), began := s.now
      servingSince := if l.state = 1 then some s.now else l.servingSince }) s

/-- R449: the detail of B9. -/
def readyDetail (s : State) : Nat := s.boot.map.length + 4096 * s.led.state + 65536 * s.boot.kind

/-- R449: B9 ends with the worst finding. R372: after an L4 a finding of NOT_READY fails the level. -/
def endB9 (s : State) : State :=
  let s := reportStage 9 s.boot.worst (readyDetail s) s
  let s := updBoot (fun b => { b with state := 2 }) s
  match s.rst.active.find? (·.level == 4) with
  | some l => if s.rst.l4 ∧ s.boot.worst = 2 then escalate l s else s
  | none => s

/-- STAGE_B9_READY. -/
def stageB9 (s : State) : State :=
  if !inStage s 9 then s else endB9 (startIntervals (if s.led.state = 0 then enterService s else s))

/-! ### Limits (R451) -/

/-- R450: so far the start can still be FAST. -/
def mayBeFast (s : State) : Bool := !isReturn s && s.boot.memValid && (s.boot.stage == 3 || (s.boot.memUsed && s.boot.recordClean))

/-- R449: the limit of a stage in ms. -/
def stageLimit (s : State) : Nat :=
  match s.boot.stage with
  | 0 => 10 | 1 => 30 | 2 => 50
  | 3 => if s.rst.l4 then 2000 else if mayBeFast s then 5000 else 61000
  | 4 => 160000
  | 5 => if mayBeFast s then 3000 else 18000
  | 6 => if s.rst.l4 then 5500 else 8000
  | 9 => 10
  | _ => 100

/-- R461: B7 waits for the first charter without a limit; a B8 that has none waits likewise. -/
def stageWaits (s : State) : Bool := (s.boot.stage == 7 || s.boot.stage == 8) && !reapplies s && s.cfg.first.isNone

/-- R449: the detail of a stage that its limit ends. B0 has sampled nothing valid, B7 has compared nothing, and B8 has applied no
charter. -/
def stageDetail (s : State) : Nat :=
  match s.boot.stage with
  | 1 => callerDetail s
  | 2 => clocksDetail s
  | 3 => memDetail s
  | 4 => 0
  | 5 => coresDetail s
  | 6 => fabricDetail s
  | _ => 0

/-- R453, R456: what stands in the state when the limit ends B3 or B5: stacks that are not trained are retired, and the blocks whose
slices failed are on the list. -/
def settleUnits (s : State) : State :=
  match s.boot.stage with
  | 3 => if s.rst.l4 then s else updBoot (fun b => { b with stackBits := b.trained &&& ~~~stacksRetired s }) s
  | 5 => countAdded (updBoot (fun b => { b with defect := listFromSlices s }) s)
  | _ => s

/-- R451: a stage ends with NOT_READY at its limit. -/
def stageOverruns (s : State) : State :=
  let n := s.boot.stage
  let s := stageFails n (settleUnits s)
  if n = 9 then endB9 (updBoot (fun b => { b with worst := 2 }) s)
  else
    let s := reportStage n 2 (stageDetail s) s
    if n = 4 then enterB5 s else startStage (stageAfter s n) s

/-- R451: the limit of the stage has passed; the wait for the first charter does not count (R461). -/
def pastLimit (s : State) : Bool := decide (max s.boot.stageStart s.boot.waitEnd + stageLimit s * 1000000 ≤ s.now)

/-- STAGE_LIMIT_REACHED: an overrun that is tied to units drops them. -/
def limitReached (dropped : StageUnit) (s : State) : State :=
  if !inStage s s.boot.stage || stageWaits s || !pastLimit s then s
  else
    match dropped, s.boot.stage with
    | .stacks m, 3 =>
      if s.rst.l4 then restoreMemory (updBoot (fun b => { b with stackBits := b.stackBits &&& m }) s)
      else endB3 (s.boot.trained &&& m) false s
    | .stacks m, 4 => endB4 (fun k => { failed := !m.toNat.testBit k, repaired := 0 }) s
    | .ports r, 6 => endB6 r s
    | .cores m, 5 => endB5 (fun c => !m.getLsbD c) s
    | _, _ => stageOverruns s

/-! ### Power (R448, R484) -/

/-- PWR_OK_RISE: power-on reset is released, and B0 starts. -/
def powerOn (s : State) : State :=
  if s.boot.pwrOk then s
  else startStage 0 (updRst (fun r => { r with callerIn := false }) (updBoot (fun b => { b with pwrOk := true }) s))

/-- SUPPLY_LOSS: a power-on reset. OTP keeps its bits; the rest is as `State.reset` gives it. What has left stays sent, but the
trace lanes count their periods anew. -/
def powerLost (s : State) : State :=
  { State.reset with pending := s.pending, free := s.free, out := { s.out with trace := [] }, boot := { State.reset.boot with otp := s.boot.otp } }

/-! ### The meanings -/

/-- R448. -/
def execPwrOkRise (s : State) : Host.Outcome State Fault Refusal := .next (powerOn s)

/-- R484. -/
def execSupplyLoss (s : State) : Host.Outcome State Fault Refusal := .next (powerLost s)

/-- R449. -/
def execStageB0Supply (t : Nat) (ctl core hbm io : Bool) (s : State) : Host.Outcome State Fault Refusal :=
  .next (stageB0 ctl core hbm io (atTime t s))

/-- R449, R472. -/
def execStageB1Caller (t : Nat) (s : State) : Host.Outcome State Fault Refusal := .next (stageB1 (atTime t s))

/-- R55, R283, R449. -/
def execStageB2Clocks (t : Nat) (regulators : BitVec 16) (readback : Readback) (timebase : TimebaseStart) (tracePll : Bool)
    (s : State) : Host.Outcome State Fault Refusal :=
  .next (stageB2 regulators readback.first readback.again timebase.locked tracePll timebase.lags (atTime t s))

/-- R453. -/
def execStageB3Memtrain (t : Nat) (s : State) : Host.Outcome State Fault Refusal := .next (stageB3 (atTime t s))

/-- R453, R480. -/
def execMemtrainDone (t : Nat) (r : Requester) (value : Word) (s : State) : Host.Outcome State Fault Refusal :=
  .next (writeMemtrain r value (atTime t s))

/-- R455. -/
def execStageB4Memscreen (t : Nat) (found : List StackScreen) (s : State) : Host.Outcome State Fault Refusal :=
  .next (stageB4 found (atTime t s))

/-- R456. -/
def execStageB5Cores (t : Nat) (patternFail katFail : BitVec 256) (s : State) : Host.Outcome State Fault Refusal :=
  .next (stageB5 patternFail katFail (atTime t s))

/-- R456, R468. -/
def execLbistSliceComplete (t : Nat) (slice : Fin 316) (expected observed : Word) (s : State) : Host.Outcome State Fault Refusal :=
  .next (sliceResult slice.val true expected observed (atTime t s))

/-- R456, R468. -/
def execLbistSliceTimeout (t : Nat) (slice : Fin 316) (expected held : Word) (s : State) : Host.Outcome State Fault Refusal :=
  .next (sliceResult slice.val false expected held (atTime t s))

/-- R458. -/
def execStageB6Fabric (t : Nat) (ports : List (Option PortReport)) (s : State) : Host.Outcome State Fault Refusal :=
  .next (stageB6 ports (atTime t s))

/-- R460. -/
def execStageB7Topology (t : Nat) (s : State) : Host.Outcome State Fault Refusal := .next (stageB7 (atTime t s))

/-- R461. -/
def execStageB8Charter (t : Nat) (s : State) : Host.Outcome State Fault Refusal := .next (stageB8 (atTime t s))

/-- R452. -/
def execStageB9Ready (t : Nat) (s : State) : Host.Outcome State Fault Refusal := .next (stageB9 (atTime t s))

/-- R451. -/
def execStageLimitReached (t : Nat) (dropped : StageUnit) (s : State) : Host.Outcome State Fault Refusal :=
  .next (limitReached dropped (atTime t s))

end Sys2Proof.Machine
end

