-- ==== Sys2Proof/Machine/Egress.lean ====
section
/-! DEFINITION. The horizon on its way to the gate points (R30 to R34, R216, R217), and items that arrive there (R65, R196 to R201). -/

namespace Sys2Proof.Machine

/-! ### Horizons (R30, R31) -/

def earliest : List Nat → Option Nat
  | [] => none
  | a :: r => some (r.foldl min a)

/-- R30: retire times of the CUs of a pending list. -/
def pendingRetires (t : Station) : List Nat := (t.cus.filter (·.pending)).filterMap (·.retire)

/-- R30: a station's horizon, with the replica's value; it never decreases. -/
def stationHorizon (t : Station) (replica : Nat) : Nat := max t.horizon ((earliest (pendingRetires t)).getD replica)

def formHorizons (replica : Nat) : List Nat → State → State
  | [], s => s
  | c :: r, s => formHorizons replica r (updStation c (fun t => { t with horizon := stationHorizon t replica }) s)

/-- The stations of a cluster. -/
def clusterStations (cl : Nat) : List Nat := (List.range 16).map (16 * cl + ·)

/-- HORIZON_FORWARD (R29, R31, R62): a station without a pending CU stands at its cluster's timebase replica. R432: a station
that is scanned forwards nothing. -/
def forwardHorizon (cl : Nat) (s : State) : State :=
  if clusterInReset s cl ∨ callerOff s ∨ scanned s then s
  else
    let s := formHorizons (replica s cl) (clusterStations cl) s
    let h := (earliest ((clusterStations cl).map fun c => (station s c).horizon)).getD 0
    updHz (fun z => { z with
      clusters := tput 0 cl (max h (tget 0 cl z.clusters)) z.clusters, forwarding := z.forwarding ||| BitVec.ofNat 16 (2 ^ cl) }) s

/-- R31: the least of the 16 cluster values. -/
def clusterMin (s : State) : Nat := (earliest ((List.range 16).map fun c => tget 0 c s.hz.clusters)).getD 0

/-- VH_BROADCAST (R31): VH never decreases. -/
def broadcastVh (s : State) : State :=
  if callerOff s then s
  else
    let v := max s.hz.vh (clusterMin s)
    if v = s.hz.vh then s else updHz (fun z => { z with vh := v, since := s.now, stalled := false }) s

/-! ### What holds VH (R217) -/

/-- The pending CU with the earliest retire time: (retire, core, tag). -/
def oldestPending (s : State) : Option (Nat × Nat × Word) :=
  let all := (s.stations.map fun x => (x.2.cus.filter (·.pending)).filterMap fun u => u.retire.map fun r => (r, x.1, u.tag)).flatten
  match all with
  | [] => none
  | a :: r => some (r.foldl (fun m x => if x.1 < m.1 then x else m) a)

/-- The cluster in reset whose last forwarded value holds VH; one that has forwarded none shows the Reset value, 0. -/
def heldCluster (s : State) : Option Nat :=
  (List.range 16).find? fun c => clusterInReset s c && tget 0 c s.hz.clusters != 0 && tget 0 c s.hz.clusters == clusterMin s

/-- R217: (TAG, HELD, VALID, CLUSTER). -/
def vhOldest (s : State) : Word × Bool × Bool × Nat :=
  match heldCluster s with
  | some c => (0, true, false, c)
  | none =>
    match oldestPending s with
    | some x => (x.2.2, false, true, x.2.1 / 16)
    | none => (0, false, false, 0)

/-- VH_STALL (R217): 1 ms without an advance. -/
def vhStalls (s : State) : State :=
  if s.hz.stalled ∨ s.now < s.hz.since + 1000000 ∨ callerOff s then s
  else
    let x := vhOldest s
    occur 0x1012 (srcCaller 1) x.1.toNat (x.2.2.2 + 16 * b2n x.2.2.1 + 32 * b2n x.2.1) ((s.now - s.hz.since) / 1000)
      (updHz (fun z => { z with stalled := true }) s)

/-! ### A gate point and the broadcast (R34, R194, R201) -/

/-- The containment entries that the broadcast word carries. -/
def broadcastEntries (s : State) : Tab ContEntry :=
  (s.hz.contained.filter fun x => x.2.entry != {}).map fun x => (x.1, x.2.entry)

/-- R194: a gate point acknowledges every entry. -/
def acknowledgeAll (g : Nat) : State → State :=
  updHz fun z => { z with contained := z.contained.map fun x => (x.1, { x.2 with acked := x.2.acked ||| BitVec.ofNat 38 (2 ^ g) }) }

/-- R34, R218: a gate point holds closed. -/
def closeGate (g cause : Nat) (s : State) : State :=
  updGate g (fun p => { p with closed := cause }) (updHz (fun z => { z with cause := cause, point := g }) s)

/-- GATE_VH_UPDATE: fail-closed conditions, then containment, then the new VH. -/
def gateUpdate (g : Nat) (parityOk : Bool) (s : State) : State :=
  if callerOff s then s
  else if !parityOk then closeGate g 3 s
  else
    let s := updGate g (fun p => { p with closed := 0, opened := true, heard := s.now, entries := broadcastEntries s }) s
    let s := acknowledgeAll g (sweepContained g s)
    releaseItems g (updGate g (fun p => { p with vh := max p.vh s.hz.vh }) s)

/-- GATE_BROADCAST_TIMEOUT (R34): more than 1 µs without a valid broadcast. -/
def gateTimeout (g : Nat) (s : State) : State :=
  if (gate s g).closed ≠ 0 ∨ !(gate s g).opened ∨ s.now ≤ (gate s g).heard + 1000 then s else closeGate g 2 s

/-! ### Items that arrive (R65, R196, R198, R200) -/

/-- R196: the gate point of a kind of item. -/
def pointTakes (g : Nat) : ItemKind → Bool
  | .fabricPush => decide (g < 36)
  | .hostPush => g == 36
  | .completion => g == 36
  | .hostSignal => g == 36
  | .signal => g == 37
  | .arrival => g == 37

/-- The key of a transfer whose items a gate point drops for poison: the bit says that the rest of a dropped item is
still to come. -/
def poisonKey (i : ItemIn) (rest : Bool) : Nat × Nat × Nat := (i.core.val, i.queue.val, 2 * i.transfer.toNat + b2n rest)

def sameTransfer (i : ItemIn) (k : GItem) : Bool := k.core == i.core && k.queue == i.queue && k.transfer == i.transfer && k.kind == i.kind

/-- An item from its first sector. -/
def firstSector (i : ItemIn) (now : Nat) : GItem :=
  { kind := i.kind, core := i.core, queue := i.queue, transfer := i.transfer, start := min i.start now, gated := i.gated, dest := i.dest
    addr := i.addr, data := i.data, sectors := 1, whole := none, lastItem := i.lastItem, msg := none, ackNeed := 0, object := none }

def dropPoisoned : List GItem → State → State
  | [], s => s
  | i :: r, s => dropPoisoned r (dropAtProducer i (updHz (fun z => { z with dropPoison := satAdd 0xFFFF z.dropPoison 1 }) s))

/-- R65, R407: the item and what is held of its transfer are dropped, POISON_CONSUMED is recorded, L2 starts. -/
def poisonArrives (g : Nat) (i : ItemIn) (s : State) : State :=
  let mine := (gate s g).items.filter (sameTransfer i)
  let arriving := if mine.any (fun k => k.whole.isNone) then [] else [firstSector i s.now]
  let s := updGate g (fun p => { p with
    items := p.items.filter fun k => !sameTransfer i k
    poisoned := if i.last && i.lastItem then p.poisoned else poisonKey i (!i.last) :: p.poisoned }) s
  let s := dropPoisoned (mine ++ arriving) s
  let s := occur 0xC001 (srcGate g) 0 (ctxOfCore s i.core.val + 0x2000 + 65536 * g + 16777216 * i.core.val) i.poisoned s
  startFault { cause := 4, level := 2, index := i.core.val / 16, queue := 0 } s

/-- R65: a later sector of a transfer with a poisoned item: each further item is dropped with its last sector. -/
def restArrives (g : Nat) (i : ItemIn) (rest : Bool) (s : State) : State :=
  let s := updGate g (fun p =>
    let others := p.poisoned.filter (· != poisonKey i rest)
    { p with poisoned := if i.last && i.lastItem then others else if i.last then poisonKey i false :: others else p.poisoned }) s
  if i.last ∧ !rest then dropPoisoned [firstSector i s.now] s else s

/-- R198: an item of the producers comes whole: it is dropped, held or released. -/
def placeItem (g : Nat) (i : GItem) (s : State) : State :=
  if covers (tget {} (itemCtx s i) (gate s g).entries) i.start then dropContained i s
  else releaseItems g (updGate g (fun p => { p with items := p.items ++ [i] }) s)

/-- A sector joins its item, which is released, held or dropped once it is whole (R198, R201). -/
def sectorJoins (g : Nat) (i : ItemIn) (s : State) : State :=
  let open_ := fun (k : GItem) => sameTransfer i k && k.whole.isNone
  let newItem := !(gate s g).items.any open_
  if (newItem && (gate s g).waiting != []) || !gateRoom g (gate s g) newItem i.data.length then s
  else
    let whole := if i.last then some s.now else none
    if newItem then
      let k := { firstSector i s.now with whole := whole }
      if i.last then placeItem g k s else updGate g (fun p => { p with items := p.items ++ [k] }) s
    else
      let join := fun (k : GItem) => { k with data := k.data ++ i.data, sectors := k.sectors + 1, whole := whole, lastItem := i.lastItem }
      let s := updGate g (fun p => { p with items := p.items.map fun k => if open_ k then join k else k }) s
      if i.last then releaseItems g (sweepContained g s) else s

/-- GATE_ITEM_ARRIVAL. R252: an item of a rehearsal kit disables the kit. -/
def itemArrives (g : Nat) (i : ItemIn) (s : State) : State :=
  if !pointTakes g i.kind then s
  else if i.kit then kitInvalid (station s i.core.val).reh.kit 2 i.core.val s
  else if (gate s g).poisoned.contains (poisonKey i false) then restArrives g i false s
  else if (gate s g).poisoned.contains (poisonKey i true) then restArrives g i true s
  else if i.poisoned ≠ 0 then poisonArrives g i s
  else sectorJoins g i s

/-! ### The meanings -/

/-- R30, R31. The lag that the sender saw is not read: the state holds the cluster's replica (log entry 149). -/
def execHorizonForward (t : Nat) (cluster : Cluster) (lag : Fin 3) (s : State) : Host.Outcome State Fault Refusal :=
  let _ := lag
  .next (forwardHorizon cluster.val (atTime t s))

/-- R31. -/
def execVhBroadcast (t : Nat) (s : State) : Host.Outcome State Fault Refusal := .next (broadcastVh (atTime t s))

/-- R34, R194, R198, R201. -/
def execGateVhUpdate (t : Nat) (point : Gate) (parityOk : Bool) (s : State) : Host.Outcome State Fault Refusal :=
  .next (gateUpdate point.val parityOk (atTime t s))

/-- R65, R196, R198. -/
def execGateItemArrival (t : Nat) (point : Gate) (item : ItemIn) (s : State) : Host.Outcome State Fault Refusal :=
  .next (itemArrives point.val item (atTime t s))

/-- R34. -/
def execGateBroadcastTimeout (t : Nat) (point : Gate) (s : State) : Host.Outcome State Fault Refusal :=
  .next (gateTimeout point.val (atTime t s))

/-- R217. -/
def execVhStall (t : Nat) (s : State) : Host.Outcome State Fault Refusal := .next (vhStalls (atTime t s))

end Sys2Proof.Machine
end

