-- ==== Sys2Proof/Machine/Seals.lean ====
section
/-! DEFINITION. Step seals and rearming (R204 to R211, R220), census pages (R156, R157). -/

namespace Sys2Proof.Machine

/-- PHL_SEAL_REARM's place in the table of results. -/
def regSealRearm : Nat := 0x040010

/-- The seal unit as a source of records (R401). -/
def srcSeal : BitVec 16 := srcCaller 2

/-! ### The conditions of a seal (R206) -/

/-- Condition 3: VH passes the later of Tq and Tz. -/
def vhPassed (s : State) (tq : Nat) (tz : Option Nat) : Bool :=
  match tz with
  | some t => decide (max tq t + 4 ≤ s.hz.vh)
  | none => false

/-- Condition 4: every sampled CU of the steps has its reprise verdict. -/
def reprisesIn (s : State) (ctx step : Nat) (x : Ctx) : Bool :=
  (ctxCores s ctx).all fun c => (station s c).capsules.all fun k =>
    !(k.state != 3 && k.ctx.toNat == ctx && decide (x.began ≤ k.start) && decide (k.step ≤ step) && k.verdict.isNone)

/-- Condition 5. -/
def noIncident (x : Ctx) (step : Nat) : Bool := x.incidents.all fun i => decide (step < i.step)

/-- Condition 6: the page of a step is written, or the context has none to write (R159). -/
def pageWritten (s : State) (ctx step : Nat) (x : Ctx) : Bool :=
  match numericsOf s ctx with
  | some e => !e.writePages || decide (step < x.pages)
  | none => true

/-! ### Census pages (R156, R157) -/

/-- The merged entry of a tag for a step. -/
def mergedCensus (s : State) (cores : List Nat) (step tag : Nat) : Census :=
  cores.foldl (fun z c => addCensus z (tget {} (4096 * step + tag) (station s c).census)) {}

def censusBytes (z : Census) : List Byte := toLe 4 z.zeros ++ toLe 4 z.sats ++ toLe 4 z.nonfinite ++ toLe 4 z.amax

/-- The tags that a step's tables list. -/
def stepTags (s : State) (cores : List Nat) (step : Nat) : List Nat :=
  ((cores.map fun c => ((station s c).census.filter fun e => e.1 / 4096 == step).map fun e => e.1 % 4096).flatten).eraseDups

def writeEntries (base : Nat) (cores : List Nat) (step : Nat) : List Nat → State → State
  | [], s => s
  | g :: r, s => writeEntries base cores step r (memStore false (base + 16 * g) (censusBytes (mergedCensus s cores step g)) s)

/-- R157: the page of a step: zero but for the tags with a CU in the step. -/
def writePage (ctx step : Nat) (s : State) : State :=
  match numericsOf s ctx with
  | some e =>
    if !e.writePages then s
    else
      let cores := ctxCores s ctx
      let base := e.page + 65536 * (step % 2)
      writeEntries base cores step (stepTags s cores step) (memStore false base (List.replicate 65536 0) s)
  | none => s

/-- The tables of a sealed step are free. -/
def freeCensus (step : Nat) : List Nat → State → State
  | [], s => s
  | c :: r, s => freeCensus step r (updStation c (fun t => { t with census := t.census.filter fun e => decide (step < e.1 / 4096) }) s)

/-! ### The seal (R206 to R208) -/

/-- R207, R208: the seal is issued. -/
def issueSeal (ctx : Nat) (e : SealEntry) (x : Ctx) (tq : Nat) (s : State) : State :=
  let step := x.sealed
  let s := writePage ctx step s
  let s := updCtx ctx (fun c => { c with
    pages := step + 1, sealed := step + 1, tz := none, requests := c.requests.filter fun r => decide (step + 1 < r.1 + r.2.1) }) s
  let s := freeCensus step (ctxCores s ctx) s
  let s := (actOn e.object 3 1 (callerParty s) tq s).2
  let s := advanceSeals ctx (List.range 256) s
  let ns := s.now - max tq (tget 0 step x.lastRetire)
  let s := occur 0x1020 srcSeal ctx step (ns / 1000) s
  let s := if e.lateUs * 1000 < ns then occur 0x1022 srcSeal ctx step (ns / 1000) s else s
  observeStep ctx s

/-- SEAL_ISSUE. -/
def sealIssues (ctx : Nat) (s : State) : State :=
  match runningCtx s ctx, sealEntryOf s ctx with
  | some x, some e =>
    match requestOf x x.sealed with
    | none => s
    | some q =>
      let step := x.sealed
      if stepRetired s ctx step x && vhPassed s q.2.2 x.tz && reprisesIn s ctx step x && noIncident x step &&
          !callerOff s then issueSeal ctx e x q.2.2 s
      else s
  | _, _ => s

/-! ### Rearming (R210, R220) -/

/-- R210: the entry covers items up to Tr from now on; CONTAIN_END. -/
def narrow (ctx : Nat) (s : State) : State :=
  let drops := (containment s ctx).drops
  let s := updContainment ctx (fun k => match k.entry.tc with
    | some t => { k with entry := { tc := none, past := k.entry.past ++ [(t, s.now)] }, acked := 0, drops := 0 }
    | none => { k with drops := 0 }) s
  occur 0x1016 srcSeal ctx drops (s.now % 2 ^ 32) s

/-- R210: the step number of every queue of the context's cores. -/
def setSteps (step : Nat) : List Nat → State → State
  | [], s => s
  | c :: r, s =>
    setSteps step r (updStation c (fun t => { t with
      queues := (List.range 4).foldl (fun qs q => tput {} q { (tget {} q qs : QState) with step := step } qs) t.queues }) s)

/-- R210: an incident of reason 1, 4 or 6 is open. -/
def rearmBusy (x : Ctx) : Bool := x.incidents.any fun i => i.reason == 1 || i.reason == 4 || i.reason == 6

/-- R210: the context is rearmed. -/
def rearmContext (ctx : Nat) (s : State) : State :=
  let v := match sealEntryOf s ctx with | some e => (object s e.object).value.toNat | none => 0
  let s := updCtx ctx (fun c => { c with incidents := [], requests := [], nextReq := v, sealed := v, tz := none }) s
  narrow ctx (setSteps v (ctxCores s ctx) s)

/-- R220: a REARM of a requester; the G1 window is refused with NO_CONTEXT. -/
def rearm (r : Requester) (value : Word) (s : State) : State :=
  let answer := fun (v : Nat) (s : State) => setResult regSealRearm r v s
  let ctx := value.toNat % 4096
  if bits value.toNat 31 30 ≠ 1 then s
  else
    match r with
    | .hostG1 => if s.cfg.hostGen = 1 then answer 2 s else s
    | .host | .ccp =>
      if ctx = 0 then answer 0 (narrow 0 s)
      else
        match runningCtx s ctx with
        | none => answer 2 s
        | some x => if rearmBusy x then answer 1 s else answer 0 (rearmContext ctx s)
    | _ => s

/-! ### The meanings -/

/-- R206 to R208. -/
def execSealIssue (t : Nat) (ctx : CtxId) (s : State) : Host.Outcome State Fault Refusal :=
  .next (sealIssues ctx.toNat (atTime t s))

/-- R210, R220. -/
def execSealRearm (t : Nat) (r : Requester) (value : Word) (s : State) : Host.Outcome State Fault Refusal :=
  let s := atTime t s
  .next (if callerOff s then s else rearm r value s)

end Sys2Proof.Machine
end

