-- ==== Sys2Proof/Machine/Shutdown.lean ====
section
/-! DEFINITION. The orderly shutdown (R466 to R471), zeroisation (R432, R467), and the programming of OTP records (R476). -/

namespace Sys2Proof.Machine

/-! ### The request (R466, R481) -/

/-- PHL_BOOT_SHUTDOWN's and PHL_BOOT_OTP's places in the table of results. -/
def regShutdown : Nat := 0x08000C
def regOtp : Nat := 0x080010

/-- R466: RESULT of a request: 0 OK, 1 BUSY, 2 REFUSED. -/
def shutdownResult (s : State) : Nat :=
  if s.boot.state < 2 ∨ s.led.state = 5 ∨ s.tab.state ≠ 0 then 2
  else if s.ctxs ≠ [] ∨ s.boot.shutdown ≠ 0 then 1
  else 0

/-- R467 step 1. -/
def beginShutdown (s : State) : State :=
  updBoot (fun b => { b with
    shutdown := 1, shutStart := s.now, clean := true, zeroising := none
    budget := if s.cfg.budget = 0 then 40 else s.cfg.budget.toNat }) s

/-- SHUTDOWN: a write to PHL_BOOT_SHUTDOWN of the host or the chip control processor, or the board controller's command
(R489). -/
def writeShutdown (r : Requester) (value : Word) (s : State) : State :=
  if !(r == .host || r == .ccp || r == .bc) then s
  else
    let s := updCfg (fun c => { c with budget := BitVec.ofNat 8 (value.toNat % 256) }) s
    if bits value.toNat 31 30 ≠ 1 then s
    else
      let a := shutdownResult s
      setResult regShutdown r a (if a = 0 then beginShutdown s else s)

/-! ### Steps 2 and 3 (R467) -/

/-- Step 2 is in progress. -/
def inDrainStep (s : State) : Bool := s.boot.shutdown == 1 && s.boot.zeroising.isNone && !callerOff s

/-- R467 step 2: pending lists, adjudications, replays and gate points are empty. -/
def allEmpty (s : State) : Bool :=
  (s.stations.all fun x => x.2.cus.all fun u => !u.pending) && s.adj.slots.isEmpty && s.adj.queue.isEmpty && s.adj.replays.isEmpty &&
  (s.hz.gates.all fun g => g.2.items.isEmpty && g.2.waiting.isEmpty)

/-- Step 3 begins: the domains return to nominal; zeroisation follows when they have. -/
def nominalStep (s : State) : State := updBoot (fun b => { b with zeroising := some s.now }) (allNominal (List.range 16) s)

/-- SHUTDOWN_DRAIN_DONE. -/
def shutdownDrained (s : State) : State := if inDrainStep s && allEmpty s then nominalStep s else s

/-- R467: items still held are discarded and counted. -/
def discardHeld : List Nat → State → State
  | [], s => s
  | g :: r, s =>
    let n := (gate s g).items.length + (gate s g).waiting.length
    discardHeld r (updGate g (fun p => { p with items := [], waiting := [] })
      (updHz (fun h => { h with dropContain := satAdd 0xFFFF h.dropContain n }) s))

/-- SHUTDOWN_DRAIN_TIMEOUT: at 100 ms. -/
def shutdownDrainLate (s : State) : State :=
  if inDrainStep s && decide (s.boot.shutStart + 100000000 ≤ s.now) then
    nominalStep (updBoot (fun b => { b with clean := false }) (discardHeld (List.range 38) s))
  else s

/-! ### Zeroisation (R432, R467 step 4) -/

/-- R467 step 3, R471: every readback is confirmed, and a quarantine in progress has completed. -/
def zeroiseReady (s : State) : Bool := ((List.range 16).all fun d => (domain s d).cmd.isNone) && !draining s

/-- R467 step 3: a readback that was not confirmed. -/
def unconfirmed (s : State) : Bool := (List.range 16).any fun d => (domain s d).negotiated && (domain s d).fault

/-- R432: the key store and the session secrets are zeroised. -/
def zeroise (since : Nat) (s : State) : State :=
  occur 0x9002 srcControl 3 ((s.now - since) / 1000) 0 (updBoot (fun b => { b with keyStore := false, zeroised := true, zeroising := none }) s)

/-- R432: a scan to the trace port feeds it from here on. -/
def paceScan (s : State) : State := updTrace (fun t => { t with line := { t.line with paced := periodAt s.now } }) s

/-- ZEROISATION_COMPLETE. Scan is enabled (R432), or the slices of the shutdown begin. -/
def zeroisationDone (s : State) : State :=
  match s.boot.zeroising with
  | none => s
  | some t0 =>
    if callerOff s then s
    else if s.tab.state = 3 then updTab (fun b => { b with state := 4 }) (paceScan (zeroise t0 s))
    else if s.boot.shutdown = 1 ∧ zeroiseReady s then
      let s := zeroise t0 s
      updBoot (fun b => { b with
        shutdown := 2, slices := [], slicesBegan := s.now, sliceStart := s.now, shutStart := s.now, clean := b.clean && !unconfirmed s }) s
    else s

/-! ### Steps 5 to 7 (R467 to R470) -/

/-- R468: every slice has its result, or the next would start too late. -/
def slicesOver (s : State) : Bool :=
  s.boot.slices.length == 316 || decide (s.boot.slicesBegan + 15000000000 < s.boot.sliceStart)

/-- R469: a byte of RESULTS. -/
def resultByte (s : State) (i : Nat) : Byte :=
  BitVec.ofNat 8 (((List.range 4).map fun k => tget 0 (4 * i + k) s.boot.slices * 4 ^ k).sum)

/-- R469: bytes 0 to 127 of the shutdown record. -/
def recordBody (s : State) : List Byte :=
  [0x4C, 0x42, 0x53, 0x52] ++ toLe 2 2 ++ toLe 2 160 ++ uidBytes s ++
  [BitVec.ofNat 8 s.boot.budget, BitVec.ofNat 8 (b2n s.boot.clean), 0, 0] ++ toLe 4 ((s.now - s.boot.slicesBegan) / 1000000) ++
  (List.range 79).map (resultByte s) ++ List.replicate 17 0

/-- R469: the record with its tag under BIST_KEY. -/
def shutdownRecord (s : State) : List Byte := recordBody s ++ hmacSha256 (bistKey s) (recordBody s)

/-- SHUTDOWN_SLICES_DONE: step 6. -/
def slicesDone (s : State) : State :=
  if s.boot.shutdown = 2 ∧ !callerOff s ∧ slicesOver s then
    offerObject 2 (shutdownRecord s) (updBoot (fun b => { b with shutdown := 3, shutStart := s.now }) s)
  else s

/-- R467 step 7: the offer of the record has ended: HALTED, and power may be removed (R490, R492). -/
def haltChip (s : State) : State :=
  if s.boot.shutdown = 3 then
    oobAdd 7 [] (updI3c (fun i => { i with powerOff := true }) (updBoot (fun b => { b with shutdown := 4, state := 3 }) s))
  else s

/-! ### OTP programming (R476, R482) -/

/-- R476: the 48-byte message. -/
def otpMessage (s : State) (r : Requester) (n : NonceRec) (type gen : Nat) (data : List Byte) : List Byte :=
  "PHLOTPGM".toList.map (fun c => BitVec.ofNat 8 c.toNat) ++ uidBytes s ++ toLe 16 n.value.toNat ++
  [BitVec.ofNat 8 (reqCode r), BitVec.ofNat 8 type, BitVec.ofNat 8 gen, 0] ++ toLe 4 (crc32c data).toNat

/-- R517: a requester's own image of PHL_BOOT_OTP_DATA. -/
def otpData (s : State) (r : Requester) : List Byte := (List.range 64).map fun i => tget 0 (reqCode r * 64 + i) s.cfg.otpData

/-- R476: the slot with its header and CRC. -/
def slotImage (type gen : Nat) (data : List Byte) : List Byte :=
  withCrc type (padTo (otpMap type).2.2 ([BitVec.ofNat 8 type, BitVec.ofNat 8 gen, 0, 0] ++ slice 4 ((otpMap type).2.2 - 4) data))

/-- R476: a DEFECT generation that clears a bit of the active MASK. -/
def clearsDefect (s : State) (data : List Byte) : Bool :=
  let old := match (otpRecord s 5).2 with | some l => fieldLe 4 40 l | none => 0
  old &&& fieldLe 4 40 data != old

/-- R476: the nonce of the requester is gone; a tag that does not match counts towards the lockout of R414. -/
def otpMismatch (r : Requester) (s : State) : Nat × State := (2, countMismatch (updEvt (dropNonce r) s))

/-- R476, R482: a PROGRAM: its RESULT, unless programming begins. -/
def programOtp (r : Requester) (type : Nat) (s : State) : Option Nat × State :=
  if !mayClear r || lockedOut s then (some 6, s)
  else if s.boot.otpJob.isSome then (some 5, s)
  else if !(type == 4 || type == 5 || type == 6) then (some 4, s)
  else if !keysUsable s then (some 3, s)
  else
    let data := otpData s r
    let gen := (otpRecord s type).1 + 1
    match tfind (reqCode r) s.evt.nonces with
    | none => let a := otpMismatch r s; (some a.1, a.2)
    | some n =>
      if nonceOld s n || tgets 0 0 32 s.evt.response != hmacSha256 (clearKey s) (otpMessage s r n type gen data) then
        let a := otpMismatch r s; (some a.1, a.2)
      else
        let s := updEvt (dropNonce r) s
        if type = 5 ∧ clearsDefect s data then (some 4, s)
        else
          let job : OtpJob := { type := type, gen := gen, image := slotImage type gen data, requester := r, toBoard := otpFull s type }
          (none, updBoot (fun b => { b with otpJob := some job }) s)

/-- OTP_PROGRAM: a write to PHL_BOOT_OTP. -/
def writeOtp (r : Requester) (value : Word) (s : State) : State :=
  if !(r == .host || r == .ccp) then s
  else
    let s := updCfg (fun c => { c with otpRecord := BitVec.ofNat 3 (bits value.toNat 26 24) }) s
    if bits value.toNat 31 30 ≠ 1 then s
    else
      match programOtp r (bits value.toNat 26 24) s with
      | (some v, s) => setResult regOtp r v s
      | (none, s) => s

/-- R488: a register's RESULT as an I3C response: OK, or REFUSED, with the value. -/
def answerResult (refused : Bool) (v : Nat) : State → State :=
  updI3c fun i => { i with resp := some (if refused then 5 else 0, [BitVec.ofNat 8 v]) }

/-- R487: the board controller's OTP_PROGRAM, if it still waits, gets its response. -/
def answerOtp (r : Requester) (v : Nat) (s : State) : State :=
  match r, s.i3c.resp with
  | .bc, some (1, _) => answerResult false v s
  | _, _ => s

/-- OTP_SLOT_PROGRAMMED: RESULT 0 OK, or 1 HELD_AT_BC when every generation is used (R472). -/
def slotProgrammed (s : State) : State :=
  match s.boot.otpJob with
  | none => s
  | some j =>
    if callerOff s then s
    else
      let s := updBoot (fun b => { b with otpJob := none }) s
      let s := if j.toBoard then offerImage j.type j.image s else otpBurn ((otpMap j.type).1 + (j.gen - 1) * (otpMap j.type).2.2) j.image s
      answerOtp j.requester (b2n j.toBoard) (setResult regOtp j.requester (b2n j.toBoard) s)

/-! ### The meanings -/

/-- R466, R471, R481. -/
def execShutdown (t : Nat) (r : Requester) (value : Word) (s : State) : Host.Outcome State Fault Refusal :=
  let s := atTime t s
  .next (if callerOff s ∨ r = .bc then s else writeShutdown r value s)

/-- R467. -/
def execShutdownDrainDone (t : Nat) (s : State) : Host.Outcome State Fault Refusal := .next (shutdownDrained (atTime t s))

/-- R467. -/
def execShutdownDrainTimeout (t : Nat) (s : State) : Host.Outcome State Fault Refusal := .next (shutdownDrainLate (atTime t s))

/-- R432, R467. -/
def execZeroisationComplete (t : Nat) (s : State) : Host.Outcome State Fault Refusal := .next (zeroisationDone (atTime t s))

/-- R467 to R469. -/
def execShutdownSlicesDone (t : Nat) (s : State) : Host.Outcome State Fault Refusal := .next (slicesDone (atTime t s))

/-- R476, R482. -/
def execOtpProgram (t : Nat) (r : Requester) (value : Word) (s : State) : Host.Outcome State Fault Refusal :=
  let s := atTime t s
  .next (if callerOff s then s else writeOtp r value s)

/-- R472, R476. -/
def execOtpSlotProgrammed (t : Nat) (s : State) : Host.Outcome State Fault Refusal := .next (slotProgrammed (atTime t s))

end Sys2Proof.Machine
end

