-- ==== Sys2Proof/Machine/TableauUnit.lean ====
section
/-! DEFINITION. Tableau and scan-out (R427 to R433, R499), counter snapshots (R426), trace commands (R435, R438, R441, R447, R498), test access (R500). -/

namespace Sys2Proof.Machine

/-- The tableau controller and the trace unit as sources of records (R401). -/
def srcTableau : BitVec 16 := srcCaller 11
def srcTrace : BitVec 16 := srcCaller 12

/-- PHL_TABLEAU_CMD's and PHL_TRACE_SNAP's places in the table of results. -/
def regTableau : Nat := 0x0A0000
def regSnap : Nat := 0x0B0008

/-! ### HALT and RELEASE (R427 to R431, R444) -/

/-- R427: the trigger of a requester: 1 HOST, 2 HOST_G1, 3 CCP, 4 BC. -/
def haltSource : Requester → Nat
  | .host => 1 | .hostG1 => 2 | .ccp => 3 | _ => 4

/-- R431, R432, R521: a requester may write PHL_TABLEAU_CMD, HOST_G1 through a window that responds. -/
def mayTableau (s : State) (r : Requester) : Bool := r != .caller && (r != .hostG1 || s.cfg.hostGen == 1) && !callerOff s

/-- R444: RESULT of a HALT: 0 OK, 1 REFUSED; R471: refused during a shutdown. -/
def haltResult (s : State) : Nat := if s.boot.shutdown ≠ 0 ∨ 2 < s.tab.state then 1 else 0

/-- R524: the requester's own SCAN is in progress, and PHL_TABLEAU_CMD encodes no BUSY. -/
def scanUnderway (s : State) (r : Requester) : Bool := (s.tab.state == 3 || s.tab.state == 4) && s.tab.scanBy == some r

/-- TABLEAU_HALT. -/
def writeHalt (r : Requester) (s : State) : State :=
  if !mayTableau s r || scanUnderway s r then s
  else
    let a := haltResult s
    setResult regTableau r a (if a = 0 then tableauTrigger (haltSource r) s else s)

/-- STOP_IN_ASSERTED (R427, R499). -/
def stopIn (s : State) : State := if s.tab.arm.getLsbD 17 then tableauTrigger 5 s else s

/-- R428: the cores that halt: those in service and not in reset. -/
def haltedCores (s : State) : Nat := ((List.range 256).filter fun c => inService s c && !coreInReset s c).length

/-- TABLEAU_HALTED (R428, R503). -/
def tableauHalted (latency : Nat) (s : State) : State :=
  if s.tab.state ≠ 1 ∨ callerOff s then s
  else
    let n := haltedCores s
    let s := updTab (fun b => { b with state := 2, cores := n, latency := min 255 latency }) s
    let ev := mkEv s 0xE002 srcTableau (BitVec.ofNat 32 s.tab.source) (BitVec.ofNat 32 n) (BitVec.ofNat 32 latency) s.now false
    capture 0x07 0 0 false (some ev) 0 (msix 2 (occurEv ev s))

/-- R374, R431: the hold ends, and the resets that waited for it start. -/
def releaseHold (s : State) : State :=
  let l := s.rst.waiting
  startWaiting l (updRst (fun r => { r with waiting := [] }) (endHold s))

/-- R430, R444: RESULT of a RELEASE: 0 OK, 1 REFUSED, 2 SCANNED. -/
def releaseResult (s : State) : Nat := if s.tab.state = 2 then 0 else if 4 ≤ s.tab.state then 2 else 1

/-- TABLEAU_RELEASE. -/
def writeRelease (r : Requester) (s : State) : State :=
  if !mayTableau s r then s
  else
    let a := releaseResult s
    setResult regTableau r a (if a = 0 then releaseHold s else s)

/-! ### Scan-out (R432, R433) -/

/-- PHL_TABLEAU_DEST selects the trace port (R445). -/
def destPort (s : State) : Bool := s.tab.dest.getLsbD 0

/-- The image's address in memory (R445). -/
def scanAddr (s : State) : Nat := s.tab.dest.toNat / 2 ^ 30 * 2 ^ 30

/-- R432: RESULT of a SCAN: 0 OK, 1 REFUSED, 3 NO_DEST, 4 NO_PORT. -/
def scanResult (s : State) (r : Requester) : Nat :=
  if r = .hostG1 ∨ s.tab.state ≠ 2 then 1
  else if !destPort s && scanAddr s == 0 then 3
  else if destPort s && !portUp s then 4
  else 0

/-- TABLEAU_SCAN: zeroisation begins. -/
def writeScan (r : Requester) (s : State) : State :=
  if !mayTableau s r || scanUnderway s r then s
  else
    let a := scanResult s r
    let s := setResult regTableau r a s
    if a = 0 then updBoot (fun b => { b with zeroising := some s.now }) (updTab (fun b => { b with state := 3, scanBy := some r }) s) else s

/-- R433: kind, unit and greatest length of a segment, and the block of R462 that it belongs to. -/
def segInfo (k : Nat) : Nat × Nat × Nat × Nat :=
  if k < 256 then (0, k, 2 ^ 21, k) else if k < 512 then (1, k - 256, 2 ^ 19, k - 256) else (2, k - 512, 2 ^ 18, k - 512 + 256)

/-- R433: a segment of a core or cluster on the defect list has length 0. -/
def segLen (s : State) (k : Nat) : Nat :=
  let i := segInfo k
  if s.boot.defect.toNat.testBit i.2.2.2 then 0 else min i.2.2.1 (Config.scanLen k)

/-- The bytes of a segment: the scan map is not in the spec (log entry 3). -/
def segBytes (s : State) (k : Nat) : List Byte := (List.range (segLen s k)).map (Config.scanByte s.tab.scans k)

/-- R433: header and directory take 8,512 bytes; segments start on 4 KiB boundaries from the third on. -/
def segStarts (s : State) : List Nat → Nat → List (Nat × Nat)
  | [], _ => []
  | k :: r, at_ => (k, at_) :: segStarts s r (at_ + (segLen s k + 4095) / 4096)

/-- The segments with their offsets in 4 KiB units. -/
def segments (s : State) : List (Nat × Nat) := segStarts s (List.range 528) 3

/-- R433: a directory entry. -/
def segEntry (s : State) (x : Nat × Nat) : List Byte :=
  let i := segInfo x.1
  toLe 2 x.1 ++ [BitVec.ofNat 8 i.1, BitVec.ofNat 8 i.2.1] ++ toLe 4 (segLen s x.1) ++ toLe 4 x.2 ++ toLe 4 (crc32c (segBytes s x.1)).toNat

/-- R433: image length in 4 KiB units. -/
def imageUnits (s : State) : Nat := 3 + ((List.range 528).map fun k => (segLen s k + 4095) / 4096).sum

/-- R433: the image header. -/
def scanHeader (s : State) : List Byte :=
  sealed64 ([0x54, 0x42, 0x4C, 0x53] ++ toLe 2 2 ++ toLe 2 528 ++ toLe 8 s.tab.tt ++ toLe 4 s.cfg.epoch.toNat ++
    toLe 4 s.rst.seq.toNat ++ toLe 2 s.boot.chip.toNat ++ [0, 0] ++ toLe 4 (4 * imageUnits s))

/-- Header and directory. -/
def scanHead (s : State) : List Byte := scanHeader s ++ ((segments s).map (segEntry s)).flatten

/-- R435: a SCAN record; it goes to the port or is dropped (R432, R440). -/
def scanRecord (seg at_ : Nat) (bs : List Byte) (s : State) : State :=
  let body := toLe 2 seg ++ [0, 0] ++ toLe 4 at_ ++ toLe 4 bs.length ++ [0, 0, 0, 0] ++ bs
  let x := traceVia true (fun _ => portUp s) (linePut s.trace.line.paced) 0x08 srcTableau s.now 16 body s
  noteGap x.2 x.1

/-- A run of bytes as SCAN records of at most 480. -/
def scanRecords (seg : Nat) (bs : List Byte) : List Nat → State → State
  | [], s => s
  | i :: r, s => scanRecords seg bs r (scanRecord seg (480 * i) (slice (480 * i) (min 480 (bs.length - 480 * i)) bs) s)

def scanBlock (seg : Nat) (bs : List Byte) (s : State) : State := scanRecords seg bs (List.range ((bs.length + 479) / 480)) s

/-- The segments leave through the trace port. -/
def portSegments (src : State) : List Nat → State → State
  | [], s => s
  | k :: r, s => portSegments src r (scanBlock k (segBytes src k) s)

/-- The segments are written to memory. -/
def memSegments (src : State) : List (Nat × Nat) → State → State
  | [], s => s
  | x :: r, s => memSegments src r (memStore false (scanAddr src + 4096 * x.2) (segBytes src x.1) s)

/-- SCAN_IMAGE_COMPLETE: the header is written last; the state becomes SCANNED. -/
def scanComplete (s : State) : State :=
  if s.tab.state ≠ 4 ∨ callerOff s then s
  else
    let src := s
    let s := if destPort src then scanBlock Config.scanHead.toNat (scanHead src) (portSegments src (List.range 528) s)
      else memStore false (scanAddr src) (scanHead src) (memSegments src (segments src) s)
    updTab (fun b => { b with state := 5, scans := b.scans + 1 }) s

/-! ### Counter snapshots (R426, R443) -/

/-- R426: Ts of a snapshot requested now. -/
def snapInstant (s : State) : Nat := if s.now + 1000 < s.trace.snapAt.toNat then s.trace.snapAt.toNat else s.now + 1000

/-- COUNTER_SNAP: RESULT 0 OK, 1 BUSY. -/
def writeSnap (r : Requester) (s : State) : State :=
  if callerOff s ∨ !(r == .host || r == .ccp) then s
  else if s.trace.snapPending.isSome then setResult regSnap r 1 s
  else setResult regSnap r 0 (updTrace (fun t => { t with snapPending := some (snapInstant s), snapDone := false }) s)

/-- R435: the 192 bytes of the counters. -/
def counterBytes (l : Tab Nat) : List Byte := ((List.range 24).map fun i => toLe 8 (tget 0 i l)).flatten

/-- R424: core cycles for which a cause has held or could have held, up to an instant not after the last command. -/
def causeCycles (s : State) (c k at_ : Nat) : Nat :=
  let since := if s.tab.state = 0 ∧ causeHolds s c (station s c) k then clusterWork s (c / 16) at_ s.now else 0
  (tget 0 (causeKey c k) s.causes - since) / 1000

/-- Of the core cycles in which a counter's cause could hold, those in which it did: no command shows them (log entry 4). -/
def stallsIn (c i n : Nat) : Nat := (List.range n).countP (Config.stalls c i)

/-- R424, R425: the counters of core cycles, 16 to 23. -/
def cycleCount (s : State) (c at_ : Nat) : Nat → Nat
  | 19 => causeCycles s c 3 at_
  | 20 => causeCycles s c 4 at_
  | 21 => causeCycles s c 5 at_ + stallsIn c 21 (causeCycles s c 8 at_)
  | 22 => stallsIn c 22 (causeCycles s c 6 at_)
  | 23 => causeCycles s c 7 at_
  | i => stallsIn c i (causeCycles s c (i - 16) at_)

/-- R424: the 24 counters of a core's station at an instant. -/
def countersAt (s : State) (c at_ : Nat) : Tab Nat :=
  (List.range 8).foldl (fun l i => tput 0 (16 + i) (cycleCount s c at_ (16 + i) % 2 ^ 64) l) (station s c).counters

/-- R426: a station latches, and emits a COUNTERS record; in reset it latches zeros. A station of the defect list is no station
(log entry 118). -/
def latchStation (ts c : Nat) (s : State) : State :=
  let l := if clusterInReset s (c / 16) then [] else countersAt s c ts
  let s := if (station s c).counterSnap = l then s else updStation c (fun t => { t with counterSnap := l }) s
  if traceOn s 7 && traceCore s c && !coreBad s c then
    traceAlways 0x07 (srcStation c) ts 7 (toLe 2 c ++ [0, 0] ++ toLe 4 s.rst.seq.toNat ++ List.replicate 8 0 ++ counterBytes l) s
  else s

def latchStations (ts : Nat) : List Nat → State → State
  | [], s => s
  | c :: r, s => latchStations ts r (latchStation ts c s)

/-- COUNTER_SNAPSHOT_LATCH. -/
def snapLatches (s : State) : State :=
  match s.trace.snapPending with
  | none => s
  | some ts =>
    if s.now < ts ∨ callerOff s then s
    else
      let s := latchStations ts (List.range 256) s
      updTrace (fun t => { t with
        snapPending := none, snapDone := true, snapTime := ts
        invalid := maskBits 16 ((List.range 16).filter fun k => clusterInReset s k) }) s

/-! ### Trace commands -/

/-- TRACE_MARK_WRITE (R435, R447, R507): the upper word emits MARK with the lower word given with it, held, or as it
stands. -/
def writeMark (r : Requester) (upper : Word) (lower : Option Word) (s : State) : State :=
  if callerOff s ∨ !(r == .host || r == .ccp) then s
  else
    let key := perReq 0x0B0030 r
    let low := match lower with
      | some w => w
      | none => (tfind key s.cfg.held).getD s.trace.markLow
    let s := updTrace (fun t => { t with markLow := low }) (updCfg (fun c => { c with held := tdel key c.held }) s)
    traceRec 0x0A srcTrace s.now 1 (toLe 4 low.toNat ++ toLe 4 upper.toNat ++ [BitVec.ofNat 8 (reqCode r)]) s

/-- TRACE_BUF_RD_WRITE (R441, R447). -/
def writeBufRd (r : Requester) (value : Word) (s : State) : State :=
  let v := value.toNat % 2 ^ 19
  if callerOff s ∨ !(r == .host || r == .ccp) ∨ s.trace.flushing ∨ bufUnits s.trace < (v + 2 ^ 19 - s.trace.rd) % 2 ^ 19 then s
  else updTrace (fun t => { t with rd := v }) s

/-- TRACE_RDY_CHANGE (R438, R498). -/
def readyChanges (ready : Bool) (s : State) : State :=
  if ready = s.trace.ready then s
  else
    let up := portReady s
    let s := updTrace (fun t => { t with ready := ready }) s
    startFlush (if ready then linesUp s else if up then linesDown s else s)

/-- R438: the units of the buffer, oldest first. -/
def bufContents (t : Trace) : List (BitVec 256) := (List.range (bufUnits t)).map fun i => tget 0 ((t.rd + i) % 2 ^ 18) t.buf

/-- R434: whole records from units in order: `k` more units belong to the record `cur`. -/
def recordsOf : List (BitVec 256) → Nat → List (BitVec 256) → List (List (BitVec 256))
  | [], _, cur => if cur = [] then [] else [cur]
  | u :: r, 0, _ =>
    let n := u.toNat / 2 ^ 72 % 16
    if n = 0 then [u] :: recordsOf r 0 [] else recordsOf r n [u]
  | u :: r, k + 1, cur => if k = 0 then (cur ++ [u]) :: recordsOf r 0 [] else recordsOf r k (cur ++ [u])

/-- Records enter the line one after another, from a period on. -/
def lineFeed (p : Nat) : List (List (BitVec 256)) → State → State
  | [], s => s
  | us :: r, s => lineFeed p r (linePut p us s)

/-- TRACE_BUFFER_FLUSHED (R438). -/
def bufferFlushed (s : State) : State :=
  if !s.trace.flushing || !portUp s then s
  else
    let s := lineFeed s.trace.line.paced (recordsOf (bufContents s.trace) 0 []) s
    updTrace (fun t => { t with rd := t.wr, flushing := false }) s

/-! ### Test access (R500) -/

/-- R500: EXTEST, CLAMP and HIGHZ are honoured before B2 ends, after shutdown step 7, and in DEAD. -/
def boundaryHonoured (s : State) : Bool :=
  (decide (s.boot.stage ≤ 2) && s.boot.state == 0 && !s.rst.l4) || s.boot.shutdown == 4 || s.led.state == 5

/-- R500: IJTAG and WRAPPER are honoured while the key store is zeroised and the caller does not drive the networks. -/
def networksFree (s : State) : Bool :=
  s.boot.zeroised && !(s.boot.stage == 5 && s.boot.state == 0) && s.boot.shutdown != 2 && s.tab.state != 4

/-- R500: the instruction that acts: one that is not honoured acts as BYPASS. -/
def testInstruction (s : State) (v : Byte) : Byte :=
  if v = 0x01 ∨ v = 0x02 ∨ v = 0x22 then v
  else if v = 0x03 ∨ v = 0x04 ∨ v = 0x05 then (if boundaryHonoured s then v else 0xFF)
  else if v = 0x20 ∨ v = 0x21 then (if networksFree s then v else 0xFF)
  else 0xFF

/-- R500: the test instruction in effect now. -/
def testActs (s : State) : Byte := testInstruction s s.boot.jtag

/-- R500: IDCODE. -/
def idcode (s : State) : Nat :=
  fieldLe 22 1 (otpSlot s 1 1) % 16 * 2 ^ 28 + 0x0256 * 2 ^ 12 + Config.jep106.toNat * 2 + 1

/-- R479: the map that PHL_BOOT_DEFECT shows. -/
def defectShown (s : State) : BitVec 316 := if s.boot.mapped then s.boot.defect else 0

/-- R500: the data register that the instruction in effect selects, by its bits and its value; the spec gives none for the
boundary and the IEEE 1687 networks. -/
def testRegister (s : State) : Option (Nat × Nat) :=
  match (testActs s).toNat with
  | 0x01 => some (32, idcode s)
  | 0x22 => some (316, (defectShown s).toNat)
  | 0x02 | 0x03 | 0x20 | 0x21 => none
  | _ => some (1, 0)

/-- TEST_INSTRUCTION_LOAD: TRST_N holds the port in Test-Logic-Reset until PWR_OK. The register selected shifts out on TDO. -/
def loadTest (v : Byte) (s : State) : State :=
  if s.boot.pwrOk then
    let s := updBoot (fun b => { b with jtag := v }) s
    updOut (fun o => { o with testData := (testRegister s).toList ++ o.testData }) s
  else s

/-! ### The meanings -/

/-- R427, R444. -/
def execTableauHalt (t : Nat) (r : Requester) (s : State) : Host.Outcome State Fault Refusal :=
  .next (if r = .bc then atTime t s else writeHalt r (atTime t s))

/-- R427, R499. -/
def execStopInAsserted (t : Nat) (s : State) : Host.Outcome State Fault Refusal := .next (stopIn (atTime t s))

/-- R428. -/
def execTableauHalted (t : Nat) (latency : Nat) (s : State) : Host.Outcome State Fault Refusal :=
  .next (tableauHalted latency (atTime t s))

/-- R431. -/
def execTableauRelease (t : Nat) (r : Requester) (s : State) : Host.Outcome State Fault Refusal :=
  .next (if r = .bc then atTime t s else writeRelease r (atTime t s))

/-- R432. -/
def execTableauScan (t : Nat) (r : Requester) (s : State) : Host.Outcome State Fault Refusal :=
  .next (if r = .bc then atTime t s else writeScan r (atTime t s))

/-- R432, R433. -/
def execScanImageComplete (t : Nat) (s : State) : Host.Outcome State Fault Refusal := .next (scanComplete (atTime t s))

/-- R426. -/
def execCounterSnap (t : Nat) (r : Requester) (s : State) : Host.Outcome State Fault Refusal := .next (writeSnap r (atTime t s))

/-- R426. -/
def execCounterSnapshotLatch (t : Nat) (s : State) : Host.Outcome State Fault Refusal := .next (snapLatches (atTime t s))

/-- R447. -/
def execTraceMarkWrite (t : Nat) (r : Requester) (upper : Word) (lower : Option Word) (s : State) : Host.Outcome State Fault Refusal :=
  .next (writeMark r upper lower (atTime t s))

/-- R441. -/
def execTraceBufRdWrite (t : Nat) (r : Requester) (value : Word) (s : State) : Host.Outcome State Fault Refusal :=
  .next (writeBufRd r value (atTime t s))

/-- R438, R498. -/
def execTraceRdyChange (t : Nat) (ready : Bool) (s : State) : Host.Outcome State Fault Refusal := .next (readyChanges ready (atTime t s))

/-- R438. -/
def execTraceBufferFlushed (t : Nat) (s : State) : Host.Outcome State Fault Refusal := .next (bufferFlushed (atTime t s))

/-- R500. -/
def execTestInstructionLoad (t : Nat) (value : Byte) (s : State) : Host.Outcome State Fault Refusal := .next (loadTest value (atTime t s))

end Sys2Proof.Machine
end

