-- ==== Sys2Proof/Machine/WorkItems.lean ====
section
/-! DEFINITION. Contexts and work lists (R304 to R307, R326, R327, R332), firmware's monitor entries (R324), and the forced set of G1 (R331). -/

namespace Sys2Proof.Machine

/-! ### Starting a context (R306) -/

/-- R306 step 1: the template's objects are assigned; LAST_OP and LAST_TIME stay as they are. -/
def assignObjects (ctx : Nat) (p : Word) : List ObjEntry → State → State
  | [], s => s
  | e :: r, s => assignObjects ctx p r (updObject e.object (fun x => { x with
      value := e.init, count := e.count, assigned := true, host := e.host, hostAddr := e.hostAddr
      ctx := BitVec.ofNat 12 ctx, lastParty := p, subs := [] }) s)

/-- The word of memory at an address (R324). -/
def wordAt (s : State) (a : Nat) : Word := BitVec.ofNat 32 (leNat (memRead s a 4))

/-- The lowest key from `i` on that a table does not list. -/
def firstFree {α : Type} (i : Nat) : Tab α → Nat
  | [] => i
  | (k, _) :: r => if k < i then firstFree i r else if k = i then firstFree (i + 1) r else i

/-- R323: template entries take the lowest free places from 256 to 65,535; the word last seen is the one in memory. An entry
that finds no free place is not installed (DESIGN CHOICE, log entry 134: the spec does not say what happens then). -/
def installMonitors (ctx : Nat) : List MonEntry → Nat → State → State
  | [], _, s => s
  | e :: r, i, s =>
    let free := firstFree i s.sync.mon
    let e' : MonEntry := { e with ctx := BitVec.ofNat 12 ctx, last := wordAt s e.addr }
    if free < 65536 then installMonitors ctx r (free + 1) (updSync (fun y => { y with mon := tset free e' y.mon }) s) else s

/-- R156, R205, R306 step 4: the queues of a context's cores and their census tables start again at step 0. -/
def resetSteps : List Nat → State → State
  | [], s => s
  | c :: r, s => resetSteps r (updStation c (fun t => { t with
      census := []
      queues := (List.range 4).foldl (fun qs q => tput {} q { (tget {} q qs : QState) with step := 0 } qs) t.queues }) s)

/-- R304, R306, R461: what refuses the start of a context: a status, or none. -/
def startRefused (s : State) (ctx : Nat) : Option Nat :=
  if s.led.state ≠ 1 ∨ s.boot.shutdown ≠ 0 then some 11
  else if ctx = 0 ∨ ctx = 0xFFF then some 13
  else
    match ctxMask s ctx with
    | none => some 13
    | some m =>
      if (List.range 256).any (fun l => m.toNat.testBit l && (physOf s l).isNone) then some 13
      else if (runningCtx s ctx).isSome then some 12
      else none

/-- R306: a context starts. -/
def startContext (ctx : Nat) (p : Word) (s : State) : State :=
  match s.cfg.active with
  | none => s
  | some ch =>
    let tmpl := ch.templates.find? fun t => t.ctx.toNat == ctx
    let objs := (tmpl.map (·.objects)).getD []
    let mons := (tmpl.map (·.monitors)).getD []
    let c : Ctx := {
      timeoutUs := ((tmpl.map (·.timeoutMs)).getD 5000) * 1000
      seal_ := ch.seals.find? fun e => e.ctx.toNat == ctx
      guards := ch.guards.filter fun g => g.ctx.toNat == ctx
      starter := p, cores := (ctxMask s ctx).getD 0, began := s.now }
    let s := assignObjects ctx p objs s
    let before := s.sync.mon.length
    let s := installMonitors ctx mons 256 s
    let installed := s.sync.mon.length - before
    let s := { s with ctxs := tset ctx c s.ctxs }
    let s := updSync (fun y => { y with ended := y.ended.filter (· != ctx) }) s
    let s := resetSteps (ctxCores s ctx) s
    occur 0x5007 (srcCaller 0) ctx objs.length installed s

/-! ### Rings (R326, R332) -/

def wlReg (s : State) (ring : Nat) : Nat := (tget 0 ring s.sync.wl : DWord).toNat
def wlBase (s : State) (ring : Nat) : Nat := wlReg s ring / 4096 * 4096
def wlSize (s : State) (ring : Nat) : Nat := 2 ^ (bits (wlReg s ring) 11 8 + 6)
def wlOn (s : State) (ring : Nat) : Bool := bit (wlReg s ring) 0

/-- Items written and taken: PRODUCER and CONSUMER of the ring's header. -/
def producer (s : State) (ring : Nat) : Nat := leNat (memRead s (wlBase s ring) 4)
def consumer (s : State) (ring : Nat) : Nat := leNat (memRead s (wlBase s ring + 4) 4)

/-- R326: where the next item of a ring lies. -/
def itemAddr (s : State) (ring : Nat) : Nat := wlBase s ring + 64 + 32 * (consumer s ring % wlSize s ring)

/-- R302: the agent of a ring as a party. -/
def ringParty (s : State) (ring : Nat) : Word := party s.boot.chip 0 0 0 (ring + 2)

/-- The next item of an enabled ring. -/
def nextItem (s : State) (ring : Nat) : Option (List Byte) :=
  if wlOn s ring ∧ producer s ring ≠ consumer s ring ∧ !callerOff s then some (memRead s (itemAddr s ring) 32) else none

/-- R326, R327: the item's STATUS is written, then CONSUMER advances; a failed item is recorded. -/
def finishItem (ring kind status : Nat) (s : State) : State :=
  let j := consumer s ring
  let s := memStore false (itemAddr s ring + 1) [BitVec.ofNat 8 status] s
  let s := memStore false (wlBase s ring + 4) (toLe 4 ((j + 1) % 2 ^ 32)) s
  if status = 1 then s
  else syncError (srcCaller 0) (BitVec.ofNat 32 (ring + 65536 * (j % 65536))) (ringParty s ring) status (kind % 16) s

/-- R327: the bytes that an item of any kind but MON_ARM holds at zero. -/
def itemPlain (l : List Byte) : Bool := fieldLe 2 2 l / 4096 == 0 && zeroAt 13 3 l && zeroAt 16 16 l

/-- R326: ring 0 is served before ring 1. -/
def ringTurn (s : State) (ring : Nat) : Bool := ring == 0 || (nextItem s 0).isNone

/-- An item command takes the ring's next item when it is of its kind and the ring's turn has come. -/
def takeItem (ring : Nat) (kind : Nat → Bool) (act : List Byte → State → Nat × State) (s : State) : State :=
  match nextItem s ring with
  | none => s
  | some l =>
    if kind (fieldLe 0 1 l) && ringTurn s ring then
      let r := act l s
      finishItem ring (fieldLe 0 1 l) r.1 r.2
    else s

/-- R306: CONTEXT_START. -/
def itemStart (ring : Nat) (l : List Byte) (s : State) : Nat × State :=
  let ctx := fieldLe 2 2 l
  match startRefused s ctx with
  | some 11 => (11, s)
  | r =>
    if !itemPlain l then (13, s)
    else match r with
      | some st => (st, s)
      | none => (1, startContext ctx (ringParty s ring) s)

/-- R307: CONTEXT_END; a context that does not run gives BUSY. -/
def itemEnd (l : List Byte) (s : State) : Nat × State :=
  let ctx := fieldLe 2 2 l
  if !itemPlain l ∨ ctx = 0 ∨ ctx = 0xFFF then (13, s)
  else if (runningCtx s ctx).isNone then (12, s)
  else (1, endContext ctx 1 s)

/-- R309, R327: OBJECT_OP on a local object of any context; an item of an unknown KIND gives INVALID. -/
def itemOp (ring : Nat) (l : List Byte) (s : State) : Nat × State :=
  let name : Word := BitVec.ofNat 32 (fieldLe 4 4 l)
  let op := fieldLe 12 1 l
  if fieldLe 0 1 l ≠ 3 ∨ !itemPlain l ∨ op = 0 ∨ 4 < op then (13, s)
  else if !nameOk name ∨ !isLocal s name then (6, s)
  else
    let r := actOn (nameObject name) op (BitVec.ofNat 32 (fieldLe 8 4 l)) (ringParty s ring) s.now s
    (r.1, sealChanged (nameObject name) r.2)

/-- R324: a monitor entry from its 16 bytes. -/
def monEntry (l : List Byte) : MonEntry :=
  let ctrl := fieldLe 14 1 l
  { addr := fieldLe 0 8 l, compare := BitVec.ofNat 32 (fieldLe 8 4 l), object := fieldLe 12 2 l
    cond := bits ctrl 2 0, oneshot := bit ctrl 3, action := bits ctrl 7 4, addn := fieldLe 15 1 l, ctx := 0, last := 0 }

/-- R324: the limits of a monitor entry's own fields. -/
def monEntryOk (e : MonEntry) : Bool :=
  e.addr % 4 == 0 && decide (e.object < 8192) && decide (e.cond ≤ 4) && decide (1 ≤ e.action) && decide (e.action ≤ 3) &&
  (e.action != 2 || e.addn != 0)

/-- R324, R327: MON_ARM of an entry from 2 to 255 on an object of the context that the item names. -/
def itemArm (l : List Byte) (s : State) : Nat × State :=
  let i := fieldLe 4 4 l
  let e := monEntry (slice 16 16 l)
  let x := object s e.object
  if fieldLe 2 2 l / 4096 ≠ 0 ∨ !zeroAt 13 3 l ∨ i < 2 ∨ 255 < i ∨ !monEntryOk e then (13, s)
  else if objectStatus s e.object = 6 then (6, s)
  else if x.ctx.toNat ≠ fieldLe 2 2 l then (7, s)
  else (1, updSync (fun y => { y with mon := tset i { e with ctx := x.ctx, last := wordAt s e.addr } y.mon }) s)

/-- R327: MON_DISARM. -/
def itemDisarm (l : List Byte) (s : State) : Nat × State :=
  let i := fieldLe 4 4 l
  if !itemPlain l ∨ i < 2 ∨ 255 < i then (13, s)
  else (1, updSync (fun y => { y with mon := tdel i y.mon }) s)

/-- R326, R332: a write to PHL_SYNC_WL; ENABLE arms and disarms the doorbell on the PRODUCER word. -/
def writeWorkList (r : Requester) (ring : Nat) (value : DWord) (s : State) : State :=
  if r ≠ .host ∧ r ≠ .ccp then s
  else
    let v := value.toNat / 256 * 256 + value.toNat % 2
    if wlOn s ring ∧ v / 256 ≠ wlReg s ring / 256 then s
    else
      let s := updSync (fun y => { y with wl := tput 0 ring (BitVec.ofNat 64 v) y.wl }) s
      if bit v 0 then
        let a := v / 4096 * 4096
        let bell : MonEntry := { addr := a, compare := 0, object := 0, cond := 4, oneshot := false, action := 4, addn := 0
                                 ctx := 0, last := wordAt s a }
        updSync (fun y => { y with mon := if (tfind ring y.mon).isSome then y.mon else tset ring bell y.mon }) s
      else updSync (fun y => { y with mon := tdel ring y.mon }) s

/-- R331: a write to PHL_G1_FORCE, through the G1 window only while it responds (R521). -/
def forceG1 (value : Word) (s : State) : State :=
  if s.cfg.hostGen ≠ 1 then s
  else
    let o := value.toNat % 8192
    let v : Word := if value.getLsbD 16 then 1 else 0
    let s := updCfg (fun c => { c with g1Force := value &&& 0x11FFF }) s
    if !value.getLsbD 31 then s
    else
      let before := (object s o).value
      let ok := s.tab.state == 2 && (bankCore s o).isSome
      let s := updCfg (fun c => { c with g1Applied := ok }) s
      let s := occur 0x5004 (srcCaller 13) (objName s.boot.chip o).toNat (b2n ok + 2 * v.toNat + 256 * 2) before.toNat s
      if ok then sealChanged o (change o v 1 (party s.boot.chip 0 0 0 5) s.now s) else s

/-! ### The meanings -/

/-- R306. -/
def execContextStart (t : Nat) (ring : Fin 2) (s : State) : Host.Outcome State Fault Refusal :=
  .next (takeItem ring.val (· == 1) (itemStart ring.val) (atTime t s))

/-- R307. -/
def execContextEnd (t : Nat) (ring : Fin 2) (s : State) : Host.Outcome State Fault Refusal :=
  .next (takeItem ring.val (· == 2) itemEnd (atTime t s))

/-- R327: also the item of a KIND that names nothing. -/
def execObjectOp (t : Nat) (ring : Fin 2) (s : State) : Host.Outcome State Fault Refusal :=
  .next (takeItem ring.val (fun k => k == 3 || k == 0 || decide (5 < k)) (itemOp ring.val) (atTime t s))

/-- R324. -/
def execMonArm (t : Nat) (ring : Fin 2) (s : State) : Host.Outcome State Fault Refusal :=
  .next (takeItem ring.val (· == 4) itemArm (atTime t s))

/-- R327. -/
def execMonDisarm (t : Nat) (ring : Fin 2) (s : State) : Host.Outcome State Fault Refusal :=
  .next (takeItem ring.val (· == 5) itemDisarm (atTime t s))

/-- R332. -/
def execWorkListConfigWrite (t : Nat) (r : Requester) (ring : Fin 2) (value : DWord) (s : State) :
    Host.Outcome State Fault Refusal :=
  let s := atTime t s
  .next (if callerOff s then s else writeWorkList r ring.val value s)

/-- R331. -/
def execG1ForceGo (t : Nat) (value : Word) (s : State) : Host.Outcome State Fault Refusal :=
  let s := atTime t s
  .next (if callerOff s then s else forceG1 value s)

end Sys2Proof.Machine
end

