-- ==== Sys2Proof/Machine/Flags.lean ====
section
/-! DEFINITION. The status, flag and count words that the registers show, computed from the state (field tables of R67 to R523). -/

namespace Sys2Proof.Machine

/-- R506: the RESULT of the reader's own last command. -/
def resultOf (s : State) (reg : Nat) (r : Requester) : Nat := tget 0 (perReq reg r) s.cfg.results

/-! ### CFG (R67, R78, R83, R510 to R513) -/

/-- R67: STATE: the copy of a load ends, and its checks begin, after a time that the spec does not give (log entry 145). -/
def charterState (s : State) : Nat :=
  match s.cfg.copy with
  | some img => if s.cfg.loadAt + Config.copyNs img.length ≤ s.now then 2 else 1
  | none => s.cfg.state

def charterStatus (s : State) : Nat :=
  keyGen s * 2 ^ 24 + s.cfg.section_.toNat * 2 ^ 16 + s.cfg.reason.toNat * 2 ^ 8 + charterState s

def txnWord (s : State) (r : Requester) : Nat :=
  resultOf s regTxn r * 2 ^ 24 +
  (match s.cfg.txn with
   | none => 0
   | some x => (if x.committing then 2 else 1) * 2 ^ 22 + x.id.toNat)

def negI3c (s : State) : Nat := s.i3c.mode * 2 ^ 10 + s.i3c.addrKind * 2 ^ 8 + s.i3c.dyn.toNat

/-! ### EVT (R419 to R423) -/

def evtStatus (s : State) : Nat :=
  b2n s.evt.wrapped * 2 ^ 31 + b2n s.evt.clearing.isSome * 2 ^ 30 + b2n (lockedOut s) * 2 ^ 29 + s.evt.damagedCount * 2 ^ 16 + s.evt.corrected

def evtClear (s : State) (r : Requester) : Nat := tget 0 (reqCode r) s.evt.clearResults * 2 ^ 27 + min 7 s.evt.fails * 2 ^ 24

def evtRead (s : State) (r : Requester) : Nat :=
  let l : ReadLatch := tget {} (reqCode r) s.evt.latches
  l.era.toNat * 2 ^ 40 + l.result * 2 ^ 32 + l.seq.toNat

def evtCount (s : State) (i : Nat) : Nat :=
  let n := tget 0 i s.evt.counts
  b2n (n == 0xFFFFFF) * 2 ^ 24 + n

/-- R423: the nonce outstanding for the reader. -/
def challengeBytes (s : State) (r : Requester) : List Byte :=
  match tfind (reqCode r) s.evt.nonces with
  | none => List.replicate 16 0
  | some n => if nonceOld s n then List.replicate 16 0 else toLe 16 n.value.toNat

/-! ### DK pages (R404, R413, R416) -/

/-- A byte of the ring. -/
def ringByte (s : State) (a : Nat) : Byte :=
  match tfind (a / 32) s.evt.ring with
  | none => 0
  | some r => (recordBytes false r).getD (a % 32) 0

/-- R416: bytes of the crash-dump area, none of them past the part in which they begin. -/
def dumpPart (s : State) (o n : Nat) : List Byte :=
  if o < 65536 then slice o (min n (65536 - o)) (dirBytes s.crash)
  else
    let k := (o - 65536) / 155648
    let b := (o - 65536) % 155648
    let m := min n (155648 - b)
    let d : DumpSlot := tget {} k s.crash.slots
    if d = {} then List.replicate m 0 else slice b m (slotBytes d)

/-- R413: bytes of a DK page. -/
def dkBytes (s : State) (page o n : Nat) : List Byte :=
  if page < 32 then (List.range n).map fun i => ringByte s (page * 65536 + o + i)
  else
    let a := (page - 32) * 65536 + o
    let h := dumpPart s a n
    h ++ dumpPart s (a + h.length) (n - h.length)

/-! ### VH and SEAL (R216 to R220) -/

def oldestWord (s : State) : Nat :=
  let x := vhOldest s
  x.1.toNat * 2 ^ 32 + b2n x.2.1 * 32 + b2n x.2.2.1 * 16 + x.2.2.2

def gateStatus (s : State) : Nat :=
  let shut := (List.range 38).any fun g => (gate s g).closed != 0
  let n := (s.hz.contained.filter fun x => x.2.entry.tc.isSome).length
  b2n shut * 2 ^ 31 + s.hz.cause * 2 ^ 28 + s.hz.point * 2 ^ 22 + n * 2 ^ 13 + b2n (s.cfg.active.isSome && !gatingNow s)

/-- R219: the conditions of R206 that the oldest request does not meet. -/
def unmet (s : State) (ctx : Nat) (x : Ctx) : Nat :=
  match requestOf x x.sealed with
  | none => 0
  | some q =>
    let step := x.sealed
    b2n (!vhPassed s q.2.2 x.tz) + 2 * b2n (!reprisesIn s ctx step x) + 4 * b2n (!stepRetired s ctx step x) +
    8 * b2n (!pageWritten s ctx step x)

/-- R219: requests not yet sealed, counted in steps. -/
def sealOutstanding (x : Ctx) : Nat := min 0xFFFF (x.nextReq - x.sealed)

def sealStatus (s : State) (r : Requester) : Nat :=
  let ctx := (tget 0 (reqCode r) s.cfg.sealSel : CtxId).toNat
  match runningCtx s ctx, sealEntryOf s ctx with
  | some x, some _ =>
    let st := if containedNow s ctx then 4 else if x.incidents ≠ [] then 3 else if x.requests ≠ [] then 2 else 1
    x.sealed * 2 ^ 32 + st * 2 ^ 20 + unmet s ctx x * 2 ^ 16 + sealOutstanding x
  | _, _ => 0

/-! ### LEDGER (R255, R280 to R282) -/

def ledgerState (s : State) : Nat :=
  let l := s.led
  b2n l.quiescent * 2 ^ 28 + l.returns * 2 ^ 24 + b2n l.aboveTarget * 2 ^ 23 + b2n l.flagBc * 2 ^ 22 + l.flag * 2 ^ 20 +
  l.core * 2 ^ 12 + l.unit * 2 ^ 8 + l.cause * 16 + l.state

def ledgerAdj (s : State) : Nat :=
  s.adj.lastClass * 2 ^ 28 + s.adj.queue.length * 2 ^ 16 + (s.adj.slots.map fun x => 2 ^ x.1).sum

def ledgerUnit (s : State) (c : Nat) : Nat :=
  if s.boot.defect.toNat.testBit c then 0
  else
    let w := ((ledgerPolicy s).map (·.windowS)).getD 86400
    let n := fun (u : Nat) => min 15 (inWindow s w c u)
    b2n (s.led.charged.toNat.testBit c) * 2 ^ 20 + n 4 * 2 ^ 16 + n 3 * 2 ^ 12 + n 2 * 2 ^ 8 + n 1 * 16 + n 0

/-! ### TEMPO (R298, R299) -/

def tempoStatus (s : State) : Nat :=
  b2n (s.tempo.vsafe || s.rst.callerIn) * 2 ^ 31 + b2n s.tempo.limit * 2 ^ 30 + b2n s.tempo.aboveHalf * 2 ^ 29 +
  ((List.range 16).map fun d => b2n ((domain s d).state != 0 && (domain s d).state != 6) * 2 ^ d).sum

def avsStatus (s : State) : Nat :=
  ((List.range 16).map fun d => b2n (domain s d).negotiated * 2 ^ (16 + d) + b2n (domain s d).fault * 2 ^ d).sum

def tempoDom (s : State) (d : Nat) : Nat :=
  let x := domain s d
  let w := (s.tempo.section_.map (·.lockWindowS)).getD 0
  x.setpoint * 2 ^ 52 + ((s.tempo.section_.map (floorUnder s d)).getD 0) * 2 ^ 40 + x.readback * 2 ^ 28 + interval8 x.canary * 2 ^ 20 +
  min 15 (backoffsInWindow s d w) * 2 ^ 16 + x.cause * 2 ^ 12 + min 511 ((x.holdEnd - s.now) / (60 * second)) * 8 + x.state

/-! ### RST (R394 to R397) -/

def rstStatus (s : State) : Nat :=
  let tail := min 15 s.rst.active.length * 2 ^ 8 + min 15 (countedResets s) * 16 + b2n s.rst.withdrawn * 8 + b2n s.rst.naking * 4 +
    b2n (s.led.state == 5) * 2
  s.rst.seq.toNat * 2 ^ 32 + tail +
  (match s.rst.latest with
   | none => 0
   | some l => l.level * 2 ^ 29 + l.phase * 2 ^ 26 + l.index * 2 ^ 18 + l.queue * 2 ^ 16 + l.cause * 2 ^ 12)

def rstPeerWord (s : State) (r : Requester) : Nat := resultOf s regRstPeer r * 2 ^ 59 + s.cfg.rstPeer.toNat

/-! ### BOOT (R477 to R482) -/

def bootStage (s : State) : Nat :=
  let st := if s.boot.state = 0 ∧ stageWaits s then 1 else s.boot.state
  min 0xFFFF (s.now / second) * 2 ^ 16 + s.boot.kind * 2 ^ 14 + s.boot.worst * 2 ^ 12 + st * 2 ^ 8 + s.boot.stage

/-- R478: steps 1 to 3 show as DRAINING, steps 4 and 5 as TESTING. -/
def shutdownShown (s : State) : Nat :=
  if s.boot.shutdown = 1 ∧ s.boot.zeroising.isSome ∧ zeroiseReady s then 2 else s.boot.shutdown

def bootStatus (s : State) : Nat :=
  b2n (heldAtBoard s 4) * 2 ^ 31 + b2n (heldAtBoard s 5) * 2 ^ 30 + b2n (heldAtBoard s 6) * 2 ^ 29 + b2n s.boot.flagPending * 2 ^ 28 +
  shutdownShown s * 2 ^ 25 + b2n s.boot.recordUsed * 2 ^ 24 + s.boot.stackBits.toNat * 2 ^ 16 + s.boot.map.length

def memtrainWord (s : State) (r : Requester) : Nat :=
  resultOf s regMemtrain r * 2 ^ 27 + b2n s.boot.memValid * 2 ^ 24 + s.boot.trained.toNat * 2 ^ 16

/-! ### TABLEAU and TRACE (R443 to R447) -/

def tableauStatus (s : State) : Nat :=
  s.tab.state * 2 ^ 29 + s.tab.source * 2 ^ 25 + s.tab.repeats * 2 ^ 17 + s.tab.latency * 2 ^ 9 + s.tab.cores

/-- R254: PHL_LEDGER_CAPSULE_BASE. At an L4 the region stays where it is (R381), and the register shows it again when B3 ends (log
entry 80). -/
def capsuleBaseReg (s : State) : Nat := if s.rst.l4 && decide (s.boot.stage ≤ 3) then 0 else s.adj.capsuleBase.toNat * 2 ^ 29

/-- R446; ROUTE keeps its Reset value while the caller domain is in reset (log entry 172). -/
def traceStatus (s : State) : Nat :=
  b2n (portUp s) * 2 ^ 31 + b2n s.trace.flushing * 2 ^ 30 + b2n (!callerOff s && !routeIsPort s) * 2 ^ 29 +
  b2n (s.trace.pending.isSome || s.trace.pendingPort.isSome) * 2 ^ 28 + fillKib s.trace

def traceSnap (s : State) (r : Requester) : Nat :=
  resultOf s regSnap r * 2 ^ 27 + b2n s.trace.snapDone * 2 ^ 16 + s.trace.invalid.toNat

/-! ### SYNC (R329 to R333, R362 to R365) -/

/-- R329: an object's record. -/
def objBytes (x : Obj) : List Byte :=
  toLe 4 x.value.toNat ++ toLe 2 (x.ctx.toNat + b2n x.count * 4096 + b2n x.assigned * 8192 + b2n x.host * 16384) ++
  toLe 2 (min 511 x.subs.length + x.lastOp * 512) ++ toLe 4 x.lastParty.toNat ++ toLe 4 x.lastTime.toNat

/-- R432: what a register word shows of state that a scan has destroyed: its fields are open, its reserved bits are zero. -/
def scanWord (s : State) (o mask : Nat) : Nat := (Config.shifted s.tab.scans o).toNat &&& mask

/-- R329: the bits of a word of an object record that hold a field. -/
def objMask (o : Nat) : Nat := if o % 16 = 4 then 0x1FFF7FFF else 0xFFFFFFFF

/-- R330: the bits of a word of a watch record that hold a field. -/
def watchMask (o : Nat) : Nat := if o % 16 = 8 then 0x0FFF03FF else 0xFFFFFFFF

/-- The words of a record after a scan, at a native offset. -/
def scanRecordBytes (s : State) (at_ : Nat) (mask : Nat → Nat) : List Byte :=
  ((List.range 4).map fun i => toLe 4 (scanWord s (at_ + 4 * i) (mask (4 * i)))).flatten

/-- R329, R505: the object window; a bank in reset, and a number that names no object, read as zero. -/
def objWindow (s : State) (o : Nat) : List Byte :=
  match bankCore s o with
  | none => List.replicate 16 0
  | some c =>
    if coreInReset s c then List.replicate 16 0
    else if scanned s then scanRecordBytes s (0x200000 + 16 * o) objMask
    else objBytes (object s o)

/-- R330, R505. -/
def watchWindow (s : State) (c w : Nat) : List Byte :=
  if coreInReset s c then List.replicate 16 0
  else if scanned s then scanRecordBytes s (0x220000 + 256 * c + 16 * w) watchMask
  else watchBytes s c w

def monStatus (s : State) : Nat := s.sync.monStalls * 2 ^ 17 + s.sync.mon.length

/-- R348, R365: HELD counts the signals that wait for their own tally, each the first of its source queue (log 37, DEDUCED). -/
def tallyStatus (s : State) : Nat :=
  let held := (s.sync.arrivals.filter fun a => (a.2.held.head?.map fun h => h.type == 1).getD false).length
  min 255 held * 2 ^ 24 + s.sync.tallyStalls * 2 ^ 16 + b2n (decide (16384 ≤ entriesUsed s)) * 2 ^ 15 + min 16384 (entriesUsed s)

def barCmdWord (s : State) (r : Requester) : Nat := resultOf s regBarCmd r * 2 ^ 24 + s.cfg.barCmd.toNat

def portVer (s : State) (p : Nat) : Nat := (fport s p).floor * 2 ^ 16 + (fport s p).offer.toNat * 2 ^ 8 + (fport s p).settled

def barState (s : State) (b : Nat) : Nat :=
  let x := barrier s b
  x.gen % 65536 * 2 ^ 48 + x.ctx.toNat * 2 ^ 36 + ((List.range 256).filter fun i => x.arrived.toNat.testBit i).length * 2 ^ 27 +
  x.childArrived.length * 2 ^ 20 + x.state

/-! ### Stations (R125, R126, R163, R191, R221, R254, R256, R519) -/

def tapVerWord (t : Station) : Nat := t.tapOffer.toNat * 2 ^ 16 + t.tapFloor * 2 ^ 8 + b2n t.tapReady * 8 + t.tapVer

def tapStatus (t : Station) : Nat :=
  t.gaps * 2 ^ 24 + t.pinOverwrites * 2 ^ 16 + t.pins.length * 2 ^ 8 + t.fifoPeak * 16 + b2n (t.pins != []) * 8 + b2n t.stopped * 4 +
  b2n t.stopReq * 2

def figSlots (t : Station) : Nat := ((t.slots.filter fun x => x.2.state != 0).map fun x => x.2.fig.id * 2 ^ (16 * x.1)).sum

/-- R151, R163: two resident ALT figures share physical cells. -/
def altPair (t : Station) : Bool :=
  t.slots.any fun a => t.slots.any fun b =>
    decide (a.1 < b.1) && a.2.fig.alt && b.2.fig.alt && a.2.bind.any fun x => b.2.bind.any fun y => x.2 == y.2 && x.1 / 32 == y.1 / 32

def figState (t : Station) : Nat := b2n (altPair t) * 256 + (t.slots.map fun x => x.2.state * 4 ^ x.1).sum

def selfcheck (t : Station) : Nat := b2n (t.faulty != []) * 2 ^ 24 + t.lastCell.toNat * 2 ^ 16 + t.selfFails

def rehWord (t : Station) : Nat := t.reh.lastKit * 2 ^ 16 + t.reh.fails * 2 ^ 8 + t.reh.state * 4 + b2n t.reh.overdue * 2

def capsuleWord (t : Station) : Nat :=
  let wait := ((ringCapsules t).filter fun k => k.state != 3 && (k.verdict.isNone || k.state == 2)).length
  t.skips * 2 ^ 48 + wait * 2 ^ 32 + t.capTail * 2 ^ 16 + (match ringCapsules t with | [] => t.capTail | k :: _ => k.pos)

/-- A word of a list of bytes. -/
def wordOf (l : List Byte) (o : Nat) : Nat := fieldLe (o / 4 * 4) 4 l

/-- Half of a 64-bit value. -/
def half (v o : Nat) : Nat := if bit o 2 then v / 2 ^ 32 % 2 ^ 32 else v % 2 ^ 32

/-- R519: the bits of a word of a station's window that hold a field; none at an offset that is held for G3. -/
def stationMask (o : Nat) : Nat :=
  if o = 0x000 then 0x00FFFF0F
  else if o = 0x004 then 0xFFFF0FFE
  else if o = 0x010 then 0x000001FF
  else if o = 0x014 then 0x01FFFFFF
  else if o = 0x018 then 0xFFFFFF0E
  else if o = 0x020 then 0x7FFF7FFF
  else if o = 0x008 ∨ o = 0x00C ∨ o = 0x024 ∨ (0x040 ≤ o ∧ o < 0x1C0) then 0xFFFFFFFF
  else if 0x400 ≤ o ∧ o < 0x800 then (if o % 16 = 8 then 0x00FF03FF else 0xFFFFFFFF)
  else 0

/-- R519: a word of a station's window. -/
def stationWord (s : State) (c o : Nat) : Nat :=
  if coreBad s c then 0
  else if scanned s && !clusterInReset s (c / 16) then scanWord s (0x100000 + 4096 * c + o) (stationMask o)
  else
    let down := clusterInReset s (c / 16)
    let t := if down then ({} : Station) else station s c
    if o = 0x000 then tapVerWord t
    else if o = 0x004 then tapStatus t
    else if o = 0x008 ∨ o = 0x00C then half (figSlots t) o
    else if o = 0x010 then figState t
    else if o = 0x014 then selfcheck t
    else if o = 0x018 then rehWord t
    else if o = 0x020 ∨ o = 0x024 then half (capsuleWord t) o
    else if 0x040 ≤ o ∧ o < 0x100 then half (tget 0 ((o - 0x040) / 8) (if down then [] else countersAt s c s.now)) o
    else if 0x100 ≤ o ∧ o < 0x1C0 then half (tget 0 ((o - 0x100) / 8) t.counterSnap) o
    else if 0x400 ≤ o ∧ o < 0x800 then wordOf (vrecBytes (tget {} ((o - 0x400) / 16) t.vhist)) (o % 16)
    else 0

end Sys2Proof.Machine
end

