-- ==== Sys2Proof/Machine/TraceLine.lean ====
section
/-! DEFINITION. The trace port's blocks and their scrambling (R439), read from the periods that the state keeps. -/

namespace Sys2Proof.Machine

/-- R439: BTYPE of a control block. -/
def btypeIdle : Nat := 0x1E
def btypeAlign : Nat := 0x4B

/-- A block before scrambling: whether it is a control block, and the 64 bits after its sync header. -/
structure Block where
  control : Bool
  payload : DWord
deriving DecidableEq, Repr

/-- R439: the two bits of a block's sync header: 0b01 data, 0b10 control. -/
def Block.sync (b : Block) : BitVec 2 := if b.control then 0b10 else 0b01

/-- The time at which a period begins. -/
def periodTime (p : Nat) : Nat := p * 33 / 14

/-- R439: the ALIGN block of a lane. -/
def alignBlock (s : State) (p : Nat) (marker : BitVec 16) (tseq : Word) (lane : Nat) : Block :=
  let word := match lane with
    | 0 => periodTime p % 2 ^ 32
    | 1 => periodTime p / 2 ^ 32
    | 2 => s.boot.chip.toNat
    | _ => tseq.toNat
  { control := true, payload := BitVec.ofNat 64 (btypeAlign + lane * 2 ^ 8 + marker.toNat * 2 ^ 16 + word * 2 ^ 32) }

/-- R439: no record. -/
def idleBlock : Block := { control := true, payload := BitVec.ofNat 64 btypeIdle }

/-- R439: lane l carries bytes 8l to 8l + 7 of a record's unit. -/
def dataBlock (u : BitVec 256) (lane : Nat) : Block := { control := false, payload := BitVec.ofNat 64 (u.toNat / 2 ^ (64 * lane)) }

/-- A period lies within an item. -/
def LineItem.covers (x : LineItem) (p : Nat) : Bool := decide (x.start ≤ p) && decide (p < x.finish)

/-- R439: the block of a lane in a period; behind the last item the line idles, with an ALIGN every 4,096 periods. -/
def blockAt (s : State) (p lane : Nat) : Block :=
  let l := s.trace.line
  match s.out.trace.find? (·.covers p) with
  | some (.record first us) => dataBlock (us.getD (p - first) 0) lane
  | some (.aligns first _ d m q) => if (p - first) % d = 0 then alignBlock s p (m + BitVec.ofNat 16 ((p - first) / d)) q lane else idleBlock
  | none =>
    if l.next ≤ p ∧ l.aligned < p ∧ (p - l.aligned) % 4096 = 0 then
      alignBlock s p (l.marker + BitVec.ofNat 16 ((p - l.aligned) / 4096 - 1)) s.trace.tseq lane
    else idleBlock

/-- R439: one bit through the self-synchronous scrambler 1 + x^39 + x^58; bit i of its register is the bit sent i + 1
bits before. -/
def scrambleBit (reg : BitVec 58) (b : Bool) : Bool × BitVec 58 :=
  let o := (b ^^ reg.getLsbD 38) ^^ reg.getLsbD 57
  (o, (reg <<< 1) ||| BitVec.ofNat 58 (b2n o))

/-- The 64 bits of a block, least significant first (log entry 146). -/
def scramble64 (reg : BitVec 58) (v : DWord) : DWord × BitVec 58 :=
  (List.range 64).foldl (fun z i =>
    let x := scrambleBit z.2 (v.getLsbD i)
    (z.1 ||| BitVec.ofNat 64 (b2n x.1 * 2 ^ i), x.2)) (0, reg)

/-- R439: what a lane sends in a run of periods, from a state of its scrambler: the sync headers are not scrambled. -/
def laneSends (s : State) (lane p : Nat) : Nat → BitVec 58 → List (BitVec 2 × DWord)
  | 0, _ => []
  | n + 1, reg =>
    let b := blockAt s p lane
    let x := scramble64 reg b.payload
    (b.sync, x.1) :: laneSends s lane (p + 1) n x.2

end Sys2Proof.Machine
end

