-- ==== Sys2Proof/Machine/RegRead.lean ====
section
/-! DEFINITION. What every register of the native map shows to a requester (R504 to R520). -/

namespace Sys2Proof.Machine

/-! ### The map (R509 to R520) -/

/-- CFG, EVT and VH registers. -/
def wordLow (s : State) (r : Requester) (o : Nat) : Nat :=
  match o with
  | 0x000000 | 0x000004 => half s.cfg.charterAddr.toNat o
  | 0x00000C => charterStatus s
  | 0x000010 => s.cfg.serial.toNat
  | 0x000014 => txnWord s r
  | 0x000018 => s.cfg.epoch.toNat
  | 0x00001C => negI3c s
  | 0x000020 => s.cfg.hostGen * 256 + s.cfg.hostOffer.toNat
  | 0x000040 => s.cfg.covOvr.toNat
  | 0x000044 => s.cfg.tempoOvr.toNat
  | 0x010000 | 0x010004 => half s.evt.head o
  | 0x010008 | 0x01000C => half s.evt.tail o
  | 0x010010 => evtStatus s
  | 0x010014 => s.evt.threshold.toNat
  | 0x010018 | 0x01001C => half (evtRead s r) o
  | 0x010040 => tget 0 (reqCode r) s.evt.dkSel
  | 0x010044 => evtClear s r
  | 0x030000 | 0x030004 => half s.hz.vh o
  | 0x030008 | 0x03000C => half (oldestWord s) o
  | 0x030010 => gateStatus s
  | 0x030014 => s.hz.dropPoison * 65536 + s.hz.dropContain
  | _ =>
    if 0x010020 ≤ o ∧ o < 0x010040 then wordOf (readData s.evt r) (o - 0x010020)
    else if 0x010050 ≤ o ∧ o < 0x010060 then wordOf (challengeBytes s r) (o - 0x010050)
    else if 0x011000 ≤ o ∧ o < 0x012000 then evtCount s ((o - 0x011000) / 4)
    else if 0x020000 ≤ o ∧ o < 0x030000 then leNat (dkBytes s (tget 0 (reqCode r) s.evt.dkSel) (o - 0x020000) 4)
    else if 0x030080 ≤ o ∧ o < 0x030100 then half (tget 0 ((o - 0x030080) / 8) s.hz.clusters) o
    else 0

/-- SEAL, LEDGER, TEMPO and RST registers. -/
def wordMid (s : State) (r : Requester) (o : Nat) : Nat :=
  match o with
  | 0x040000 => (tget 0 (reqCode r) s.cfg.sealSel : CtxId).toNat
  | 0x040008 | 0x04000C => half (sealStatus s r) o
  | 0x040010 => resultOf s regSealRearm r * 2 ^ 24
  | 0x050000 => ledgerState s
  | 0x050004 => ledgerAdj s
  | 0x050008 | 0x05000C => half s.led.uwr.toNat o
  | 0x050010 | 0x050014 => half (capsuleBaseReg s) o
  | 0x060000 => tempoStatus s
  | 0x060004 => avsStatus s
  | 0x070000 => resultOf s regRstCmd r * 2 ^ 27 + s.cfg.rstCmd.toNat
  | 0x070008 | 0x07000C => half (rstStatus s) o
  | 0x070010 | 0x070014 => half (rstPeerWord s r) o
  | _ =>
    if 0x050080 ≤ o ∧ o < 0x050100 then wordOf s.led.report (o - 0x050080)
    else if 0x050400 ≤ o ∧ o < 0x050800 then ledgerUnit s ((o - 0x050400) / 4)
    else if 0x060080 ≤ o ∧ o < 0x060100 then half (tempoDom s ((o - 0x060080) / 8)) o
    else if 0x070080 ≤ o ∧ o < 0x070100 then half (s.rst.hist.getD ((o - 0x070080) / 8) 0) o
    else 0

/-- BOOT, TABLEAU and TRACE registers. -/
def wordHigh (s : State) (r : Requester) (o : Nat) : Nat :=
  match o with
  | 0x080000 => bootStage s
  | 0x080004 => bootStatus s
  | 0x080008 => memtrainWord s r
  | 0x08000C => resultOf s regShutdown r * 2 ^ 27 + s.cfg.budget.toNat
  | 0x080010 => resultOf s regOtp r * 2 ^ 27 + s.cfg.otpRecord.toNat * 2 ^ 24
  | 0x0A0000 => resultOf s regTableau r * 2 ^ 27
  | 0x0A0004 => tableauStatus s
  | 0x0A0008 => s.tab.arm.toNat
  | 0x0A0010 | 0x0A0014 => half s.tab.dest.toNat o
  | 0x0B0000 => s.trace.ctl.toNat
  | 0x0B0004 => traceStatus s
  | 0x0B0008 => traceSnap s r
  | 0x0B0010 | 0x0B0014 => half s.trace.snapAt.toNat o
  | 0x0B0018 | 0x0B001C => half s.trace.snapTime o
  | 0x0B0020 => s.trace.wr
  | 0x0B0024 => s.trace.rd
  | 0x0B0028 => tget 0 (reqCode r) s.trace.sel
  | 0x0B002C => s.trace.drops
  | _ =>
    if 0x080100 ≤ o ∧ o < 0x080128 then wordOf (toLe 40 (defectShown s).toNat) (o - 0x080100)
    else if 0x080200 ≤ o ∧ o < 0x080300 then
      (if s.boot.mapped then leNat ((List.range 4).map fun i => BitVec.ofNat 8 (s.boot.map.getD (o - 0x080200 + i) 0)) else 0)
    else if 0x084000 ≤ o ∧ o < 0x088000 then leNat ((List.range 4).map fun i => otpShown s (o - 0x084000 + i))
    else if 0x090000 ≤ o ∧ o < 0x0A0000 then leNat (tgets 0 (o - 0x090000) 4 s.boot.memset)
    else if 0x0B0040 ≤ o ∧ o < 0x0B0060 then wordOf (toLe 32 s.trace.cores.toNat) (o - 0x0B0040)
    else if 0x0C0000 ≤ o ∧ o < 0x0D0000 then
      wordOf (toLe 32 (tget 0 (tget 0 (reqCode r) s.trace.sel * 2048 + (o - 0x0C0000) / 32) s.trace.buf).toNat) (o % 32)
    else 0

/-- SYNC registers. -/
def wordSync (s : State) (r : Requester) (o : Nat) : Nat :=
  match o with
  | 0x230010 => monStatus s
  | 0x230014 => tallyStatus s
  | 0x230018 => barCmdWord s r
  | 0x230020 | 0x230024 => half (tget 0 (reqCode r) s.cfg.barAddr : DWord).toNat o
  | _ =>
    if o < 0x220000 then wordOf (objWindow s ((o - 0x200000) / 16)) (o % 16)
    else if o < 0x230000 then wordOf (watchWindow s ((o - 0x220000) / 256) (o / 16 % 16)) (o % 16)
    else if o < 0x230010 then half (tget 0 ((o - 0x230000) / 8) s.sync.wl : DWord).toNat o
    else if 0x230100 ≤ o ∧ o < 0x230190 then portVer s ((o - 0x230100) / 4)
    else if 0x230800 ≤ o ∧ o < 0x231000 then half (barState s ((o - 0x230800) / 8)) o
    else 0

/-- R504, R509: the word at a native offset that is a multiple of 4, as a requester reads it. An offset that no map
lists reads as zero. -/
def readWord (s : State) (r : Requester) (o : Nat) : Word :=
  BitVec.ofNat 32 (
    if o < 0x040000 then wordLow s r o
    else if o < 0x080000 then wordMid s r o
    else if o < 0x0D0000 then wordHigh s r o
    else if o < 0x100000 then 0
    else if o < 0x200000 then stationWord s ((o - 0x100000) / 4096) (o % 4096)
    else if o < 0x240000 then wordSync s r o
    else 0)

/-! ### Domains and latches (R17, R505) -/

/-- R505: the register at an offset lies in DK. -/
def inDk (o : Nat) : Bool :=
  o == 0x000018 || o == 0x00001C || (decide (0x010000 ≤ o) && decide (o < 0x010080)) || (decide (0x011000 ≤ o) && decide (o < 0x012000)) ||
  (decide (0x020000 ≤ o) && decide (o < 0x030000)) || o == 0x030010 || o == 0x030014 || o == 0x050000 ||
  (decide (0x060080 ≤ o) && decide (o < 0x060100)) || o == 0x070008 || o == 0x07000C || (decide (0x070080 ≤ o) && decide (o < 0x070100)) ||
  o == 0x080000 || o == 0x080004 || (decide (0x080100 ≤ o) && decide (o < 0x080128)) || (decide (0x080200 ≤ o) && decide (o < 0x080300)) ||
  (decide (0x084000 ≤ o) && decide (o < 0x088000))

/-- R17: 64-bit registers that hold a count or a timestamp, by the offset of their low word. -/
def latches (o : Nat) : Bool :=
  decide (o % 8 = 0) &&
  (o == 0x010000 || o == 0x010008 || o == 0x030000 || (decide (0x030080 ≤ o) && decide (o < 0x030100)) || o == 0x050008 || o == 0x070008 ||
   o == 0x040008 || (decide (0x060080 ≤ o) && decide (o < 0x060100)) || o == 0x0B0010 || o == 0x0B0018 ||
   (decide (0x230800 ≤ o) && decide (o < 0x231000)) ||
   (decide (0x100000 ≤ o) && decide (o < 0x200000) && (o % 4096 == 0x020 || (decide (0x040 ≤ o % 4096) && decide (o % 4096 < 0x1C0)))))

/-- R17: a 32-bit read: the low word of a count or timestamp latches its upper word for the reader; the read of the
upper word that follows returns it. -/
def readLatched (r : Requester) (o : Nat) (s : State) : Word × State :=
  if latches o then (readWord s r o, updCfg (fun c => { c with latched := tset (perReq (o + 4) r) (readWord s r (o + 4)) c.latched }) s)
  else if latches (o - 4) then
    match tfind (perReq o r) s.cfg.latched with
    | some v => (v, updCfg (fun c => { c with latched := tdel (perReq o r) c.latched }) s)
    | none => (readWord s r o, s)
  else (readWord s r o, s)

/-- R17: the low words of the 64-bit registers that can be read: those that latch, and those that hold no count and no
timestamp. -/
def isWideRead (o : Nat) : Bool :=
  latches o || [0x000000, 0x010018, 0x030008, 0x050010, 0x070010, 0x0A0010, 0x230000, 0x230008, 0x230020].contains o ||
  (decide (o % 8 = 0) && ((decide (0x070080 ≤ o) && decide (o < 0x070100)) ||
    (decide (0x100000 ≤ o) && decide (o < 0x200000) && o % 4096 == 0x008)))

/-- R17: a 64-bit register read as one 64-bit access: both words at one instant, and no latch. Nothing else is read in
64 bits (R17). -/
def readWide (r : Requester) (o : Nat) (s : State) : DWord :=
  if isWideRead o then (readWord s r (o + 4)) ++ (readWord s r o) else 0

/-! ### Reads through the host's windows and the control processor's (R501, R505, R521 to R523)

The table has no row for them; they state what such a read returns (log entry 29). -/

/-- R521: the native register that an alias of the G1 window is. -/
def g1Alias : Nat → Option Nat
  | 0x0010 => some 0x000014 | 0x0014 => some 0x000008 | 0x0018 => some 0x00000C | 0x0020 => some 0x000000 | 0x0024 => some 0x000004
  | 0x0030 => some 0x0A0000 | 0x0034 => some 0x0A0004 | 0x0044 => some 0x040010 | 0x0048 => some 0x030000 | 0x004C => some 0x030004
  | _ => none

/-- R523: an object's flag, as the forerunner saw it; R432: open once a scan has destroyed the object. -/
def g1Flag (s : State) (o : Nat) : Bool :=
  match bankCore s o with
  | none => false
  | some c =>
    !coreInReset s c &&
    (if scanned s then (Config.shifted s.tab.scans (0x408000 + o / 32 * 4)).getLsbD (o % 32)
     else (object s o).assigned && (object s o).value != 0)

/-- R521 to R523, R331: a word of the G1 window's own registers. -/
def g1Word (s : State) (o : Nat) : Nat :=
  if o = 0x0000 then 0x0256 * 2 ^ 16 + 2 ^ 8 + leNat (identBytes s 22 1)
  else if o = 0x0040 then b2n s.cfg.g1Applied * 2 ^ 28 + s.cfg.g1Force.toNat
  else if 0x8000 ≤ o ∧ o < 0x8400 then
    ((List.range 32).map fun i => b2n (g1Flag s ((o - 0x8000) * 8 + i)) * 2 ^ i).sum
  else 0

/-- R501, R505, R521: a 32-bit read, at an offset that is a multiple of 4, of the native window, or for requester 2 of the
G1 window, and the latch that it leaves. -/
def windowRead (r : Requester) (o : Nat) (s : State) : Word × State :=
  if s.rst.callerIn then (BitVec.allOnes 32, s)
  else if r = .hostG1 then
    if s.cfg.hostGen ≠ 1 then (0, s)
    else match g1Alias o with
      | some n => readLatched .hostG1 n s
      | none => (BitVec.ofNat 32 (g1Word s o), s)
  else readLatched r o s

/-- R17, R501, R505, R521: a 64-bit read through the same windows. R521: the G1 window's 64-bit registers are the
aliases of the charter's address and of the horizon. -/
def windowReadWide (r : Requester) (o : Nat) (s : State) : DWord :=
  if s.rst.callerIn then BitVec.allOnes 64
  else if r = .hostG1 then
    if s.cfg.hostGen ≠ 1 then 0
    else match o with
      | 0x0020 => readWide .hostG1 0x000000 s
      | 0x0048 => readWide .hostG1 0x030000 s
      | _ => 0
  else readWide r o s

/-! ### Byte windows (R501, R508) -/

/-- R508, R514 to R520: the byte windows of the native map: offset and length. -/
def nativeWindows : List (Nat × Nat) :=
  [(0x010020, 32), (0x010050, 16), (0x010060, 32), (0x020000, 0x10000), (0x050080, 128), (0x070080, 128), (0x080040, 64),
   (0x080100, 40), (0x080200, 256), (0x084000, 0x4000), (0x090000, 0x10000), (0x0B0040, 32), (0x0C0000, 0x10000)]

/-- The byte window in which a native offset lies. -/
def byteWindow (o : Nat) : Option (Nat × Nat) :=
  if 0x100000 ≤ o ∧ o < 0x200000 then
    let b := o / 4096 * 4096
    [(b + 0x040, 192), (b + 0x100, 192), (b + 0x400, 1024)].find? fun w => decide (w.1 ≤ o) && decide (o < w.1 + w.2)
  else if 0x200000 ≤ o ∧ o < 0x220000 then some (o / 16 * 16, 16)
  else if 0x220000 ≤ o ∧ o < 0x230000 then some (o / 256 * 256, 256)
  else nativeWindows.find? fun w => decide (w.1 ≤ o) && decide (o < w.1 + w.2)

/-- R508: an access of up to 64 bytes lies within one byte window. -/
def inByteWindow (r : Requester) (o n : Nat) : Bool :=
  decide (0 < n) && decide (n ≤ 64) &&
  (if r = .hostG1 then decide (0x8000 ≤ o) && decide (o + n ≤ 0x8400)
   else match byteWindow o with | some w => decide (o + n ≤ w.1 + w.2) | none => false)

/-- R508: a byte that a window shows. -/
def windowByte (s : State) (r : Requester) (o : Nat) : Byte :=
  BitVec.ofNat 8 ((if r = .hostG1 then (windowRead r (o / 4 * 4) s).1 else readWord s r (o / 4 * 4)).toNat / 256 ^ (o % 4))

/-- R501, R508: a read of `n` bytes through a window, and the latch that it leaves; none is an Unsupported Request. -/
def busRead (r : Requester) (o n : Nat) (s : State) : Option (List Byte) × State :=
  if s.rst.callerIn then (some (List.replicate n 0xFF), s)
  else if n = 4 ∧ o % 4 = 0 then let x := windowRead r o s; (some (toLe 4 x.1.toNat), x.2)
  else if inByteWindow r o n then (some ((List.range n).map fun i => windowByte s r (o + i)), s)
  else if n = 8 ∧ o % 8 = 0 then (some (toLe 8 (windowReadWide r o s).toNat), s)
  else (none, s)

end Sys2Proof.Machine
end

