-- ==== Sys2Proof/Machine/I3cTarget.lean ====
section
/-! DEFINITION. The I3C target: its commands and responses (R486 to R490), the out-of-band queue (R491, R492), the board store (R493). A command and its response are one step each; a response that DK or the caller makes at once is ready when the command's step ends. -/

namespace Sys2Proof.Machine

/-- The I3C target as a source of records (R401). -/
def srcI3c : BitVec 16 := srcDk 2

/-! ### Bus mode and address (R486, R512) -/

/-- R92, R512: the mode settled is recorded; class 4, and the floor field reads 1. -/
def recordMode (s : State) : State := occur 0xA006 srcI3c 4 0 (s.i3c.mode + 256) s

/-- R512: MODE changes, and the change is recorded. -/
def setMode (m : Nat) (s : State) : State :=
  if s.i3c.mode = m then s else recordMode (updI3c (fun i => { i with mode := m }) s)

/-- R512: MODE reads SDR from the first transfer addressed to the target. -/
def noteTransfer (s : State) : State := if s.i3c.mode = 0 then setMode 1 s else s

/-- R486, R512: the address that the target answers on: the dynamic one once assigned, else 0x28 + I3C_ADDR[1:0]. -/
def targetAddress (s : State) : BitVec 7 := if s.i3c.addrKind = 0 then 0x28 + s.i3c.strap.zeroExtend 7 else s.i3c.dyn

/-- R486: target role, HDR capable, in-band interrupts with a payload. -/
def targetBcr : Byte := 0x26

/-- R486: the provisional ID. -/
def provisionalId (s : State) : BitVec 48 :=
  BitVec.ofNat 48 (Config.mipiId.toNat * 2 ^ 33 + 0x0256 * 2 ^ 16 + s.i3c.strap.toNat * 2 ^ 14 + fieldLe 0 2 (uidBytes s) % 4096)

/-- I3C_DYNAMIC_ADDRESS: the target shows who it is (R486), and the settlement is recorded (R91, R92). -/
def assignAddress (entdaa : Bool) (addr : BitVec 7) (s : State) : State :=
  if !s.boot.pwrOk then s
  else
    let s := updOut (fun o => { o with identities := (targetAddress s, provisionalId s, targetBcr) :: o.identities }) s
    recordMode (updI3c (fun i => { i with
      mode := max 1 i.mode, addrKind := if entdaa then 2 else 1, dyn := addr, hotJoin := false }) s)

/-- I3C_RSTDAA: the target keeps its state; HDR-DDR falls back to SDR; Hot-Join if its queue is not empty. -/
def resetAddress (s : State) : State :=
  if !s.boot.pwrOk then s
  else
    let s := updI3c (fun i => { i with addrKind := 0, dyn := 0, hotJoin := i.hotJoin || i.queue != [] }) s
    if s.i3c.mode = 2 then setMode 1 s else s

/-! ### Frames and responses (R487, R488) -/

/-- R487: the CRC of a command frame. -/
def frameOk (cmd tag : Byte) (arg : List Byte) (crc : Word) : Bool :=
  crc32c ([cmd, tag] ++ toLe 2 arg.length ++ arg) == crc

/-- R487: a response is ready. -/
def answer (result : Nat) (data : List Byte) : State → State := updI3c fun i => { i with resp := some (result, data) }

/-- R488, R505: commands that need the caller cannot be done: the caller is in reset, or the chip is DEAD. -/
def callerDead (s : State) : Bool := s.rst.callerIn || s.led.state == 5

/-- R496: a new command discards an unread response; R488: one whose CRC fails does nothing. -/
def command (cmd : Nat) (tag : Byte) (arg : List Byte) (crc : Word) (act : State → State) (s : State) : State :=
  if !s.boot.pwrOk then s
  else
    let s := noteTransfer s
    let s := updI3c (fun i => { i with tag := tag, resp := none }) s
    if frameOk (BitVec.ofNat 8 cmd) tag arg crc then act s else answer 3 [] s

/-- R489: a command that DK does not serve alone; R467: once the chip has halted it is refused (log entry 169). -/
def callerCommand (act : State → State) (s : State) : State :=
  if callerDead s then answer 4 [] s else if callerOff s then answer 5 [] s else act s

/-- R487: the bytes of a response. -/
def responseBytes (result : Nat) (tag : Byte) (data : List Byte) : List Byte :=
  let l := [BitVec.ofNat 8 result, tag] ++ toLe 2 data.length ++ data
  l ++ toLe 4 (crc32c l).toNat

/-- I3C_RESPONSE_READ: NOT_YET until the response is ready, NO_RESPONSE when there is none. -/
def readResponse (s : State) : State :=
  if !s.boot.pwrOk then s
  else
    let s := noteTransfer s
    let out := fun (l : List Byte) (s : State) => updOut (fun o => { o with responses := l :: o.responses }) s
    match s.i3c.resp with
    | none => out (responseBytes 6 s.i3c.tag []) s
    | some (1, _) => out (responseBytes 1 s.i3c.tag []) s
    | some (v, d) => out (responseBytes v s.i3c.tag d) (updI3c (fun i => { i with resp := none }) s)

/-! ### Commands that DK serves (R489 to R491) -/

/-- R490: the status block. -/
def statusBlock (s : State) : List Byte :=
  toLe 4 (ledgerState s) ++ toLe 4 (bootStage s) ++ toLe 8 (rstStatus s) ++ toLe 2 s.i3c.queue.length ++ toLe 2 s.i3c.dropped ++
  [BitVec.ofNat 8 (b2n (!callerDead s && !callerOff s) + 2 * b2n (s.tempo.vsafe || s.rst.callerIn) + 4 * b2n s.i3c.powerOff + 8 * b2n (tableauHolds s)), 0, 0, 0,
   BitVec.ofNat 8 (s.evt.head / 2 ^ 32)] ++ toLe 4 (s.evt.head % 2 ^ 32) ++ [0, 0, 0]

/-- Words in ascending order, each read in turn. -/
def readWords : List Nat → List Byte → State → List Byte × State
  | [], acc, s => (acc, s)
  | o :: r, acc, s =>
    let x := readLatched .bc o s
    readWords r (acc ++ toLe 4 x.1.toNat) x.2

/-- R489: REG_READ; a register outside DK needs the caller. -/
def regRead (offset count : Nat) (s : State) : State :=
  let os := (List.range count).map fun i => offset + 4 * i
  if offset % 4 ≠ 0 ∨ count = 0 ∨ 64 < count then answer 5 [] s
  else if callerDead s && os.any (fun o => !inDk o) then answer 4 [] s
  else
    let x := readWords os [] s
    answer 0 x.1 x.2

/-- R489: EVT_READ has a latch of its own. -/
def evtReadI3c (era seq : Nat) (s : State) : State :=
  let pos := era * 2 ^ 32 + seq
  let res := readResult s.evt pos
  let l : ReadLatch := { result := res, data := if res = 0 then tfind (pos % 65536) s.evt.ring else none }
  answer 0 (BitVec.ofNat 8 res :: (match l.data with | none => List.replicate 32 0 | some r => recordBytes false r)) s

/-- R489: DK_READ, within one page. -/
def dkReadI3c (page offset len : Nat) (s : State) : State :=
  if 127 < page ∨ offset % 4 ≠ 0 ∨ len < 4 ∨ 256 < len ∨ 65536 < offset + len then answer 5 [] s
  else answer 0 (dkBytes s page offset len) s

/-- R491: the bytes of an entry. -/
def oobBytes (e : Oob) : List Byte := toLe 2 e.oseq.toNat ++ [BitVec.ofNat 8 e.kind, BitVec.ofNat 8 e.body.length] ++ e.body

/-- R491: OOB_FETCH: the interrupt is served. -/
def fetchOob (s : State) : State :=
  let s := updI3c (fun i => { i with ibi := false, lastFetch := s.now }) s
  answer 0 ((s.i3c.queue.head?.map oobBytes).getD []) s

/-- R491, R492: OOB_ACK of the head removes it; that of REPLACE sets FLAG_BC. -/
def ackOob (oseq : Nat) (s : State) : State :=
  match s.i3c.queue with
  | [] => answer 0 [] s
  | e :: r =>
    if e.oseq.toNat ≠ oseq then answer 0 [] s
    else
      let s := updI3c (fun i => { i with queue := r }) s
      answer 0 [] (if e.kind = 3 then updLed (fun l => { l with flagBc := true }) s else s)

/-- OOB_INTERRUPT_REPEAT (R491). -/
def repeatInterrupt (s : State) : State :=
  if s.i3c.queue ≠ [] ∧ s.i3c.lastFetch + 10000000 ≤ s.now then raiseIbi s else s

/-! ### Commands that need the caller (R489) -/

/-- R489: RESET acts as a write of requester 5 to PHL_RST_CMD. -/
def resetI3c (level queue index : Byte) (s : State) : State :=
  let word := 2 ^ 30 + min 7 level.toNat * 2 ^ 16 + queue.toNat % 4 * 2 ^ 8 + index.toNat
  let s := writeRstCmd .bc (BitVec.ofNat 32 word) s
  let v := resultOf s regRstCmd .bc
  answerResult (2 ≤ v) v s

/-- R489: TABLEAU acts as a write of requester 5 to PHL_TABLEAU_CMD. -/
def tableauI3c (op : Nat) (s : State) : State :=
  let done := fun (s : State) => let v := resultOf s regTableau .bc; answerResult (v != 0) v s
  match op with
  | 1 => done (writeHalt .bc s)
  | 2 => done (writeRelease .bc s)
  | 3 => done (writeScan .bc s)
  | _ => answer 5 [] s

/-- R489: SHUTDOWN acts as a write of requester 5 to PHL_BOOT_SHUTDOWN. -/
def shutdownI3c (budget : Byte) (s : State) : State :=
  let s := writeShutdown .bc (BitVec.ofNat 32 (2 ^ 30 + budget.toNat)) s
  let v := resultOf s regShutdown .bc
  answerResult (v != 0) v s

/-- The result of the board controller's last clear or challenge. -/
def clearResultBc (s : State) : Nat := tget 0 (reqCode .bc) s.evt.clearResults

/-- R489: CHALLENGE. -/
def challengeI3c (s : State) : State :=
  let s := challenge .bc s
  if clearResultBc s = 0 then answer 0 (challengeBytes s .bc) s else answerResult true (clearResultBc s) s

/-- R489: CLEAR, with the tag written to PHL_EVT_RESPONSE on the board controller's behalf. -/
def clearI3c (tag : List Byte) (s : State) : State :=
  let s := clearLog .bc (updEvt (fun e => { e with response := tlist 0 0 tag }) s)
  let v := clearResultBc s
  answerResult (v != 0) v s

/-- R476, R489: OTP_PROGRAM: the response waits until the slot is programmed. -/
def otpI3c (type : Nat) (content tag : List Byte) (s : State) : State :=
  let s := updCfg (fun c => { c with otpData := tputs 0 (reqCode .bc * 64) (List.replicate 4 0 ++ content) c.otpData }) s
  let s := updEvt (fun e => { e with response := tlist 0 0 tag }) s
  match programOtp .bc type s with
  | (some v, s) => answerResult true v (setResult regOtp .bc v s)
  | (none, s) => answer 1 [] s

/-! ### The board store (R493) -/

/-- R493: the greatest length of an object. -/
def objectMax (o : Nat) : Nat :=
  match o with
  | 1 => 65536 | 2 => 160 | 3 => 32 | _ => (otpMap (o - 0x10)).2.2 + 32

/-- STORE_PUT: a chunk of the object needed; one that nobody needs, or that lies past its end, is refused. -/
def storePutI3c (object offset : Nat) (bytes : List Byte) (s : State) : State :=
  match s.i3c.need with
  | some (o, since, got) =>
    if o ≠ object ∨ objectMax o < offset + bytes.length then answer 5 [] s
    else
      let got := (List.range bytes.length).foldl (fun t i => tset (offset + i) (bytes.getD i 0) t) got
      answer 0 [] (updI3c (fun i => { i with need := some (o, since, got) }) s)
  | none => answer 5 [] s

/-- STORE_END: the answer is complete once every byte up to the length has come; 0 says that there is nothing. -/
def storeEndI3c (object len : Nat) (s : State) : State :=
  match s.i3c.need with
  | some (o, _, got) =>
    if o ≠ object then answer 5 [] s
    else if len = 0 then answer 0 [] (needSettled none s)
    else if objectMax o < len ∨ !((List.range len).all fun i => (tfind i got).isSome) then answer 5 [] s
    else answer 0 [] (needSettled (some (tgets 0 0 len got)) s)
  | none => answer 5 [] s

/-- STORE_GET: bytes of the object offered. -/
def storeGetI3c (object offset len : Nat) (s : State) : State :=
  match s.i3c.offer with
  | some (o, _, bytes) => if o ≠ object ∨ len = 0 ∨ 256 < len then answer 5 [] s else answer 0 (slice offset len bytes) s
  | none => answer 5 [] s

/-- R467, R493: an offer has ended; with that of the shutdown record the chip halts. -/
def offerEnded (object : Nat) (s : State) : State := if object = 2 then haltChip (updI3c (fun i => { i with offer := none }) s) else nextOffer s

/-- STORE_DONE: the board controller holds the object; an OTP image becomes the record that the complex reads (R472). -/
def storeDoneI3c (object : Nat) (s : State) : State :=
  match s.i3c.offer with
  | some (o, _, bytes) =>
    if o ≠ object then answer 5 [] s
    else
      let s := if 0x14 ≤ o then updI3c (fun i => { i with store := tset o bytes i.store }) s else s
      answer 0 [] (offerEnded o s)
  | none => answer 5 [] s

/-- STORE_NEED_TIMEOUT: 1 s for MEMIMAGE, 10 ms for every other object. -/
def needTimeout (object : Nat) (s : State) : State :=
  match s.i3c.need with
  | some (o, since, _) =>
    if o = object ∧ since + (if o = 1 then 1000000000 else 10000000) ≤ s.now ∧ !callerOff s then needSettled none s else s
  | none => s

/-- STORE_OFFER_TIMEOUT. -/
def offerTimeout (object : Nat) (s : State) : State :=
  match s.i3c.offer with
  | some (o, since, _) => if o = object ∧ since + 50000000 ≤ s.now then offerEnded o s else s
  | none => s

/-! ### Frames that no command takes (R488, R489) -/

/-- R489: the lengths of a command's ARG. -/
def argOk (cmd n : Nat) : Bool :=
  match cmd with
  | 0x01 | 0x20 | 0x40 => n == 0
  | 0x02 | 0x10 | 0x51 => n == 5
  | 0x11 | 0x52 => n == 7
  | 0x21 => n == 2
  | 0x30 => n == 3
  | 0x31 | 0x32 | 0x53 => n == 1
  | 0x41 => n == 32
  | 0x42 => n == 93
  | 0x50 => decide (6 ≤ n) && decide (n ≤ 261)
  | _ => false

/-- I3C_UNKNOWN_COMMAND; a frame that a command takes is not this step. -/
def unknownCommand (cmd tag : Byte) (arg : List Byte) (crc : Word) (s : State) : State :=
  if argOk cmd.toNat arg.length then s else command cmd.toNat tag arg crc (answer 2 []) s

/-! ### The meanings -/

/-- R91, R486, R512. -/
def execI3cDynamicAddress (t : Nat) (entdaa : Bool) (addr : BitVec 7) (s : State) : Host.Outcome State Fault Refusal :=
  .next (assignAddress entdaa addr (atTime t s))

/-- R91, R512. -/
def execI3cHdrDdrTransfer (t : Nat) (s : State) : Host.Outcome State Fault Refusal :=
  let s := atTime t s
  .next (if s.boot.pwrOk then setMode 2 s else s)

/-- R486, R512. -/
def execI3cRstdaa (t : Nat) (s : State) : Host.Outcome State Fault Refusal := .next (resetAddress (atTime t s))

/-- R496: a partial frame is discarded: it has done nothing; queue and exchanges are kept. -/
def execI3cFrameAbort (t : Nat) (s : State) : Host.Outcome State Fault Refusal := .next (atTime t s)

/-- R487. -/
def execI3cResponseRead (t : Nat) (s : State) : Host.Outcome State Fault Refusal := .next (readResponse (atTime t s))

/-- R490. -/
def execI3cStatus (t : Nat) (tag : Byte) (crc : Word) (s : State) : Host.Outcome State Fault Refusal :=
  .next (command 0x01 tag [] crc (fun s => answer 0 (statusBlock s) s) (atTime t s))

/-- R489. -/
def execI3cRegRead (t : Nat) (tag : Byte) (offset : Word) (count : Byte) (crc : Word) (s : State) :
    Host.Outcome State Fault Refusal :=
  .next (command 0x02 tag (toLe 4 offset.toNat ++ [count]) crc (regRead offset.toNat count.toNat) (atTime t s))

/-- R413, R489. -/
def execI3cEvtRead (t : Nat) (tag : Byte) (era : Byte) (seq : Word) (crc : Word) (s : State) : Host.Outcome State Fault Refusal :=
  .next (command 0x10 tag ([era] ++ toLe 4 seq.toNat) crc (evtReadI3c era.toNat seq.toNat) (atTime t s))

/-- R413, R489. -/
def execI3cDkRead (t : Nat) (tag : Byte) (page : Byte) (offset : Word) (len : BitVec 16) (crc : Word) (s : State) :
    Host.Outcome State Fault Refusal :=
  .next (command 0x11 tag ([page] ++ toLe 4 offset.toNat ++ toLe 2 len.toNat) crc (dkReadI3c page.toNat offset.toNat len.toNat)
    (atTime t s))

/-- R491. -/
def execOobFetch (t : Nat) (tag : Byte) (crc : Word) (s : State) : Host.Outcome State Fault Refusal :=
  .next (command 0x20 tag [] crc fetchOob (atTime t s))

/-- R491, R492. -/
def execOobAck (t : Nat) (tag : Byte) (oseq : BitVec 16) (crc : Word) (s : State) : Host.Outcome State Fault Refusal :=
  .next (command 0x21 tag (toLe 2 oseq.toNat) crc (ackOob oseq.toNat) (atTime t s))

/-- R489. -/
def execI3cReset (t : Nat) (tag : Byte) (level queue index : Byte) (crc : Word) (s : State) : Host.Outcome State Fault Refusal :=
  .next (command 0x30 tag [level, queue, index] crc (callerCommand (resetI3c level queue index)) (atTime t s))

/-- R489. -/
def execI3cTableau (t : Nat) (tag : Byte) (op : Byte) (crc : Word) (s : State) : Host.Outcome State Fault Refusal :=
  .next (command 0x31 tag [op] crc (callerCommand (tableauI3c op.toNat)) (atTime t s))

/-- R466, R489. -/
def execI3cShutdown (t : Nat) (tag : Byte) (budget : Byte) (crc : Word) (s : State) : Host.Outcome State Fault Refusal :=
  .next (command 0x32 tag [budget] crc (callerCommand (shutdownI3c budget)) (atTime t s))

/-- R414, R489. -/
def execI3cChallenge (t : Nat) (tag : Byte) (crc : Word) (s : State) : Host.Outcome State Fault Refusal :=
  .next (command 0x40 tag [] crc (callerCommand challengeI3c) (atTime t s))

/-- R414, R489. -/
def execI3cClear (t : Nat) (tag : Byte) (hmac : BitVec 256) (crc : Word) (s : State) : Host.Outcome State Fault Refusal :=
  .next (command 0x41 tag (toLe 32 hmac.toNat) crc (callerCommand (clearI3c (toLe 32 hmac.toNat))) (atTime t s))

/-- R476, R489. -/
def execI3cOtpProgram (t : Nat) (tag : Byte) (type : Byte) (content : BitVec 480) (hmac : BitVec 256) (crc : Word) (s : State) :
    Host.Outcome State Fault Refusal :=
  let c := toLe 60 content.toNat
  let h := toLe 32 hmac.toNat
  .next (command 0x42 tag ([type] ++ c ++ h) crc (callerCommand (otpI3c type.toNat c h)) (atTime t s))

/-- R493. -/
def execStorePut (t : Nat) (tag : Byte) (object : Byte) (offset : Word) (bytes : List Byte) (crc : Word) (s : State) :
    Host.Outcome State Fault Refusal :=
  let arg := [object] ++ toLe 4 offset.toNat ++ bytes
  .next (command 0x50 tag arg crc
    (if argOk 0x50 arg.length then callerCommand (storePutI3c object.toNat offset.toNat bytes) else answer 2 []) (atTime t s))

/-- R493. -/
def execStoreEnd (t : Nat) (tag : Byte) (object : Byte) (len : Word) (crc : Word) (s : State) : Host.Outcome State Fault Refusal :=
  .next (command 0x51 tag ([object] ++ toLe 4 len.toNat) crc (callerCommand (storeEndI3c object.toNat len.toNat)) (atTime t s))

/-- R493. -/
def execStoreGet (t : Nat) (tag : Byte) (object : Byte) (offset : Word) (len : BitVec 16) (crc : Word) (s : State) :
    Host.Outcome State Fault Refusal :=
  .next (command 0x52 tag ([object] ++ toLe 4 offset.toNat ++ toLe 2 len.toNat) crc
    (callerCommand (storeGetI3c object.toNat offset.toNat len.toNat)) (atTime t s))

/-- R493. -/
def execStoreDone (t : Nat) (tag : Byte) (object : Byte) (crc : Word) (s : State) : Host.Outcome State Fault Refusal :=
  .next (command 0x53 tag [object] crc (callerCommand (storeDoneI3c object.toNat)) (atTime t s))

/-- R493. -/
def execStoreNeedTimeout (t : Nat) (object : Byte) (s : State) : Host.Outcome State Fault Refusal :=
  .next (needTimeout object.toNat (atTime t s))

/-- R493. -/
def execStoreOfferTimeout (t : Nat) (object : Byte) (s : State) : Host.Outcome State Fault Refusal :=
  .next (offerTimeout object.toNat (atTime t s))

/-- R491. -/
def execOobInterruptRepeat (t : Nat) (s : State) : Host.Outcome State Fault Refusal := .next (repeatInterrupt (atTime t s))

/-- R488, R489. -/
def execI3cUnknownCommand (t : Nat) (cmd tag : Byte) (arg : List Byte) (crc : Word) (s : State) : Host.Outcome State Fault Refusal :=
  .next (unknownCommand cmd tag arg crc (atTime t s))

end Sys2Proof.Machine
end

