-- ==== Sys2Proof/Machine/RegWrite.lean ====
section
/-! DEFINITION. REGISTER_WRITE: every write path of the native window and of the G1 window (R15, R17, R506 to R521). The offset is a native offset; for requester HOST_G1 it is an offset in the G1 window. -/

namespace Sys2Proof.Machine

/-! ### 64-bit registers (R507) -/

/-- R507: a lower word written alone is held for its requester. -/
def holdLow (o : Nat) (r : Requester) (v : Word) : State → State := updCfg fun c => { c with held := tset (perReq o r) v c.held }

/-- R507: the lower word that an upper-word write takes: the one held, or the word as it stands. -/
def lowFor (o : Nat) (r : Requester) (now : Nat) (s : State) : Nat := ((tfind (perReq o r) s.cfg.held).map (·.toNat)).getD (now % 2 ^ 32)

/-- The held word is used. -/
def takeLow (o : Nat) (r : Requester) : State → State := updCfg fun c => { c with held := tdel (perReq o r) c.held }

/-- R507: a write to a 64-bit register whose low word lies at `o`: `wide`, its lower or its upper word; `now` is the
value in force, and `act` takes the new one. -/
def write64 (o off : Nat) (wide : Bool) (r : Requester) (v : DWord) (now : Nat) (act : DWord → State → State) (s : State) : State :=
  if wide then act v (takeLow o r s)
  else if off = o then holdLow o r (BitVec.ofNat 32 v.toNat) s
  else act (BitVec.ofNat 64 (lowFor o r now s + v.toNat % 2 ^ 32 * 2 ^ 32)) (takeLow o r s)

/-! ### Registers without behaviour of their own -/

def writeCharterAddr (v : DWord) : State → State := updCfg fun c => { c with charterAddr := BitVec.ofNat 64 (v.toNat / 4096 * 4096) }
def writeDest (v : DWord) : State → State :=
  updTab fun b => { b with dest := BitVec.ofNat 64 (v.toNat / 2 ^ 30 * 2 ^ 30 + v.toNat % 2) }
def writeSnapAt (v : DWord) : State → State := updTrace fun t => { t with snapAt := v }
def writeBarAddr (r : Requester) (v : DWord) : State → State :=
  updCfg fun c => { c with barAddr := tput 0 (reqCode r) (BitVec.ofNat 64 (v.toNat / 64 * 64)) c.barAddr }

/-- R420. -/
def writeFwd (v : Word) : State → State := updEvt fun e => { e with threshold := BitVec.ofNat 3 v.toNat }
/-- R421, R518: the selectors keep one value for each requester. -/
def writeDkSel (r : Requester) (v : Word) : State → State := updEvt fun e => { e with dkSel := tput 0 (reqCode r) (v.toNat % 128) e.dkSel }
def writeBufSel (r : Requester) (v : Word) : State → State := updTrace fun t => { t with sel := tput 0 (reqCode r) (v.toNat % 128) t.sel }
def writeSealSel (r : Requester) (v : Word) : State → State :=
  updCfg fun c => { c with sealSel := tput 0 (reqCode r) (BitVec.ofNat 12 v.toNat) c.sealSel }
/-- R445. -/
def writeArm (v : Word) : State → State := updTab fun b => { b with arm := v &&& 0x0003FFFF }
/-- R438, R446: a new DEST may start or end a flush. -/
def writeTraceCtl (v : Word) (s : State) : State := startFlush (updTrace (fun t => { t with ctl := v &&& 0xFFC0FFFF }) s)

/-- R446: 32 bits of PHL_TRACE_CORES. -/
def writeTraceCores (i : Nat) (v : Word) : State → State :=
  updTrace fun t =>
    let l := toLe 32 t.cores.toNat
    { t with cores := unit256 (l.take i ++ toLe 4 v.toNat ++ l.drop (i + 4)) }

/-! ### Commands written whole (R78, R423, R444, R363, R396, R421) -/

/-- R78. -/
def writeTxn (r : Requester) (v : Word) (s : State) : State :=
  if bits v.toNat 31 30 = 0 then s else txnCommand (bits v.toNat 31 30) r (BitVec.ofNat 16 v.toNat) s

/-- R423. -/
def writeEvtClear (r : Requester) (v : Word) (s : State) : State :=
  match bits v.toNat 31 30 with
  | 1 => challenge r s
  | 2 => clearLog r s
  | _ => s

/-- R444. -/
def writeTableauCmd (r : Requester) (v : Word) (s : State) : State :=
  match bits v.toNat 31 30 with
  | 1 => writeHalt r s
  | 2 => writeRelease r s
  | 3 => writeScan r s
  | _ => s

/-- R443. -/
def writeSnapCmd (r : Requester) (v : Word) (s : State) : State := if bits v.toNat 31 30 = 1 then writeSnap r s else s

/-- R363. -/
def writeBarCmd (r : Requester) (v : Word) (s : State) : State :=
  let s := updCfg (fun c => { c with barCmd := BitVec.ofNat 8 v.toNat }) s
  match bits v.toNat 31 30 with
  | 1 => armBarrier r (v.toNat % 256) s
  | 2 => disarmBarrier r (v.toNat % 256) s
  | _ => s

/-- R396: the word that holds CMD acts. -/
def writePeer (r : Requester) (v : DWord) (s : State) : State :=
  let s := updCfg (fun c => { c with rstPeer := BitVec.ofNat 32 v.toNat &&& 0x3FFFFFFF }) s
  let chip := BitVec.ofNat 14 (bits v.toNat 29 16)
  match bits v.toNat 63 62 with
  | 1 => advise r true chip (BitVec.ofNat 16 v.toNat) s
  | 2 => advise r false chip (BitVec.ofNat 16 v.toNat) s
  | _ => s

/-- R421, R507: the upper word gives ERA; the low word latches the record. -/
def writeEvtRead (off : Nat) (wide : Bool) (r : Requester) (v : DWord) : State → State :=
  updEvt fun e =>
    let l : ReadLatch := tget {} (reqCode r) e.latches
    if wide then latchRead r (BitVec.ofNat 8 (v.toNat / 2 ^ 40)) (BitVec.ofNat 32 v.toNat) e
    else if off = 0x010018 then latchRead r l.era (BitVec.ofNat 32 v.toNat) e
    else { e with latches := tput {} (reqCode r) { l with era := BitVec.ofNat 8 (v.toNat / 256) } e.latches }

/-- R447, R507: PHL_TRACE_MARK. -/
def writeMarkReg (off : Nat) (wide : Bool) (r : Requester) (v : DWord) (s : State) : State :=
  if wide then writeMark r (BitVec.ofNat 32 (v.toNat / 2 ^ 32)) (some (BitVec.ofNat 32 v.toNat)) s
  else if off = 0x0B0030 then holdLow 0x0B0030 r (BitVec.ofNat 32 v.toNat) s
  else writeMark r (BitVec.ofNat 32 v.toNat) none s

/-! ### The native window (R506, R510 to R520) -/

/-- 32-bit registers. -/
def write32 (r : Requester) (o : Nat) (v : Word) (s : State) : State :=
  match o with
  | 0x000008 => loadGo r v s
  | 0x000014 => writeTxn r v s
  | 0x000020 => hostGenOffer r v s
  | 0x000040 => shadowWrite r 0x000040 v s
  | 0x000044 => shadowWrite r 0x000044 v s
  | 0x010014 => writeFwd v s
  | 0x010040 => writeDkSel r v s
  | 0x010044 => writeEvtClear r v s
  | 0x040000 => writeSealSel r v s
  | 0x040010 => rearm r v s
  | 0x070000 => writeRstCmd r v s
  | 0x080008 => writeMemtrain r v s
  | 0x08000C => writeShutdown r v s
  | 0x080010 => writeOtp r v s
  | 0x0A0000 => writeTableauCmd r v s
  | 0x0A0008 => writeArm v s
  | 0x0B0000 => writeTraceCtl v s
  | 0x0B0008 => writeSnapCmd r v s
  | 0x0B0024 => writeBufRd r v s
  | 0x0B0028 => writeBufSel r v s
  | 0x230018 => writeBarCmd r v s
  | _ => s

/-- 64-bit registers, by the offset of the low word. -/
def writeWide (r : Requester) (o off : Nat) (wide : Bool) (v : DWord) (s : State) : State :=
  match o with
  | 0x000000 => write64 o off wide r v s.cfg.charterAddr.toNat writeCharterAddr s
  | 0x010018 => writeEvtRead off wide r v s
  | 0x070010 => write64 o off wide r v s.cfg.rstPeer.toNat (writePeer r) s
  | 0x0A0010 => write64 o off wide r v s.tab.dest.toNat writeDest s
  | 0x0B0010 => write64 o off wide r v s.trace.snapAt.toNat writeSnapAt s
  | 0x0B0030 => writeMarkReg off wide r v s
  | 0x230000 => write64 o off wide r v (tget 0 0 s.sync.wl : DWord).toNat (writeWorkList r 0) s
  | 0x230008 => write64 o off wide r v (tget 0 1 s.sync.wl : DWord).toNat (writeWorkList r 1) s
  | 0x230020 => write64 o off wide r v (tget 0 (reqCode r) s.cfg.barAddr : DWord).toNat (writeBarAddr r) s
  | _ => s

/-- R508: bytes written to a byte window that can be written. -/
def writeWindow (r : Requester) (o : Nat) (l : List Byte) (s : State) : State :=
  if 0x010060 ≤ o ∧ o < 0x010080 then updEvt (fun e => { e with response := tputs 0 (o - 0x010060) l e.response }) s
  else if 0x080040 ≤ o ∧ o < 0x080080 then
    updCfg (fun c => { c with otpData := tputs 0 (reqCode r * 64 + (o - 0x080040)) l c.otpData }) s
  else if 0x090000 ≤ o ∧ o < 0x0A0000 then updBoot (fun b => { b with memset := tputs 0 (o - 0x090000) l b.memset }) s
  else if 0x0B0040 ≤ o ∧ o < 0x0B0060 then
    let s := writeTraceCores (o - 0x0B0040) (BitVec.ofNat 32 (leNat (l.take 4))) s
    if l.length = 8 then writeTraceCores (o - 0x0B0040 + 4) (BitVec.ofNat 32 (leNat (l.drop 4))) s else s
  else s

/-- The offset lies in a byte window that can be written. -/
def inWindows (o : Nat) : Bool :=
  (decide (0x010060 ≤ o) && decide (o < 0x010080)) || (decide (0x080040 ≤ o) && decide (o < 0x080080)) ||
  (decide (0x090000 ≤ o) && decide (o < 0x0A0000)) || (decide (0x0B0040 ≤ o) && decide (o < 0x0B0060))

/-- The low word of a 64-bit register that can be written lies here. -/
def isWide (o : Nat) : Bool := [0x000000, 0x010018, 0x070010, 0x0A0010, 0x0B0010, 0x0B0030, 0x230000, 0x230008, 0x230020].contains o

/-- R17, R501, R506: a write to the native window. -/
def writeNative (r : Requester) (o : Nat) (wide : Bool) (v : DWord) (s : State) : State :=
  if o % (if wide then 8 else 4) ≠ 0 then s
  else if inWindows o then writeWindow r o (toLe (if wide then 8 else 4) v.toNat) s
  else if isWide (o / 8 * 8) then writeWide r (o / 8 * 8) o wide v s
  else if wide then s
  else write32 r o (BitVec.ofNat 32 v.toNat) s

/-! ### The G1 window (R521) -/

/-- R521: an alias acts exactly as its native register does, with requester 2. -/
def writeG1 (o : Nat) (wide : Bool) (v : DWord) (s : State) : State :=
  if s.cfg.hostGen ≠ 1 ∨ o % (if wide then 8 else 4) ≠ 0 then s
  else if o = 0x0020 ∨ o = 0x0024 then write64 0x0020 o wide .hostG1 v s.cfg.charterAddr.toNat writeCharterAddr s
  else if wide then s
  else
    let w : Word := BitVec.ofNat 32 v.toNat
    match o with
    | 0x0010 => writeTxn .hostG1 w s
    | 0x0014 => loadGo .hostG1 w s
    | 0x0030 => writeTableauCmd .hostG1 w s
    | 0x0040 => forceG1 w s
    | 0x0044 => rearm .hostG1 w s
    | _ => s

/-- REGISTER_WRITE: R505 drops every write while the caller is in reset; R506: the caller and the board controller
write no register. -/
def registerWrite (r : Requester) (o : Nat) (wide : Bool) (v : DWord) (s : State) : State :=
  if callerOff s then s
  else
    match r with
    | .host => writeNative .host o wide v s
    | .ccp => writeNative .ccp o wide v s
    | .hostG1 => writeG1 o wide v s
    | _ => s

/-! ### The meaning -/

/-- R15, R505 to R507. -/
def execRegisterWrite (t : Nat) (r : Requester) (offset : Fin 0x400000) (wide : Bool) (value : DWord) (s : State) :
    Host.Outcome State Fault Refusal := .next (registerWrite r offset.val wide value (atTime t s))

end Sys2Proof.Machine
end

