-- ==== Sys2Proof/Machine/Dispatch.lean ====
section
/-! DEFINITION. One arm per command: each is one call of that command's meaning. -/

namespace Sys2Proof.Machine

/-- The effect of a command on everything but the queue of waiting commands. -/
def exec (i : Instr) (s : State) : Host.Outcome State Fault Refusal :=
  match i with
  | .pwrOkRise => Sys2Proof.Machine.execPwrOkRise s
  | .supplyLoss => Sys2Proof.Machine.execSupplyLoss s
  | .stageB0Supply t ctl core hbm io => Sys2Proof.Machine.execStageB0Supply t ctl core hbm io s
  | .stageB1Caller t => Sys2Proof.Machine.execStageB1Caller t s
  | .stageB2Clocks t regulators readback timebase tracePll => Sys2Proof.Machine.execStageB2Clocks t regulators readback timebase tracePll s
  | .stageB3Memtrain t => Sys2Proof.Machine.execStageB3Memtrain t s
  | .memtrainDone t r value => Sys2Proof.Machine.execMemtrainDone t r value s
  | .stageB4Memscreen t found => Sys2Proof.Machine.execStageB4Memscreen t found s
  | .stageB5Cores t patternFail katFail => Sys2Proof.Machine.execStageB5Cores t patternFail katFail s
  | .lbistSliceComplete t slice expected observed => Sys2Proof.Machine.execLbistSliceComplete t slice expected observed s
  | .lbistSliceTimeout t slice expected held => Sys2Proof.Machine.execLbistSliceTimeout t slice expected held s
  | .stageB6Fabric t ports => Sys2Proof.Machine.execStageB6Fabric t ports s
  | .stageB7Topology t => Sys2Proof.Machine.execStageB7Topology t s
  | .stageB8Charter t => Sys2Proof.Machine.execStageB8Charter t s
  | .stageB9Ready t => Sys2Proof.Machine.execStageB9Ready t s
  | .stageLimitReached t dropped => Sys2Proof.Machine.execStageLimitReached t dropped s
  | .charterLoadGo t r value => Sys2Proof.Machine.execCharterLoadGo t r value s
  | .charterVerified t => Sys2Proof.Machine.execCharterVerified t s
  | .txnBegin t r id => Sys2Proof.Machine.execTxnBegin t r id s
  | .txnCommit t r id => Sys2Proof.Machine.execTxnCommit t r id s
  | .txnRollback t r id => Sys2Proof.Machine.execTxnRollback t r id s
  | .txnExpired t => Sys2Proof.Machine.execTxnExpired t s
  | .commitValidated t => Sys2Proof.Machine.execCommitValidated t s
  | .shadowWrite t r offset value => Sys2Proof.Machine.execShadowWrite t r offset value s
  | .stationEpochTake t core => Sys2Proof.Machine.execStationEpochTake t core s
  | .hostGenOffer t r value => Sys2Proof.Machine.execHostGenOffer t r value s
  | .functionLevelReset t => Sys2Proof.Machine.execFunctionLevelReset t s
  | .i3cDynamicAddress t entdaa addr => Sys2Proof.Machine.execI3cDynamicAddress t entdaa addr s
  | .i3cHdrDdrTransfer t => Sys2Proof.Machine.execI3cHdrDdrTransfer t s
  | .i3cRstdaa t => Sys2Proof.Machine.execI3cRstdaa t s
  | .i3cFrameAbort t => Sys2Proof.Machine.execI3cFrameAbort t s
  | .i3cResponseRead t => Sys2Proof.Machine.execI3cResponseRead t s
  | .i3cStatus t tag crc => Sys2Proof.Machine.execI3cStatus t tag crc s
  | .i3cRegRead t tag offset count crc => Sys2Proof.Machine.execI3cRegRead t tag offset count crc s
  | .i3cEvtRead t tag era seq crc => Sys2Proof.Machine.execI3cEvtRead t tag era seq crc s
  | .i3cDkRead t tag page offset len crc => Sys2Proof.Machine.execI3cDkRead t tag page offset len crc s
  | .oobFetch t tag crc => Sys2Proof.Machine.execOobFetch t tag crc s
  | .oobAck t tag oseq crc => Sys2Proof.Machine.execOobAck t tag oseq crc s
  | .i3cReset t tag level queue index crc => Sys2Proof.Machine.execI3cReset t tag level queue index crc s
  | .i3cTableau t tag op crc => Sys2Proof.Machine.execI3cTableau t tag op crc s
  | .i3cShutdown t tag budget crc => Sys2Proof.Machine.execI3cShutdown t tag budget crc s
  | .i3cChallenge t tag crc => Sys2Proof.Machine.execI3cChallenge t tag crc s
  | .i3cClear t tag hmac crc => Sys2Proof.Machine.execI3cClear t tag hmac crc s
  | .i3cOtpProgram t tag type content hmac crc => Sys2Proof.Machine.execI3cOtpProgram t tag type content hmac crc s
  | .storePut t tag object offset bytes crc => Sys2Proof.Machine.execStorePut t tag object offset bytes crc s
  | .storeEnd t tag object len crc => Sys2Proof.Machine.execStoreEnd t tag object len crc s
  | .storeGet t tag object offset len crc => Sys2Proof.Machine.execStoreGet t tag object offset len crc s
  | .storeDone t tag object crc => Sys2Proof.Machine.execStoreDone t tag object crc s
  | .storeNeedTimeout t object => Sys2Proof.Machine.execStoreNeedTimeout t object s
  | .storeOfferTimeout t object => Sys2Proof.Machine.execStoreOfferTimeout t object s
  | .oobInterruptRepeat t => Sys2Proof.Machine.execOobInterruptRepeat t s
  | .evtReadLatch t r seq upper => Sys2Proof.Machine.execEvtReadLatch t r seq upper s
  | .evtChallenge t r => Sys2Proof.Machine.execEvtChallenge t r s
  | .evtClear t r => Sys2Proof.Machine.execEvtClear t r s
  | .nonceExpiry t r => Sys2Proof.Machine.execNonceExpiry t r s
  | .logClearComplete t => Sys2Proof.Machine.execLogClearComplete t s
  | .eventOccurrence t code source p1 p2 p3 => Sys2Proof.Machine.execEventOccurrence t code source p1 p2 p3 s
  | .recordWrite t => Sys2Proof.Machine.execRecordWrite t s
  | .tokenRefill t code => Sys2Proof.Machine.execTokenRefill t code s
  | .sealRearm t r value => Sys2Proof.Machine.execSealRearm t r value s
  | .resetRequest t r value => Sys2Proof.Machine.execResetRequest t r value s
  | .peerDown t r chip seq => Sys2Proof.Machine.execPeerDown t r chip seq s
  | .peerUp t r chip seq => Sys2Proof.Machine.execPeerUp t r chip seq s
  | .counterSnap t r => Sys2Proof.Machine.execCounterSnap t r s
  | .counterSnapshotLatch t => Sys2Proof.Machine.execCounterSnapshotLatch t s
  | .traceMarkWrite t r upper lower => Sys2Proof.Machine.execTraceMarkWrite t r upper lower s
  | .traceBufRdWrite t r value => Sys2Proof.Machine.execTraceBufRdWrite t r value s
  | .traceRdyChange t ready => Sys2Proof.Machine.execTraceRdyChange t ready s
  | .tableauHalt t r => Sys2Proof.Machine.execTableauHalt t r s
  | .stopInAsserted t => Sys2Proof.Machine.execStopInAsserted t s
  | .tableauHalted t latency => Sys2Proof.Machine.execTableauHalted t latency s
  | .tableauRelease t r => Sys2Proof.Machine.execTableauRelease t r s
  | .tableauScan t r => Sys2Proof.Machine.execTableauScan t r s
  | .scanImageComplete t => Sys2Proof.Machine.execScanImageComplete t s
  | .shutdown t r value => Sys2Proof.Machine.execShutdown t r value s
  | .shutdownDrainDone t => Sys2Proof.Machine.execShutdownDrainDone t s
  | .shutdownDrainTimeout t => Sys2Proof.Machine.execShutdownDrainTimeout t s
  | .shutdownSlicesDone t => Sys2Proof.Machine.execShutdownSlicesDone t s
  | .otpProgram t r value => Sys2Proof.Machine.execOtpProgram t r value s
  | .barrierArm t r b => Sys2Proof.Machine.execBarrierArm t r b s
  | .barrierDisarm t r b => Sys2Proof.Machine.execBarrierDisarm t r b s
  | .workListConfigWrite t r ring value => Sys2Proof.Machine.execWorkListConfigWrite t r ring value s
  | .g1ForceGo t value => Sys2Proof.Machine.execG1ForceGo t value s
  | .registerWrite t r offset wide value => Sys2Proof.Machine.execRegisterWrite t r offset wide value s
  | .tapOffer t core mask => Sys2Proof.Machine.execTapOffer t core mask s
  | .tapReady t core => Sys2Proof.Machine.execTapReady t core s
  | .issueFail t core queue opid cause => Sys2Proof.Machine.execIssueFail t core queue opid cause s
  | .opStart t tap start rec => Sys2Proof.Machine.execOpStart t tap start rec s
  | .opdesc t tap queue opid d => Sys2Proof.Machine.execOpdesc t tap queue opid d s
  | .tapDataBeat t core port arrival fill fault teeLost => Sys2Proof.Machine.execTapDataBeat t core port arrival fill fault teeLost s
  | .inbBeat t tap addr srcChip srcCore srcOpid lanes callerMover => Sys2Proof.Machine.execInbBeat t tap addr srcChip srcCore srcOpid lanes callerMover s
  | .opRetire t tap queue opid retire sectors poisoned => Sys2Proof.Machine.execOpRetire t tap queue opid retire sectors poisoned s
  | .opAbandon t tap queue opid cause => Sys2Proof.Machine.execOpAbandon t tap queue opid cause s
  | .writeDone t tap queue opid crc valid bytes => Sys2Proof.Machine.execWriteDone t tap queue opid crc valid bytes s
  | .feed t tap queue opid fed role => Sys2Proof.Machine.execFeed t tap queue opid fed role s
  | .verdictGiven t core tag cycles => Sys2Proof.Machine.execVerdictGiven t core tag cycles s
  | .verdictLate t core tag cycles => Sys2Proof.Machine.execVerdictLate t core tag cycles s
  | .verdictForcedFail t core tag cycles => Sys2Proof.Machine.execVerdictForcedFail t core tag cycles s
  | .stationPatternRun t core cell passed => Sys2Proof.Machine.execStationPatternRun t core cell passed s
  | .selfcheckInjection t core cell seen => Sys2Proof.Machine.execSelfcheckInjection t core cell seen s
  | .selfcheckRetestDone t core passes => Sys2Proof.Machine.execSelfcheckRetestDone t core passes s
  | .coreStopped t core => Sys2Proof.Machine.execCoreStopped t core s
  | .adjExecutionOutcome t slot which gave => Sys2Proof.Machine.execAdjExecutionOutcome t slot which gave s
  | .adjTimeout t slot => Sys2Proof.Machine.execAdjTimeout t slot s
  | .containmentAcksComplete t ctx => Sys2Proof.Machine.execContainmentAcksComplete t ctx s
  | .pinExpired t core entry => Sys2Proof.Machine.execPinExpired t core entry s
  | .capsuleComplete t core tag => Sys2Proof.Machine.execCapsuleComplete t core tag s
  | .replayStart t core tag emptyQueues => Sys2Proof.Machine.execReplayStart t core tag emptyQueues s
  | .repriseForce t core tag emptyQueues => Sys2Proof.Machine.execRepriseForce t core tag emptyQueues s
  | .repriseAbandon t core tag cause => Sys2Proof.Machine.execRepriseAbandon t core tag cause s
  | .repriseCompareDone t core tag results redLen sums => Sys2Proof.Machine.execRepriseCompareDone t core tag results redLen sums s
  | .rehearsalGapStart t core => Sys2Proof.Machine.execRehearsalGapStart t core s
  | .rehearsalSegmentEnd t core jobWaits result => Sys2Proof.Machine.execRehearsalSegmentEnd t core jobWaits result s
  | .rehearsalBudgetOverrun t core => Sys2Proof.Machine.execRehearsalBudgetOverrun t core s
  | .rehearsalLate t core => Sys2Proof.Machine.execRehearsalLate t core s
  | .rehearsalRecheckDone t core runner signature => Sys2Proof.Machine.execRehearsalRecheckDone t core runner signature s
  | .rehearsalRecheckTimeout t core => Sys2Proof.Machine.execRehearsalRecheckTimeout t core s
  | .horizonForward t cluster lag => Sys2Proof.Machine.execHorizonForward t cluster lag s
  | .vhBroadcast t => Sys2Proof.Machine.execVhBroadcast t s
  | .gateVhUpdate t point parityOk => Sys2Proof.Machine.execGateVhUpdate t point parityOk s
  | .gateItemArrival t point item => Sys2Proof.Machine.execGateItemArrival t point item s
  | .gateBroadcastTimeout t point => Sys2Proof.Machine.execGateBroadcastTimeout t point s
  | .vhStall t => Sys2Proof.Machine.execVhStall t s
  | .sealIssue t ctx => Sys2Proof.Machine.execSealIssue t ctx s
  | .syncSet t core issue name operand => Sys2Proof.Machine.execSyncSet t core issue name operand s
  | .syncClear t core issue name => Sys2Proof.Machine.execSyncClear t core issue name s
  | .syncAdd t core issue name operand => Sys2Proof.Machine.execSyncAdd t core issue name operand s
  | .syncSub t core issue name operand => Sys2Proof.Machine.execSyncSub t core issue name operand s
  | .syncWaitEq t core queue name operand timeout => Sys2Proof.Machine.execSyncWaitEq t core queue name operand timeout s
  | .syncWaitGe t core queue name operand timeout => Sys2Proof.Machine.execSyncWaitGe t core queue name operand timeout s
  | .syncWaitFlag t core queue name timeout => Sys2Proof.Machine.execSyncWaitFlag t core queue name timeout s
  | .syncWatch t core issue cond name operand timeout raddr => Sys2Proof.Machine.execSyncWatch t core issue cond name operand timeout raddr s
  | .barrierArrive t core queue b timeout => Sys2Proof.Machine.execBarrierArrive t core queue b timeout s
  | .subscriptionArrival t core slot => Sys2Proof.Machine.execSubscriptionArrival t core slot s
  | .syncReleaseDelivery t core slot => Sys2Proof.Machine.execSyncReleaseDelivery t core slot s
  | .waitTimeout t core expiry => Sys2Proof.Machine.execWaitTimeout t core expiry s
  | .barrierTimeout t core slot => Sys2Proof.Machine.execBarrierTimeout t core slot s
  | .cancelArrival t core slot => Sys2Proof.Machine.execCancelArrival t core slot s
  | .signalMessage t port msg => Sys2Proof.Machine.execSignalMessage t port msg s
  | .subscribeMessage t port msg => Sys2Proof.Machine.execSubscribeMessage t port msg s
  | .cancelMessage t port msg => Sys2Proof.Machine.execCancelMessage t port msg s
  | .releaseMessage t port msg => Sys2Proof.Machine.execReleaseMessage t port msg s
  | .arriveMessage t port msg => Sys2Proof.Machine.execArriveMessage t port msg s
  | .breleaseMessage t port msg => Sys2Proof.Machine.execBreleaseMessage t port msg s
  | .carryMessage t port msg => Sys2Proof.Machine.execCarryMessage t port msg s
  | .fabricSectorCommit t port party addr data => Sys2Proof.Machine.execFabricSectorCommit t port party addr data s
  | .tallyStall t party => Sys2Proof.Machine.execTallyStall t party s
  | .writeNotify t addr data holds => Sys2Proof.Machine.execWriteNotify t addr data holds s
  | .contextStart t ring => Sys2Proof.Machine.execContextStart t ring s
  | .contextEnd t ring => Sys2Proof.Machine.execContextEnd t ring s
  | .objectOp t ring => Sys2Proof.Machine.execObjectOp t ring s
  | .monArm t ring => Sys2Proof.Machine.execMonArm t ring s
  | .monDisarm t ring => Sys2Proof.Machine.execMonDisarm t ring s
  | .deadlineMiss t core queue => Sys2Proof.Machine.execDeadlineMiss t core queue s
  | .callerWatchdogExpiry t => Sys2Proof.Machine.execCallerWatchdogExpiry t s
  | .resetContainAcked t seq => Sys2Proof.Machine.execResetContainAcked t seq s
  | .resetAssert t seq => Sys2Proof.Machine.execResetAssert t seq s
  | .resetLevelComplete t seq => Sys2Proof.Machine.execResetLevelComplete t seq s
  | .resetLevelOverrun t seq => Sys2Proof.Machine.execResetLevelOverrun t seq s
  | .hangSnapshotCopyDone t bufferOk => Sys2Proof.Machine.execHangSnapshotCopyDone t bufferOk s
  | .responderResettingNak t port chip request sync retryAfter => Sys2Proof.Machine.execResponderResettingNak t port chip request sync retryAfter s
  | .nakRetry t port request => Sys2Proof.Machine.execNakRetry t port request s
  | .fabricLinkRetrain t port ev => Sys2Proof.Machine.execFabricLinkRetrain t port ev s
  | .limitActiveChange t active => Sys2Proof.Machine.execLimitActiveChange t active s
  | .frequencyChangeNotice t cluster mhz at_ => Sys2Proof.Machine.execFrequencyChangeNotice t cluster mhz at_ s
  | .canaryReport t domain canary slack => Sys2Proof.Machine.execCanaryReport t domain canary slack s
  | .tempoEvaluation t => Sys2Proof.Machine.execTempoEvaluation t s
  | .tempoStep t domain => Sys2Proof.Machine.execTempoStep t domain s
  | .tempoHoldEnd t domain => Sys2Proof.Machine.execTempoHoldEnd t domain s
  | .learnedFloorExpiry t domain => Sys2Proof.Machine.execLearnedFloorExpiry t domain s
  | .avsSettleExpiry t domain vout => Sys2Proof.Machine.execAvsSettleExpiry t domain vout s
  | .avsFrameFail t domain failure => Sys2Proof.Machine.execAvsFrameFail t domain failure s
  | .ledgerIntervalEnd t => Sys2Proof.Machine.execLedgerIntervalEnd t s
  | .drainLimitExpiry t => Sys2Proof.Machine.execDrainLimitExpiry t s
  | .drained t => Sys2Proof.Machine.execDrained t s
  | .resetRelease t seq => Sys2Proof.Machine.execResetRelease t seq s
  | .zeroisationComplete t => Sys2Proof.Machine.execZeroisationComplete t s
  | .traceBufferFlushed t => Sys2Proof.Machine.execTraceBufferFlushed t s
  | .otpSlotProgrammed t => Sys2Proof.Machine.execOtpSlotProgrammed t s
  | .clearLockoutExpiry t => Sys2Proof.Machine.execClearLockoutExpiry t s
  | .i3cUnknownCommand t cmd tag arg crc => Sys2Proof.Machine.execI3cUnknownCommand t cmd tag arg crc s
  | .endToEndAcknowledgement t core queue chip sectors => Sys2Proof.Machine.execEndToEndAcknowledgement t core queue chip sectors s
  | .responderNotReadyNak t port chip request => Sys2Proof.Machine.execResponderNotReadyNak t port chip request s
  | .testInstructionLoad t value => Sys2Proof.Machine.execTestInstructionLoad t value s

end Sys2Proof.Machine
end

