-- ==== Sys2Proof/Safety.lean ====
section
/-! DEFINITION. The terms in which claims speak of runs: which parts of the state a command changes, and what a safe run keeps. -/

namespace Sys2Proof.Safety

open Sys2Proof.Machine

/-! ### Frames -/

/-- The parts of the state, but for the queue of waiting commands; `now` is the time with the causes that run with it (R424). -/
inductive Part where
  | now | free | evt | crash | cfg | stations | hz | ctxs | adj | led | tempo | sync | rst | tab | trace | boot | i3c | mem | memPoison | replicas | out
deriving DecidableEq, Repr

/-- A part is the same in two states. -/
abbrev same (p : Part) (s t : State) : Prop :=
  match p with
  | .now => (t.now, t.causes) = (s.now, s.causes)
  | .free => t.free = s.free
  | .evt => t.evt = s.evt
  | .crash => t.crash = s.crash
  | .cfg => t.cfg = s.cfg
  | .stations => t.stations = s.stations
  | .hz => t.hz = s.hz
  | .ctxs => t.ctxs = s.ctxs
  | .adj => t.adj = s.adj
  | .led => t.led = s.led
  | .tempo => t.tempo = s.tempo
  | .sync => t.sync = s.sync
  | .rst => t.rst = s.rst
  | .tab => t.tab = s.tab
  | .trace => t.trace = s.trace
  | .boot => t.boot = s.boot
  | .i3c => t.i3c = s.i3c
  | .mem => t.mem = s.mem
  | .memPoison => t.memPoison = s.memPoison
  | .replicas => t.replicas = s.replicas
  | .out => t.out = s.out

/-- Nothing outside the named parts changes, and no command that waits. -/
def onlyChanges (ps : List Part) (s t : State) : Prop := t.pending = s.pending ∧ ∀ p, p ∉ ps → same p s t

/-- The parts that a recorded event can touch: the recorder, and an armed tableau trigger (R404, R427). -/
def recording : List Part := [.evt, .tab]

/-- The parts of the state that a command can change. -/
def frame : Instr → List Part
  | .pwrOkRise => [.rst, .boot, .i3c, .out]
  | .supplyLoss
      => [.now, .evt, .crash, .cfg, .stations, .hz, .ctxs, .adj, .led, .tempo, .sync, .rst, .tab, .trace, .boot,
        .i3c, .mem, .memPoison, .replicas, .out]
  | .stageB0Supply .. | .stageB5Cores .. | .storeEnd .. | .storeDone .. => [.now, .evt, .tab, .boot, .i3c, .out]
  | .stageB1Caller .. => [.now, .evt, .led, .tab, .boot, .i3c, .out]
  | .stageB2Clocks .. => [.now, .evt, .crash, .tempo, .tab, .trace, .boot, .i3c, .replicas, .out]
  | .stageB3Memtrain .. => [.now, .evt, .rst, .tab, .boot, .i3c, .out]
  | .memtrainDone .. => [.now, .evt, .cfg, .adj, .tab, .boot, .i3c, .out]
  | .stageB4Memscreen .. => [.now, .evt, .adj, .rst, .tab, .boot, .i3c, .out]
  | .lbistSliceComplete .. | .lbistSliceTimeout .. => [.now, .evt, .tab, .boot]
  | .stageB6Fabric .. | .stageB7Topology .. => [.now, .evt, .sync, .tab, .boot, .i3c, .out]
  | .stageB8Charter .. => [.now, .evt, .cfg, .stations, .hz, .ctxs, .led, .tempo, .sync, .tab, .trace, .boot, .i3c, .out]
  | .stageB9Ready .. | .resetLevelOverrun ..
      => [.now, .evt, .crash, .hz, .ctxs, .led, .tempo, .sync, .rst, .tab, .boot, .i3c, .out]
  | .stageLimitReached .. => [.now, .evt, .crash, .hz, .ctxs, .adj, .led, .tempo, .sync, .rst, .tab, .boot, .i3c, .out]
  | .charterLoadGo .. => [.now, .evt, .cfg, .tab, .i3c, .out]
  | .charterVerified .. => [.now, .evt, .cfg, .tab, .boot, .i3c, .out]
  | .txnBegin .. | .txnCommit .. | .txnRollback .. | .txnExpired .. | .shadowWrite .. | .hostGenOffer ..
    | .functionLevelReset .. => [.now, .evt, .cfg, .tab]
  | .commitValidated .. => [.now, .evt, .cfg, .stations, .hz, .ctxs, .led, .tempo, .sync, .tab, .trace, .i3c, .out]
  | .stationEpochTake .. | .tapReady .. | .rehearsalGapStart .. => [.now, .stations]
  | .i3cDynamicAddress .. | .i3cResponseRead .. => [.now, .evt, .tab, .i3c, .out]
  | .i3cHdrDdrTransfer .. | .i3cRstdaa .. | .i3cStatus .. | .i3cEvtRead .. | .i3cDkRead .. | .oobFetch ..
    | .i3cClear .. | .storePut .. | .storeGet .. | .i3cUnknownCommand .. => [.now, .evt, .tab, .i3c]
  | .i3cFrameAbort .. => [.now]
  | .i3cRegRead .. => [.now, .evt, .cfg, .tab, .i3c]
  | .oobAck .. => [.now, .evt, .led, .tab, .i3c]
  | .i3cReset .. | .resetRequest .. | .tableauRelease ..
      => [.now, .evt, .crash, .cfg, .stations, .hz, .ctxs, .adj, .led, .tempo, .sync, .rst, .tab, .trace, .i3c, .out]
  | .i3cTableau ..
      => [.now, .evt, .crash, .cfg, .stations, .hz, .ctxs, .adj, .led, .tempo, .sync, .rst, .tab, .trace, .boot, .i3c, .out]
  | .i3cShutdown .. | .i3cOtpProgram .. => [.now, .evt, .cfg, .tab, .boot, .i3c]
  | .i3cChallenge .. => [.now, .free, .evt, .tab, .i3c]
  | .storeNeedTimeout .. | .storeOfferTimeout .. | .shutdownSlicesDone .. => [.now, .boot, .i3c, .out]
  | .oobInterruptRepeat .. => [.now, .i3c, .out]
  | .evtReadLatch .. | .nonceExpiry .. | .clearLockoutExpiry .. => [.now, .evt]
  | .evtChallenge .. => [.now, .free, .evt, .tab]
  | .evtClear .. | .tokenRefill .. => [.now, .evt, .tab]
  | .logClearComplete .. => [.now, .evt, .crash, .tab, .trace, .i3c, .out]
  | .eventOccurrence .. | .hangSnapshotCopyDone .. => [.now, .evt, .crash, .tab]
  | .recordWrite .. => [.now, .evt, .tab, .trace, .i3c, .out]
  | .sealRearm .. => [.now, .evt, .cfg, .stations, .hz, .ctxs, .tab]
  | .peerDown .. | .peerUp .. => [.now, .free, .evt, .cfg, .stations, .hz, .sync, .tab, .trace, .out]
  | .counterSnap .. => [.now, .cfg, .trace]
  | .counterSnapshotLatch .. => [.now, .evt, .stations, .tab, .trace, .out]
  | .traceMarkWrite .. => [.now, .evt, .cfg, .tab, .trace, .out]
  | .traceBufRdWrite .. => [.now, .trace]
  | .traceRdyChange .. | .traceBufferFlushed .. => [.now, .trace, .out]
  | .tableauHalt .. => [.now, .cfg, .tab]
  | .stopInAsserted .. => [.now, .tab]
  | .tableauHalted .. => [.now, .evt, .crash, .tab, .out]
  | .tableauScan .. => [.now, .cfg, .tab, .boot]
  | .scanImageComplete .. => [.now, .evt, .tab, .trace, .mem, .memPoison, .out]
  | .shutdown .. => [.now, .cfg, .boot]
  | .shutdownDrainDone .. => [.now, .evt, .tempo, .tab, .boot, .out]
  | .shutdownDrainTimeout .. => [.now, .evt, .hz, .tempo, .tab, .boot, .out]
  | .otpProgram .. => [.now, .evt, .cfg, .boot]
  | .barrierArm .. | .barrierDisarm .. => [.now, .cfg, .sync]
  | .workListConfigWrite .. | .responderResettingNak .. | .responderNotReadyNak .. => [.now, .sync]
  | .g1ForceGo .. => [.now, .evt, .cfg, .stations, .hz, .ctxs, .sync, .tab, .trace, .out]
  | .registerWrite ..
      => [.now, .free, .evt, .crash, .cfg, .stations, .hz, .ctxs, .adj, .led, .tempo, .sync, .rst, .tab, .trace,
        .boot, .i3c, .out]
  | .tapOffer .. | .verdictLate .. | .stationPatternRun .. | .selfcheckInjection .. | .selfcheckRetestDone ..
    | .rehearsalRecheckDone .. | .rehearsalRecheckTimeout ..
      => [.now, .evt, .stations, .hz, .ctxs, .led, .tempo, .sync, .tab, .trace, .i3c, .out]
  | .issueFail .. | .rehearsalLate .. => [.now, .evt, .stations, .tab]
  | .opStart .. | .tapDataBeat .. | .inbBeat .. | .opRetire .. | .opAbandon .. | .writeDone ..
      => [.now, .free, .evt, .stations, .hz, .ctxs, .adj, .led, .tempo, .sync, .tab, .trace, .i3c, .mem, .memPoison, .out]
  | .opdesc .. | .feed .. | .verdictGiven .. | .verdictForcedFail .. | .adjExecutionOutcome .. | .adjTimeout ..
    | .pinExpired .. | .repriseCompareDone ..
      => [.now, .evt, .stations, .hz, .ctxs, .adj, .led, .tempo, .sync, .tab, .trace, .i3c, .mem, .memPoison, .out]
  | .coreStopped .. => [.now, .stations, .adj, .mem, .memPoison]
  | .containmentAcksComplete .. => [.now, .evt, .stations, .hz, .adj, .tab, .mem, .memPoison]
  | .capsuleComplete .. => [.now, .stations, .mem, .memPoison]
  | .replayStart .. | .repriseForce .. | .repriseAbandon .. => [.now, .evt, .stations, .adj, .led, .tab]
  | .rehearsalSegmentEnd .. | .rehearsalBudgetOverrun .. => [.now, .evt, .stations, .led, .tab]
  | .horizonForward .. => [.now, .stations, .hz]
  | .vhBroadcast .. | .gateBroadcastTimeout .. => [.now, .hz]
  | .gateVhUpdate .. | .nakRetry .. | .endToEndAcknowledgement ..
      => [.now, .free, .evt, .stations, .hz, .sync, .tab, .trace, .out]
  | .gateItemArrival .. => [.now, .free, .evt, .crash, .stations, .hz, .ctxs, .led, .sync, .rst, .tab, .trace, .i3c, .out]
  | .vhStall .. => [.now, .evt, .hz, .tab]
  | .sealIssue .. | .fabricSectorCommit .. | .writeNotify .. | .contextEnd .. | .objectOp ..
      => [.now, .evt, .stations, .hz, .ctxs, .sync, .tab, .trace, .mem, .memPoison, .out]
  | .syncSet .. | .syncClear .. | .syncAdd .. | .syncSub .. | .barrierArrive .. | .drainLimitExpiry ..
      => [.now, .evt, .stations, .hz, .ctxs, .led, .sync, .tab, .trace, .out]
  | .syncWaitEq .. | .syncWaitGe .. | .syncWaitFlag .. | .syncWatch .. => [.now, .evt, .stations, .sync, .tab, .trace, .out]
  | .subscriptionArrival .. => [.now, .evt, .stations, .hz, .sync, .tab, .trace, .out]
  | .syncReleaseDelivery .. => [.now, .stations, .sync, .mem, .memPoison, .out]
  | .waitTimeout .. | .releaseMessage .. => [.now, .evt, .stations, .sync, .tab, .trace, .mem, .memPoison, .out]
  | .barrierTimeout .. => [.now, .evt, .stations, .sync, .tab, .out]
  | .cancelArrival .. => [.now, .stations, .sync]
  | .signalMessage .. | .subscribeMessage .. | .cancelMessage .. | .arriveMessage .. | .breleaseMessage ..
    | .carryMessage .. => [.now, .evt, .stations, .hz, .ctxs, .sync, .tab, .trace, .out]
  | .tallyStall .. => [.now, .evt, .sync, .tab]
  | .contextStart .. => [.now, .evt, .stations, .ctxs, .sync, .tab, .mem, .memPoison]
  | .monArm .. | .monDisarm .. => [.now, .evt, .sync, .tab, .mem, .memPoison]
  | .deadlineMiss .. => [.now, .evt, .crash, .stations, .hz, .ctxs, .rst, .tab, .i3c, .out]
  | .callerWatchdogExpiry .. => [.now, .evt, .crash, .hz, .ctxs, .rst, .tab, .boot, .i3c, .out]
  | .resetContainAcked .. => [.now, .evt, .stations, .hz, .ctxs, .sync, .rst, .tab, .trace, .out]
  | .resetAssert ..
      => [.now, .free, .evt, .crash, .stations, .hz, .ctxs, .adj, .led, .tempo, .sync, .rst, .tab, .trace, .boot,
        .i3c, .mem, .memPoison, .out]
  | .resetLevelComplete .. => [.now, .evt, .stations, .hz, .ctxs, .led, .tempo, .sync, .rst, .tab, .trace, .i3c, .out]
  | .fabricLinkRetrain .. => [.now, .evt, .sync, .tab, .trace, .out]
  | .limitActiveChange .. | .frequencyChangeNotice .. | .tempoEvaluation .. | .tempoHoldEnd ..
    | .learnedFloorExpiry .. => [.now, .tempo]
  | .canaryReport .. | .avsSettleExpiry .. | .avsFrameFail .. => [.now, .evt, .tempo, .tab, .out]
  | .tempoStep .. => [.now, .tempo, .out]
  | .ledgerIntervalEnd .. => [.now, .evt, .led, .tempo, .tab, .i3c, .out]
  | .drained .. => [.now, .evt, .led, .tempo, .tab, .boot, .i3c, .out]
  | .resetRelease ..
      => [.now, .evt, .cfg, .stations, .hz, .ctxs, .adj, .led, .tempo, .sync, .rst, .tab, .trace, .boot, .i3c, .mem,
        .memPoison, .out]
  | .zeroisationComplete .. => [.now, .evt, .tab, .trace, .boot]
  | .otpSlotProgrammed .. => [.now, .cfg, .boot, .i3c, .out]
  | .testInstructionLoad .. => [.now, .boot, .out]

/-- Every station but one is unchanged. -/
def otherStations (c : Nat) (s t : State) : Prop := ∀ k, k ≠ c → station t k = station s k

/-- Every object but one is unchanged. -/
def otherObjects (o : Nat) (s t : State) : Prop := ∀ k, k ≠ o → object t k = object s k

/-- Every byte of memory outside `n` bytes from `a` reads as before. -/
def otherBytes (a n : Nat) (s t : State) : Prop :=
  ∀ x, x < a ∨ a + n ≤ x → tget (0 : Byte) x t.mem = tget 0 x s.mem

/-! ### What a command did -/

/-- R29, R398, R409, R412: one occurrence of a code, with its source and parameters and its unit's time stamp, was counted and
admitted at this step. -/
def records (code source : BitVec 16) (p1 p2 p3 : Nat) (s t : State) : Prop :=
  t.evt = admitEv t.now
    { time := stampOf t source, code := code, source := source, p1 := BitVec.ofNat 32 p1, p2 := BitVec.ofNat 32 p2, p3 := BitVec.ofNat 32 p3
      coarse := !t.boot.locked, deferred := false }
    (countUp code s.evt)

/-- R412: a code's occurrence counter went up by one. -/
def counted (code : BitVec 16) (s t : State) : Prop :=
  tget 0 (countIndex code) t.evt.counts = satAdd 0xFFFFFF (tget 0 (countIndex code) s.evt.counts) 1

/-- R109: the operation is the only one of its core with its tag or, when the caller inserted it, its queue and start time. -/
def only (u : Cu) (t : Station) : Prop := u ∈ t.cus ∧ ∀ x ∈ t.cus, sameCu u x = true → x = u

/-- R81, R92: a requester that the caller hears: the host, the chip control processor, and requester 2 while the host's
generation is G1. -/
def heard (s : State) (r : Requester) : Prop := r = .host ∨ r = .ccp ∨ (r = .hostG1 ∧ s.cfg.hostGen = 1)

/-- R506: the RESULT that a register shows to a requester. -/
def resultIs (reg : Nat) (r : Requester) (v : Nat) (t : State) : Prop := tget 0 (perReq reg r) t.cfg.results = v

/-- R79: a transaction that at this time is inside its 100 ms, or is being committed. -/
def inTime (x : Txn) (now : Nat) : Prop := x.committing = true ∨ now < x.began + 100000000

/-- R487: the command, the TAG, the arguments and the CRC of the frame that an I3C command brings; a frame with the CMD and
length of a command is no unknown one. -/
def frameOf : Instr → Option (Byte × Byte × List Byte × Word)
  | .i3cStatus _ tag crc => some (0x01, tag, [], crc)
  | .i3cRegRead _ tag o n crc => some (0x02, tag, toLe 4 o.toNat ++ [n], crc)
  | .i3cEvtRead _ tag era seq crc => some (0x10, tag, [era] ++ toLe 4 seq.toNat, crc)
  | .i3cDkRead _ tag page o n crc => some (0x11, tag, [page] ++ toLe 4 o.toNat ++ toLe 2 n.toNat, crc)
  | .oobFetch _ tag crc => some (0x20, tag, [], crc)
  | .oobAck _ tag oseq crc => some (0x21, tag, toLe 2 oseq.toNat, crc)
  | .i3cReset _ tag level queue index crc => some (0x30, tag, [level, queue, index], crc)
  | .i3cTableau _ tag op crc => some (0x31, tag, [op], crc)
  | .i3cShutdown _ tag budget crc => some (0x32, tag, [budget], crc)
  | .i3cChallenge _ tag crc => some (0x40, tag, [], crc)
  | .i3cClear _ tag hmac crc => some (0x41, tag, toLe 32 hmac.toNat, crc)
  | .i3cOtpProgram _ tag type content hmac crc => some (0x42, tag, [type] ++ toLe 60 content.toNat ++ toLe 32 hmac.toNat, crc)
  | .storePut _ tag object o bytes crc => some (0x50, tag, [object] ++ toLe 4 o.toNat ++ bytes, crc)
  | .storeEnd _ tag object n crc => some (0x51, tag, [object] ++ toLe 4 n.toNat, crc)
  | .storeGet _ tag object o n crc => some (0x52, tag, [object] ++ toLe 4 o.toNat ++ toLe 2 n.toNat, crc)
  | .storeDone _ tag object crc => some (0x53, tag, [object], crc)
  | .i3cUnknownCommand _ cmd tag arg crc => if argOk cmd.toNat arg.length then none else some (cmd, tag, arg, crc)
  | _ => none

/-- R489: the commands of the board controller that need the caller. -/
def asksCaller : Instr → Bool
  | .i3cReset .. | .i3cTableau .. | .i3cShutdown .. | .i3cChallenge .. | .i3cClear .. | .i3cOtpProgram .. => true
  | .storePut .. | .storeEnd .. | .storeGet .. | .storeDone .. => true
  | _ => false

/-- R487, R512: a frame is taken: its TAG is kept, and the first transfer of all makes the mode SDR. -/
def frameTaken (tag : Byte) (s t : State) : Prop := t.i3c.tag = tag ∧ t.i3c.mode = max 1 s.i3c.mode

/-- R487: the response that waits to be read. -/
def responds (result : Nat) (data : List Byte) (t : State) : Prop := t.i3c.resp = some (result, data)

/-- R489: a REG_READ of the register word at an offset, whenever it comes, answers this value. -/
def shows (s : State) (o v : Nat) : Prop :=
  ∀ (t : Nat) (tag : Byte) (crc : Word), frameOk 0x02 tag (toLe 4 o ++ [1]) crc = true →
    ∃ u, exec (.i3cRegRead t tag (BitVec.ofNat 32 o) 1 crc) s = .next u ∧ responds 0 (toLe 4 v) u

/-- R488, R505: the caller hears the board controller. -/
def callerUp (s : State) : Prop := s.boot.pwrOk = true ∧ callerOff s = false ∧ s.led.state ≠ 5

/-- R448: stage `n` is in progress. -/
def stageRuns (s : State) (n : Nat) : Prop :=
  s.boot.pwrOk = true ∧ s.boot.stage = n ∧ s.boot.state = 0 ∧ callerOff s = false

/-- R448: stage `n` has begun at this step. -/
def stageBegun (t : State) (n : Nat) : Prop := t.boot.stage = n ∧ t.boot.state = 0 ∧ t.boot.stageStart = t.now

/-- R448: the worst finding of the start takes a stage's result in. -/
def findingTakes (result : Nat) (s t : State) : Prop := t.boot.worst = max s.boot.worst result

/-- The headers of the capsules of every core's ring. -/
def capsuleHeads (s : State) : List (Nat × Nat) :=
  (s.stations.map fun x => x.2.capsules.map fun k => (capsuleAt s x.1 k.pos, 64)).flatten

/-- R318: where the record of a WATCH goes in memory; a wait writes none, and one in the scratchpad is no memory write. -/
def recordRange (s : State) (c w : Nat) : List (Nat × Nat) :=
  let k := watchOf s c w
  if k.op = 8 ∧ Config.place c k.raddr ≠ 1 then [(k.raddr.toNat, 16)] else []

/-- R433: the header with its directory, and the segments of a scan image in memory. -/
def imageRanges (s : State) : List (Nat × Nat) :=
  if destPort s then []
  else (scanAddr s, (scanHead s).length) :: (segments s).map fun x => (scanAddr s + 4096 * x.2, segLen s x.1)

/-- The ranges of memory, each an address and a length, to which a command stores: for the commands that store in places
which their operands and the state name. -/
def stores (s : State) : Instr → Option (List (Nat × Nat))
  | .fabricSectorCommit _ _ _ addr _ => some (if addr.scratchpad then [] else [(addr.addr.toNat / 64 * 64, 64)])
  | .writeNotify _ addr _ _ => some [(addr.toNat / 64 * 64, 64)]
  | .contextStart _ r | .contextEnd _ r | .objectOp _ r | .monArm _ r | .monDisarm _ r =>
    some [(itemAddr s r.val + 1, 1), (wlBase s r.val + 4, 4)]
  | .syncReleaseDelivery _ c w => some (recordRange s c.val w.val)
  | .waitTimeout _ c e => some (recordRange s c.val e.slot.val)
  | .releaseMessage _ _ m => some (recordRange s (partyCore m.party) (partySlot m.party))
  | .sealIssue _ ctx =>
    match numericsOf s ctx.toNat, runningCtx s ctx.toNat with
    | some e, some x => some [(e.page + 65536 * (x.sealed % 2), 65536)]
    | _, _ => some []
  | .capsuleComplete _ c tag =>
    match capsuleOf s c.val tag with
    | some k => some [(capsuleAt s c.val k.pos, 64)]
    | none => some []
  | .opdesc .. | .feed .. | .verdictGiven .. | .verdictForcedFail .. | .coreStopped .. | .adjExecutionOutcome .. | .adjTimeout ..
    | .containmentAcksComplete .. | .repriseCompareDone .. => some (capsuleHeads s)
  | .scanImageComplete .. => some (imageRanges s)
  | _ => none

/-- R309: the four signals by their number: SET 1, CLEAR 2, ADD 3, SUB 4. -/
def signalCmd (op t : Nat) (c : Core) (i : SyncIssue) (name n : Word) : Instr :=
  match op with
  | 1 => .syncSet t c i name n
  | 2 => .syncClear t c i name
  | 3 => .syncAdd t c i name n
  | _ => .syncSub t c i name n

/-- R309: the three waits by their condition: EQ 0, GE 1, FLAG 2. -/
def waitCmd (cond t : Nat) (c : Core) (q : Queue) (name n : Word) (timeout : BitVec 24) : Instr :=
  match cond with
  | 0 => .syncWaitEq t c q name n timeout
  | 1 => .syncWaitGe t c q name n timeout
  | _ => .syncWaitFlag t c q name timeout

/-- R338: the messages by their TYPE. -/
def messageCmd (type t : Nat) (port : Port) (m : SyncMsg) : Instr :=
  match type with
  | 1 => .signalMessage t port m
  | 2 => .subscribeMessage t port m
  | 3 => .cancelMessage t port m
  | 4 => .releaseMessage t port m
  | 5 => .arriveMessage t port m
  | 6 => .breleaseMessage t port m
  | _ => .carryMessage t port m

/-- R91, R341, R386: a port that is up with S2, on a chip that does not reset. -/
def takesMessages (s : State) (port : Port) : Prop :=
  s.rst.naking = false ∧ callerOff s = false ∧ (fport s port.val).width ≠ 0 ∧ (fport s port.val).settled = 2

/-- R354: no barrier context in SEAL mode follows a change of the object. -/
abbrev sealQuiet (s : State) (o : Nat) : Prop :=
  (∀ e, sealEntryOf s (object s o).ctx.toNat = some e → e.object ≠ o) ∨ ∀ b, b < 256 → (barrier s b).sealMode = false

/-- R439: the records on the trace port's lanes, newest first, each as its units. -/
def lineRecords (l : List LineItem) : List (List (BitVec 256)) :=
  l.filterMap fun x => match x with | .record _ us => some us | .aligns .. => none

/-! ### What every run keeps -/

/-- R36, R404: no ingress FIFO of the recorder holds more than 256 records. -/
abbrev fifosFit (e : Recorder) : Prop := e.fifoData.length ≤ 256 ∧ e.fifoCtl.length ≤ 256 ∧ e.fifoMgmt.length ≤ 256

/-- R491: the out-of-band queue holds at most 64 entries. -/
abbrev queueFits (i : I3c) : Prop := i.queue.length ≤ 64

/-- R472: a bit of OTP that is 1 stays 1. -/
abbrev otpGrows (b c : Boot) : Prop := ∀ a i, (tget 0 a b.otp).getLsbD i = true → (tget 0 a c.otp).getLsbD i = true

/-- R299: no set-point lies above nominal, 1,500 units of 0.5 mV. -/
abbrev atMostNominal (x : Tempo) : Prop := ∀ d, (tget {} d x.doms).setpoint ≤ 1500

/-- What every reachable state satisfies. -/
def invariant (s : State) : Prop :=
  Memory.wf s.mem = true ∧ fifosFit s.evt ∧ queueFits s.i3c ∧ atMostNominal s.tempo

/-- R31: the horizon that a gate point holds never decreases. -/
abbrev gatesOnward (x y : Horizon) : Prop := ∀ g, (tget {} g x.gates).vh ≤ (tget {} g y.gates).vh

/-- R32, R198: the items that have left since, each of which, when its GATED bit is set, left a gate point whose
horizon had passed its start time. -/
abbrev leftBehindHorizon (s t : State) : Prop :=
  ∃ new, t.out.items = new ++ s.out.items ∧ ∀ x ∈ new, x.2.gated = true → x.2.start + 4 ≤ (gate t x.1).vh

end Sys2Proof.Safety
end

