-- ==== Sys2Proof/WellFormed.lean ====
section
/-! DEFINITION. Which commands are well formed: the bounds that the spec puts on what the outside world supplies, where a field's type does not put them. A meaning does not ask for them; claims that need one name it. -/

namespace Sys2Proof

/-- R94: the data lanes of a beat on each engine port, and on port 6, INB. -/
def portLanes (port : Nat) : Nat :=
  match port with
  | 0 => 4 | 1 => 8 | 2 => 16 | 3 => 8 | _ => 2

/-- R458: a report of each of the 36 fabric ports; a port that did not train reports nothing. -/
def portsWf (ports : List (Option PortReport)) : Bool := ports.length == 36

/-- R94: a beat has its port's lanes; a record that breaks R101 to R107 has no lanes. -/
def TapIn.wf (port : Fin 6) : TapIn → Bool
  | .beat b => b.lanes.length == portLanes port.val
  | .badRecord .. => true

/-- R196, R198: a sector brings at most 64 bytes, and an item has at most 256 sectors; a message is one sector. -/
def ItemIn.wf (i : ItemIn) : Bool :=
  decide (i.data.length ≤ 64) && decide (i.poisoned ≤ 256) &&
  (match i.kind with
   | .fabricPush | .hostPush => true
   | .signal | .arrival | .completion | .hostSignal => i.last && i.lastItem)

/-- R451: what a stage drops when its overrun can be tied to units. -/
def StageUnit.wf : StageUnit → Bool
  | .none => true
  | .stacks _ => true
  | .ports reports => portsWf reports
  | .cores _ => true

/-- R489: (CMD, least ARGLEN, greatest ARGLEN) of every command of the I3C target. -/
def i3cArgs : List (Nat × Nat × Nat) :=
  [(0x01, 0, 0), (0x02, 5, 5), (0x10, 5, 5), (0x11, 7, 7), (0x20, 0, 0), (0x21, 2, 2), (0x30, 3, 3), (0x31, 1, 1),
   (0x32, 1, 1), (0x40, 0, 0), (0x41, 32, 32), (0x42, 93, 93), (0x50, 6, 261), (0x51, 5, 5), (0x52, 7, 7), (0x53, 1, 1)]

/-- R489: a frame names a command and gives it as many argument bytes as it takes. -/
def i3cNames (cmd n : Nat) : Bool := i3cArgs.any fun e => e.1 == cmd && decide (e.2.1 ≤ n) && decide (n ≤ e.2.2)

/-- The well-formed commands. -/
def Instr.wf : Instr → Bool
  | .stageB2Clocks _ _ readback timebase _ =>
    readback.first.length == 16 && readback.first.all (fun v => decide (v < 4096)) && readback.again.length == 16 &&
      readback.again.all (fun v => decide (v < 4096)) && timebase.lags.length == 16
  | .stageB4Memscreen _ found => found.length == 8
  | .stageB6Fabric _ ports => portsWf ports
  | .stageLimitReached _ dropped => dropped.wf
  | .storePut _ _ _ _ bytes _ => decide (1 ≤ bytes.length) && decide (bytes.length ≤ 256)
  | .i3cUnknownCommand _ cmd _ arg _ => !i3cNames cmd.toNat arg.length && decide (arg.length ≤ 320)
  | .tapDataBeat _ _ port arrival _ _ _ => arrival.wf port
  | .inbBeat _ _ _ _ _ _ lanes _ => lanes.length == portLanes 6
  | .gateItemArrival _ _ item => item.wf
  | .canaryReport _ _ _ slack => decide (-100 ≤ slack) && decide (slack ≤ 100)
  | .frequencyChangeNotice _ _ mhz _ => decide (mhz < 2048)
  | .avsSettleExpiry _ _ vout => decide (vout < 4096)
  | .pwrOkRise | .supplyLoss | .stageB0Supply .. | .stageB1Caller .. | .stageB3Memtrain .. | .memtrainDone ..
  | .stageB5Cores .. | .lbistSliceComplete .. | .lbistSliceTimeout .. | .stageB7Topology .. | .stageB8Charter ..
  | .stageB9Ready .. | .charterLoadGo .. | .charterVerified .. | .txnBegin .. | .txnCommit .. | .txnRollback ..
  | .txnExpired .. | .commitValidated .. | .shadowWrite .. | .stationEpochTake .. | .hostGenOffer ..
  | .functionLevelReset .. | .i3cDynamicAddress .. | .i3cHdrDdrTransfer .. | .i3cRstdaa .. | .i3cFrameAbort ..
  | .i3cResponseRead .. | .i3cStatus .. | .i3cRegRead .. | .i3cEvtRead .. | .i3cDkRead .. | .oobFetch .. | .oobAck ..
  | .i3cReset .. | .i3cTableau .. | .i3cShutdown .. | .i3cChallenge .. | .i3cClear .. | .i3cOtpProgram .. | .storeEnd ..
  | .storeGet .. | .storeDone .. | .storeNeedTimeout .. | .storeOfferTimeout .. | .oobInterruptRepeat ..
  | .evtReadLatch .. | .evtChallenge .. | .evtClear .. | .nonceExpiry .. | .logClearComplete .. | .eventOccurrence ..
  | .recordWrite .. | .tokenRefill .. | .sealRearm .. | .resetRequest .. | .peerDown .. | .peerUp .. | .counterSnap ..
  | .counterSnapshotLatch .. | .traceMarkWrite .. | .traceBufRdWrite .. | .traceRdyChange .. | .tableauHalt ..
  | .stopInAsserted .. | .tableauHalted .. | .tableauRelease .. | .tableauScan .. | .scanImageComplete .. | .shutdown ..
  | .shutdownDrainDone .. | .shutdownDrainTimeout .. | .shutdownSlicesDone .. | .otpProgram .. | .barrierArm ..
  | .barrierDisarm .. | .workListConfigWrite .. | .g1ForceGo .. | .registerWrite .. | .tapOffer .. | .tapReady ..
  | .issueFail .. | .opStart .. | .opdesc .. | .opRetire .. | .opAbandon .. | .writeDone .. | .feed ..
  | .verdictGiven .. | .verdictLate .. | .verdictForcedFail .. | .stationPatternRun .. | .selfcheckInjection ..
  | .selfcheckRetestDone .. | .coreStopped .. | .adjExecutionOutcome .. | .adjTimeout .. | .containmentAcksComplete ..
  | .pinExpired .. | .capsuleComplete .. | .replayStart .. | .repriseForce .. | .repriseAbandon ..
  | .repriseCompareDone .. | .rehearsalGapStart .. | .rehearsalSegmentEnd .. | .rehearsalBudgetOverrun ..
  | .rehearsalLate .. | .rehearsalRecheckDone .. | .rehearsalRecheckTimeout .. | .horizonForward .. | .vhBroadcast ..
  | .gateVhUpdate .. | .gateBroadcastTimeout .. | .vhStall .. | .sealIssue .. | .syncSet .. | .syncClear ..
  | .syncAdd .. | .syncSub .. | .syncWaitEq .. | .syncWaitGe .. | .syncWaitFlag .. | .syncWatch .. | .barrierArrive ..
  | .subscriptionArrival .. | .syncReleaseDelivery .. | .waitTimeout .. | .barrierTimeout .. | .cancelArrival ..
  | .signalMessage .. | .subscribeMessage .. | .cancelMessage .. | .releaseMessage .. | .arriveMessage ..
  | .breleaseMessage .. | .carryMessage .. | .fabricSectorCommit .. | .tallyStall .. | .writeNotify ..
  | .contextStart .. | .contextEnd .. | .objectOp .. | .monArm .. | .monDisarm .. | .deadlineMiss ..
  | .callerWatchdogExpiry .. | .resetContainAcked .. | .resetAssert .. | .resetLevelComplete .. | .resetLevelOverrun ..
  | .hangSnapshotCopyDone .. | .responderResettingNak .. | .nakRetry .. | .fabricLinkRetrain .. | .limitActiveChange ..
  | .tempoEvaluation .. | .tempoStep .. | .tempoHoldEnd .. | .learnedFloorExpiry .. | .avsFrameFail ..
  | .ledgerIntervalEnd .. | .drainLimitExpiry .. | .drained .. | .resetRelease .. | .zeroisationComplete ..
  | .traceBufferFlushed .. | .otpSlotProgrammed .. | .clearLockoutExpiry .. | .endToEndAcknowledgement ..
  | .responderNotReadyNak .. | .testInstructionLoad .. => true

end Sys2Proof
end

