-- ==== Sys2Proof/Certificates/Slice0/Obligations.lean ====
section
/-! DEFINITION. What is claimed of the model: obligations drawn from the rules of the spec. -/

section

open Sys2Proof Sys2Proof.Machine Sys2Proof.Safety

/-- R448, R484: a rising PWR_OK releases power-on reset and starts B0; losing it is a power-on reset of everything but OTP.
The queue of commands, the numbering of free values and the record of what left are the model's own; the trace lanes count
their periods anew (log entry 146). -/
def Obligations.PowerEdges : Prop :=
  (∀ s : State, s.boot.pwrOk = false →
    ∃ t, exec .pwrOkRise s = .next t ∧ t.boot.pwrOk = true ∧ stageBegun t 0 ∧ t.now = s.now ∧ t.boot.otp = s.boot.otp ∧
      t.rst = { s.rst with callerIn := false } ∧ onlyChanges [.boot, .rst, .i3c] s t) ∧
  (∀ s : State, exec .supplyLoss s = .next { State.reset with
    pending := s.pending, free := s.free, out := { s.out with trace := [] }, boot := { State.reset.boot with otp := s.boot.otp } })

/-- R449, R448: the ends of B0, B1 and B2. Each records STAGE_REPORT and starts the next stage. R29, R55: at the lock of the
timebase each cluster's replica starts 0 to 2 ticks behind the master. R284: a regulator that answers gets its transition
rate. -/
def Obligations.EarlyStagesEnd : Prop :=
  (∀ (s : State) (t : Nat) (ctl core hbm io : Bool), stageRuns s 0 →
    let result := if ctl && core && hbm && io then 0 else 2
    ∃ u, exec (.stageB0Supply t ctl core hbm io) s = .next u ∧ u.now = timeAt t s ∧ stageBegun u 1 ∧ findingTakes result s u ∧
      records 0x8001 0x2000 (0 + 16 * result) ((u.now - s.boot.stageStart) / 1000000)
        (b2n ctl + 2 * b2n core + 4 * b2n hbm + 8 * b2n io) s u) ∧
  (∀ (s : State) (t : Nat), stageRuns s 1 → s.i3c.need = none → s.i3c.wanted = [] →
    ∃ u, exec (.stageB1Caller t) s = .next u ∧ u.now = timeAt t s ∧ stageBegun u 2 ∧
      (∀ k, k < 7 → u.boot.valid.getLsbD k = (otpRecord s (k + 1)).2.isSome) ∧
      u.boot.flagPending = ((otpGen s 7 != 0 && (otpRecord s 7).2.isNone) || (unreturnedFlag s).isSome) ∧
      findingTakes (if [1, 2, 4, 5].any fun k => otpGen s k != 0 && (otpRecord s k).2.isNone then 2 else 0) s u) ∧
  (∀ (s : State) (t : Nat) (regulators : BitVec 16) (readback again : List Nat) (timebase pll : Bool) (lags : List (Fin 3)),
    stageRuns s 2 →
    ∃ u, exec (.stageB2Clocks t regulators ⟨readback, again⟩ ⟨timebase, lags⟩ pll) s = .next u ∧ stageBegun u 3 ∧
      u.boot.locked = (s.boot.locked || timebase) ∧ u.boot.ccp = true ∧ u.trace.pll = pll ∧
      findingTakes (if s.boot.locked || timebase then 0 else 2) s u ∧
      (s.boot.locked = false → timebase = true → ∀ k, k < 16 → tget 0 k u.replicas = (lags.getD k 0).val) ∧
      (offNominal regulators (lastReadback readback again) = [] → ∀ d, d < 16 →
        (domain u d).setpoint = 1500 ∧ (domain u d).negotiated = regulators.getLsbD d ∧
        (regulators.getLsbD d = true → (domain u d).rate = 1)))

/-- R453, R455: memory at bring-up. B3 waits for firmware's DONE once its slices have their results; DONE ends B3 with the
stacks that firmware trained and no slice retired; B4 keeps the stacks whose screen passed. R55: the cores leave reset for
B5 only once the timebase has locked. R456, R464, R468: a logic slice gives its result once, PASS only when its MISR is the
expected one within 40 ms; past its budget it is a TIMEOUT; a failure or a timeout is recorded as LBIST_SLICE_FAIL. B5 ends
with the cores that failed a test, and those the slices and the DEFECT record name, on the defect list, and the key store
loaded. -/
def Obligations.StackAndCoreStages : Prop :=
  (∀ (s : State) (t : Nat), stageRuns s 3 → s.boot.awaitsDone = false → needing s = false → s.boot.failed = 0 →
    s.rst.l4 = false → slicesLeft s 3 = [] →
    ∃ u, exec (.stageB3Memtrain t) s = .next u ∧ u.boot.awaitsDone = true ∧ stageRuns u 3 ∧
      u.boot.memValid = (savedImage s).isSome ∧
      (∀ k, tget 0 k u.boot.memset = ((savedImage s).getD []).getD k 0) ∧ onlyChanges [.now, .boot] s u) ∧
  (∀ (s : State) (t : Nat) (m : Byte) (r : Requester), stageRuns s 3 → s.boot.awaitsDone = true → r = .host ∨ r = .ccp →
    ∃ u, exec (.memtrainDone t r (BitVec.ofNat 32 (0x40000000 + 65536 * m.toNat))) s = .next u ∧ stageBegun u 4 ∧
      u.boot.trained = m ∧ u.boot.stackBits = m &&& ~~~stacksRetired s ∧ u.boot.memUsed = false ∧
      tget 0 (perReq regMemtrain r) u.cfg.results = 0 ∧
      findingTakes (if m &&& ~~~stacksRetired s = 0 then 2 else 0) s u) ∧
  (∀ (s : State) (t : Nat) (found : List StackScreen), stageRuns s 4 → s.boot.failed = 0 → found.length = 8 →
    ∃ u, exec (.stageB4Memscreen t found) s = .next u ∧ stageBegun u 5 ∧
      u.rst = (if s.boot.locked then { s.rst with coresIn := 0, clustersIn := 0 } else s.rst) ∧
      ∀ k, k < 8 → u.boot.stackBits.getLsbD k =
        (s.boot.stackBits.getLsbD k && !(found.getD k { failed := false, repaired := 0 }).failed)) ∧
  (∀ (s : State) (t : Nat) (i : Fin 316) (expected observed : Word), stageRuns s 5 → s.boot.shutdown ≠ 2 → s.boot.failed = 0 →
    i.val ∈ slicesLeft s 5 →
    let now := timeAt t s
    let inBudget := now ≤ s.boot.sliceStart + 40 * 1000000
    let ended := fun (res failed : Nat) => { s.boot with
      slices := tput 0 i.val res s.boot.slices, sliceStart := now, ran := s.boot.ran + 1, ranFailed := s.boot.ranFailed + failed }
    ∃ u, exec (.lbistSliceComplete t i expected observed) s = .next u ∧
      (inBudget → expected = observed → u.boot = ended 1 0 ∧ onlyChanges [.now, .boot] s u) ∧
      (inBudget → expected ≠ observed → u.boot = ended 2 1 ∧ records 0x9001 0x2000 i.val expected.toNat observed.toNat s u) ∧
      (¬ inBudget → u.boot = ended 3 1 ∧ records 0x9001 0x2000 i.val expected.toNat observed.toNat s u)) ∧
  (∀ (s : State) (t : Nat) (i : Fin 316) (expected held : Word), stageRuns s 5 → s.boot.shutdown ≠ 2 → s.boot.failed = 0 →
    i.val ∈ slicesLeft s 5 →
    let now := timeAt t s
    let budget := s.boot.sliceStart + 40 * 1000000
    ∃ u, exec (.lbistSliceTimeout t i expected held) s = .next u ∧
      (budget ≤ now → u.boot = { s.boot with slices := tput 0 i.val 3 s.boot.slices, sliceStart := now, ran := s.boot.ran + 1
                                             ranFailed := s.boot.ranFailed + 1 } ∧
        records 0x9001 0x2000 i.val expected.toNat held.toNat s u) ∧
      (now < budget → u = atTime t s)) ∧
  (∀ (s : State) (t : Nat) (pattern kat : BitVec 256), stageRuns s 5 → s.boot.failed = 0 → slicesLeft s 5 = [] →
    ∃ u, exec (.stageB5Cores t pattern kat) s = .next u ∧ stageBegun u 6 ∧ u.boot.keyStore = true ∧ u.boot.zeroised = false ∧
      (∀ c, c < 256 → pattern.getLsbD c = true ∨ kat.getLsbD c = true ∨ (station s c).tapVer = 0 → coreBad u c = true) ∧
      (∀ b, b < 316 → s.boot.defectOtp.toNat.testBit b = true → u.boot.defect.toNat.testBit b = true))

/-- R458, R460, R461, R452: the ends of B6 to B9. R449, R451: a stage that reaches its limit without a unit to blame ends
NOT_READY with its detail and does not deliver, and the next stage starts. R461: the wait for the first charter does not
count. -/
def Obligations.LateStagesEnd : Prop :=
  (∀ (s : State) (t : Nat) (ports : List (Option PortReport)), stageRuns s 6 → s.boot.failed = 0 → ports.length = 36 →
    ∃ u, exec (.stageB6Fabric t ports) s = .next u ∧ stageBegun u 7 ∧
      (∀ p : Nat, p < 36 → ports.getD p none = none → (fport u p).width = 0 ∧ (fport u p).settled = 0) ∧
      (∀ (p : Nat) (r : PortReport), p < 36 → ports.getD p none = some r → r.width ≠ 0 → portBad s p = false →
        (fport s p).disabled = false →
        (fport u p).width = r.width.toNat ∧ (fport u p).peerUid = r.peerUid.toNat ∧
        (fport u p).settled = settleSync r.offer s.cfg.floors.2.1)) ∧
  (∀ (s : State) (t : Nat) (ch : Charter) (img : List Byte), stageRuns s 7 → s.boot.failed = 0 → s.rst.l4 = false →
    s.cfg.first = some (ch, img) →
    ∃ u, exec (.stageB7Topology t) s = .next u ∧ stageBegun u 8 ∧ u.cfg = s.cfg ∧
      findingTakes (compareTopology ch.topology (atTime t s)).1.worst s u) ∧
  (∀ (s : State) (t : Nat) (ch : Charter) (img : List Byte), stageRuns s 8 → s.boot.failed = 0 → s.rst.l4 = false →
    needing s = false → s.cfg.first = some (ch, img) →
    freshFault (updBoot (fun b => { b with map := goodCores (applyTapFloor ch.floors.1 s) }) (applyTapFloor ch.floors.1 s)) ch = none →
    ∃ u, exec (.stageB8Charter t) s = .next u ∧ stageBegun u 9 ∧ u.boot.mapped = true ∧
      u.boot.map = goodCores (applyTapFloor ch.floors.1 s) ∧ u.boot.chip = ch.topology.chip ∧ u.cfg.active = some ch ∧
      u.cfg.image = img ∧ u.cfg.first = none ∧ u.cfg.serial = ch.serial ∧ u.cfg.state = 3 ∧ u.cfg.epoch = nextEpoch s.cfg.epoch) ∧
  (∀ (s : State) (t : Nat), stageRuns s 9 → s.led.state = 0 → s.boot.worst < 2 → s.boot.barred = false → s.rst.l4 = false →
    ∃ u, exec (.stageB9Ready t) s = .next u ∧ u.boot.state = 2 ∧
      u.led.state = (if s.boot.flagBad || (s.boot.flagPending && s.boot.kind != 2) then 3 else 1)) ∧
  (∀ (s : State) (t : Nat), stageRuns s 9 → s.led.state = 0 → s.boot.worst = 2 ∨ s.boot.barred = true → s.rst.l4 = false →
    ∃ u, exec (.stageB9Ready t) s = .next u ∧ u.boot.state = 2 ∧ u.led.state = 0) ∧
  (∀ (s : State) (t n : Nat), stageRuns s n → n < 9 → n ≠ 4 → stageWaits s = false →
    max s.boot.stageStart s.boot.waitEnd + stageLimit s * 1000000 ≤ timeAt t s →
    let settled := stageFails n (settleUnits (atTime t s))
    ∃ u, exec (.stageLimitReached t .none) s = .next u ∧ stageBegun u (stageAfter s n) ∧ findingTakes 2 s u ∧
      u.boot.failed = s.boot.failed ||| BitVec.ofNat 10 (2 ^ n) ∧
      records 0x8001 0x2000 (n + 32) ((u.now - s.boot.stageStart) / 1000000) (stageDetail settled) s u)

/-- R66, R76, R67: CHARTER_LOAD_GO copies the image at PHL_CFG_CHARTER_ADDR, in a transaction of the requester or before the
first charter; outside a transaction the charter in force is IMMUTABLE. While a load is COPYING or VERIFYING it is ignored.
R70, R71, R76: CHARTER_VERIFIED: an image that passes the checks is staged, or before service becomes the first charter; one
that fails is rejected with its reason and section, and nothing in force changes. -/
def Obligations.CharterLoad : Prop :=
  (∀ (s : State) (t : Nat) (r : Requester) (v : Word) (x : Txn), callerOff s = false → heard s r → v.getLsbD 0 = true →
    s.boot.mapped = true → 5 ≤ s.boot.stage → s.cfg.copy = none → s.cfg.txn = some x → r = x.owner → x.committing = false →
    inTime x (timeAt t s) →
    ∃ u, exec (.charterLoadGo t r v) s = .next u ∧ u.cfg.copy = some (sourceImage s) ∧ u.cfg.loader = some r ∧
      u.cfg.state = 1 ∧ u.cfg.txn = some { x with staged := none, loading := true } ∧ u.cfg.active = s.cfg.active ∧
      onlyChanges [.now, .cfg] s u) ∧
  (∀ (s : State) (t : Nat) (r : Requester) (v : Word), callerOff s = false → heard s r → v.getLsbD 0 = true →
    s.boot.mapped = false → 5 ≤ s.boot.stage → s.cfg.copy = none → s.cfg.txn = none →
    ∃ u, exec (.charterLoadGo t r v) s = .next u ∧ u.cfg.copy = some (sourceImage s) ∧ u.cfg.loader = some r ∧
      u.cfg.state = 1 ∧ u.cfg.first = none) ∧
  (∀ (s : State) (t : Nat) (r : Requester) (v : Word), callerOff s = false → heard s r → v.getLsbD 0 = true →
    s.boot.mapped = true → 5 ≤ s.boot.stage → s.cfg.copy = none → s.cfg.txn = none →
    ∃ u, exec (.charterLoadGo t r v) s = .next u ∧
      u.cfg = { s.cfg with state := 5, reason := 12, section_ := 0xFF } ∧
      records 0xA005 0x200A (12 + 256 * 255) (hdrSerial (sourceImage s)) (reqCode r) s u) ∧
  (∀ (s : State) (t : Nat) (r : Requester) (v : Word), s.cfg.copy.isSome = true →
    exec (.charterLoadGo t r v) s = .next (atTime t s)) ∧
  (∀ (s : State) (t : Nat) (r : Requester) (img : List Byte) (x : Txn), callerOff s = false → s.boot.mapped = true →
    s.cfg.copy = some img → s.cfg.loader = some r → s.cfg.txn = some x → x.loading = true → inTime x (timeAt t s) →
    (∀ ch, checkImage img (activeKeyhash s) s.cfg.active = .ok ch →
      ∃ u, exec (.charterVerified t) s = .next u ∧ u.cfg.txn = some { x with loading := false, staged := some (ch, img) } ∧
        u.cfg.state = 4 ∧ u.cfg.copy = none ∧ u.cfg.active = s.cfg.active ∧ onlyChanges [.now, .cfg] s u) ∧
    (∀ e, checkImage img (activeKeyhash s) s.cfg.active = .error e →
      ∃ u, exec (.charterVerified t) s = .next u ∧ u.cfg.txn = some { x with loading := false } ∧ u.cfg.state = 5 ∧
        u.cfg.reason = BitVec.ofNat 8 e.reason ∧ u.cfg.section_ = BitVec.ofNat 8 e.section_ ∧ u.cfg.active = s.cfg.active ∧
        records 0xA005 0x200A (e.reason + 256 * e.section_) (hdrSerial img) (reqCode r) s u)) ∧
  (∀ (s : State) (t : Nat) (r : Requester) (img : List Byte), callerOff s = false → needing s = false →
    s.cfg.copy = some img → s.cfg.loader = some r → s.cfg.txn = none →
    ∃ u, exec (.charterVerified t) s = .next u ∧ u.cfg.copy = none ∧ u.cfg.loader = none ∧
      (∀ ch, checkImage img (activeKeyhash s) none = .ok ch → u.cfg.first = some (ch, img) ∧ u.cfg.firstBy = r ∧ u.cfg.state = 4) ∧
      (∀ e, checkImage img (activeKeyhash s) none = .error e → u.cfg.first = s.cfg.first ∧ u.cfg.state = 5 ∧
        u.cfg.reason = BitVec.ofNat 8 e.reason ∧ u.cfg.section_ = BitVec.ofNat 8 e.section_))

/-- R79, R80: BEGIN opens the one transaction for its requester; COMMIT puts it to COMMITTING; ROLLBACK and the 100 ms limit
end it without effect. -/
def Obligations.TransactionCommands : Prop :=
  (∀ (s : State) (t : Nat) (r : Requester) (id : BitVec 16), callerOff s = false → heard s r ∨ r = .caller → s.cfg.txn = none →
    ∃ u, exec (.txnBegin t r id) s = .next u ∧ onlyChanges [.now, .cfg] s u ∧
      (id ≠ 0 → resultIs 0x000014 r 0 u ∧ ∃ x, u.cfg.txn = some x ∧ x.id = id ∧ x.owner = r ∧ x.began = timeAt t s ∧
        x.committing = false ∧ x.shadow = [] ∧ x.staged = none) ∧
      (id = 0 → resultIs 0x000014 r 6 u ∧ u.cfg.txn = none)) ∧
  (∀ (s : State) (t : Nat) (r : Requester) (x : Txn), callerOff s = false → heard s r ∨ r = .caller → s.cfg.txn = some x →
    r = x.owner → x.committing = false → x.loading = false → inTime x (timeAt t s) →
    ∃ u, exec (.txnCommit t r x.id) s = .next u ∧ u.cfg.txn = some { x with committing := true } ∧ resultIs 0x000014 r 0 u ∧
      onlyChanges [.now, .cfg] s u) ∧
  (∀ (s : State) (t : Nat) (r : Requester) (x : Txn), callerOff s = false → heard s r ∨ r = .caller → s.cfg.txn = some x →
    r = x.owner → x.committing = false → inTime x (timeAt t s) →
    ∃ u, exec (.txnRollback t r x.id) s = .next u ∧ u.cfg.txn = none ∧ resultIs 0x000014 r 0 u ∧ u.cfg.active = s.cfg.active ∧
      u.cfg.epoch = s.cfg.epoch ∧ u.cfg.covOvr = s.cfg.covOvr ∧ u.cfg.tempoOvr = s.cfg.tempoOvr ∧
      onlyChanges [.now, .cfg, .evt, .tab] s u) ∧
  (∀ (s : State) (t : Nat) (x : Txn), callerOff s = false → s.cfg.txn = some x → ¬ inTime x (timeAt t s) →
    ∃ u, exec (.txnExpired t) s = .next u ∧ u.cfg.txn = none ∧ resultIs 0x000014 x.owner 5 u ∧ u.cfg.active = s.cfg.active ∧
      u.cfg.epoch = s.cfg.epoch ∧ onlyChanges [.now, .cfg, .evt, .tab] s u)

/-- R81, R82, R83: a write to a shadowed register is staged by the transaction's owner; a commit that validates puts all
that is staged into force at once, with the next epoch; a station in service takes the epoch. -/
def Obligations.CommitTakesEffect : Prop :=
  (∀ (s : State) (t : Nat) (r : Requester) (off : Fin 0x400000) (v : Word) (x : Txn), callerOff s = false → r ≠ .bc →
    r ≠ .hostG1 → off.val = 0x40 ∨ off.val = 0x44 → s.cfg.txn = some x → r = x.owner → x.committing = false →
    x.shadow.length < 4096 → inTime x (timeAt t s) →
    ∃ u, exec (.shadowWrite t r off v) s = .next u ∧
      u.cfg = { s.cfg with txn := some { x with shadow := x.shadow ++
        [(off.val, if off.val = 0x40 then v &&& 0x800F0F03 else v &&& 0x8000FFFF)] } } ∧ onlyChanges [.now, .cfg] s u) ∧
  (∀ (s : State) (t : Nat) (x : Txn) (old ch : Charter) (img : List Byte), callerOff s = false → s.cfg.txn = some x →
    x.committing = true → x.staged = some (ch, img) → s.cfg.active = some old → residencyFault s ch = none → shadowOk x = true →
    ∃ u, exec (.commitValidated t) s = .next u ∧ u.cfg.txn = none ∧ u.cfg.active = some ch ∧ u.cfg.image = img ∧
      u.cfg.serial = ch.serial ∧ u.cfg.state = 3 ∧ u.cfg.epoch = nextEpoch s.cfg.epoch ∧ resultIs 0x000014 x.owner 0 u ∧
      u.cfg.covOvr = (stagedValue x 0x40).getD s.cfg.covOvr ∧ u.cfg.tempoOvr = (stagedValue x 0x44).getD s.cfg.tempoOvr) ∧
  (∀ (s : State) (t : Nat) (x : Txn), callerOff s = false → s.cfg.txn = some x → x.committing = true → s.cfg.active = none →
    ∃ u, exec (.commitValidated t) s = .next u ∧ resultIs 0x000014 x.owner 4 u ∧ u.cfg.txn = none ∧ u.cfg.active = none ∧
      u.cfg.epoch = s.cfg.epoch) ∧
  (∀ (s : State) (t : Nat) (c : Core), clusterInReset s (c.val / 16) = false → (station s c.val).epoch ≠ s.cfg.epoch →
    ∃ u, exec (.stationEpochTake t c) s = .next u ∧ (station u c.val).epoch = s.cfg.epoch ∧
      (station u c.val).cov = coverageNow s ∧ otherStations c.val s u ∧ onlyChanges [.now, .stations] s u)

/-- R91, R93, R501, R502: the host's generation is the highest offered at or above HOST_FLOOR; a Function Level Reset
withdraws the offer. R505, R521 to R523: with the caller in reset the windows read all ones; the G1 window responds only
while G1 is settled, and shows its PART and GEN and the objects' flags. -/
def Obligations.HostGeneration : Prop :=
  (∀ (s : State) (t : Nat) (r : Requester) (v : Word), callerOff s = false → r = .host ∨ r = .ccp →
    ∃ u, exec (.hostGenOffer t r v) s = .next u ∧
      (v.getLsbD 1 = true → s.cfg.floors.2.2 ≤ 2 → u.cfg.hostGen = 2) ∧
      (v.getLsbD 1 = false → v.getLsbD 0 = true → s.cfg.floors.2.2 ≤ 1 → u.cfg.hostGen = 1) ∧
      (2 < s.cfg.floors.2.2 ∨ (v.getLsbD 1 = false ∧ (v.getLsbD 0 = false ∨ 1 < s.cfg.floors.2.2)) → u.cfg.hostGen = 0) ∧
      u.cfg.hostOffer.toNat = v.toNat % 4 ∧ onlyChanges [.now, .cfg, .evt, .tab] s u) ∧
  (∀ (s : State) (t : Nat), callerOff s = false →
    ∃ u, exec (.functionLevelReset t) s = .next u ∧ u.cfg = { s.cfg with hostOffer := 0, hostGen := 0 } ∧
      records 0xA006 0x200A 5 0 (256 * s.cfg.floors.2.2) s u) ∧
  (∀ s : State, callerUp s → shows s 0x000020 (s.cfg.hostGen * 256 + s.cfg.hostOffer.toNat)) ∧
  (∀ (s : State) (r : Requester) (o : Nat), s.rst.callerIn = true → windowRead r o s = (BitVec.allOnes 32, s)) ∧
  (∀ (s : State) (o : Nat), callerOff s = false → s.cfg.hostGen ≠ 1 → windowRead .hostG1 o s = (0, s)) ∧
  (∀ s : State, callerOff s = false → s.cfg.hostGen = 1 →
    ((windowRead .hostG1 0x0000 s).1.toNat / 256 = 0x025601 ∧ (windowRead .hostG1 0x0000 s).2 = s) ∧
    (∀ o, o < 8192 → s.tab.state < 4 →
      (windowRead .hostG1 (0x8000 + o / 32 * 4) s).1.getLsbD (o % 32) = g1Flag s o)) ∧
  (State.reset.cfg.hostGen = 0 ∧ State.reset.cfg.hostOffer = 0)

/-- R422, R479: what a read shows of the occurrence counters, of the defect list and of the core map, with or without the
caller, and that no write changes them. R125, R362: the version words of the tap links and of the fabric ports. R17: a
timestamp read as one 64-bit access, and as two words of which the second is of the instant of the first. -/
def Obligations.RegisterViews : Prop :=
  (∀ (s : State) (i : Nat), s.boot.pwrOk = true → i < 1024 → tget 0 i s.evt.counts ≤ 0xFFFFFF →
    shows s (0x011000 + 4 * i)
      (tget 0 i s.evt.counts + if tget 0 i s.evt.counts = 0xFFFFFF then 2 ^ 24 else 0)) ∧
  (∀ (s : State) (k : Nat), s.boot.pwrOk = true → k < 10 →
    shows s (0x080100 + 4 * k) (if s.boot.mapped then s.boot.defect.toNat / 2 ^ (32 * k) % 2 ^ 32 else 0)) ∧
  (∀ (s : State) (k : Nat), s.boot.pwrOk = true → k < 64 → (∀ c ∈ s.boot.map, c < 256) →
    shows s (0x080200 + 4 * k)
      (if s.boot.mapped then s.boot.map.getD (4 * k) 0 + 2 ^ 8 * s.boot.map.getD (4 * k + 1) 0 +
        2 ^ 16 * s.boot.map.getD (4 * k + 2) 0 + 2 ^ 24 * s.boot.map.getD (4 * k + 3) 0 else 0)) ∧
  (∀ (s : State) (t : Nat) (r : Requester) (o : Fin 0x400000) (wide : Bool) (v : DWord),
    (0x011000 ≤ o.val ∧ o.val < 0x012000) ∨ (0x080100 ≤ o.val ∧ o.val < 0x080128) ∨ (0x080200 ≤ o.val ∧ o.val < 0x080300) →
    exec (.registerWrite t r o wide v) s = .next (atTime t s)) ∧
  (∀ (s : State) (p : Port), callerUp s →
    shows s (0x230100 + 4 * p.val)
      ((fport s p.val).floor * 2 ^ 16 + (fport s p.val).offer.toNat * 2 ^ 8 + (fport s p.val).settled)) ∧
  (∀ (s : State) (c : Core), callerUp s → s.tab.state < 4 → clusterInReset s (c.val / 16) = false →
    coreBad s c.val = false →
    shows s (0x100000 + 4096 * c.val)
      ((station s c.val).tapOffer.toNat * 2 ^ 16 + (station s c.val).tapFloor * 2 ^ 8 +
        (if (station s c.val).tapReady then 8 else 0) + (station s c.val).tapVer)) ∧
  (∀ (s : State) (r : Requester) (x : Trace), callerOff s = false → s.tab.state < 4 → r ≠ .hostG1 →
    windowReadWide r 0x0B0010 s = s.trace.snapAt ∧
    (windowRead r 0x0B0010 s).1 = s.trace.snapAt.extractLsb' 0 32 ∧
    (windowRead r 0x0B0014 { (windowRead r 0x0B0010 s).2 with trace := x }).1 = s.trace.snapAt.extractLsb' 32 32) ∧
  (∀ i : Nat, tget 0 i State.reset.evt.counts = 0)

/-- R486, R512, R496, R92: the target's address and mode. With an address assigned the target shows its static address, its
provisional identifier and its BCR, and NEGOTIATED is recorded with the mode; an HDR-DDR transfer makes the mode HDR-DDR;
RSTDAA takes the address away and falls back to SDR; a frame cut short does nothing. -/
def Obligations.I3cAddressAndMode : Prop :=
  (∀ (s : State) (t : Nat) (entdaa : Bool) (addr : BitVec 7), s.boot.pwrOk = true →
    ∃ u, exec (.i3cDynamicAddress t entdaa addr) s = .next u ∧
      u.i3c = { s.i3c with mode := max 1 s.i3c.mode, addrKind := if entdaa then 2 else 1, dyn := addr, hotJoin := false } ∧
      u.out = { s.out with identities := (targetAddress s, provisionalId s, targetBcr) :: s.out.identities } ∧
      records 0xA006 0x6002 4 0 (max 1 s.i3c.mode + 256) s u ∧ onlyChanges [.now, .i3c, .evt, .tab, .out] s u) ∧
  (∀ (s : State) (t : Nat), s.boot.pwrOk = true →
    ∃ u, exec (.i3cHdrDdrTransfer t) s = .next u ∧ u.i3c = { s.i3c with mode := 2 } ∧
      (s.i3c.mode ≠ 2 → records 0xA006 0x6002 4 0 258 s u) ∧ (s.i3c.mode = 2 → u.evt = s.evt)) ∧
  (∀ (s : State) (t : Nat), s.boot.pwrOk = true →
    ∃ u, exec (.i3cRstdaa t) s = .next u ∧ u.i3c.addrKind = 0 ∧ u.i3c.dyn = 0 ∧ u.i3c.queue = s.i3c.queue ∧
      u.i3c.mode = (if s.i3c.mode = 2 then 1 else s.i3c.mode) ∧ (s.i3c.queue ≠ [] → u.i3c.hotJoin = true)) ∧
  (∀ (s : State) (t : Nat), exec (.i3cFrameAbort t) s = .next (atTime t s))

/-- R487, R488: a response is read once: NOT_YET while it is not ready, NO_RESPONSE when there is none. R488: a command
whose CRC fails is answered BAD_CRC and does nothing else; one that is unknown, or whose length is wrong, is answered
BAD_CMD. R488, R489, R505: with the caller domain in reset, or the chip DEAD, a command that needs the caller is answered
CALLER_DOWN and does nothing else. -/
def Obligations.I3cAnswers : Prop :=
  (∀ (s : State) (t : Nat), s.boot.pwrOk = true →
    ∃ u, exec (.i3cResponseRead t) s = .next u ∧ u.i3c.tag = s.i3c.tag ∧
      (s.i3c.resp = none → u.out.responses = responseBytes 6 s.i3c.tag [] :: s.out.responses ∧ u.i3c.resp = none) ∧
      (∀ d, s.i3c.resp = some (1, d) → u.out.responses = responseBytes 1 s.i3c.tag [] :: s.out.responses ∧
        u.i3c.resp = some (1, d)) ∧
      (∀ v d, s.i3c.resp = some (v, d) → v ≠ 1 → u.out.responses = responseBytes v s.i3c.tag d :: s.out.responses ∧
        u.i3c.resp = none)) ∧
  (∀ (c : Instr) (s : State) (cmd tag : Byte) (arg : List Byte) (crc : Word), frameOf c = some (cmd, tag, arg, crc) →
    s.boot.pwrOk = true → frameOk cmd tag arg crc = false →
    ∃ u, exec c s = .next u ∧ responds 3 [] u ∧ frameTaken tag s u ∧
      u.i3c = { s.i3c with tag := tag, mode := max 1 s.i3c.mode, resp := some (3, []) } ∧
      onlyChanges [.now, .i3c, .evt, .tab] s u) ∧
  (∀ (s : State) (t : Nat) (cmd tag : Byte) (arg : List Byte) (crc : Word), s.boot.pwrOk = true →
    argOk cmd.toNat arg.length = false → frameOk cmd tag arg crc = true →
    ∃ u, exec (.i3cUnknownCommand t cmd tag arg crc) s = .next u ∧ responds 2 [] u ∧ frameTaken tag s u ∧
      onlyChanges [.now, .i3c, .evt, .tab] s u) ∧
  (∀ (c : Instr) (s : State) (cmd tag : Byte) (arg : List Byte) (crc : Word), frameOf c = some (cmd, tag, arg, crc) →
    asksCaller c = true → c.wf = true → s.boot.pwrOk = true → frameOk cmd tag arg crc = true →
    s.rst.callerIn = true ∨ s.led.state = 5 →
    ∃ u, exec c s = .next u ∧ responds 4 [] u ∧ frameTaken tag s u ∧ onlyChanges [.now, .i3c, .evt, .tab] s u)

/-- R489, R490, R413: the reads that DK serves, with or without the caller. -/
def Obligations.I3cReads : Prop :=
  (∀ (s : State) (t : Nat) (tag : Byte) (crc : Word), s.boot.pwrOk = true → s.i3c.mode ≠ 0 → frameOk 0x01 tag [] crc = true →
    ∃ u, exec (.i3cStatus t tag crc) s = .next u ∧ frameTaken tag s u ∧ onlyChanges [.now, .i3c] s u ∧
      responds 0 (statusBlock (atTime t s)) u) ∧
  (∀ (s : State) (t : Nat) (tag : Byte) (offset : Word) (count : Byte) (crc : Word), s.boot.pwrOk = true →
    frameOk 0x02 tag (toLe 4 offset.toNat ++ [count]) crc = true →
    ∃ u, exec (.i3cRegRead t tag offset count crc) s = .next u ∧ frameTaken tag s u ∧
      (offset.toNat % 4 ≠ 0 ∨ count.toNat = 0 ∨ 64 < count.toNat → responds 5 [] u) ∧
      (offset.toNat % 4 = 0 → 1 ≤ count.toNat → count.toNat ≤ 64 → callerUp s →
        ∃ d, responds 0 d u ∧ d.length = 4 * count.toNat)) ∧
  (∀ (s : State) (t : Nat) (tag era : Byte) (seq crc : Word), s.boot.pwrOk = true →
    frameOk 0x10 tag ([era] ++ toLe 4 seq.toNat) crc = true →
    let pos := era.toNat * 2 ^ 32 + seq.toNat
    ∃ u, exec (.i3cEvtRead t tag era seq crc) s = .next u ∧ frameTaken tag s u ∧
      (∀ r, readResult s.evt pos = 0 → tfind (pos % 65536) s.evt.ring = some r → responds 0 (0 :: recordBytes false r) u) ∧
      (readResult s.evt pos ≠ 0 → responds 0 (BitVec.ofNat 8 (readResult s.evt pos) :: List.replicate 32 0) u)) ∧
  (∀ (s : State) (t : Nat) (tag page : Byte) (offset : Word) (len : BitVec 16) (crc : Word), s.boot.pwrOk = true →
    frameOk 0x11 tag ([page] ++ toLe 4 offset.toNat ++ toLe 2 len.toNat) crc = true →
    ∃ u, exec (.i3cDkRead t tag page offset len crc) s = .next u ∧ frameTaken tag s u ∧
      (page.toNat ≤ 127 → offset.toNat % 4 = 0 → 4 ≤ len.toNat → len.toNat ≤ 256 → offset.toNat + len.toNat ≤ 65536 →
        responds 0 (dkBytes s page.toNat offset.toNat len.toNat) u) ∧
      (127 < page.toNat ∨ offset.toNat % 4 ≠ 0 ∨ len.toNat < 4 ∨ 256 < len.toNat ∨ 65536 < offset.toNat + len.toNat →
        responds 5 [] u))

/-- R491, R492: OOB_FETCH answers the head of the out-of-band queue and leaves it; OOB_ACK of the head removes it, and that
of a REPLACE entry sets FLAG_BC; the interrupt is raised again after 10 ms. -/
def Obligations.OutOfBandQueue : Prop :=
  (∀ (s : State) (t : Nat) (tag : Byte) (crc : Word), s.boot.pwrOk = true → frameOk 0x20 tag [] crc = true →
    ∃ u, exec (.oobFetch t tag crc) s = .next u ∧ frameTaken tag s u ∧ u.i3c.ibi = false ∧ u.i3c.lastFetch = timeAt t s ∧
      u.i3c.queue = s.i3c.queue ∧ (s.i3c.queue = [] → responds 0 [] u) ∧
      (∀ e q, s.i3c.queue = e :: q → responds 0 (oobBytes e) u)) ∧
  (∀ (s : State) (t : Nat) (tag : Byte) (oseq : BitVec 16) (crc : Word) (e : Oob) (q : List Oob), s.boot.pwrOk = true →
    frameOk 0x21 tag (toLe 2 oseq.toNat) crc = true → s.i3c.queue = e :: q →
    ∃ u, exec (.oobAck t tag oseq crc) s = .next u ∧ frameTaken tag s u ∧ responds 0 [] u ∧
      (e.oseq = oseq → u.i3c.queue = q ∧ u.led = (if e.kind = 3 then { s.led with flagBc := true } else s.led)) ∧
      (e.oseq ≠ oseq → u.i3c.queue = s.i3c.queue ∧ u.led = s.led)) ∧
  (∀ (s : State) (t : Nat) (e : Oob) (q : List Oob), s.i3c.queue = e :: q → s.i3c.lastFetch + 10000000 ≤ timeAt t s →
    ∃ u, exec (.oobInterruptRepeat t) s = .next u ∧ u.i3c = { s.i3c with ibi := true, lastFetch := timeAt t s } ∧
      u.out = { s.out with ibis := (e.kind, e.oseq.toNat % 256) :: s.out.ibis } ∧ onlyChanges [.now, .i3c, .out] s u)

/-- R489: RESET, TABLEAU and SHUTDOWN of the board controller act as requester 5's writes to PHL_RST_CMD, PHL_TABLEAU_CMD
and PHL_BOOT_SHUTDOWN, and the response carries the register's RESULT. -/
def Obligations.I3cControl : Prop :=
  (∀ (s : State) (t : Nat) (tag level queue index : Byte) (crc : Word), callerUp s → s.i3c.mode ≠ 0 →
    frameOk 0x30 tag [level, queue, index] crc = true →
    ∃ (u : State) (v : Nat), exec (.i3cReset t tag level queue index crc) s = .next u ∧ resultIs 0x070000 .bc v u ∧
      responds (if 2 ≤ v then 5 else 0) [BitVec.ofNat 8 v] u ∧
      (s.led.state = 0 ∨ s.boot.shutdown ≠ 0 → v = 3 ∧ u.rst = s.rst) ∧
      (s.led.state ≠ 0 → s.boot.shutdown = 0 → 4 < level.toNat → v = 2 ∧ u.rst = s.rst) ∧
      (s.led.state ≠ 0 → s.boot.shutdown = 0 → level.toNat = 2 → index.toNat ≤ 15 → s.tab.state = 0 → s.rst.active = [] →
        v = 0 ∧ u.rst.seq = s.rst.seq + 1)) ∧
  (∀ (s : State) (t : Nat) (tag : Byte) (crc : Word), callerUp s → s.i3c.mode ≠ 0 → s.boot.shutdown = 0 → s.tab.state = 0 →
    frameOk 0x31 tag [1] crc = true →
    ∃ u, exec (.i3cTableau t tag 1 crc) s = .next u ∧ responds 0 [0] u ∧ u.tab.state = 1 ∧ u.tab.source = 4 ∧
      u.tab.tt = timeAt t s ∧ u.tab.stopOut = true) ∧
  (∀ (s : State) (t : Nat) (tag : Byte) (crc : Word), callerUp s → s.i3c.mode ≠ 0 → s.tab.state = 2 → s.rst.waiting = [] →
    frameOk 0x31 tag [2] crc = true →
    ∃ u, exec (.i3cTableau t tag 2 crc) s = .next u ∧ responds 0 [0] u ∧ u.tab.state = 0 ∧ u.tab.stopOut = false) ∧
  (∀ (s : State) (t : Nat) (tag : Byte) (crc : Word), callerUp s → s.i3c.mode ≠ 0 → s.tab.state = 2 →
    s.tab.dest.getLsbD 0 = false → scanAddr s ≠ 0 → frameOk 0x31 tag [3] crc = true →
    ∃ u, exec (.i3cTableau t tag 3 crc) s = .next u ∧ responds 0 [0] u ∧ u.tab = { s.tab with state := 3, scanBy := some .bc } ∧
      u.boot.zeroising = some (timeAt t s)) ∧
  (∀ (s : State) (t : Nat) (tag op : Byte) (crc : Word), callerUp s → op = 0 ∨ 4 ≤ op.toNat → frameOk 0x31 tag [op] crc = true →
    ∃ u, exec (.i3cTableau t tag op crc) s = .next u ∧ responds 5 [] u) ∧
  (∀ (s : State) (t : Nat) (tag budget : Byte) (crc : Word), callerUp s → s.i3c.mode ≠ 0 → frameOk 0x32 tag [budget] crc = true →
    2 ≤ s.boot.state → s.tab.state = 0 → s.ctxs = [] → s.boot.shutdown = 0 →
    ∃ u, exec (.i3cShutdown t tag budget crc) s = .next u ∧ responds 0 [0] u ∧ u.boot = { s.boot with
      shutdown := 1, shutStart := timeAt t s, clean := true, zeroising := none
      budget := if budget = 0 then 40 else budget.toNat })

/-- R414, R476, R489: CHALLENGE answers a nonce drawn for the board controller; CLEAR and OTP_PROGRAM with the right tag
over it act, and use it up. The nonce is a free value: what is said holds whatever is drawn. -/
def Obligations.I3cSecured : Prop :=
  (∀ (s : State) (t : Nat) (tag : Byte) (crc : Word), callerUp s → frameOk 0x40 tag [] crc = true →
    lockedOut (atTime t s) = false →
    ∃ u, exec (.i3cChallenge t tag crc) s = .next u ∧ responds 0 (toLe 16 (Config.nonce s.free).toNat) u ∧ u.free = s.free + 1 ∧
      tfind 5 u.evt.nonces = some { value := Config.nonce s.free, drawn := timeAt t s, bound := BitVec.ofNat 32 s.evt.head
                                    expired := false }) ∧
  (∀ (s : State) (t : Nat) (tag : Byte) (hmac : BitVec 256) (crc : Word) (n : NonceRec), callerUp s →
    frameOk 0x41 tag (toLe 32 hmac.toNat) crc = true → s.evt.clearing = none →
    lockedOut (atTime t s) = false → keysUsable s = true → tfind 5 s.evt.nonces = some n → n.expired = false →
    timeAt t s < n.drawn + 10000000000 →
    ∃ u, exec (.i3cClear t tag hmac crc) s = .next u ∧ tfind 5 u.evt.nonces = none ∧
      (toLe 32 hmac.toNat = hmacSha256 (clearKey s) (clearMessage s .bc n) →
        responds 0 [0] u ∧ u.evt.clearing = some (5, timeAt t s) ∧ u.evt.fails = 0) ∧
      (toLe 32 hmac.toNat ≠ hmacSha256 (clearKey s) (clearMessage s .bc n) →
        responds 5 [3] u ∧ u.evt.clearing = none ∧ u.evt.fails = satAdd 0xFFFFFFFF s.evt.fails 1)) ∧
  (∀ (s : State) (t : Nat) (tag type : Byte) (content : BitVec 480) (hmac : BitVec 256) (crc : Word) (n : NonceRec), callerUp s →
    let data := [0, 0, 0, 0] ++ toLe 60 content.toNat
    let gen := (otpRecord s type.toNat).1 + 1
    frameOk 0x42 tag ([type] ++ toLe 60 content.toNat ++ toLe 32 hmac.toNat) crc = true →
    lockedOut (atTime t s) = false → s.boot.otpJob = none → type = 4 ∨ type = 6 ∨ (type = 5 ∧ clearsDefect s data = false) →
    keysUsable s = true →
    tfind 5 s.evt.nonces = some n → n.expired = false → timeAt t s < n.drawn + 10000000000 →
    toLe 32 hmac.toNat = hmacSha256 (clearKey s) (otpMessage s .bc n type.toNat gen data) →
    ∃ u, exec (.i3cOtpProgram t tag type content hmac crc) s = .next u ∧ responds 1 [] u ∧ tfind 5 u.evt.nonces = none ∧
      u.boot.otpJob = some { type := type.toNat, gen := gen, image := slotImage type.toNat gen data, requester := .bc
                             toBoard := otpFull s type.toNat } ∧ u.boot.otp = s.boot.otp)

/-- R493: the board store. Chunks of the object needed are kept; STORE_END with every byte makes the object the stored one,
and length 0 leaves it absent; STORE_GET reads the object offered, STORE_DONE ends the offer, and the next object that waits
is offered; each exchange ends at its limit too. R467: with the offer of the shutdown record the chip halts. R413, R421: the
write of the low word of PHL_EVT_READ latches the record of a position for its requester, with RESULT; on any result but OK
the data reads as zero. Nothing else of the recorder changes. -/
def Obligations.BoardTransfers : Prop :=
  (∀ (s : State) (t : Nat) (tag object : Byte) (offset : Word) (bytes : List Byte) (crc : Word) (since : Nat) (got : Tab Byte),
    callerUp s → frameOk 0x50 tag ([object] ++ toLe 4 offset.toNat ++ bytes) crc = true → 1 ≤ bytes.length → bytes.length ≤ 256 →
    s.i3c.need = some (object.toNat, since, got) → offset.toNat + bytes.length ≤ objectMax object.toNat →
    ∃ (u : State) (now : Tab Byte), exec (.storePut t tag object offset bytes crc) s = .next u ∧ responds 0 [] u ∧
      u.i3c.need = some (object.toNat, since, now) ∧
      (∀ i, i < bytes.length → tfind (offset.toNat + i) now = some (bytes.getD i 0)) ∧
      (∀ a, a < offset.toNat ∨ offset.toNat + bytes.length ≤ a → tfind a now = tfind a got)) ∧
  (∀ (s : State) (t : Nat) (tag object : Byte) (len crc : Word) (since : Nat) (got : Tab Byte), callerUp s →
    frameOk 0x51 tag ([object] ++ toLe 4 len.toNat) crc = true → s.i3c.need = some (object.toNat, since, got) →
    s.i3c.wanted = [] →
    ∃ u, exec (.storeEnd t tag object len crc) s = .next u ∧
      (len = 0 → responds 0 [] u ∧ u.i3c.need = none ∧ u.i3c.store = s.i3c.store) ∧
      (len ≠ 0 → len.toNat ≤ objectMax object.toNat → (∀ i, i < len.toNat → (tfind i got).isSome = true) →
        responds 0 [] u ∧ u.i3c.need = none ∧ tfind object.toNat u.i3c.store = some (tgets 0 0 len.toNat got)) ∧
      (len ≠ 0 → (∃ i, i < len.toNat ∧ tfind i got = none) → responds 5 [] u ∧ u.i3c.need = s.i3c.need)) ∧
  (∀ (s : State) (t : Nat) (tag object : Byte) (offset : Word) (len : BitVec 16) (crc : Word) (since : Nat) (bytes : List Byte),
    callerUp s → frameOk 0x52 tag ([object] ++ toLe 4 offset.toNat ++ toLe 2 len.toNat) crc = true →
    s.i3c.offer = some (object.toNat, since, bytes) → 1 ≤ len.toNat → len.toNat ≤ 256 →
    ∃ u, exec (.storeGet t tag object offset len crc) s = .next u ∧ responds 0 (slice offset.toNat len.toNat bytes) u ∧
      u.i3c.offer = s.i3c.offer) ∧
  (∀ (s : State) (t : Nat) (tag object : Byte) (crc : Word) (since : Nat) (bytes : List Byte), callerUp s →
    frameOk 0x53 tag [object] crc = true → s.i3c.offer = some (object.toNat, since, bytes) →
    ∃ u, exec (.storeDone t tag object crc) s = .next u ∧ responds 0 [] u ∧
      (object = 2 → u.i3c.offer = none) ∧ (s.i3c.offers = [] → u.i3c.offer = none) ∧
      (∀ o b r, object ≠ 2 → s.i3c.offers = (o, b) :: r → u.i3c.offer = some (o, timeAt t s, b) ∧ u.i3c.offers = r) ∧
      (0x14 ≤ object.toNat → tfind object.toNat u.i3c.store = some bytes) ∧
      (object = 2 → s.boot.shutdown = 3 → u.boot = { s.boot with shutdown := 4, state := 3 } ∧ u.i3c.powerOff = true) ∧
      (object ≠ 2 → u.boot = s.boot)) ∧
  (∀ (s : State) (t : Nat) (object : Byte) (since : Nat) (got : Tab Byte), callerOff s = false →
    s.i3c.need = some (object.toNat, since, got) → s.i3c.wanted = [] →
    since + (if object = 1 then 1000000000 else 10000000) ≤ timeAt t s →
    ∃ u, exec (.storeNeedTimeout t object) s = .next u ∧ u.i3c = { s.i3c with need := none } ∧
      (object ≠ 2 → onlyChanges [.now, .i3c] s u) ∧
      (object = 2 → u.boot = { s.boot with sliceStart := timeAt t s } ∧ onlyChanges [.now, .i3c, .boot] s u)) ∧
  (∀ (s : State) (t : Nat) (object : Byte) (since : Nat) (bytes : List Byte), s.i3c.offer = some (object.toNat, since, bytes) →
    since + 50000000 ≤ timeAt t s →
    ∃ u, exec (.storeOfferTimeout t object) s = .next u ∧ (object = 2 ∨ s.i3c.offers = [] → u.i3c.offer = none) ∧
      (object ≠ 2 ∨ s.boot.shutdown ≠ 3 → u.boot = s.boot) ∧
      (object = 2 → s.boot.shutdown = 3 → u.boot = { s.boot with shutdown := 4, state := 3 })) ∧
  (∀ (s : State) (t : Nat) (r : Requester) (seq : Word) (upper : Option Word), callerOff s = false → r = .host ∨ r = .ccp →
    let era : Byte := match upper with | some w => BitVec.ofNat 8 (w.toNat / 256) | none => (tget {} (reqCode r) s.evt.latches : ReadLatch).era
    let pos := era.toNat * 2 ^ 32 + seq.toNat
    ∃ (u : State) (l : ReadLatch), exec (.evtReadLatch t r seq upper) s = .next u ∧ tget {} (reqCode r) u.evt.latches = l ∧
      l.era = era ∧ l.seq = seq ∧ l.result = readResult s.evt pos ∧
      (l.result = 0 → l.data = tfind (pos % 65536) s.evt.ring) ∧ (l.result ≠ 0 → readData u.evt r = List.replicate 32 0) ∧
      { u.evt with latches := s.evt.latches } = s.evt ∧ onlyChanges [.now, .evt] s u)

/-- R414: CHALLENGE draws a nonce, bound to its requester and to NEXT_SEQ, for requesters 1, 3 and 5; for any other it is
REFUSED, and LOCKED for one that is locked out, with CLEAR_REFUSED recorded and no nonce drawn. R414: CLEAR verifies the tag
over the nonce. The right tag starts the clear and resets the MISMATCH count; a wrong one consumes the nonce and counts; the
refusals come in their order. A nonce expires at 10 s, a lockout when the third of its MISMATCH results is 60 s old. R415: a
clear empties the ring, the crash dump and the counters, and LOG_CLEARED, with the requester and the last SEQ cleared,
becomes the first record and PHL_EVT_TAIL. -/
def Obligations.ChallengeAndClear : Prop :=
  (∀ (s : State) (t : Nat) (r : Requester), callerOff s = false → r = .host ∨ r = .ccp ∨ r = .bc →
    lockedOut (atTime t s) = false →
    ∃ u, exec (.evtChallenge t r) s = .next u ∧ u.free = s.free + 1 ∧ tget 0 (reqCode r) u.evt.clearResults = 0 ∧
      tfind (reqCode r) u.evt.nonces = some { value := Config.nonce s.free, drawn := timeAt t s
                                              bound := BitVec.ofNat 32 s.evt.head, expired := false } ∧
      (∀ k, k ≠ reqCode r → tfind k u.evt.nonces = tfind k s.evt.nonces) ∧ onlyChanges [.now, .free, .evt] s u) ∧
  (∀ (s : State) (t : Nat) (r : Requester), callerOff s = false → r = .hostG1 ∨ r = .caller →
    ∃ u, exec (.evtChallenge t r) s = .next u ∧ tget 0 (reqCode r) u.evt.clearResults = 6 ∧ u.evt.nonces = s.evt.nonces ∧
      onlyChanges [.now, .evt, .tab] s u) ∧
  (∀ (s : State) (t : Nat) (r : Requester), callerOff s = false → r = .host ∨ r = .ccp ∨ r = .bc →
    lockedOut (atTime t s) = true →
    ∃ u, exec (.evtChallenge t r) s = .next u ∧ tget 0 (reqCode r) u.evt.clearResults = 4 ∧ u.evt.nonces = s.evt.nonces ∧
      onlyChanges [.now, .evt, .tab] s u) ∧
  (∀ (s : State) (t : Nat) (r : Requester), callerOff s = false → r = .host ∨ r = .ccp ∨ r = .bc →
    let now : State := (atTime t s)
    let tag := tgets 0 0 32 s.evt.response
    let res := fun (u : State) => tget 0 (reqCode r) u.evt.clearResults
    ∃ u, exec (.evtClear t r) s = .next u ∧
      (s.evt.clearing.isSome = true → res u = 7 ∧ u.evt.nonces = s.evt.nonces) ∧
      (s.evt.clearing = none → lockedOut now = true → res u = 4 ∧ u.evt.nonces = s.evt.nonces) ∧
      (s.evt.clearing = none → lockedOut now = false → keysUsable s = false → res u = 5 ∧ u.evt.nonces = s.evt.nonces) ∧
      (s.evt.clearing = none → lockedOut now = false → keysUsable s = true → tfind (reqCode r) s.evt.nonces = none → res u = 1) ∧
      (∀ n, s.evt.clearing = none → lockedOut now = false → keysUsable s = true → tfind (reqCode r) s.evt.nonces = some n →
        tfind (reqCode r) u.evt.nonces = none ∧
        (nonceOld now n = true → res u = 2 ∧ u.evt.fails = s.evt.fails) ∧
        (nonceOld now n = false → tag ≠ hmacSha256 (clearKey s) (clearMessage s r n) →
          res u = 3 ∧ u.evt.fails = satAdd 0xFFFFFFFF s.evt.fails 1 ∧ u.evt.clearing = none) ∧
        (nonceOld now n = false → tag = hmacSha256 (clearKey s) (clearMessage s r n) →
          res u = 0 ∧ u.evt.fails = 0 ∧ u.evt.clearing = some (reqCode r, timeAt t s)))) ∧
  (∀ (s : State) (t : Nat) (r : Requester) (n : NonceRec), tfind (reqCode r) s.evt.nonces = some n →
    n.drawn + 10000000000 ≤ timeAt t s →
    ∃ u, exec (.nonceExpiry t r) s = .next u ∧ tfind (reqCode r) u.evt.nonces = some { n with expired := true } ∧
      onlyChanges [.now, .evt] s u) ∧
  (∀ (s : State) (t : Nat), lockedOut (atTime t s) = false →
    ∃ u, exec (.clearLockoutExpiry t) s = .next u ∧
      (∀ x ∈ u.evt.failTimes, timeAt t s < x + 60000000000) ∧ u.evt.fails = s.evt.fails ∧ onlyChanges [.now, .evt] s u) ∧
  (∀ (s : State) (t r began : Nat), s.evt.clearing = some (r, began) → (s.crash.slots.any fun x => x.2.state == 1) = false →
    s.crash.buffer = none → s.evt.head % 2 ^ 32 ≠ 2 ^ 32 - 1 → s.evt.head < 2 ^ 40 →
    ∃ (u : State) (e : Rec), exec (.logClearComplete t) s = .next u ∧ u.evt.clearing = none ∧ u.evt.tail = s.evt.head ∧
      u.evt.cleared = s.evt.head ∧ u.evt.head = (s.evt.head + 1) % 2 ^ 40 ∧ u.evt.ring = [(s.evt.head % 65536, e)] ∧
      e.pos = s.evt.head ∧ e.ev.code = 0x0001 ∧ e.ev.p1 = BitVec.ofNat 32 r ∧
      e.ev.p2 = BitVec.ofNat 32 ((s.evt.head + 2 ^ 40 - 1) % 2 ^ 40) ∧ u.evt.wrapped = false ∧
      u.crash.slots = [] ∧ u.crash.cleared = e.ev.time ∧ e.ev.time = dkStamp (atTime t s) ∧ e.ev.time ≤ timeAt t s)

/-- R409, R412: an occurrence of a limited code is counted, and takes a token or is suppressed; a token that is due comes to
its bucket, or is spent on a SUPPRESSED_SUMMARY. R402, R404: a record that is written takes the next sequence number and
goes to its entry of the ring, summaries first, then the FIFOs in turn; a record that ends an era is followed by ERA_ROLL.
R28, R420: DK_ECC counts a corrected error, or marks the record that it strikes, in the ring or in an event tail of the
crash dump (R416). R29: a record's TIME is that of its unit's replica. -/
def Obligations.RecorderFlow : Prop :=
  (∀ (s : State) (t : Nat) (code source : BitVec 16) (p1 p2 p3 : Word), limited code = true → (bucketOf s.evt code).tokens ≠ 0 →
    planeOf source = .data → s.evt.fifoData.length < 256 →
    ∃ u, exec (.eventOccurrence t code source p1 p2 p3) s = .next u ∧
      u.evt.fifoData = s.evt.fifoData ++
        [{ time := stampOf (atTime t s) source, code := code, source := source, p1 := p1, p2 := p2
           p3 := if code = 0x0005 then BitVec.ofNat 32 u.evt.corrected else p3, coarse := !s.boot.locked, deferred := false }] ∧
      (bucketOf u.evt code).tokens = (bucketOf s.evt code).tokens - 1 ∧
      tget 0 (countIndex code) u.evt.counts = satAdd 0xFFFFFF (tget 0 (countIndex code) s.evt.counts) 1) ∧
  (∀ (s : State) (t : Nat) (code source : BitVec 16) (p1 p2 p3 : Word), limited code = true → (bucketOf s.evt code).tokens = 0 →
    ∃ u, exec (.eventOccurrence t code source p1 p2 p3) s = .next u ∧ u.evt.fifoData = s.evt.fifoData ∧
      u.evt.fifoCtl = s.evt.fifoCtl ∧ u.evt.fifoMgmt = s.evt.fifoMgmt ∧
      (bucketOf u.evt code).suppressed = (bucketOf s.evt code).suppressed + 1 ∧
      tget 0 (countIndex code) u.evt.counts = satAdd 0xFFFFFF (tget 0 (countIndex code) s.evt.counts) 1) ∧
  (∀ (s : State) (t : Nat) (code : BitVec 16) (due : Nat), (bucketOf s.evt code).next = some due → due ≤ timeAt t s →
    ∃ u, exec (.tokenRefill t code) s = .next u ∧
      ((bucketOf s.evt code).suppressed = 0 → (bucketOf u.evt code).tokens =
        min (bucketParams s.evt.limits code).1 ((bucketOf s.evt code).tokens + 1) ∧ u.evt.summaries = s.evt.summaries) ∧
      (0 < (bucketOf s.evt code).suppressed → (bucketOf u.evt code).suppressed = 0 ∧
        (bucketOf u.evt code).tokens = (bucketOf s.evt code).tokens ∧
        ∃ v, u.evt.summaries = s.evt.summaries ++ [v] ∧ v.code = 0x0002 ∧ v.source = 0x6000 ∧
          v.p2 = BitVec.ofNat 32 (bucketOf s.evt code).suppressed)) ∧
  (∀ (s : State) (t : Nat) (ev : Ev) (e : Recorder), s.evt.clearing = none → nextRecord s.evt = some (ev, e) → s.evt.head < 2 ^ 40 →
    ∃ u, exec (.recordWrite t) s = .next u ∧
      (s.evt.head % 2 ^ 32 ≠ 2 ^ 32 - 1 → u.evt.head = s.evt.head + 1 ∧
        tfind (s.evt.head % 65536) u.evt.ring = some { pos := s.evt.head, ev := ev, damaged := false } ∧
        (∀ k, k ≠ s.evt.head % 65536 → tfind k u.evt.ring = tfind k s.evt.ring)) ∧
      (s.evt.head % 2 ^ 32 = 2 ^ 32 - 1 → u.evt.head = (s.evt.head + 2) % 2 ^ 40 ∧
        ∃ roll : Rec, tfind ((s.evt.head + 1) % 2 ^ 40 % 65536) u.evt.ring = some roll ∧ roll.ev.code = 0x0003)) ∧
  (∀ (s : State) (t : Nat) (source : BitVec 16) (p1 p2 p3 : Word),
    ∃ u, exec (.eventOccurrence t 0x0005 source p1 p2 p3) s = .next u ∧
      (p2.getLsbD 0 = false → u.evt.corrected = satAdd 0xFFFF s.evt.corrected 1 ∧ u.evt.ring = s.evt.ring) ∧
      (p2.getLsbD 0 = true → ∀ r, tfind (p1.toNat / 4) s.evt.ring = some r →
        tfind (p1.toNat / 4) u.evt.ring = some { r with damaged := true } ∧
        (∀ k, k ≠ p1.toNat / 4 → tfind k u.evt.ring = tfind k s.evt.ring)) ∧
      (p2.getLsbD 0 = true → ∀ i j r, struckTail s p1.toNat = some (i, j, r) →
        (tget {} i u.crash.slots : DumpSlot).tail[j]? = some { r with damaged := true }))

/-- R431, R374, R427, R430, R444, R499: tableau's commands. HALT is accepted in IDLE, with Tt, its source and STOP_OUT, and
a further trigger is only counted; the stop input acts while armed; RELEASE acts in HALTED alone. R428, R503: when every
core has halted, TABLEAU_STATUS shows HALTED with the cores and the latency, vector 2 is sent, and a hang snapshot is
captured or, while an earlier one is not yet copied, skipped and counted. -/
def Obligations.TableauHold : Prop :=
  (∀ (s : State) (t : Nat) (r : Requester), callerOff s = false → heard s r → s.boot.shutdown = 0 → s.tab.state ≤ 2 →
    ∃ u, exec (.tableauHalt t r) s = .next u ∧ resultIs 0x0A0000 r 0 u ∧
      let source := if r = .host then 1 else if r = .hostG1 then 2 else 3
      (s.tab.state = 0 → u.tab = { s.tab with
        state := 1, source := source, repeats := 0, cores := 0, tt := timeAt t s, stopOut := true }) ∧
      (s.tab.state ≠ 0 → u.tab = { s.tab with repeats := satAdd 255 s.tab.repeats 1 }) ∧ onlyChanges [.now, .cfg, .tab] s u) ∧
  (∀ (s : State) (t : Nat), callerOff s = false → s.boot.shutdown = 0 → s.tab.arm.getLsbD 17 = true → s.tab.state = 0 →
    ∃ u, exec (.stopInAsserted t) s = .next u ∧ onlyChanges [.now, .tab] s u ∧
      u.tab = { s.tab with state := 1, source := 5, repeats := 0, cores := 0, tt := timeAt t s, stopOut := true }) ∧
  (∀ (s : State) (t : Nat) (r : Requester), callerOff s = false → heard s r → s.tab.state = 2 → s.rst.waiting = [] →
    ∃ u, exec (.tableauRelease t r) s = .next u ∧ resultIs 0x0A0000 r 0 u ∧
      u.tab = { s.tab with state := 0, cores := 0, stopOut := false } ∧ u.evt = s.evt) ∧
  (∀ (s : State) (t : Nat) (r : Requester), callerOff s = false → heard s r → s.tab.state ≠ 2 →
    ∃ u, exec (.tableauRelease t r) s = .next u ∧ resultIs 0x0A0000 r (if 4 ≤ s.tab.state then 2 else 1) u ∧
      onlyChanges [.now, .cfg] s u) ∧
  (∀ (s : State) (t latency : Nat), callerOff s = false → s.tab.state = 1 → s.tab.arm.getLsbD 16 = false →
    ∃ u, exec (.tableauHalted t latency) s = .next u ∧
      u.tab = { s.tab with state := 2, cores := haltedCores s, latency := min 255 latency } ∧ u.out.msix = 2 :: s.out.msix ∧
      (∀ x, s.crash.buffer = some x → u.crash = { s.crash with skipped := satAdd 0xFFFFFFFF s.crash.skipped 1 }) ∧
      (s.crash.buffer = none → ∃ snap slot, u.crash.buffer = some (snap, slot) ∧ snap.trigger = 7 ∧ snap.tcap = timeAt t s ∧
        snap.incomplete = false ∧ slot = (if s.evt.clearing.isSome then 40 else if s.crash.firstUsed then s.crash.next else 0)))

/-- R432, R433, R435, R467: a SCAN with a destination begins zeroisation; when that completes, the key store is zeroised,
SECRETS_ZEROISED is recorded, and the caller scans, or begins the slices of a shutdown; the image's end is SCANNED. R224: no
image goes into the capsule region. -/
def Obligations.ScanOut : Prop :=
  (∀ (s : State) (t : Nat) (r : Requester), callerOff s = false → r = .host ∨ r = .ccp → s.tab.state = 2 →
    ∃ u, exec (.tableauScan t r) s = .next u ∧
      (s.tab.dest.getLsbD 0 = true → portUp (atTime t s) = true → resultIs 0x0A0000 r 0 u ∧ u.tab = { s.tab with state := 3, scanBy := some r } ∧
        u.boot.zeroising = some (timeAt t s)) ∧
      (s.tab.dest.getLsbD 0 = true → portUp (atTime t s) = false → resultIs 0x0A0000 r 4 u ∧ u.tab = s.tab ∧ u.boot = s.boot) ∧
      (s.tab.dest.getLsbD 0 = false → scanAddr s = 0 → resultIs 0x0A0000 r 3 u ∧ u.tab = s.tab ∧ u.boot = s.boot)) ∧
  (∀ (s : State) (t since : Nat), callerOff s = false → s.tab.state = 3 → s.tab.arm.getLsbD 16 = false →
    s.boot.zeroising = some since →
    ∃ u, exec (.zeroisationComplete t) s = .next u ∧ u.tab = { s.tab with state := 4 } ∧
      u.boot = { s.boot with keyStore := false, zeroised := true, zeroising := none } ∧
      records 0x9002 0x2000 3 ((timeAt t s - since) / 1000) 0 s u) ∧
  (∀ (s : State) (t since : Nat), callerOff s = false → s.tab.state = 0 → s.boot.zeroising = some since →
    s.boot.shutdown = 1 → zeroiseReady s = true →
    ∃ u, exec (.zeroisationComplete t) s = .next u ∧ u.boot.keyStore = false ∧ u.boot.zeroised = true ∧ u.boot.shutdown = 2 ∧
      u.boot.slices = [] ∧ u.boot.slicesBegan = timeAt t s ∧ u.boot.clean = (s.boot.clean && !unconfirmed s)) ∧
  (∀ (s : State) (t : Nat), callerOff s = false → s.tab.state = 4 → s.tab.dest.getLsbD 0 = false →
    inCapsules s (scanAddr s) (scanHead s).length = false →
    ∃ u, exec (.scanImageComplete t) s = .next u ∧ u.tab = { s.tab with state := 5, scans := s.tab.scans + 1 } ∧
      (∀ i, i < (scanHead s).length → (tget 0 (scanAddr s + i) u.mem : Byte) = (scanHead s).getD i 0) ∧ onlyChanges [.now, .tab, .mem, .memPoison] s u)

/-- R426, R443: SNAP fixes Ts and clears DONE, or is BUSY; at Ts every station latches its counters, one whose cluster is in
reset zeros, and DONE sets. R435, R441, R447, R507: a write of the upper word of PHL_TRACE_MARK emits a MARK record with
both words, behind what the lanes carry already; RD moves within what the buffer holds. R438, R498: TRACE_RDY begins the 8
ALIGN periods that bring the port up, and its change starts a flush or ends it; a flushed buffer is empty, its units sent in
order. R439: a record goes onto the lanes at the first free period, and no more than 4,096 periods lie between one ALIGN and
the next. -/
def Obligations.TraceAndCounters : Prop :=
  (∀ (s : State) (t : Nat) (r : Requester), callerOff s = false → r = .host ∨ r = .ccp → s.trace.snapPending = none →
    ∃ u, exec (.counterSnap t r) s = .next u ∧ resultIs 0x0B0008 r 0 u ∧ onlyChanges [.now, .cfg, .trace] s u ∧
      let ts := if timeAt t s + 1000 < s.trace.snapAt.toNat then s.trace.snapAt.toNat else timeAt t s + 1000
      u.trace = { s.trace with snapDone := false, snapPending := some ts }) ∧
  (∀ (s : State) (t : Nat) (r : Requester), callerOff s = false → r = .host ∨ r = .ccp → s.trace.snapPending.isSome = true →
    ∃ u, exec (.counterSnap t r) s = .next u ∧ resultIs 0x0B0008 r 1 u ∧ onlyChanges [.now, .cfg] s u) ∧
  (∀ (s : State) (t ts : Nat), callerOff s = false → s.trace.snapPending = some ts → ts ≤ timeAt t s →
    ∃ u, exec (.counterSnapshotLatch t) s = .next u ∧ u.trace.snapDone = true ∧ u.trace.snapPending = none ∧
      u.trace.snapTime = ts ∧
      (∀ c, c < 256 → (station u c).counterSnap = (if clusterInReset s (c / 16) then [] else countersAt (atTime t s) c ts)) ∧
      (∀ k, k < 16 → u.trace.invalid.getLsbD k = clusterInReset s k)) ∧
  (∀ (s : State) (t : Nat) (r : Requester) (upper lower : Word), callerOff s = false → r = .host ∨ r = .ccp →
    traceOn s 0x0A = true → s.trace.pendingPort = none → routeIsPort (atTime t s) = true →
    routeRoom (atTime t s) 1 = true →
    ∃ (u : State) (p : Nat) (gap : List LineItem), exec (.traceMarkWrite t r upper (some lower)) s = .next u ∧
      u.trace.markLow = lower ∧ u.trace.tseq = s.trace.tseq + 1 ∧ periodAt (timeAt t s) ≤ p ∧ s.trace.line.next ≤ p ∧
      u.out.trace = .record p (traceUnits 0x0A 0x200C (timeAt t s) s.trace.tseq 1
        (toLe 4 lower.toNat ++ toLe 4 upper.toNat ++ [BitVec.ofNat 8 (reqCode r)])) :: gap ++ s.out.trace ∧ lineRecords gap = []) ∧
  (∀ (s : State) (t : Nat) (r : Requester) (v : Word), callerOff s = false → r = .host ∨ r = .ccp → s.trace.flushing = false →
    (v.toNat % 2 ^ 19 + 2 ^ 19 - s.trace.rd) % 2 ^ 19 ≤ bufUnits s.trace →
    ∃ u, exec (.traceBufRdWrite t r v) s = .next u ∧ u.trace = { s.trace with rd := v.toNat % 2 ^ 19 } ∧
      onlyChanges [.now, .trace] s u) ∧
  (∀ (s : State) (t : Nat) (ready : Bool), ready ≠ s.trace.ready →
    ∃ u, exec (.traceRdyChange t ready) s = .next u ∧ u.trace.ready = ready ∧ onlyChanges [.now, .trace, .out] s u ∧
      (u.trace.flushing = true ↔ traceDest s.trace = 2 ∧ s.trace.pll = true ∧ ready = true ∧ callerOff s = false ∧
        bufUnits s.trace ≠ 0) ∧
      (ready = true → s.trace.pll = true → callerOff s = false →
        let p := max (periodAt (timeAt t s)) s.trace.line.next
        u.trace.line.upFrom = p + 8 ∧ ∃ m, u.out.trace.head? = some (.aligns p 8 1 m s.trace.tseq))) ∧
  (∀ (s : State) (t : Nat), exec (.traceRdyChange t s.trace.ready) s = .next (atTime t s)) ∧
  (∀ (s : State) (t : Nat), s.trace.flushing = true → portUp (atTime t s) = true →
    ∃ u, exec (.traceBufferFlushed t) s = .next u ∧
      u.trace = { s.trace with rd := s.trace.wr, flushing := false, line := u.trace.line } ∧
      (lineRecords u.out.trace).reverse.flatten = (lineRecords s.out.trace).reverse.flatten ++ bufContents s.trace ∧
      onlyChanges [.now, .trace, .out] s u) ∧
  (∀ (s : State) (p : Nat) (us : List (BitVec 256)), us.length ≤ 17 →
    let u := linePut p us s
    u.trace.line.next ≤ u.trace.line.aligned + 4096 ∧
    ∃ (q : Nat) (gap : List LineItem), p ≤ q ∧ s.trace.line.next ≤ q ∧ u.trace.line.next = q + us.length ∧
      u.out.trace = .record q us :: gap ++ s.out.trace ∧ lineRecords gap = [])

/-- R500: a test instruction is loaded from PWR_OK on, and the data register that it selects shifts out: the 32 bits of
IDCODE, the 316 bits of the DEFECT map, the one bit of BYPASS. An instruction that is not honoured, now or later, acts as
BYPASS. R472, R476, R482: a PROGRAM with the right tag over the requester's nonce begins, whatever the data; when the slot
is programmed, OTP has gained the image's bits, or the board controller is offered the image when no generation is left. -/
def Obligations.TestAndOtp : Prop :=
  (∀ (s : State) (t : Nat) (v : Byte), s.boot.pwrOk = true →
    ∃ u, exec (.testInstructionLoad t v) s = .next u ∧ onlyChanges [.now, .boot, .out] s u ∧ u.boot = { s.boot with jtag := v } ∧
      (v = 0x01 → u.out.testData = (32, idcode s) :: s.out.testData) ∧
      (v = 0x22 → u.out.testData = (316, (if s.boot.mapped then s.boot.defect.toNat else 0)) :: s.out.testData) ∧
      (v ∉ [0x01, 0x02, 0x22, 0x03, 0x04, 0x05, 0x20, 0x21] → u.out.testData = (1, 0) :: s.out.testData)) ∧
  (∀ s : State,
    let v := s.boot.jtag
    (v = 0x01 ∨ v = 0x02 ∨ v = 0x22 → testActs s = v) ∧
    (v = 0x03 ∨ v = 0x04 ∨ v = 0x05 → testActs s = if boundaryHonoured s then v else 0xFF) ∧
    (v = 0x20 ∨ v = 0x21 → testActs s = if networksFree s then v else 0xFF) ∧
    (v ∉ [0x01, 0x02, 0x22, 0x03, 0x04, 0x05, 0x20, 0x21] → testActs s = 0xFF)) ∧
  (∀ s : State, idcode s % 2 = 1 ∧ idcode s / 2 ^ 12 % 2 ^ 16 = 0x0256) ∧
  (∀ (s : State) (t : Nat) (r : Requester) (type : Nat) (n : NonceRec), callerOff s = false → r = .host ∨ r = .ccp →
    type = 4 ∨ type = 6 ∨ (type = 5 ∧ clearsDefect s (otpData s r) = false) → lockedOut (atTime t s) = false →
    s.boot.otpJob = none → keysUsable s = true → tfind (reqCode r) s.evt.nonces = some n → n.expired = false →
    timeAt t s < n.drawn + 10000000000 →
    tgets 0 0 32 s.evt.response = hmacSha256 (clearKey s) (otpMessage s r n type ((otpRecord s type).1 + 1) (otpData s r)) →
    ∃ u, exec (.otpProgram t r (BitVec.ofNat 32 (2 ^ 30 + type * 2 ^ 24))) s = .next u ∧ tfind (reqCode r) u.evt.nonces = none ∧
      u.boot = { s.boot with otpJob := some {
        type := type, gen := (otpRecord s type).1 + 1, requester := r, toBoard := otpFull s type
        image := slotImage type ((otpRecord s type).1 + 1) (otpData s r) } }) ∧
  (∀ (s : State) (t : Nat) (r : Requester) (type : Nat), callerOff s = false → r = .host ∨ r = .ccp → type < 8 →
    lockedOut (atTime t s) = false → s.boot.otpJob = none →
    ∃ u, exec (.otpProgram t r (BitVec.ofNat 32 (2 ^ 30 + type * 2 ^ 24))) s = .next u ∧
      (type ≠ 4 → type ≠ 5 → type ≠ 6 → resultIs 0x080010 r 4 u ∧ u.boot = s.boot) ∧
      (type = 4 ∨ type = 5 ∨ type = 6 → keysUsable s = false → resultIs 0x080010 r 3 u ∧ u.boot = s.boot)) ∧
  (∀ (s : State) (t : Nat) (j : OtpJob), callerOff s = false → s.boot.otpJob = some j → j.toBoard = false →
    ∃ u, exec (.otpSlotProgrammed t) s = .next u ∧ u.boot.otpJob = none ∧ resultIs 0x080010 j.requester 0 u ∧
      let at_ := (otpMap j.type).1 + (j.gen - 1) * (otpMap j.type).2.2
      (∀ i, i < j.image.length → tget 0 (at_ + i) u.boot.otp = tget 0 (at_ + i) s.boot.otp ||| j.image.getD i 0) ∧
      (∀ a, a < at_ ∨ at_ + j.image.length ≤ a → tget 0 a u.boot.otp = tget 0 a s.boot.otp)) ∧
  (∀ (s : State) (t : Nat) (j : OtpJob), callerOff s = false → s.boot.otpJob = some j → j.toBoard = true →
    let image := j.image ++ hmacSha256 (bistKey s) (uidBytes s ++ j.image)
    ∃ u, exec (.otpSlotProgrammed t) s = .next u ∧ u.boot = { s.boot with otpJob := none } ∧ resultIs 0x080010 j.requester 1 u ∧
      (s.i3c.offer = none → u.i3c.offer = some (boardObject j.type, timeAt t s, image)) ∧
      (∀ o, s.i3c.offer = some o → u.i3c.offer = some o ∧ u.i3c.offers = s.i3c.offers ++ [(boardObject j.type, image)]))

/-- R466, R467: the orderly shutdown. The request is accepted once the start has ended and no context runs; the drain ends
when everything is empty, or at 100 ms with what the gate points hold discarded and CLEAN cleared; then the domains return
to nominal and zeroisation begins; the slices' end offers the shutdown record. -/
def Obligations.ShutdownSteps : Prop :=
  (∀ (s : State) (t : Nat) (r : Requester) (budget : Byte), callerOff s = false → r = .host ∨ r = .ccp → 2 ≤ s.boot.state →
    s.led.state ≠ 5 → s.tab.state = 0 → s.ctxs = [] → s.boot.shutdown = 0 →
    ∃ u, exec (.shutdown t r (BitVec.ofNat 32 (2 ^ 30 + budget.toNat))) s = .next u ∧ resultIs 0x08000C r 0 u ∧
      u.boot = { s.boot with shutdown := 1, shutStart := timeAt t s, clean := true, zeroising := none
                             budget := if budget = 0 then 40 else budget.toNat }) ∧
  (∀ (s : State) (t : Nat), callerOff s = false → s.boot.shutdown = 1 → s.boot.zeroising = none → allEmpty s = true →
    ∃ u, exec (.shutdownDrainDone t) s = .next u ∧ u.boot = { s.boot with zeroising := some (timeAt t s) } ∧
      (∀ d, d < 16 → (domain u d).setpoint = 1500) ∧ onlyChanges [.now, .boot, .tempo, .out, .evt, .tab] s u) ∧
  (∀ (s : State) (t : Nat), callerOff s = false → s.boot.shutdown = 1 → s.boot.zeroising = none →
    s.boot.shutStart + 100000000 ≤ timeAt t s →
    ∃ u, exec (.shutdownDrainTimeout t) s = .next u ∧ u.boot = { s.boot with zeroising := some (timeAt t s), clean := false } ∧
      (∀ g, g < 38 → (gate u g).items = [] ∧ (gate u g).waiting = []) ∧ (∀ d, d < 16 → (domain u d).setpoint = 1500)) ∧
  (∀ (s : State) (t : Nat), callerOff s = false → s.boot.shutdown = 2 → slicesOver s = true →
    ∃ u, exec (.shutdownSlicesDone t) s = .next u ∧ u.boot = { s.boot with shutdown := 3, shutStart := timeAt t s } ∧
      ∃ bytes, u.i3c.offer = some (2, timeAt t s, bytes) ∧ bytes.length = 160 ∧
        bytes.drop 128 = hmacSha256 (bistKey s) (bytes.take 128))

/-- R394, R396, R389, R390: requests for resets and advice about partners. A reset asked for in service starts with the next
RST_SEQ, or is refused in its order; DOWN withdraws a chip, UP takes it back, and the same advice again is only known. -/
def Obligations.ResetAndPeerRequests : Prop :=
  (∀ (s : State) (t : Nat) (r : Requester) (level index queue : Nat), callerOff s = false → r = .host ∨ r = .ccp →
    level < 8 → index < 256 → queue < 4 →
    let w := BitVec.ofNat 32 (2 ^ 30 + level * 2 ^ 16 + queue * 2 ^ 8 + index)
    let no := s.led.state = 0 ∨ s.led.state = 5 ∨ s.boot.shutdown ≠ 0
    let bad := 4 < level ∨ (level ≤ 1 ∧ inService s index = false) ∨ (level = 2 ∧ 15 < index)
    ∃ u, exec (.resetRequest t r w) s = .next u ∧
      (no → resultIs 0x070000 r 3 u ∧ u.rst = s.rst) ∧
      (¬ no → bad → resultIs 0x070000 r 2 u ∧ u.rst = s.rst) ∧
      (¬ no → ¬ bad → s.tab.state = 0 → s.rst.active = [] → resultIs 0x070000 r 0 u ∧ u.rst.seq = s.rst.seq + 1 ∧
        ∃ l : Level, u.rst.active.map (·.seq) = [s.rst.seq + 1] ∧ u.rst.latest = some l ∧ l.level = level ∧
          l.start = timeAt t s ∧ l.cause = (if r = .ccp then 6 else 7)) ∧
      (¬ no → ¬ bad → s.tab.state ≠ 0 → s.tab.state ≠ 5 → resultIs 0x070000 r 0 u ∧
        u.rst.waiting.length = s.rst.waiting.length + 1 ∧ u.rst.active = s.rst.active)) ∧
  (∀ (s : State) (t : Nat) (r : Requester) (chip : ChipId) (seq : BitVec 16), callerOff s = false → r = .host ∨ r = .ccp →
    ∃ u, exec (.peerDown t r chip seq) s = .next u ∧
      (chip = s.boot.chip → resultIs 0x070010 r 2 u ∧ u.sync = s.sync) ∧
      (chip ≠ s.boot.chip → tfind (2 * chip.toNat + 1) s.sync.advice = some seq → resultIs 0x070010 r 1 u ∧ u.sync = s.sync) ∧
      (chip ≠ s.boot.chip → tfind (2 * chip.toNat + 1) s.sync.advice ≠ some seq → resultIs 0x070010 r 0 u ∧
        chip ∈ u.sync.down ∧ tfind (2 * chip.toNat + 1) u.sync.advice = some seq)) ∧
  (∀ (s : State) (t : Nat) (r : Requester) (chip : ChipId) (seq : BitVec 16), callerOff s = false → r = .host ∨ r = .ccp →
    tfind (2 * chip.toNat) s.sync.advice ≠ some seq →
    ∃ u, exec (.peerUp t r chip seq) s = .next u ∧ resultIs 0x070010 r 0 u ∧ chip ∉ u.sync.down ∧
      tfind (2 * chip.toNat) u.sync.advice = some seq ∧ onlyChanges [.now, .cfg, .sync] s u)

/-- R210, R220, R332, R331, R352, R358, R363: the commands on seals, work lists, forced objects and barrier contexts. -/
def Obligations.SyncUnitCommands : Prop :=
  (∀ (s : State) (t : Nat) (r : Requester) (ctx : CtxId) (x : Ctx) (e : SealEntry), callerOff s = false → r = .host ∨ r = .ccp →
    ctx ≠ 0 → runningCtx s ctx.toNat = some x → rearmBusy x = false → sealEntryOf s ctx.toNat = some e →
    ∃ (u : State) (y : Ctx), exec (.sealRearm t r (BitVec.ofNat 32 (2 ^ 30 + ctx.toNat))) s = .next u ∧ resultIs 0x040010 r 0 u ∧
      runningCtx u ctx.toNat = some y ∧ y.incidents = [] ∧ y.requests = [] ∧ y.sealed = (object s e.object).value.toNat ∧
      y.nextReq = y.sealed ∧ (containment u ctx.toNat).entry.tc = none) ∧
  (∀ (s : State) (t : Nat) (r : Requester) (ring : Fin 2) (v : DWord), callerOff s = false → r = .host ∨ r = .ccp →
    wlOn s ring.val = false →
    ∃ u, exec (.workListConfigWrite t r ring v) s = .next u ∧ onlyChanges [.now, .sync] s u ∧
      tget 0 ring.val u.sync.wl = BitVec.ofNat 64 (v.toNat / 256 * 256 + v.toNat % 2) ∧
      (v.getLsbD 0 = true ↔ (tfind ring.val u.sync.mon).isSome = true)) ∧
  (∀ (s : State) (t : Nat) (v : Word), callerOff s = false → s.cfg.hostGen = 1 → v.getLsbD 31 = true → s.tab.state = 2 →
    (bankCore s (v.toNat % 8192)).isSome = true →
    ∃ u, exec (.g1ForceGo t v) s = .next u ∧ u.cfg.g1Applied = true ∧
      (object u (v.toNat % 8192)).value = (if v.getLsbD 16 then 1 else 0)) ∧
  (∀ (s : State) (t : Nat) (v : Word), callerOff s = false → s.cfg.hostGen = 1 → v.getLsbD 31 = true → s.tab.state ≠ 2 →
    ∃ u, exec (.g1ForceGo t v) s = .next u ∧ u.cfg.g1Applied = false ∧ u.sync = s.sync) ∧
  (∀ (s : State) (t : Nat) (r : Requester) (b : Byte), callerOff s = false → r = .host ∨ r = .ccp → s.led.state = 1 →
    (barrier s b.toNat).state = 0 →
    let d := memRead s ((tget 0 (reqCode r) s.cfg.barAddr : DWord).toNat / 64 * 64) 576
    let ctx := fieldLe 0 2 d % 4096
    descFieldsOk d = true → (runningCtx s ctx).isSome = true → descValid s ctx d = true →
    ∃ u, exec (.barrierArm t r b) s = .next u ∧ resultIs 0x230018 r 0 u ∧ (barrier u b.toNat).state = 1 ∧
      (barrier u b.toNat).ctx.toNat = ctx ∧ (barrier u b.toNat).gen = 0 ∧ (barrier u b.toNat).arrived = 0 ∧
      (barrier u b.toNat).mask = descMask d ∧ onlyChanges [.now, .cfg, .sync] s u) ∧
  (∀ (s : State) (t : Nat) (r : Requester) (b : Byte), callerOff s = false → r = .host ∨ r = .ccp →
    ∃ u, exec (.barrierDisarm t r b) s = .next u ∧ onlyChanges [.now, .cfg, .sync] s u ∧
      ((barrier s b.toNat).waiters = [] → resultIs 0x230018 r 0 u ∧ barrier u b.toNat = {}) ∧
      ((barrier s b.toNat).waiters ≠ [] → resultIs 0x230018 r 1 u ∧ u.sync = s.sync))

/-- R15, R505 to R507: every write is dropped while the caller is in reset or the chip has halted; a 64-bit register takes a
wide write at once, and the two words of a split one together; a command register acts as the command of its row. -/
def Obligations.RegisterWrites : Prop :=
  (∀ (s : State) (t : Nat) (r : Requester) (o : Fin 0x400000) (wide : Bool) (v : DWord), callerOff s = true →
    exec (.registerWrite t r o wide v) s = .next (atTime t s)) ∧
  (∀ (s : State) (t : Nat) (r : Requester) (v : DWord), callerOff s = false → r = .host ∨ r = .ccp →
    ∃ u, exec (.registerWrite t r 0x000000 true v) s = .next u ∧ u.cfg.charterAddr.toNat = v.toNat / 4096 * 4096 ∧
      onlyChanges [.now, .cfg] s u) ∧
  (∀ (s : State) (t t' : Nat) (r : Requester) (lo hi : DWord), callerOff s = false → r = .host ∨ r = .ccp →
    ∃ u w, exec (.registerWrite t r 0x0B0010 false lo) s = .next u ∧ u.trace = s.trace ∧
      exec (.registerWrite t' r 0x0B0014 false hi) u = .next w ∧
      w.trace.snapAt.toNat = lo.toNat % 2 ^ 32 + hi.toNat % 2 ^ 32 * 2 ^ 32) ∧
  (∀ (s : State) (t : Nat) (r : Requester) (v : DWord), callerOff s = false → r = .host ∨ r = .ccp →
    let w := BitVec.ofNat 32 v.toNat
    exec (.registerWrite t r 0x000008 false v) s = exec (.charterLoadGo t r w) s ∧
    exec (.registerWrite t r 0x000020 false v) s = exec (.hostGenOffer t r w) s ∧
    exec (.registerWrite t r 0x000040 false v) s = exec (.shadowWrite t r 0x40 w) s ∧
    exec (.registerWrite t r 0x040010 false v) s = exec (.sealRearm t r w) s ∧
    exec (.registerWrite t r 0x070000 false v) s = exec (.resetRequest t r w) s ∧
    exec (.registerWrite t r 0x080008 false v) s = exec (.memtrainDone t r w) s ∧
    exec (.registerWrite t r 0x08000C false v) s = exec (.shutdown t r w) s ∧
    exec (.registerWrite t r 0x080010 false v) s = exec (.otpProgram t r w) s ∧
    exec (.registerWrite t r 0x0B0024 false v) s = exec (.traceBufRdWrite t r w) s)

/-- R121 to R126: a tap link settles the highest version of the offer at or above TAP_FLOOR, or none; the station takes the
epoch in force; READY follows once a version is settled. -/
def Obligations.TapNegotiation : Prop :=
  (∀ (s : State) (t : Nat) (c : Core) (mask : Byte), coreInReset s c.val = false → (station s c.val).tapReady = false →
    s.boot.mapped = false ∨ inService s c.val = false ∨
      (∃ v, 1 ≤ v ∧ v ≤ 3 ∧ s.cfg.floors.1 ≤ v ∧ mask.getLsbD (v - 1) = true) →
    ∃ u, exec (.tapOffer t c mask) s = .next u ∧
      let k := station u c.val
      k.tapOffer = mask ∧ k.tapFloor = s.cfg.floors.1 ∧ k.tapReady = false ∧ k.tapVer ≤ 3 ∧
      (k.tapVer ≠ 0 → mask.getLsbD (k.tapVer - 1) = true ∧ s.cfg.floors.1 ≤ k.tapVer) ∧
      (∀ v, 1 ≤ v → v ≤ 3 → mask.getLsbD (v - 1) = true → s.cfg.floors.1 ≤ v → v ≤ k.tapVer) ∧
      (clusterInReset s (c.val / 16) = false → k.epoch = s.cfg.epoch) ∧
      records 0xA006 (BitVec.ofNat 16 c.val) 1 c.val (k.tapVer + 256 * s.cfg.floors.1) s u ∧ otherStations c.val s u) ∧
  (∀ (s : State) (t : Nat) (c : Core), coreInReset s c.val = false → (station s c.val).tapVer ≠ 0 →
    (station s c.val).tapSettled = true →
    ∃ u, exec (.tapReady t c) s = .next u ∧ station u c.val = { station s c.val with tapReady := true } ∧
      otherStations c.val s u ∧ onlyChanges [.now, .stations] s u)

/-- R29, R108 to R110, R115, R229, R525: an operation of the job that starts becomes a CU with the next tag, in the epoch
and context of its core, stamped by its cluster's replica; the OP_STARTs of one core cycle take their numbers in ascending
queue order; one that starts after an error of its queue that no operation could be named for is waived (log entry 157). An
operation that the caller inserts, which its INSERTED bit or the caller's notice says, is none and has no tag; it has the
descriptor fields that the notice gives. A failed issue halts its queue and is recorded. -/
def Obligations.OperationsStart : Prop :=
  (∀ (s : State) (t : Nat) (c : Core) (stamp : Stamp) (fill : Nat) (o : OpStart), isInserted (station s c.val) o = false →
    let start := min stamp.time (coreTime (atTime t s) c.val)
    let number := takeNumber stamp.together o.queue (station s c.val)
    let tag := BitVec.ofNat 32 (c.val * 2 ^ 24 + number.1)
    fill < 64 → canStartAt s c.val o.queue.val start = true →
    (∀ x ∈ (station s c.val).cus, x.inserted = false → x.tag ≠ tag) →
    ∃ u, exec (.opStart t ⟨c, fill, none⟩ stamp o) s = .next u ∧
      (station u c.val).seq = number.2.seq ∧ (queueOf u c.val o.queue.val).halted = false ∧
      (queueOf u c.val o.queue.val).nextOpid = o.opid + 1 ∧
      (queueOf u c.val o.queue.val).step = (queueOf s c.val o.queue.val).step + (if o.mode.getLsbD 7 then 1 else 0) ∧
      ∃ k ∈ (station u c.val).cus, k.op = o ∧ k.inserted = false ∧ k.start = start ∧ k.tag = tag ∧ k.epoch = (station s c.val).epoch ∧
        k.ctx = BitVec.ofNat 12 (ctxOfCore s c.val) ∧ k.step = (queueOf s c.val o.queue.val).step ∧ k.retire = none ∧
        (startBreach o = true ∨ opidBreach (station s c.val) o = true ∨ (queueOf s c.val o.queue.val).gapOpen = true → k.gap = 3)) ∧
  (∀ (k : Station) (q : Queue), k.cycle = (0, 0) → (takeNumber 0 q k).1 = k.seq % 2 ^ 24 ∧
    (takeNumber 0 q k).2 = { k with seq := (k.seq % 2 ^ 24 + 1) % 2 ^ 24 }) ∧
  (∀ (k : Station) (m : BitVec 4) (q r : Queue), k.cycle = (0, 0) → q ≠ r → m.getLsbD q.val = true → m.getLsbD r.val = true →
    (takeNumber m q k).1 = (k.seq + queuesIn m q.val) % 2 ^ 24 ∧
    (takeNumber m r (takeNumber m q k).2).1 = (k.seq + queuesIn m r.val) % 2 ^ 24) ∧
  (∀ (s : State) (t : Nat) (c : Core) (stamp : Stamp) (fill : Nat) (o : OpStart), isInserted (station s c.val) o = true →
    let start := min stamp.time (coreTime (atTime t s) c.val)
    let n := noticeFor (station s c.val) o.queue
    fill < 64 → inService s c.val = true → coreInReset s c.val = false → s.tab.state = 0 → (station s c.val).tapReady = true →
    (∀ x ∈ (station s c.val).cus, x.inserted = true → x.op.queue = o.queue → x.start ≠ start) →
    ∃ u k, exec (.opStart t ⟨c, fill, none⟩ stamp o) s = .next u ∧ (station u c.val).cus = (station s c.val).cus ++ [k] ∧
      (n.bind (·.op) = none → k.op = o) ∧
      (∀ x, n.bind (·.op) = some x → k.op = { x with queue := o.queue, opid := o.opid, inserted := true }) ∧
      k.inserted = true ∧ k.tag = 0 ∧ k.start = start ∧
      (k.use = if (station s c.val).reh.rehMode then .kit else (n.map (·.use)).getD .copy) ∧
      (∀ x, n = some x → (station u c.val).notices = (station s c.val).notices.erase x) ∧
      (station u c.val).seq = (station s c.val).seq ∧ otherStations c.val s u) ∧
  (∀ (s : State) (t : Nat) (c : Core) (q : Queue) (opid : BitVec 16) (cause : BitVec 4),
    canStartAt s c.val q.val (timeAt t s) = true → 1 ≤ cause.toNat → cause.toNat ≤ 5 →
    ∃ u, exec (.issueFail t c q opid cause) s = .next u ∧ (queueOf u c.val q.val).halted = true ∧
      (queueOf u c.val q.val).nextOpid = opid + 1 ∧
      records 0x7007 (BitVec.ofNat 16 c.val) (c.val + 256 * q.val + 65536 * opid.toNat) cause.toNat 0 s u)

/-- R102, R105, R106, R118: records about an operation in flight join it: a descriptor of a role that it has and whose range
is not yet given, before its first beat, a completed write, and, under T3, the transfer that feeds a matrix operation; a
descriptor that breaks those rules is a tap gap of the operation. -/
def Obligations.OperationRecords : Prop :=
  (∀ (s : State) (t : Nat) (c : Core) (q : Queue) (opid : BitVec 16) (d : OpDesc) (fill : Nat) (k : Cu), fill < 64 →
    hears s c.val (recordPort q.val false) = true → 2 ≤ (station s c.val).tapVer → opOf s c.val q opid = some k →
    (roleFits k.op d.role.toNat = true → d.res ≠ 3 → k.phase = 0 → (∀ x ∈ k.descs, x.role ≠ d.role) →
      kitRangeBad s c.val k d = false →
      ∃ u, exec (.opdesc t ⟨c, fill⟩ q opid d) s = .next u ∧ opOf u c.val q opid = some { k with descs := k.descs ++ [d] } ∧
        otherStations c.val s u ∧ onlyChanges [.now, .stations] s u) ∧
    (roleFits k.op d.role.toNat = false ∨ d.res = 3 ∨ k.phase ≠ 0 ∨ (∃ x ∈ k.descs, x.role = d.role) → k.inserted = false →
      k.gap = 0 → k.verdict = none → k.reprise = false → k.pending = false →
      ∃ u, exec (.opdesc t ⟨c, fill⟩ q opid d) s = .next u ∧ opOf u c.val q opid = some { k with gap := 3 } ∧
        records 0x1011 (BitVec.ofNat 16 c.val) k.tag.toNat (recordPort q.val false + 48) 0 s u)) ∧
  (∀ (s : State) (t : Nat) (c : Core) (q : Queue) (opid : BitVec 16) (crc : Word) (valid : Bool) (bytes : Word) (fill : Nat) (k : Cu),
    fill < 64 → hears s c.val (recordPort q.val true) = true → 2 ≤ (station s c.val).tapVer → 2 ≤ q.val →
    opOf s c.val q opid = some k →
    ∃ u, exec (.writeDone t ⟨c, fill, none⟩ q opid crc valid bytes) s = .next u ∧
      opOf u c.val q opid = some { k with writes := k.writes ++ [(crc, valid, bytes.toNat)] } ∧ otherStations c.val s u) ∧
  (∀ (s : State) (t : Nat) (c : Core) (q : Queue) (opid fed : BitVec 16) (role : Byte) (fill : Nat) (k : Cu), fill < 64 →
    hears s c.val (recordPort q.val true) = true → (station s c.val).tapVer = 3 → 2 ≤ q.val → role.toNat ≤ 2 →
    opOf s c.val q opid = some k →
    ∃ u, exec (.feed t ⟨c, fill⟩ q opid fed role) s = .next u ∧
      (station u c.val).feeds = (station s c.val).feeds ++ [{ fed := fed, queue := q, opid := opid, sources := k.descs.filter (·.role == 0) }] ∧
      otherStations c.val s u ∧ onlyChanges [.now, .stations] s u)

/-- R63, R94, R99, R107, R113 to R115: a sound beat of a mover port is counted and its sectors land with their poison marks
in the scratchpad range that the operation writes; a beat with bad parity, or one that finds the FIFO full, or a SCALE beat
after data, is a tap gap of its CU and does nothing else to it. R63, R94, R113 to R115, R118, R119, R227: the sectors of a
beat that another agent writes land in the scratchpad, or are held while a pin covers them; one for the understudy region
that no caller mover sends is refused; the FIFO of the INB port can overflow, a tap gap of no CU. -/
def Obligations.DataArrives : Prop :=
  (∀ (s : State) (t : Nat) (c : Core) (b : Beat) (fill : Nat) (lost : Bool) (k : Cu) (d : OpDesc), hears s c.val 4 = true → fill < 64 →
    beatParityOk b = true → beatOwner s c.val 4 b = some k → only k (station s c.val) →
    orderBreach (station s c.val).tapVer 4 b k = false →
    (k.descs.find? fun d => (d.role == 3 || d.role == 4) && decide (d.res.toNat ≤ 1)) = some d →
    ∃ u, exec (.tapDataBeat t c 4 (.beat b) fill none lost) s = .next u ∧
      (∃ x ∈ (station u c.val).cus, x.op = k.op ∧ x.start = k.start ∧ x.gap = k.gap ∧
        x.beats = k.beats + b2n (laneAt b 0).valid + b2n (laneAt b 1).valid) ∧
      (∀ i j, i < 2 → (laneAt b i).valid = true → j < 64 →
        tget 0 (spadOffset d.addr + 64 * (b.offset.toNat + i) + j) (station u c.val).spad =
          (sectorBytes (laneAt b i).data).getD j 0) ∧
      (∀ i, i < 2 → (laneAt b i).valid = true → spadOffset d.addr % 64 = 0 →
        tget false (spadOffset d.addr / 64 + b.offset.toNat + i) (station u c.val).spadPoison = (laneAt b i).poison) ∧
      otherStations c.val s u) ∧
  (∀ (s : State) (t : Nat) (c : Core) (b : Beat) (fill : Nat) (lost : Bool) (k : Cu), hears s c.val 0 = true → fill < 64 →
    beatParityOk b = true → beatOwner s c.val 0 b = some k → only k (station s c.val) →
    orderBreach (station s c.val).tapVer 0 b k = false → b.kind.val = 0 →
    ∃ u, exec (.tapDataBeat t c 0 (.beat b) fill none lost) s = .next u ∧
      ∃ x ∈ (station u c.val).cus, x.op = k.op ∧ x.start = k.start ∧ x.beats = k.beats + 1 ∧ x.gap = k.gap ∧ x.phase = 2 ∧
        x.poison = (k.poison || decide (0 < poisonLanes (station s c.val).tapVer b))) ∧
  (∀ (s : State) (t : Nat) (c : Core) (p : Fin 6) (b : Beat) (fill : Nat) (lost : Bool) (k : Cu), hears s c.val p.val = true →
    beatOwner s c.val p.val b = some k → only k (station s c.val) → k.inserted = false → k.gap = 0 → k.pending = false →
    k.reprise = false →
    (fill < 64 → beatParityOk b = false →
      ∃ u, exec (.tapDataBeat t c p (.beat b) fill none lost) s = .next u ∧ counted 0x1011 s u ∧
        ∃ x ∈ (station u c.val).cus, x = { k with gap := 2 }) ∧
    (64 ≤ fill → (∃ x ∈ (station s c.val).slots, 0xFF < x.2.fig.id) →
      ∃ u, exec (.tapDataBeat t c p (.beat b) fill none lost) s = .next u ∧ counted 0x1011 s u ∧
        ∃ x ∈ (station u c.val).cus, x = { k with gap := 1 }) ∧
    (fill < 64 → beatParityOk b = true → p.val = 0 → b.kind.val = 1 → k.phase = 2 →
      ∃ u, exec (.tapDataBeat t c p (.beat b) fill none lost) s = .next u ∧ counted 0x1011 s u ∧
        ∃ x ∈ (station u c.val).cus, x = { k with gap := 3 })) ∧
  (∀ (s : State) (t : Nat) (c src : Core) (addr : BitVec 21) (chip : ChipId) (opid : BitVec 16) (lanes : List Lane) (fill : Nat)
    (caller : Bool),
    let at_ := fun (i : Nat) => (addr.toNat / 64 * 64 + 64 * i) % 2 ^ 21
    let bears := fun (i : Nat) => ∃ l, lanes[i]? = some l ∧ l.valid = true
    let allowed := ∀ i, i < 2 → bears i → inRegion (at_ i) 64 = false ∨ caller = true
    ((∀ l, lanes = [l] → l.valid = true → inRegion (at_ 0) 64 = true → caller = false →
      ∃ u, exec (.inbBeat t ⟨c, fill⟩ addr chip src opid lanes caller) s = .next u ∧
        u.out.refused = (c.val, src.val, opid.toNat) :: s.out.refused ∧
        (chip ≠ s.boot.chip → fill < 64 → (station u c.val).spad = (station s c.val).spad)) ∧
      (allowed → fill < 64 → (∀ i, i < 2 → bears i → pinAt (station s c.val) (at_ i) = none) →
        ∃ u, exec (.inbBeat t ⟨c, fill⟩ addr chip src opid lanes caller) s = .next u ∧
          (∀ i j l, i < 2 → lanes[i]? = some l → l.valid = true → j < 64 →
            tget 0 (at_ i + j) (station u c.val).spad = (sectorBytes l.data).getD j 0) ∧
          (∀ i l, i < 2 → lanes[i]? = some l → l.valid = true →
            tget false (at_ i / 64) (station u c.val).spadPoison = l.poison) ∧
          (∀ x, (∀ i, i < 2 → bears i → x < at_ i ∨ at_ i + 64 ≤ x) →
            tget 0 x (station u c.val).spad = tget 0 x (station s c.val).spad) ∧
          (chip ≠ s.boot.chip → otherStations c.val s u) ∧
          (hears s c.val 6 = false ∨ lanesParityOk lanes = true → onlyChanges [.now, .stations] s u)) ∧
      (∀ l i p, lanes = [l] → l.valid = true → allowed → fill < 64 → pinAt (station s c.val) (at_ 0) = some (i, p) →
        ∃ u, exec (.inbBeat t ⟨c, fill⟩ addr chip src opid lanes caller) s = .next u ∧
          (station u c.val).spad = (station s c.val).spad ∧
          (station u c.val).heldWrites = (station s c.val).heldWrites ++
            [{ addr := BitVec.ofNat 21 (at_ 0), data := l.data, poison := l.poison, chip := chip, core := src, opid := opid }] ∧
          ∀ k x, tfind k (station s c.val).pins = some x → tfind k (station u c.val).pins = some { x with
            held := ((station u c.val).heldWrites.filter fun w => x.ranges.any (meets w.addr.toNat)).length }) ∧
      (allowed → hears s c.val 6 = true → 64 ≤ fill → (∃ x ∈ (station s c.val).slots, 0xFF < x.2.fig.id) →
        ∃ u, exec (.inbBeat t ⟨c, fill⟩ addr chip src opid lanes caller) s = .next u ∧
          records 0x1011 (BitVec.ofNat 16 c.val) 0 (6 + 16 * 1) 1 s u ∧
          (station u c.val).fifoPeak = max (station s c.val).fifoPeak 15)))

/-- R106, R107, R110, R112, R188: a job operation that retires in its order is counted, moves its queue on, and enters the
pending list unless it already has its verdict; one that retires early, or before its last result beat, is waived; an
OP_ABANDON of no operation is a tap gap unless the complex abandoned the operation itself; a copy or a kit's operation that
retires is gone and counts nothing; one that is abandoned leaves the station without a verdict. -/
def Obligations.OperationsEnd : Prop :=
  (∀ (s : State) (t : Nat) (c : Core) (q : Queue) (opid : BitVec 16) (at_ : Nat) (sectors : Word) (poisoned : BitVec 16) (fill : Nat)
    (k : Cu), fill < 64 → clusterInReset s (c.val / 16) = false → (station s c.val).tapReady = true → s.tab.state = 0 →
    opOf s c.val q opid = some k → retireBreach (station s c.val).tapVer k sectors.toNat = false → retiresEarly (station s c.val) k = false →
    only k (station s c.val) → k.inserted = false → (∀ x ∈ (station s c.val).cus, x.tag = k.tag → x = k) → k.gap = 0 →
    k.waive = 0 → k.poison = false → k.reprise = false → k.pending = false → pendingCount (station s c.val) < 128 →
    ∃ u, exec (.opRetire t ⟨c, fill, none⟩ q opid at_ sectors poisoned) s = .next u ∧ (queueOf u c.val q.val).lastOpid = opid ∧
      (queueOf u c.val q.val).gapOpen = false ∧
      (q.val = 0 → u.led.mt = satAdd (2 ^ 64 - 1) s.led.mt (16384 * k.op.len.toNat)) ∧
      (q.val = 1 → u.led.vt = satAdd 0xFFFFFFFF s.led.vt 1) ∧
      ∃ x ∈ (station u c.val).cus, x.op = k.op ∧ x.tag = k.tag ∧ x.pending = true ∧ x.verdict = k.verdict ∧
        x.retire = some (max k.start (min at_ (coreTime (atTime t s) c.val)))) ∧
  (∀ (s : State) (t : Nat) (c : Core) (q : Queue) (opid : BitVec 16) (at_ : Nat) (sectors : Word) (poisoned : BitVec 16) (fill : Nat)
    (k : Cu), fill < 64 → clusterInReset s (c.val / 16) = false → (station s c.val).tapReady = true →
    opOf s c.val q opid = some k → retireBreach (station s c.val).tapVer k sectors.toNat = true ∨ retiresEarly (station s c.val) k = true →
    only k (station s c.val) → k.inserted = false → k.gap = 0 → k.verdict = none → k.poison = false → k.reprise = false →
    k.pending = false →
    ∃ u, exec (.opRetire t ⟨c, fill, none⟩ q opid at_ sectors poisoned) s = .next u ∧ counted 0x1011 s u ∧
      (station u c.val).gaps = satAdd 255 (station s c.val).gaps 1 ∧
      ∀ x ∈ (station u c.val).cus, ¬ (x.tag = k.tag ∧ x.retire.isSome = true ∧ x.inserted = false)) ∧
  (∀ (s : State) (t : Nat) (c : Core) (q : Queue) (opid : BitVec 16) (at_ : Nat) (sectors : Word) (poisoned : BitVec 16) (fill : Nat)
    (k : Cu), fill < 64 → clusterInReset s (c.val / 16) = false → (station s c.val).tapReady = true → opOf s c.val q opid = some k →
    k.inserted = true → only k (station s c.val) → k.use = .copy ∨ k.use = .kit →
    ∃ u, exec (.opRetire t ⟨c, fill, none⟩ q opid at_ sectors poisoned) s = .next u ∧
      (station u c.val).cus = (station s c.val).cus.filter (fun x => !sameCu k x) ∧ u.led = s.led) ∧
  (∀ (s : State) (t : Nat) (c : Core) (q : Queue) (opid : BitVec 16) (cause : Byte) (fill : Nat) (k : Cu), fill < 64 →
    opOf s c.val q opid = some k → k.inserted = false ∨ k.use = .copy ∨ k.use = .kit →
    ∃ u, exec (.opAbandon t ⟨c, fill⟩ q opid cause) s = .next u ∧ (k.wrote = [] → otherStations c.val s u) ∧
      (∀ x ∈ (station u c.val).cus, ¬ (x.op.queue = q ∧ x.op.opid = opid ∧ x.start = k.start ∧ x.retire = none)) ∧
      (∀ x ∈ (station s c.val).cus, x.op.queue ≠ q → x.inserted = true → x ∈ (station u c.val).cus) ∧
      (station u c.val).counters = (station s c.val).counters) ∧
  (∀ (s : State) (t : Nat) (c : Core) (q : Queue) (opid : BitVec 16) (cause : Byte) (fill : Nat), fill < 64 →
    opOf s c.val q opid = none → (station s c.val).abandoned.contains (q, opid) = true →
    ∃ u, exec (.opAbandon t ⟨c, fill⟩ q opid cause) s = .next u ∧ onlyChanges [.now, .stations] s u ∧
      (station u c.val).cus = (station s c.val).cus) ∧
  (∀ (s : State) (t : Nat) (c : Core) (q : Queue) (opid : BitVec 16) (cause : Byte) (fill : Nat), fill < 64 →
    opOf s c.val q opid = none → (station s c.val).abandoned.contains (q, opid) = false →
    hears s c.val (recordPort q.val true) = true → (∀ x ∈ (station s c.val).cus, x.op.queue = q → x.retire.isSome = true) →
    ∃ u, exec (.opAbandon t ⟨c, fill⟩ q opid cause) s = .next u ∧ (queueOf u c.val q.val).gapOpen = true ∧
      records 0x1011 (BitVec.ofNat 16 c.val) 0 (recordPort q.val true + 16 * 3 + 256 * 4 + 65536 * opid.toNat) 0 s u)

/-- R186, R188, R191: the verdict of a pending CU is written to PHL_ST_VHIST with its kind; one that waits longer than 180
core cycles is recorded once as VERDICT_LATE; at 1,024 the station forces FAIL. -/
def Obligations.VerdictsGiven : Prop :=
  (∀ (s : State) (t : Nat) (c : Core) (tag : Word) (cycles : Nat) (k : Cu), awaiting s c.val tag = some k → cycles ≤ 180 →
    let kind := (verdictKind k (outcomesOf (station s c.val) k)).1
    ∃ u, exec (.verdictGiven t c tag cycles) s = .next u ∧
      let r : VRec := tget {} (tag.toNat % 64) (station u c.val).vhist
      r.tag = tag ∧ r.kind.toNat % 4 = kind ∧ r.latency = BitVec.ofNat 16 cycles ∧
      (kind = 0 → (domain u (c.val / 16)).passes = (domain s (c.val / 16)).passes + 1) ∧
      (kind = 1 → s.adj.slots.length < 8 ∨ s.adj.queue.length < 64 → ∃ a ∈ openAdjs u, a.core = c ∧ a.tag = tag ∧ a.opening ≤ 1)) ∧
  (∀ (s : State) (t : Nat) (c : Core) (tag : Word) (cycles : Nat) (k : Cu), awaiting s c.val tag = some k → 180 ≤ cycles →
    k.late = false →
    ∃ u, exec (.verdictLate t c tag cycles) s = .next u ∧ counted 0x1010 s u ∧
      ∃ x ∈ (station u c.val).cus, x.op = k.op ∧ x.tag = tag ∧ x.late = true ∧ x.verdict = none) ∧
  (∀ (s : State) (t : Nat) (c : Core) (tag : Word) (cycles : Nat) (k : Cu), awaiting s c.val tag = some k → 1024 ≤ cycles →
    k.poison = false → k.gap = 0 → k.waive = 0 →
    ∃ u, exec (.verdictForcedFail t c tag cycles) s = .next u ∧
      let r : VRec := tget {} (tag.toNat % 64) (station u c.val).vhist
      r.tag = tag ∧ r.kind.toNat % 4 = 1 ∧ r.kind.getLsbD 7 = true ∧ r.latency = BitVec.ofNat 16 (min 0xFFFF cycles))

/-- R160 to R162, R117: a pattern or an injection that the cells do not answer as they must is a self-check failure, which
puts the cell to its retest; a retest that passes three times clears it, any other marks it faulty; a stopped core is one
with STOP asserted and nothing in flight or blocked in a wait. -/
def Obligations.SelfChecks : Prop :=
  (∀ (s : State) (t : Nat) (c : Core) (cell : ResFault), clusterInReset s (c.val / 16) = false →
    (∃ u, exec (.stationPatternRun t c cell false) s = .next u ∧ counted 0x1003 s u ∧
      (station u c.val).selfFails = satAdd 0xFFFF (station s c.val).selfFails 1 ∧
      (station u c.val).retests = (station s c.val).retests ++ [cellKey cell.ctype.val cell.index.val]) ∧
    (∃ u, exec (.selfcheckInjection t c cell false) s = .next u ∧ counted 0x1003 s u ∧
      (station u c.val).selfFails = satAdd 0xFFFF (station s c.val).selfFails 1 ∧
      (station u c.val).retests = (station s c.val).retests ++ [cellKey cell.ctype.val cell.index.val])) ∧
  (∀ (s : State) (t : Nat) (c : Core) (cell : ResFault),
    exec (.stationPatternRun t c cell true) s = .next (atTime t s) ∧
    exec (.selfcheckInjection t c cell true) s = .next (atTime t s)) ∧
  (∀ (s : State) (t : Nat) (c : Core) (passes : Fin 4) (key : Nat) (rest : List Nat), (station s c.val).retests = key :: rest →
    ∃ u, exec (.selfcheckRetestDone t c passes) s = .next u ∧
      (passes.val = 3 → station u c.val = { station s c.val with retests := rest } ∧ onlyChanges [.now, .stations] s u) ∧
      (passes.val ≠ 3 → key ∈ (station u c.val).faulty)) ∧
  (∀ (s : State) (t : Nat) (c : Core), (station s c.val).stopReq = true → (∀ k ∈ (station s c.val).cus, k.retire.isSome = true) →
    (∀ x ∈ (station s c.val).queues, x.2.wait = none) →
    (∀ i a, tfind i s.adj.slots = some a → a.core = c → a.queue.val = 0 → a.needH = true → a.hOut.isSome ∨ a.closing.isSome) →
    ∃ u, exec (.coreStopped t c) s = .next u ∧ station u c.val = { station s c.val with stopped := true } ∧
      otherStations c.val s u ∧ onlyChanges [.now, .stations] s u) ∧
  (∀ (s : State) (t : Nat) (c : Core), (station s c.val).stopReq = false ∨ queuesIdle (station s c.val) = false →
    exec (.coreStopped t c) s = .next (atTime t s))

/-- R237 to R239, R242, R244: an adjudication of a FAIL. An execution ends when its operation retires, with the results that
its station took. The first outcome waits for the second. When both understudies have run and neither fails its own check,
predictions that differ between them give class 4 (INPUT), a result in the band of predictions that agree gives class 3
(FALSE_ALARM); 5 ms in the slot give class 5 (UNRESOLVED). Each closing is recorded. -/
def Obligations.AdjudicationDecides : Prop :=
  (∀ (s : State) (t : Nat) (d core : Core) (q : Queue) (opid : BitVec 16) (at_ : Nat) (sectors tag : Word) (poisoned : BitVec 16)
    (fill start i : Nat) (m : Bool) (w : ExecName) (k : Cu) (a : Adj), fill < 64 → clusterInReset s (d.val / 16) = false →
    (station s d.val).tapReady = true → opOf s d.val q opid = some k → only k (station s d.val) → k.inserted = true → q.val ≤ 1 →
    k.use = .exec core tag start m w → adjSlotOf s core tag start m = some i → tfind i s.adj.slots = some a → a.queue.val ≤ 1 →
    ∃ u b o, exec (.opRetire t ⟨d, fill, none⟩ q opid at_ sectors poisoned) s = .next u ∧ tfind i u.adj.slots = some b ∧
      b.runs = (w, o) :: a.runs.filter (fun x => x.1 != w) ∧ o.gave = true ∧ o.results = tgets 0 0 (64 * k.resSectors) k.got ∧
      b.uOut = a.uOut ∧ b.vOut = a.vOut ∧ b.hOut = a.hOut) ∧
  (∀ (s : State) (t : Nat) (i : Fin 8) (out : ExecOutcome) (a : Adj) (cu cv : Core), callerOff s = false →
    tfind i.val s.adj.slots = some a → a.closing = none → a.u = some cu → a.v = some cv → cu ≠ cv → a.uOut = none → a.vOut = none →
    outcomeOfExec a .u true = some out → out.gave = true →
    ∃ u, exec (.adjExecutionOutcome t i .u true) s = .next u ∧ tfind i.val u.adj.slots = some { a with uOut := some out } ∧
      onlyChanges [.now, .adj] s u) ∧
  (∀ (s : State) (t : Nat) (i : Fin 8) (out first : ExecOutcome) (a : Adj) (cu cv : Core), callerOff s = false →
    tfind i.val s.adj.slots = some a → a.closing = none → a.opening ≤ 1 → a.queue.val ≤ 1 → a.u = some cu → a.v = some cv →
    cu ≠ cv → a.uOut = some first → a.vOut = none → outcomeOfExec a .v true = some out → out.gave = true → first.fails = false →
    out.fails = false →
    ∃ u, exec (.adjExecutionOutcome t i .v true) s = .next u ∧
      (predictionsAgree first.quants out.quants = false → u.adj.lastClass = 4 ∧ counted 0x2002 s u ∧ counted 0x2003 s u) ∧
      (predictionsAgree first.quants out.quants = true → predictionsAgree first.quants a.evid = true →
        passesAgainst a.evid first.quants = true → u.adj.lastClass = 3 ∧ counted 0x2002 s u)) ∧
  (∀ (s : State) (t : Nat) (i : Fin 8) (a : Adj), callerOff s = false → s.tab.state = 0 → tfind i.val s.adj.slots = some a →
    a.closing = none → a.slotted + 5000000 ≤ timeAt t s →
    ∃ u, exec (.adjTimeout t i) s = .next u ∧ u.adj.lastClass = 5 ∧ counted 0x2002 s u)

/-- R119, R194, R246: when every gate point has acknowledged a containment, the CUs that waited for it are settled; a pin
held 20 ms is released and recorded. -/
def Obligations.WaitsEnd : Prop :=
  (∀ (s : State) (t : Nat) (ctx : CtxId) (tc : Nat), callerOff s = false → (containment s ctx.toNat).entry.tc = some tc →
    allAcked (containment s ctx.toNat) = true →
    ∃ u, exec (.containmentAcksComplete t ctx) s = .next u ∧ (containment u ctx.toNat).waiting = [] ∧
      (containment u ctx.toNat).entry.tc = some tc ∧
      ∀ x ∈ (containment s ctx.toNat).waiting, ∀ k ∈ (station u x.1).cus,
        ¬ (k.tag = x.2 ∧ k.retire.isSome = true ∧ k.inserted = false)) ∧
  (∀ (s : State) (t : Nat) (c : Core) (e : Fin 4) (p : Pin), s.tab.state = 0 → tfind e.val (station s c.val).pins = some p →
    p.loaded + p.paused + 20000000 ≤ timeAt t s →
    ∃ u, exec (.pinExpired t c e) s = .next u ∧
      counted 0x1013 s u ∧
      ((∀ i a, tfind i s.adj.slots = some a → a.core ≠ c) →
        (∀ x ∈ (station u c.val).pins, ¬ (x.2.tag = p.tag ∧ x.2.loaded = p.loaded)) ∧ otherStations c.val s u ∧
        records 0x1013 (BitVec.ofNat 16 c.val) p.tag.toNat p.held ((timeAt t s - p.loaded) / 1000) s u))

/-- R225, R228 to R231: a capsule is complete once its CU has retired; the oldest complete one is taken for replay by a core
that may serve, with its vector queue empty, or 1 ms after retire with any: its operation, of the original's descriptor
fields, is due in the vector queue, and when it is inserted the sources go into the understudy region first (R89: in the
epoch that the station holds then); a sample without a verdict 1.9 ms after retire, or after two lost attempts, is
abandoned. -/
def Obligations.Replays : Prop :=
  (∀ (s : State) (t : Nat) (c : Core) (tag : Word) (k : Capsule), capsuleOf s c.val tag = some k → k.state = 0 → k.retire ≠ 0 →
    k.verdict = none →
    ∃ u, exec (.capsuleComplete t c tag) s = .next u ∧ capsuleOf u c.val tag = some { k with state := 1 } ∧
      otherStations c.val s u ∧ onlyChanges [.now, .stations, .mem, .memPoison] s u) ∧
  (∀ (s : State) (t : Nat) (c : Core) (tag : Word) (empty : BitVec 256) (k : Capsule), callerOff s = false → s.tab.state = 0 →
    capsuleOf s c.val tag = some k → k.state = 1 → k.verdict = none → replayOf s c.val tag = none → s.adj.replays.length < 64 →
    isNext s k = true → capsuleCrcOk s c.val k = true →
    ((∃ d ∈ replayCores s c.val k.lost, empty.getLsbD d = true ∧ (station s d).reh.rehMode = false) →
      ∃ u r, exec (.replayStart t c tag empty) s = .next u ∧ u.adj.replays = s.adj.replays ++ [r] ∧ r.core = c ∧ r.tag = tag ∧
        r.under.val ∈ replayCores s c.val k.lost ∧ empty.getLsbD r.under.val = true ∧ r.epoch = (station s r.under.val).epoch ∧
        r.began = timeAt t s ∧
        (station u r.under.val).notices = (station s r.under.val).notices ++
          [{ queue := 1, figs := [], use := .replay c tag, op := some k.op }]) ∧
    (replayCores s c.val k.lost ≠ [] → k.limitFrom + 1000000 ≤ timeAt t s →
      ∃ u r, exec (.repriseForce t c tag empty) s = .next u ∧ u.adj.replays = s.adj.replays ++ [r] ∧ r.core = c ∧ r.tag = tag ∧
        r.under.val ∈ replayCores s c.val k.lost ∧ r.epoch = (station s r.under.val).epoch)) ∧
  (∀ (s : State) (t : Nat) (d core : Core) (tag : Word) (stamp : Stamp) (fill : Nat) (o : OpStart) (n : Notice) (k : Capsule),
    fill < 64 → inService s d.val = true → coreInReset s d.val = false → s.tab.state = 0 → (station s d.val).tapReady = true →
    noticeFor (station s d.val) o.queue = some n → n.use = .replay core tag → capsuleOf s core.val tag = some k →
    ∃ u, exec (.opStart t ⟨d, fill, none⟩ stamp o) s = .next u ∧ (station u d.val).reh.stale = true ∧
      (∀ r, replayOf u core.val tag = some r → r.epoch = (station s d.val).epoch) ∧
      ∀ i, i < ((List.range 3).map (capsuleSource s core.val k)).flatten.length →
        tget 0 (regionBase + i) (station u d.val).spad = ((List.range 3).map (capsuleSource s core.val k)).flatten.getD i 0) ∧
  (∀ (s : State) (t : Nat) (c : Core) (tag : Word) (cause : BitVec 4) (k : Capsule), callerOff s = false →
    capsuleOf s c.val tag = some k → k.verdict = none → k.retire ≠ 0 →
    (cause = 2 ∧ s.tab.state = 0 ∧ k.limitFrom + 1900000 ≤ timeAt t s) ∨
      (cause = 4 ∧ 2 ≤ k.attempts ∧ replayOf s c.val tag = none) →
    ∃ u, exec (.repriseAbandon t c tag cause) s = .next u ∧ counted 0x2005 s u ∧
      ∀ x ∈ (station u c.val).capsules, x.tag = tag → x.state ≠ 3 → x.verdict = some 3)

/-- R89, R229, R232 to R234: a replay that retires keeps its results; in the comparison the same results are a MATCH, others
a MISMATCH, which is recorded and opens an adjudication; a replay in another epoch is not compared and is recorded as
EPOCH_STRADDLE. -/
def Obligations.RepriseComparison : Prop :=
  (∀ (s : State) (t : Nat) (d core : Core) (q : Queue) (opid : BitVec 16) (at_ : Nat) (sectors tag : Word) (poisoned : BitVec 16)
    (fill : Nat) (k : Cu) (r : Replay), fill < 64 → clusterInReset s (d.val / 16) = false → (station s d.val).tapReady = true →
    opOf s d.val q opid = some k → only k (station s d.val) → k.inserted = true → q.val ≤ 1 → k.use = .replay core tag →
    replayOf s core.val tag = some r →
    ∃ u, exec (.opRetire t ⟨d, fill, none⟩ q opid at_ sectors poisoned) s = .next u ∧
      replayOf u core.val tag = some { r with results := some (tgets 0 0 (64 * k.resSectors) k.got) }) ∧
  (∀ (s : State) (t redLen : Nat) (c : Core) (tag : Word) (seen results : List Byte) (sums : List Dy) (r : Replay) (k : Capsule),
    callerOff s = false → replayOf s c.val tag = some r → r.results = some results → r.discarded = false →
    capsuleOf s c.val tag = some k → k.verdict = none →
    ∃ u, exec (.repriseCompareDone t c tag seen redLen sums) s = .next u ∧ replayOf u c.val tag = none ∧
      let given := fun (v : Nat) => ∀ x ∈ (station u c.val).capsules, x.tag = tag → x.state ≠ 3 → x.verdict = some v
      let n := capsuleReduction s c.val k
      let same := compareResults k.op n.1 n.2 (capsuleResults s c.val k) results = []
      (r.epoch ≠ k.epoch → given 2 ∧ counted 0xA003 s u ∧ u.led.vc = s.led.vc) ∧
      (r.epoch = k.epoch → same → given 0 ∧ u.led.vc = satAdd 0xFFFFFFFF s.led.vc 1 ∧ u.evt = s.evt) ∧
      (r.epoch = k.epoch → ¬ same → given 1 ∧ u.led.vc = satAdd 0xFFFFFFFF s.led.vc 1 ∧ counted 0x2001 s u ∧
        (s.adj.slots.length < 8 ∨ s.adj.queue.length < 64 →
          ∃ a ∈ openAdjs u, a.core = c ∧ a.tag = tag ∧ a.opening = 2)))

/-- R86, R247, R248, R251 to R253: in a gap that the core leaves a rehearsal starts with the next kit, after its interval,
or a run of the kit that another core's check waits for; its segments follow one another, wait while the core is wanted,
start again when the caller's work has overwritten the kit's data, and its signature, over the bytes of the result ranges in
the scratchpad, is judged; a segment 100 µs over its budget makes the kit invalid. -/
def Obligations.RehearsalRuns : Prop :=
  (∀ (s : State) (t : Nat) (c : Core), gapOpen (atTime t s) c.val = true → (station s c.val).reh.state = 0 →
    (station s c.val).reh.rehMode = false → (station s c.val).reh.sig = none → (station s c.val).reh.recheck = none →
    (∀ k, checkElsewhere s c.val = none → (station s c.val).reh.lastDone + rehInterval s ≤ timeAt t s → nextKit s c.val = some k →
      ∃ u, exec (.rehearsalGapStart t c) s = .next u ∧ otherStations c.val s u ∧ onlyChanges [.now, .stations] s u ∧
        let r := (station u c.val).reh
        r.state = 1 ∧ r.rehMode = true ∧ r.kit = k.id ∧ r.image = some k ∧ r.runFor = none ∧ r.seg = 0 ∧ r.segStart = timeAt t s ∧
        (∀ i, i < k.data.length → tget 0 (0x140000 + i) (station u c.val).spad = k.data.getD i 0)) ∧
    (∀ d k, checkElsewhere s c.val = some (d, k) →
      ∃ u, exec (.rehearsalGapStart t c) s = .next u ∧ otherStations c.val s u ∧
        let r := (station u c.val).reh
        r.rehMode = true ∧ r.kit = k.id ∧ r.runFor = some d ∧ r.seg = 0)) ∧
  (∀ (s : State) (t : Nat) (c : Core) (k : Kit), gapOpen (atTime t s) c.val = true →
    (station s c.val).reh.state = 2 → (station s c.val).reh.rehMode = false → (station s c.val).reh.sig = none →
    (station s c.val).reh.recheck = none → (station s c.val).reh.image = some k → k.id ∉ s.led.badKits →
    ∃ u, exec (.rehearsalGapStart t c) s = .next u ∧ (station u c.val).reh.state = 1 ∧
      (station u c.val).reh.seg = (if (station s c.val).reh.stale then 0 else (station s c.val).reh.seg)) ∧
  (∀ (s : State) (t : Nat) (c : Core) (waits : Bool) (seen : List Byte) (k : Kit), (station s c.val).reh.rehMode = true →
    overBudget (atTime t s) c.val = false → (station s c.val).reh.image = some k →
    let was := (station s c.val).reh
    let bytes := was.bytes ++ segmentResult s c.val
    ∃ u, exec (.rehearsalSegmentEnd t c waits seen) s = .next u ∧ otherStations c.val s u ∧
      let r := (station u c.val).reh
      let wanted := waits = true ∨ (station s c.val).notices ≠ [] ∨ s.boot.shutdown ≠ 0
      let last := k.segs.length ≤ was.seg + 1
      (¬ last → ¬ wanted → was.stale = false →
        r.state = was.state ∧ r.rehMode = true ∧ r.seg = was.seg + 1 ∧ r.segStart = timeAt t s ∧ r.bytes = bytes) ∧
      (¬ last ∧ wanted ∨ was.stale = true → was.recheck = none → r.state = 2 ∧ r.seg = was.seg + 1 ∧ r.rehMode = false ∧
        r.stale = was.stale) ∧
      (was.stale = true → was.recheck ≠ none → r.state = 3 ∧ r.rehMode = false ∧ r.stale = true) ∧
      (last → was.stale = false → was.runFor = none → signature bytes = k.signature →
        r.state = 0 ∧ r.rehMode = false ∧ r.lastKit = k.id ∧ r.lastPass = some (timeAt t s)) ∧
      (last → was.stale = false → was.runFor = none → signature bytes ≠ k.signature →
        r.state = 3 ∧ r.rehMode = false ∧ r.observed = signature bytes ∧ r.recheck = some (timeAt t s)) ∧
      (last → was.stale = false → was.runFor ≠ none → r.rehMode = false ∧ r.sig = some (signature bytes))) ∧
  (∀ (s : State) (t : Nat) (c : Core), overBudget (atTime t s) c.val = true →
    ∃ u, exec (.rehearsalBudgetOverrun t c) s = .next u ∧ (station s c.val).reh.kit ∈ u.led.badKits ∧
      (∀ x, (station s x).reh.kit = (station s c.val).reh.kit → (station u x).reh.state = 0) ∧
      records 0x2012 0x2004 (station s c.val).reh.kit 3 c.val s u)

/-- R249: a rehearsal twice its interval late is recorded once, and the core reads as OVERDUE. -/
def Obligations.RehearsalLateness : Prop :=
  ∀ (s : State) (t : Nat) (c : Core) (k : Kit), callerOff s = false → inService s c.val = true →
    (station s c.val).reh.lateDone = false → (station s c.val).reh.state = 0 → nextKit s c.val = some k →
    (station s c.val).reh.lastDone + 2 * rehInterval s ≤ timeAt t s →
    ∃ u, exec (.rehearsalLate t c) s = .next u ∧
      station u c.val = { station s c.val with reh := { (station s c.val).reh with lateDone := true, overdue := true } } ∧
      otherStations c.val s u ∧
      records 0x2011 0x2004 c.val k.id ((timeAt t s - (station s c.val).reh.lastDone) / second) s u

/-- R253: a failed rehearsal is decided by the signatures of its recheck runs: a pass on the same core is a transient
failure, a pass on a core of another cluster alone a failure that stays, no pass at all an invalid kit; 60 s without a
decision is a failure that stays. -/
def Obligations.RehearsalRechecks : Prop :=
  (∀ (s : State) (t began sig : Nat) (c runner : Core) (seen : DWord) (k : Kit), callerOff s = false → (station s c.val).reh.state = 3 →
    (station s c.val).reh.image = some k → (station s c.val).reh.recheck = some began → timeAt t s < began + 60 * second →
    (station s runner.val).reh.sig = some sig → (station s runner.val).reh.runFor = some c →
    let was := (station s c.val).reh
    ∃ u, exec (.rehearsalRecheckDone t c runner seen) s = .next u ∧ (station u runner.val).reh.sig = none ∧
      (runner = c → sig = k.signature → (station u c.val).reh.state = 0 ∧ (station u c.val).reh.fails = satAdd 255 was.fails 1 ∧
        counted 0x2010 s u) ∧
      (runner ≠ c → was.again = some false → sig = k.signature → (station u c.val).reh.state = 0 ∧ counted 0x2010 s u) ∧
      (runner ≠ c → was.again = some false → sig ≠ k.signature → (station u c.val).reh.state = 0 ∧ k.id ∈ u.led.badKits ∧
        counted 0x2012 s u) ∧
      (runner = c → sig ≠ k.signature → was.other = none →
        (station u c.val).reh = { was with again := some false, runFor := none, sig := none })) ∧
  (∀ (s : State) (t began : Nat) (c : Core) (k : Kit), (station s c.val).reh.state = 3 →
    (station s c.val).reh.image = some k → (station s c.val).reh.recheck = some began → began + 60 * second ≤ timeAt t s →
    ∃ u, exec (.rehearsalRecheckTimeout t c) s = .next u ∧ (station u c.val).reh.state = 0 ∧
      (station u c.val).reh.fails = satAdd 255 (station s c.val).reh.fails 1 ∧ counted 0x2010 s u)

/-- R29 to R31: a cluster forwards the least horizon of its stations, each the earliest retire time that is pending or the
value of the cluster's timebase replica, and never less than before. R29 to R31, R217: what HORIZON_FORWARD, VH_BROADCAST
and VH_STALL do: the least horizon of a cluster's stations becomes its value, the least of the clusters' values becomes VH
when it is later, and 1 ms without an advance is recorded once. -/
def Obligations.HorizonCommands : Prop :=
  (∀ (s : State) (t : Nat) (cl : Cluster) (lag : Fin 3), callerOff s = false → clusterInReset s cl.val = false → s.tab.state < 4 →
    ∃ u, exec (.horizonForward t cl lag) s = .next u ∧ onlyChanges [.now, .stations, .hz] s u ∧
      (∀ c, c / 16 = cl.val →
        let h := (earliest (pendingRetires (station s c))).getD (timeAt t s - tget 0 cl.val s.replicas)
        station u c = { station s c with horizon := max (station s c).horizon h }) ∧
      (∀ c, c / 16 ≠ cl.val → station u c = station s c) ∧
      (∀ k, k ≠ cl.val → tget 0 k u.hz.clusters = tget 0 k s.hz.clusters) ∧
      tget 0 cl.val s.hz.clusters ≤ tget 0 cl.val u.hz.clusters ∧
      (tget 0 cl.val s.hz.clusters < tget 0 cl.val u.hz.clusters →
        (∀ c, c / 16 = cl.val → tget 0 cl.val u.hz.clusters ≤ (station u c).horizon) ∧
        ∃ c, c / 16 = cl.val ∧ (station u c).horizon = tget 0 cl.val u.hz.clusters)) ∧
  (∀ (s : State) (t : Nat) (cl : Cluster) (lag : Fin 3), callerOff s = false → clusterInReset s cl.val = false → s.tab.state < 4 →
    let h := fun (c : Nat) => max (station s c).horizon
      ((earliest (pendingRetires (station s c))).getD (timeAt t s - tget 0 cl.val s.replicas))
    let least := (earliest ((List.range 16).map fun k => h (16 * cl.val + k))).getD 0
    ∃ u, exec (.horizonForward t cl lag) s = .next u ∧ (∀ c, c / 16 = cl.val → (station u c).horizon = h c) ∧
      u.hz = { s.hz with clusters := tput 0 cl.val (max least (tget 0 cl.val s.hz.clusters)) s.hz.clusters
                         forwarding := s.hz.forwarding ||| BitVec.ofNat 16 (2 ^ cl.val) }) ∧
  (∀ (s : State) (t : Nat), callerOff s = false → s.hz.vh < clusterMin s →
    exec (.vhBroadcast t) s =
      .next { atTime t s with hz := { s.hz with vh := clusterMin s, since := timeAt t s, stalled := false } }) ∧
  (∀ (s : State) (t : Nat), callerOff s = false → clusterMin s ≤ s.hz.vh → exec (.vhBroadcast t) s = .next (atTime t s)) ∧
  (∀ (s : State) (t : Nat), callerOff s = false → s.hz.stalled = false → s.hz.since + 1000000 ≤ timeAt t s →
    let x := vhOldest s
    exec (.vhStall t) s = .next (occur 0x1012 0x2001 x.1.toNat (x.2.2.2 + 16 * b2n x.2.2.1 + 32 * b2n x.2.1)
      ((timeAt t s - s.hz.since) / 1000) { atTime t s with hz := { s.hz with stalled := true } }))

/-- R31, R216, R217: VH is the least of the clusters' horizons and never decreases; a stall of 1 ms is recorded once. -/
def Obligations.HorizonAdvances : Prop :=
  (∀ (s : State) (t : Nat), callerOff s = false →
    ∃ u, exec (.vhBroadcast t) s = .next u ∧ onlyChanges [.now, .hz] s u ∧ u.hz.gates = s.hz.gates ∧
      s.hz.vh ≤ u.hz.vh ∧
      (s.hz.vh < u.hz.vh → u.hz.since = timeAt t s ∧ (∀ c, c < 16 → u.hz.vh ≤ tget 0 c s.hz.clusters) ∧
        ∃ c, c < 16 ∧ tget 0 c s.hz.clusters = u.hz.vh)) ∧
  (∀ (s : State) (t : Nat), callerOff s = false → s.hz.stalled = false → s.hz.since + 1000000 ≤ timeAt t s →
    ∃ u, exec (.vhStall t) s = .next u ∧ u.hz = { s.hz with stalled := true } ∧
      let x := vhOldest s
      records 0x1012 0x2001 x.1.toNat (x.2.2.2 + 16 * b2n x.2.2.1 + 32 * b2n x.2.1) ((timeAt t s - s.hz.since) / 1000) s u)

/-- R31, R34, R194, R198, R200, R65: a gate point that takes a valid broadcast opens, holds the new VH and acknowledges
every containment; a bad one, or 1 µs without one, holds it closed, and one that has taken none yet is not open. An item
whole at its first sector is dropped when an entry covers it, leaves when it may, and is held otherwise; a new one gets no
credit while the point is full; a poisoned sector takes its transfer with it. -/
def Obligations.GatePoints : Prop :=
  (∀ (s : State) (t : Nat) (g : Gate), callerOff s = false →
    ∃ u, exec (.gateVhUpdate t g true) s = .next u ∧ (gate u g.val).closed = 0 ∧ (gate u g.val).opened = true ∧ (gate u g.val).heard = timeAt t s ∧
      (gate u g.val).vh = max (gate s g.val).vh s.hz.vh ∧ (gate u g.val).entries = broadcastEntries s ∧
      ∀ x, containedNow s x = true → (containment u x).acked.getLsbD g.val = true) ∧
  (∀ (s : State) (t : Nat) (g : Gate), callerOff s = false →
    ∃ u, exec (.gateVhUpdate t g false) s = .next u ∧ gate u g.val = { gate s g.val with closed := 3 } ∧ u.hz.cause = 3 ∧
      u.hz.point = g.val ∧ onlyChanges [.now, .hz] s u) ∧
  (∀ (s : State) (t : Nat) (g : Gate), (gate s g.val).closed = 0 → (gate s g.val).opened = true → (gate s g.val).heard + 1000 < timeAt t s →
    ∃ u, exec (.gateBroadcastTimeout t g) s = .next u ∧ gate u g.val = { gate s g.val with closed := 2 } ∧ u.hz.cause = 2 ∧
      u.hz.point = g.val ∧ onlyChanges [.now, .hz] s u) ∧
  (∀ (s : State) (t : Nat) (g : Gate) (i : ItemIn), pointTakes g.val i.kind = true → i.kit = false → i.poisoned = 0 →
    i.last = true → (gate s g.val).poisoned = [] → (gate s g.val).items = [] → (gate s g.val).waiting = [] → i.data.length ≤ 32768 →
    ∃ u, exec (.gateItemArrival t g i) s = .next u ∧
      let start := min i.start (timeAt t s)
      let dropped := covers (tget {} (ctxOfCore s i.core.val) (gate s g.val).entries) start = true
      let mayLeave := (gate s g.val).closed = 0 ∧ (gate s g.val).opened = true ∧ (i.gated = true → start + 4 ≤ (gate s g.val).vh)
      (dropped → (gate u g.val).items = [] ∧ u.out.items = s.out.items ∧
        u.hz.dropContain = satAdd 0xFFFF s.hz.dropContain 1) ∧
      (¬ dropped → mayLeave → (gate u g.val).items = [] ∧
        ∃ k, (g.val, k) ∈ u.out.items ∧ k.data = i.data ∧ k.addr = i.addr ∧ k.dest = i.dest ∧ k.start = start) ∧
      (¬ dropped → ¬ mayLeave → u.out.items = s.out.items ∧
        ∃ k, (gate u g.val).items = [k] ∧ k.data = i.data ∧ k.start = start ∧ k.whole = some (timeAt t s))) ∧
  (∀ (s : State) (t : Nat) (g : Gate) (i : ItemIn), pointTakes g.val i.kind = true → i.kit = false → i.poisoned = 0 →
    (gate s g.val).poisoned = [] → (∀ k ∈ (gate s g.val).items, sameTransfer i k = true → k.whole.isSome = true) →
    (gate s g.val).waiting ≠ [] ∨ gateRoom g.val (gate s g.val) true i.data.length = false →
    exec (.gateItemArrival t g i) s = .next (atTime t s)) ∧
  (∀ (s : State) (t : Nat) (g : Gate) (i : ItemIn), pointTakes g.val i.kind = true → i.kit = false → 0 < i.poisoned →
    (gate s g.val).poisoned = [] →
    ∃ u, exec (.gateItemArrival t g i) s = .next u ∧ counted 0xC001 s u ∧ u.out.items = s.out.items ∧
      ∀ k, k ∈ (gate u g.val).items ↔ k ∈ (gate s g.val).items ∧ sameTransfer i k = false)

/-- R206 to R208: a step is sealed when its request, its retired work, VH, its reprises and its incidents allow: the context
counts one more step, SEAL_ISSUED is recorded, and the seal object counts up. -/
def Obligations.StepSealed : Prop :=
  ∀ (s : State) (t : Nat) (ctx : CtxId) (x : Ctx) (e : SealEntry) (q : Nat × Nat × Nat), callerOff s = false →
    runningCtx s ctx.toNat = some x → sealEntryOf s ctx.toNat = some e → requestOf x x.sealed = some q →
    stepRetired s ctx.toNat x.sealed x = true → vhPassed s q.2.2 x.tz = true →
    reprisesIn s ctx.toNat x.sealed x = true → noIncident x x.sealed = true →
    ∃ u, exec (.sealIssue t ctx) s = .next u ∧ counted 0x1020 s u ∧
      (s.led.state = 1 → ∃ y, runningCtx u ctx.toNat = some y ∧ y.sealed = x.sealed + 1 ∧ y.pages = x.sealed + 1) ∧
      (s.led.state = 1 → objectStatus s e.object = 1 → (object s e.object).count = true →
        (∀ b, b < 256 → (barrier s b).sealMode = false) →
        (object u e.object).value = (object s e.object).value + 1 ∧ otherObjects e.object s u)

/-- R309, R310, R312, R314, R315: SET, CLEAR, ADD and SUB of a queue. On an object of its own context the value changes,
after the queue's own earlier registrations, and the operation retires at once, with UNDERFLOW, recorded, when SUB goes
below zero and MODE_ERROR when ADD or SUB meets a FLAG object; an object that it may not touch stays. A remote one gets a
message with the tally of its chip, through the gate. -/
def Obligations.SyncSignals : Prop :=
  (∀ (s : State) (t : Nat) (c : Core) (q : Queue) (d : BitVec 24) (name n : Word), canStartSync (atTime t s) c.val q.val = true → isLocal s name = true →
    accessStatus s c.val name = none → nextTraveller s c.val q.val name = none →
    let o := nameObject name
    let x := object s o
    sealQuiet s o →
    let gave := fun (status : Nat) (u : State) => u.out.retired.head? = some (c.val, q.val, status, 0)
    let took := fun (v : Word) (op : Nat) (u : State) =>
      (object u o).value = v ∧ (object u o).lastOp = op ∧ (object u o).lastParty = queueParty s c.val q.val ∧
      (object u o).lastTime = BitVec.ofNat 32 (bankTime (atTime t s) o) ∧ (object u o).lastGated = gatingOn s c.val ∧ otherObjects o s u ∧
      (object u o).subs = x.subs.filter fun y => !condHolds y.cond y.target v
    (∃ u, exec (.syncSet t c ⟨q, d⟩ name n) s = .next u ∧ gave 1 u ∧ took (if x.count then n else 1) 1 u) ∧
    (∃ u, exec (.syncClear t c ⟨q, d⟩ name) s = .next u ∧ gave 1 u ∧ took 0 2 u) ∧
    (∃ u, exec (.syncAdd t c ⟨q, d⟩ name n) s = .next u ∧
      (x.count = false → gave 8 u ∧ u.sync = s.sync ∧ counted 0x5005 s u) ∧
      (x.count = true → n = 0 → gave 1 u ∧ u.sync = s.sync) ∧
      (x.count = true → n ≠ 0 → gave 1 u ∧
        ((s.led.state ≠ 2 ∧ s.led.state ≠ 4) ∨
          (∀ y e, runningCtx s x.ctx.toNat = some y → y.seal_ = some e → e.request ≠ o) → took (x.value + n) 3 u))) ∧
    ∃ u, exec (.syncSub t c ⟨q, d⟩ name n) s = .next u ∧
      (x.count = false → gave 8 u ∧ u.sync = s.sync ∧ counted 0x5005 s u) ∧
      (x.count = true → n = 0 → gave 1 u ∧ u.sync = s.sync) ∧
      (x.count = true → n ≠ 0 → n.toNat ≤ x.value.toNat → gave 1 u ∧ took (x.value - n) 4 u) ∧
      (x.count = true → x.value.toNat < n.toNat → gave 5 u ∧ took 0 4 u ∧
        records 0x5002 (bankSrc s o) name.toNat (queueParty s c.val q.val).toNat (n.toNat - x.value.toNat) s u)) ∧
  (∀ (s : State) (t : Nat) (c : Core) (q : Queue) (d : BitVec 24) (name n : Word), canStartSync (atTime t s) c.val q.val = true →
    isLocal s name = true → accessStatus s c.val name = none →
    ∃ u, exec (.syncSet t c ⟨q, d⟩ name n) s = .next u ∧ (c.val, q.val, 1, 0) ∈ u.out.retired ∧
      ∀ w, w < 16 → (watchOf s c.val w).valid = true → (watchOf s c.val w).travelling = true → (watchOf s c.val w).queue = q.val →
        (watchOf s c.val w).name = name → (watchOf u c.val w).travelling = false) ∧
  (∀ (s : State) (t op : Nat) (c : Core) (q : Queue) (d : BitVec 24) (name n : Word) (status : Nat), 1 ≤ op → op ≤ 4 →
    canStartSync (atTime t s) c.val q.val = true → isLocal s name = true → accessStatus s c.val name = some status →
    ∃ u, exec (signalCmd op t c ⟨q, d⟩ name n) s = .next u ∧ u.out.retired.head? = some (c.val, q.val, status, 0) ∧ u.sync = s.sync ∧
      (6 ≤ status → counted 0x5005 s u)) ∧
  (∀ (s : State) (t op : Nat) (c : Core) (q : Queue) (d : BitVec 24) (name n : Word), 1 ≤ op → op ≤ 4 → canStartSync (atTime t s) c.val q.val = true →
    isLocal s name = false → nameOk name = true → routeVer s (nameChip name) = 2 → routeUp s (nameChip name) = true → retryHeld s (nameChip name) = false →
    isDown s (nameChip name) = false → (gate s 37).items = [] → (gate s 37).waiting = [] → (gate s 37).closed = 0 → (gate s 37).opened = true →
    let now := coreTime (atTime t s) c.val
    covers (tget {} (ctxOfCore s c.val) (gate s 37).entries) now = false →
    ∃ u, exec (signalCmd op t c ⟨q, d⟩ name n) s = .next u ∧
      (tallyOf u c.val q.val (nameChip name)).map (·.count) = (tallyOf s c.val q.val (nameChip name)).map (fun _ => 0) ∧
      let tally := ((tallyOf s c.val q.val (nameChip name)).map (·.count)).getD 0
      let m := mkMsg 1 op name (queueParty s c.val q.val) (if op = 2 then 0 else n) (BitVec.ofNat 32 tally) now
      (gatingOn s c.val = false → (gate u 37).items = [] ∧ u.out.retired.head? = some (c.val, q.val, 1, 0) ∧
        ∃ k, u.out.items = (37, k) :: s.out.items ∧ k.dest = nameChip name ∧ k.msg = some (1, m)) ∧
      (gatingOn s c.val = true → (gate s 37).vh < now + 4 → u.out.items = s.out.items ∧ u.out.retired = s.out.retired ∧
        ∃ k, (gate u 37).items = [k] ∧ k.gated = true ∧ k.start = now ∧ k.msg = some (1, m)))

/-- R308, R310, R315, R316: WAIT_EQ, WAIT_GE and WAIT_FLAG each take the lowest free slot and block their queue; a WATCH
takes one and, on an object of this chip, retires; a remote name gets a SUBSCRIBE; without a free slot the operation retires
with WATCH_FULL, and a bad argument of WATCH with its own status; both are recorded. -/
def Obligations.WaitsStart : Prop :=
  (∀ (s : State) (t cond : Nat) (c : Core) (q : Queue) (name n : Word) (timeout : BitVec 24) (w : Nat) (i : Instr),
    (cond = 0 ∧ i = .syncWaitEq t c q name n timeout) ∨ (cond = 1 ∧ i = .syncWaitGe t c q name n timeout) ∨
      (cond = 2 ∧ i = .syncWaitFlag t c q name timeout) →
    canStartSync (atTime t s) c.val q.val = true → freeSlot s c.val = some w →
    let goal := if cond = 2 then 0 else n
    let expires := coreTime (atTime t s) c.val + timeoutNs s c.val timeout
    (isLocal s name = true →
      ∃ u, exec i s = .next u ∧ onlyChanges [.now, .stations] s u ∧ otherStations c.val s u ∧
        (queueOf u c.val q.val).wait = some w ∧
        let k := watchOf u c.val w
        k.valid = true ∧ k.name = name ∧ k.target = goal ∧ watchCond k = cond ∧ k.queue = q.val ∧ k.expires = expires ∧
        k.travelling = true ∧ k.barrier = none ∧ ∀ j, j ≠ w → watchOf u c.val j = watchOf s c.val j) ∧
    (isLocal s name = false → nameOk name = true → routeVer s (nameChip name) = 2 → routeUp s (nameChip name) = true →
      retryHeld s (nameChip name) = false → isDown s (nameChip name) = false →
      ∃ u, exec i s = .next u ∧ (queueOf u c.val q.val).wait = some w ∧
        (watchOf u c.val w).travelling = false ∧
        u.out.msgs = (routeOf (nameChip name), 2, mkMsg 2 (5 + cond) name (waiterParty s c.val q.val w) goal
          (BitVec.ofNat 32 (min 0xFFFFFF (timeoutNs s c.val timeout / 1000))) 0) :: s.out.msgs)) ∧
  (∀ (s : State) (t : Nat) (c : Core) (q : Queue) (name n : Word) (timeout : BitVec 24) (i : Instr),
    i = .syncWaitEq t c q name n timeout ∨ i = .syncWaitGe t c q name n timeout ∨ i = .syncWaitFlag t c q name timeout →
    canStartSync (atTime t s) c.val q.val = true → isLocal s name = true → freeSlot s c.val = none →
    ∃ u, exec i s = .next u ∧ u.out.retired.head? = some (c.val, q.val, 9, 0) ∧ counted 0x5006 s u ∧ counted 0x5005 s u ∧
      (queueOf u c.val q.val).wait = none) ∧
  (∀ (s : State) (t : Nat) (c : Core) (q : Queue) (d : BitVec 24) (cond : BitVec 2) (name n : Word) (timeout : BitVec 24) (raddr : DWord),
    canStartSync (atTime t s) c.val q.val = true → isLocal s name = true →
    ∃ u, exec (.syncWatch t c ⟨q, d⟩ cond name n timeout raddr) s = .next u ∧ u.sync = s.sync ∧ otherStations c.val s u ∧
      (cond = 3 → u.out.retired.head? = some (c.val, q.val, 13, 0)) ∧
      (cond ≠ 3 → raddr.toNat % 16 ≠ 0 ∨ Config.place c.val raddr = 2 →
        u.out.retired.head? = some (c.val, q.val, 10, 0) ∧ counted 0x5005 s u) ∧
      (cond ≠ 3 → raddr.toNat % 16 = 0 → Config.place c.val raddr ≠ 2 → freeSlot s c.val = none →
        u.out.retired.head? = some (c.val, q.val, 9, 0) ∧ counted 0x5006 s u ∧ counted 0x5005 s u) ∧
      (∀ w, cond ≠ 3 → raddr.toNat % 16 = 0 → Config.place c.val raddr ≠ 2 → freeSlot s c.val = some w →
        u.out.retired.head? = some (c.val, q.val, 1, 0) ∧ (queueOf u c.val q.val).wait = none ∧
        let k := watchOf u c.val w
        k.valid = true ∧ k.name = name ∧ k.target = n ∧ k.op = 8 ∧ watchCond k = cond.toNat ∧ k.raddr = raddr ∧
        k.expires = coreTime (atTime t s) c.val + timeoutNs s c.val timeout)) ∧
  (∀ (s : State) (t : Nat) (c : Core) (q : Queue) (d : BitVec 24) (cond : BitVec 2) (name n : Word) (timeout : BitVec 24) (raddr : DWord) (w : Nat),
    canStartSync (atTime t s) c.val q.val = true → isLocal s name = false → nameOk name = true → routeVer s (nameChip name) = 2 →
    routeUp s (nameChip name) = true → isDown s (nameChip name) = false → cond ≠ 3 → raddr.toNat % 16 = 0 →
    freeSlot s c.val = some w →
    ∃ u, exec (.syncWatch t c ⟨q, d⟩ cond name n timeout raddr) s = .next u ∧ (queueOf u c.val q.val).wait = none ∧
      (Config.place c.val raddr = 2 → u.out.retired.head? = some (c.val, q.val, 10, 0)) ∧
      (Config.place c.val raddr ≠ 2 → u.out.retired = s.out.retired ∧ (watchOf u c.val w).valid = true ∧
        (watchOf u c.val w).travelling = false))

/-- R312, R315, R317 to R321: a queue's subscriptions to an object register in program order, behind the slot's own cancels.
One that arrives is released at once when its condition holds, else it registers, and a full bank releases it with
WATCH_FULL. A release ends its watch: a wait retires with its status and value, a WATCH writes its 16-byte record in memory
or in the core's scratchpad, and retires then if its object is remote; a release of a watch that the slot no longer holds is
discarded. An expiry retires the wait with WAIT_TIMEOUT, records it with the object's value, which for a remote object the
home's reply supplies, and sends a cancel, which removes the subscription. R29: stations stamp by their cluster's replica.
-/
def Obligations.WatchesEnd : Prop :=
  (∀ (s : State) (t : Nat) (c : Core) (w : Fin 16), (watchOf s c.val w.val).valid = true →
    (watchOf s c.val w.val).travelling = true → accessStatus s c.val (watchOf s c.val w.val).name = none →
    isLocal s (watchOf s c.val w.val).name = true →
    nextTraveller s c.val (watchOf s c.val w.val).queue (watchOf s c.val w.val).name = some w.val →
    (∀ y ∈ (station s c.val).cancels, y.1 ≠ w.val) →
    let k := watchOf s c.val w.val
    let o := nameObject k.name
    let p := waiterParty s c.val k.queue w.val
    ∃ u, exec (.subscriptionArrival t c w) s = .next u ∧ watchOf u c.val w.val = { k with travelling := false } ∧
      otherStations c.val s u ∧
      (bankSubs s o < 256 → condHolds (watchCond k) k.target (object s o).value = true →
        ∃ r : Release, u.sync.releases = s.sync.releases ++ [r] ∧ r.party = p ∧ r.status = 1 ∧ r.value = (object s o).value) ∧
      (bankSubs s o < 256 → condHolds (watchCond k) k.target (object s o).value = false → u.sync.releases = s.sync.releases ∧
        object u o = { object s o with subs := (object s o).subs ++ [{ party := p, cond := watchCond k, target := k.target }] }) ∧
      (256 ≤ bankSubs s o → counted 0x5006 s u ∧
        ∃ r : Release, u.sync.releases = s.sync.releases ++ [r] ∧ r.party = p ∧ r.status = 9)) ∧
  (∀ (s : State) (t : Nat) (c : Core) (w : Fin 16), (watchOf s c.val w.val).valid = true →
    (watchOf s c.val w.val).travelling = true →
    let k := watchOf s c.val w.val
    ∃ u, exec (.subscriptionArrival t c w) s = .next u ∧ (watchOf u c.val w.val).travelling = false ∧
      ∀ v, v < 16 → (watchOf s c.val v).valid = true → (watchOf s c.val v).queue = k.queue → (watchOf s c.val v).name = k.name →
        watchAge s c.val k < watchAge s c.val (watchOf s c.val v) → (watchOf u c.val v).travelling = false) ∧
  (∀ (s : State) (t : Nat) (c : Core) (w : Fin 16) (r : Release), s.tab.state = 0 → nextRelease s c.val w.val = some r →
    releaseFits s c.val w.val r = true →
    let k := watchOf s c.val w.val
    ∃ u, exec (.syncReleaseDelivery t c w) s = .next u ∧ watchOf u c.val w.val = {} ∧ otherStations c.val s u ∧
      onlyChanges [.now, .stations, .sync, .mem, .memPoison, .out] s u ∧ u.sync.objs = s.sync.objs ∧
      let record := releaseRecord r.name r.value r.status w.val (coreTime (atTime t s) c.val % 2 ^ 32)
      (k.op ≠ 8 → u.out.retired = (c.val, k.queue, r.status, r.value) :: s.out.retired ∧ u.mem = s.mem) ∧
      (k.op = 8 → u.out.retired = if isLocal s r.name then s.out.retired else (c.val, k.queue, r.status, r.value) :: s.out.retired) ∧
      (k.op = 8 → Config.place c.val k.raddr ≠ 1 → otherBytes k.raddr.toNat 16 s u ∧
        (inCapsules s k.raddr.toNat 16 = false → memRead u k.raddr.toNat 16 = record)) ∧
      (k.op = 8 → Config.place c.val k.raddr = 1 → u.mem = s.mem ∧
        tgets 0 (spadOffset k.raddr) 16 (station u c.val).spad = record)) ∧
  (∀ (s : State) (t : Nat) (c : Core) (w : Fin 16) (r : Release), s.tab.state = 0 → nextRelease s c.val w.val = some r →
    releaseFits s c.val w.val r = false →
    exec (.syncReleaseDelivery t c w) s = .next { atTime t s with
      sync := { s.sync with releases := dropFirst (fun y => y == r) s.sync.releases } }) ∧
  (∀ (s : State) (t : Nat) (c : Core) (w : Fin 16) (reply : Word), s.tab.state = 0 → (watchOf s c.val w.val).valid = true →
    (watchOf s c.val w.val).barrier = none → (watchOf s c.val w.val).expires ≤ coreTime (atTime t s) c.val →
    isLocal s (watchOf s c.val w.val).name = true →
    let k := watchOf s c.val w.val
    let v := (object s (nameObject k.name)).value
    let p := waiterParty s c.val k.queue w.val
    ∃ u, exec (.waitTimeout t c ⟨w, reply⟩) s = .next u ∧ watchOf u c.val w.val = {} ∧ otherStations c.val s u ∧
      records 0x5001 (BitVec.ofNat 16 c.val) k.name.toNat p.toNat v.toNat s u ∧ u.sync.objs = s.sync.objs ∧
      (station u c.val).cancels = (station s c.val).cancels ++ [(w.val, k.name, p)] ∧
      (k.op ≠ 8 → u.out.retired = (c.val, k.queue, 2, v) :: s.out.retired) ∧
      (k.op = 8 → u.out.retired = s.out.retired ∧ (Config.place c.val k.raddr ≠ 1 → otherBytes k.raddr.toNat 16 s u ∧
        (inCapsules s k.raddr.toNat 16 = false →
          memRead u k.raddr.toNat 16 = releaseRecord k.name v 2 w.val (coreTime (atTime t s) c.val % 2 ^ 32))))) ∧
  (∀ (s : State) (t : Nat) (c : Core) (w : Fin 16) (reply : Word), s.tab.state = 0 → (watchOf s c.val w.val).valid = true →
    (watchOf s c.val w.val).barrier = none → (watchOf s c.val w.val).expires ≤ coreTime (atTime t s) c.val →
    isLocal s (watchOf s c.val w.val).name = false →
    let k := watchOf s c.val w.val
    ∃ u, exec (.waitTimeout t c ⟨w, reply⟩) s = .next u ∧ watchOf u c.val w.val = {} ∧ otherStations c.val s u ∧
      counted 0x5001 s u ∧ u.out.retired = (c.val, k.queue, 2, reply) :: s.out.retired) ∧
  (∀ (s : State) (t : Nat) (c : Core) (w : Fin 16) (x : Nat × Word × Word),
    (station s c.val).cancels.find? (fun y => y.1 == w.val && isLocal s y.2.1) = some x →
    ∃ u, exec (.cancelArrival t c w) s = .next u ∧ onlyChanges [.now, .stations, .sync] s u ∧
      (station u c.val).cancels = dropFirst (fun y => y == x) (station s c.val).cancels ∧
      (object u (nameObject x.2.1)).subs = dropFirst (fun y => y.party == x.2.2) (object s (nameObject x.2.1)).subs ∧
      otherObjects (nameObject x.2.1) s u)

/-- R85, R196, R353, R354, R356, R357: an ARRIVE counts its core in the generation and waits; the last one of a root without
children ends the generation and releases every waiter; a time-out keeps the arrival counted. Messages of a child and of the
parent move the generation, and stray ones are recorded. -/
def Obligations.BarrierGenerations : Prop :=
  (∀ (s : State) (t : Nat) (c : Core) (q : Queue) (b : Byte) (timeout : BitVec 24) (w l : Nat), canStartSync (atTime t s) c.val q.val = true →
    freeSlot s c.val = some w → arriveStatus s c.val b.toNat = none → logOf s c.val = some l →
    (barrier s b.toNat).sealMode = false →
    let x := barrier s b.toNat
    let arrived := x.arrived ||| BitVec.ofNat 256 (2 ^ l)
    ∃ u, exec (.barrierArrive t c q b timeout) s = .next u ∧
      let waits := (queueOf u c.val q.val).wait = some w ∧ (watchOf u c.val w).barrier = some b.toNat ∧
        (watchOf u c.val w).expires = coreTime (atTime t s) c.val + timeoutNs s c.val timeout ∧ onlyChanges [.now, .stations, .sync] s u
      (x.mask &&& ~~~arrived ≠ 0 → waits ∧
        let latest := max x.latest (coreTime (atTime t s) c.val)
        barrier u b.toNat =
          { x with arrived := arrived, latest := latest, gated := x.gated || gatingOn s c.val, waiters := x.waiters ++ [(c.val, w)] }) ∧
      (x.state = 1 → x.mask &&& ~~~arrived = 0 → x.children = [] → x.parent = none → x.recounts = [] → x.release = none → waits ∧
        (barrier u b.toNat).gen = x.gen + 1 ∧ (barrier u b.toNat).state = 1 ∧ (barrier u b.toNat).arrived = 0 ∧
        (barrier u b.toNat).waiters = [] ∧
        ∃ r ∈ u.sync.releases, r.party = waiterParty s c.val q.val w ∧ r.status = 1 ∧ r.name = barName s.boot.chip b.toNat) ∧
      (x.state = 1 → x.mask &&& ~~~arrived = 0 → x.children = [] → x.parent ≠ none → (barrier u b.toNat).state = 2)) ∧
  (∀ (s : State) (t : Nat) (c : Core) (q : Queue) (b : Byte) (timeout : BitVec 24), canStartSync (atTime t s) c.val q.val = true →
    ∃ u, exec (.barrierArrive t c q b timeout) s = .next u ∧
      (freeSlot s c.val = none → u.out.retired.head? = some (c.val, q.val, 9, 0) ∧ u.sync = s.sync ∧ counted 0x5006 s u) ∧
      (∀ w status, freeSlot s c.val = some w → arriveStatus s c.val b.toNat = some status →
        u.out.retired.head? = some (c.val, q.val, status, 0) ∧ u.sync = s.sync)) ∧
  (∀ (s : State) (t : Nat) (c : Core) (w : Fin 16) (b : Nat), s.tab.state = 0 → (watchOf s c.val w.val).valid = true →
    (watchOf s c.val w.val).barrier = some b → (watchOf s c.val w.val).expires ≤ coreTime (atTime t s) c.val → s.sync.releases = [] →
    let k := watchOf s c.val w.val
    ∃ u, exec (.barrierTimeout t c w) s = .next u ∧ u.out.retired = (c.val, k.queue, 2, 0) :: s.out.retired ∧
      watchOf u c.val w.val = {} ∧ otherStations c.val s u ∧
      barrier u b = { barrier s b with waiters := (barrier s b).waiters.filter fun y => y != (c.val, w.val) } ∧
      records 0x6003 (BitVec.ofNat 16 c.val) k.name.toNat (waiterParty s c.val k.queue w.val).toNat
        (arrivedCount (barrier s b) + (barrier s b).childArrived.length * 512 + lowestMissing (barrier s b) * 65536) s u) ∧
  (∀ (s : State) (t : Nat) (port : Port) (m : SyncMsg), takesMessages s port → m.crc = msgCrc 5 m →
    let b := barIndex m.name
    let x := barrier s b
    let child := x.children.any (fun c => barChip c == partyChip m.party) = true
    ∃ u, exec (.arriveMessage t port m) s = .next u ∧
      (barrierCurrent s m = false ∨ ¬ child → counted 0x6004 s u ∧ u.sync = s.sync) ∧
      (barrierCurrent s m = true → child → x.sealMode = false → x.mask &&& ~~~x.arrived ≠ 0 →
        partyChip m.party ∈ (barrier u b).childArrived ∧ (barrier u b).gen = x.gen) ∧
      (barrierCurrent s m = true → x.state = 1 → x.children ≠ [] → (∀ c ∈ x.children, barChip c = partyChip m.party) →
        x.children.length ≤ x.childArrived.count (partyChip m.party) + 1 →
        x.sealMode = false → x.mask &&& ~~~x.arrived = 0 → x.parent = none → x.recounts = [] → x.release = none →
        (barrier u b).gen = x.gen + 1 ∧ (barrier u b).childArrived = [] ∧ (barrier u b).waiters = [])) ∧
  (∀ (s : State) (t : Nat) (port : Port) (m : SyncMsg) (p : Word), takesMessages s port → m.crc = msgCrc 6 m →
    barrierCurrent s m = true → (barrier s (barIndex m.name)).state = 2 → (barrier s (barIndex m.name)).parent = some p →
    barChip p = partyChip m.party → (barrier s (barIndex m.name)).sealMode = false → (barrier s (barIndex m.name)).mask ≠ 0 →
    (barrier s (barIndex m.name)).recounts = [] → (barrier s (barIndex m.name)).release = none →
    let b := barIndex m.name
    ∃ u, exec (.breleaseMessage t port m) s = .next u ∧ (barrier u b).gen = (barrier s b).gen + 1 ∧ (barrier u b).state = 1 ∧
      (barrier u b).arrived = 0 ∧ (barrier u b).waiters = [] ∧
      u.sync.releases.length = s.sync.releases.length + (barrier s b).waiters.length)

/-- R338, R340, R342, R346, R386: messages that arrive. A bad CRC discards one with SYNC_ERROR; a chip that resets answers
with a NAK while its ports are up. A SIGNAL is applied once its tally is met and held until then; a SUBSCRIBE registers, a
CANCEL removes, a CARRY adds to the claim, a RELEASE ends the watch that waits, but one of status WAIT_TIMEOUT, which
answers a cancel (the model's choice, log entry 153). -/
def Obligations.MessagesTaken : Prop :=
  (∀ (s : State) (t type : Nat) (port : Port) (m : SyncMsg), 1 ≤ type → type ≤ 7 → takesMessages s port → m.crc ≠ msgCrc type m →
    ∃ u, exec (messageCmd type t port m) s = .next u ∧ counted 0x5005 s u ∧ u.sync = s.sync ∧ u.stations = s.stations) ∧
  (∀ (s : State) (t type : Nat) (port : Port) (m : SyncMsg), 1 ≤ type → type ≤ 7 → s.rst.naking = true →
    (fport s port.val).width ≠ 0 →
    ∃ u, exec (messageCmd type t port m) s = .next u ∧ onlyChanges [.now, .out] s u ∧
      u.out = { s.out with naks := (port.val, 1, retryAfter (atTime t s)) :: s.out.naks }) ∧
  (∀ (s : State) (t type : Nat) (port : Port) (m : SyncMsg), 1 ≤ type → type ≤ 7 → (fport s port.val).width = 0 →
    exec (messageCmd type t port m) s = .next (atTime t s)) ∧
  (∀ (s : State) (t : Nat) (port : Port) (m : SyncMsg), takesMessages s port → m.crc = msgCrc 1 m →
    (arrivalOf s m.party).held = [] → (∀ x ∈ s.sync.arrivals, carryWaits x.2 = false) → m.sub.toNat % 16 = 1 → nameOk m.name = true → isLocal s m.name = true →
    objectStatus s (nameObject m.name) = 1 → sealQuiet s (nameObject m.name) →
    let o := nameObject m.name
    let a := arrivalOf s m.party
    ∃ u, exec (.signalMessage t port m) s = .next u ∧
      (a.claim + m.tally.toNat ≤ a.arrived → (arrivalOf u m.party).held = [] ∧ (arrivalOf u m.party).claim = 0 ∧
        (arrivalOf u m.party).arrived = a.arrived - (a.claim + m.tally.toNat) ∧ otherObjects o s u ∧
        (object u o).value = (if (object s o).count then m.arg else 1) ∧ (object u o).lastParty = m.party ∧
        (object u o).lastStart = m.start.toNat) ∧
      (a.arrived < a.claim + m.tally.toNat → u.sync.objs = s.sync.objs ∧
        ∃ h, (arrivalOf u m.party).held = [h] ∧ h.msg = m ∧ h.type = 1 ∧ h.arrived = timeAt t s ∧
          (arrivalOf u m.party).arrived = a.arrived ∧ (arrivalOf u m.party).claim = a.claim)) ∧
  (∀ (s : State) (t : Nat) (port : Port) (m : SyncMsg), takesMessages s port → m.crc = msgCrc 2 m →
    (arrivalOf s m.party).held = [] → (∀ x ∈ s.sync.arrivals, carryWaits x.2 = false) → 5 ≤ m.sub.toNat % 16 → m.sub.toNat % 16 ≤ 7 → nameOk m.name = true →
    isLocal s m.name = true → objectStatus s (nameObject m.name) = 1 → bankSubs s (nameObject m.name) < 256 →
    condHolds (m.sub.toNat % 16 - 5) m.arg (object s (nameObject m.name)).value = false →
    let x := object s (nameObject m.name)
    let y : Sub := { party := m.party, cond := m.sub.toNat % 16 - 5, target := m.arg }
    ∃ u, exec (.subscribeMessage t port m) s = .next u ∧ object u (nameObject m.name) = { x with subs := x.subs ++ [y] }) ∧
  (∀ (s : State) (t : Nat) (port : Port) (m : SyncMsg), takesMessages s port → m.crc = msgCrc 3 m →
    (arrivalOf s m.party).held = [] → (∀ x ∈ s.sync.arrivals, carryWaits x.2 = false) → isLocal s m.name = true →
    ∃ u, exec (.cancelMessage t port m) s = .next u ∧ otherObjects (nameObject m.name) s u ∧
      (object u (nameObject m.name)).subs = dropFirst (fun y => y.party == m.party) (object s (nameObject m.name)).subs) ∧
  (∀ (s : State) (t : Nat) (port : Port) (m : SyncMsg), takesMessages s port → m.crc = msgCrc 7 m →
    (arrivalOf s m.party).held = [] → (∀ x ∈ s.sync.arrivals, carryWaits x.2 = false) → tableFull s m.party = false →
    ∃ u, exec (.carryMessage t port m) s = .next u ∧ u.sync.objs = s.sync.objs ∧
      arrivalOf u m.party = { arrivalOf s m.party with claim := (arrivalOf s m.party).claim + m.tally.toNat }) ∧
  (∀ (s : State) (t : Nat) (port : Port) (m : SyncMsg), takesMessages s port → m.crc = msgCrc 4 m → s.tab.state = 0 →
    partyChip m.party = s.boot.chip →
    let c := partyCore m.party
    let w := partySlot m.party
    let k := watchOf s c w
    m.sub.toNat % 16 ≠ 2 → k.barrier = none → nextRelease s c w = none →
    releaseFits s c w { party := m.party, name := m.name, status := m.sub.toNat % 16, value := m.arg, guard := some m.name } = true →
    ∃ u, exec (.releaseMessage t port m) s = .next u ∧ watchOf u c w = {} ∧
      (k.op ≠ 8 → u.out.retired = (c, k.queue, m.sub.toNat % 16, m.arg) :: s.out.retired) ∧
      (k.op = 8 → u.out.retired =
        if isLocal s m.name then s.out.retired else (c, k.queue, m.sub.toNat % 16, m.arg) :: s.out.retired) ∧
      (k.op = 8 → Config.place c k.raddr ≠ 1 → otherBytes k.raddr.toNat 16 s u ∧ (inCapsules s k.raddr.toNat 16 = false →
        memRead u k.raddr.toNat 16 = releaseRecord m.name m.arg (m.sub.toNat % 16) w (coreTime (atTime t s) c % 2 ^ 32))) ∧
      (k.op = 8 → Config.place c k.raddr = 1 → u.mem = s.mem ∧
        tgets 0 (spadOffset k.raddr) 16 (station u c).spad =
          releaseRecord m.name m.arg (m.sub.toNat % 16) w (coreTime (atTime t s) c % 2 ^ 32))) ∧
  (∀ (s : State) (t : Nat) (port : Port) (m : SyncMsg), takesMessages s port → m.crc = msgCrc 4 m →
    partyChip m.party = s.boot.chip → m.sub.toNat % 16 = 2 →
    let c := partyCore m.party
    ∃ u, exec (.releaseMessage t port m) s = .next u ∧ u.sync = s.sync ∧ u.out.retired = s.out.retired ∧
      (station u c).watches = (station s c).watches ∧
      (station u c).cancels = dropFirst (fun y => y == (partySlot m.party, m.name, m.party)) (station s c).cancels)

/-- R63, R224, R341, R346 to R348, R388: the sectors that come with a signal are written with their poison marks, outside
the capsule region, and counted, and free the signal that waits for them; a scratchpad's sector is counted here and lands
with its INB beat; a full table refuses the write; a signal held for 100 µs is recorded once. NAKed requests are held for
their time and sent again, a sync message (R339) not before those that its chip refused earlier, and acknowledgements let an
S1 signal leave. -/
def Obligations.FabricTraffic : Prop :=
  (∀ (s : State) (t : Nat) (port : Port) (p : Word) (pad : Bool) (addr : DWord) (data : Sector) (poison : Bool), s.rst.naking = false →
    callerOff s = false → (fport s port.val).width ≠ 0 →
    ∃ u, exec (.fabricSectorCommit t port p ⟨pad, addr⟩ ⟨data, poison⟩) s = .next u ∧
      (tableFull s p = true → u.mem = s.mem ∧ u.out.naks = (port.val, 2, 2000) :: s.out.naks) ∧
      (pad = true → u.mem = s.mem) ∧ otherBytes (addr.toNat / 64 * 64) 64 s u ∧
      (tableFull s p = false → pad = false → inCapsules s (addr.toNat / 64 * 64) 64 = false →
        memRead u (addr.toNat / 64 * 64) 64 = sectorBytes data ∧ tget false (addr.toNat / 64) u.memPoison = poison) ∧
      (tableFull s p = false → (∀ x ∈ s.sync.arrivals, carryWaits x.2 = false) →
        let a := arrivalOf s p
        (a.held = [] → arrivalOf u p = { a with arrived := a.arrived + 1 }) ∧
        (∀ h, a.held = [h] → h.type = 1 → a.claim + h.msg.tally.toNat = a.arrived + 1 →
          (arrivalOf u p).held = [] ∧ (arrivalOf u p).arrived = 0 ∧ (arrivalOf u p).claim = 0))) ∧
  (∀ (s : State) (t : Nat) (p : Word) (h : HeldMsg) (r : List HeldMsg), callerOff s = false → (arrivalOf s p).held = h :: r →
    h.type = 1 → h.stalled = false → h.arrived + 100000 ≤ timeAt t s →
    ∃ u, exec (.tallyStall t p) s = .next u ∧ onlyChanges [.now, .evt, .sync, .tab] s u ∧
      arrivalOf u p = { arrivalOf s p with held := { h with stalled := true } :: r } ∧
      u.sync.tallyStalls = satAdd 255 s.sync.tallyStalls 1 ∧ counted 0x6001 s u) ∧
  (∀ (s : State) (t : Nat) (core : Core) (queue : Queue) (chip : ChipId) (n : Nat) (k : GItem) (m : SyncMsg),
    (gate s 37).items = [k] → (gate s 37).waiting = [] → k.core = core → k.queue = queue → k.dest = chip → k.kind = .signal → k.msg = some (1, m) →
    (queueOf s core.val queue.val).syncOps.any (fun o => o.opid == k.transfer) = true →
    (gate s 37).closed = 0 → (gate s 37).opened = true → k.whole.isSome = true → k.gated = false →
    covers (tget {} (ctxOfCore s core.val) (gate s 37).entries) k.start = false → isDown s chip = false →
    routeVer s chip = 1 → routeUp s chip = true → retryHeld s chip = false →
    ∃ u, exec (.endToEndAcknowledgement t core queue chip n) s = .next u ∧
      unackedOf u core.val queue.val chip = unackedOf s core.val queue.val chip - n ∧
      (k.ackNeed ≤ n → (gate u 37).items = [] ∧ u.out.retired.head? = some (core.val, queue.val, 1, 0)) ∧
      (n < k.ackNeed → (gate u 37).items = [{ k with ackNeed := k.ackNeed - n }] ∧ u.out = s.out)) ∧
  (∀ (s : State) (t : Nat) (port : Port) (chip : ChipId) (request : BitVec 16) (sync : Bool) (after : Nat), isDown s chip = false →
    let others := (fport s port.val).retry.filter fun x => x.1 != request.toNat
    let heldAs := fun (x : Nat × ChipId × Nat × Bool) (u : State) => (fport u port.val).retry =
      if (fport s port.val).resent.contains request.toNat then x :: others else others ++ [x]
    (∃ u, exec (.responderResettingNak t port chip request sync after) s = .next u ∧ onlyChanges [.now, .sync] s u ∧
      heldAs (request.toNat, chip, timeAt t s + 128000 * after, sync) u) ∧
    ∃ u, exec (.responderNotReadyNak t port chip request) s = .next u ∧ onlyChanges [.now, .sync] s u ∧
      heldAs (request.toNat, chip, timeAt t s + 2000, false) u) ∧
  (∀ (s : State) (t : Nat) (port : Port) (request : BitVec 16) (x : Nat × ChipId × Nat × Bool),
    (fport s port.val).retry.find? (fun y => y.1 == request.toNat) = some x → x.2.2.1 ≤ timeAt t s →
    (retryFirst (fport s port.val) x = true →
      ∃ u, exec (.nakRetry t port request) s = .next u ∧ u.out.retried = (port.val, request.toNat) :: s.out.retried ∧
        (fport u port.val).retry = (fport s port.val).retry.filter (fun y => y.1 != request.toNat)) ∧
    (retryFirst (fport s port.val) x = false → exec (.nakRetry t port request) s = .next (atTime t s))) ∧
  (∀ (s : State) (t : Nat) (p : Port), callerOff s = false → (fport s p.val).disabled = false → portBad s p.val = false →
    s.led.state ≠ 5 →
    (∃ u, exec (.fabricLinkRetrain t p .lost) s = .next u ∧ (fport u p.val).width = 0 ∧ (fport u p.val).settled = 0 ∧
      counted 0xD001 s u) ∧
    ∀ (w : Byte) (offer : BitVec 2), ∃ u, exec (.fabricLinkRetrain t p (.retrained w offer)) s = .next u ∧
      (fport u p.val).width = w.toNat ∧ (fport u p.val).settled = settleSync offer s.cfg.floors.2.1 ∧ counted 0xA006 s u)

/-- R63, R304 to R307, R309, R323 to R327: the items of a work list, the first ring's before the second's, each with its
STATUS and the consumer's count written, and monitored words: a write that a monitor entry watches acts on its object. -/
def Obligations.WorkListItems : Prop :=
  (∀ (s : State) (t : Nat) (ring : Fin 2) (l : List Byte), nextItem s ring.val = some l → ring.val = 0 ∨ nextItem s 0 = none →
    inCapsules s (itemAddr s ring.val + 1) 1 = false → inCapsules s (wlBase s ring.val + 4) 4 = false →
    let done := fun (status : Nat) (u : State) =>
      tget 0 (itemAddr s ring.val + 1) u.mem = BitVec.ofNat 8 status ∧
      consumer u ring.val = (consumer s ring.val + 1) % 2 ^ 32 ∧
      ∀ a, a ≠ itemAddr s ring.val + 1 → a < wlBase s ring.val + 4 ∨ wlBase s ring.val + 8 ≤ a → tget 0 a u.mem = tget 0 a s.mem
    let ctx := fieldLe 2 2 l
    let o := fieldLe 4 4 l
    (fieldLe 0 1 l = 1 → ∃ u, exec (.contextStart t ring) s = .next u ∧
      (startRefused s ctx = none → itemPlain l = true → done 1 u ∧ counted 0x5007 s u ∧
        ∃ c, runningCtx u ctx = some c ∧ c.sealed = 0 ∧ c.requests = [] ∧ c.incidents = [] ∧ c.nextReq = 0 ∧ c.began = timeAt t s) ∧
      (∀ status, startRefused s ctx = some status → status = 11 ∨ itemPlain l = true →
        done status u ∧ counted 0x5005 s u ∧ u.ctxs = s.ctxs ∧ u.sync = s.sync)) ∧
    (fieldLe 0 1 l = 2 → itemPlain l = true → ctx ≠ 0 → ctx ≠ 0xFFF → ∃ u, exec (.contextEnd t ring) s = .next u ∧
      ((runningCtx s ctx).isSome = true → done 1 u ∧ counted 0x5008 s u ∧ runningCtx u ctx = none ∧ ctx ∈ u.sync.ended ∧
        ∀ k, (object s k).assigned = true → (object s k).ctx.toNat = ctx → (object u k).assigned = false) ∧
      (runningCtx s ctx = none → done 12 u ∧ u.sync = s.sync)) ∧
    (fieldLe 0 1 l = 3 → itemPlain l = true → ∃ u, exec (.objectOp t ring) s = .next u ∧
      (fieldLe 12 1 l = 1 → nameOk (BitVec.ofNat 32 o) = true → isLocal s (BitVec.ofNat 32 o) = true →
        objectStatus s (o % 8192) = 1 → sealQuiet s (o % 8192) → done 1 u ∧ otherObjects (o % 8192) s u ∧
        (object u (o % 8192)).value = (if (object s (o % 8192)).count then BitVec.ofNat 32 (fieldLe 8 4 l) else 1)) ∧
      (fieldLe 12 1 l = 0 ∨ 4 < fieldLe 12 1 l → done 13 u ∧ u.sync = s.sync ∧ counted 0x5005 s u)) ∧
    (fieldLe 0 1 l = 4 → fieldLe 2 2 l < 4096 → zeroAt 13 3 l = true → ∃ u, exec (.monArm t ring) s = .next u ∧
      let e := monEntry (slice 16 16 l)
      (2 ≤ o → o ≤ 255 → monEntryOk e = true → objectStatus s e.object = 1 → (object s e.object).ctx.toNat = ctx → done 1 u ∧
        tfind o u.sync.mon = some { e with ctx := BitVec.ofNat 12 ctx, last := wordAt s e.addr }) ∧
      (o < 2 ∨ 255 < o → done 13 u ∧ u.sync = s.sync)) ∧
    (fieldLe 0 1 l = 5 → itemPlain l = true → 2 ≤ o → o ≤ 255 → ∃ u, exec (.monDisarm t ring) s = .next u ∧ done 1 u ∧
      tfind o u.sync.mon = none)) ∧
  (∀ (s : State) (t : Nat) (addr : DWord) (data : Sector) (poison : Bool) (holds : Nat),
    let base := addr.toNat / 64 * 64
    ∃ u, exec (.writeNotify t addr ⟨data, poison⟩ holds) s = .next u ∧ otherBytes base 64 s u ∧
      (inCapsules s base 64 = false → memRead u base 64 = sectorBytes data ∧ tget false (base / 64) u.memPoison = poison) ∧
      (callerOff s = false → u.sync.monStalls = min 0x7FFF (s.sync.monStalls + holds)) ∧
      ∀ i e, callerOff s = false → s.sync.mon = [(i, e)] → base ≤ e.addr → e.addr < base + 64 →
        let v := BitVec.ofNat 32 (fieldLe (e.addr - base) 4 (sectorBytes data))
        (monHits e v = true → e.action = 1 → sealQuiet s e.object → objectStatus s e.object = 1 → (object s e.object).ctx = e.ctx →
          (object u e.object).value = 1 ∧ u.sync.mon = if e.oneshot then [] else [(i, { e with last := v })]) ∧
        (monHits e v = false → u.sync.objs = s.sync.objs ∧ u.sync.mon = [(i, { e with last := v })]))

/-- R366 to R368, R373, R27, R382, R384, R418: an operation past its deadline, or a signal that waits at its gate point
(R315), is recorded once and starts the ladder; the caller's watchdog resets the caller under a new L4 and closes every gate
point; a snapshot's copy ends VALID, counted and recorded, or PARTIAL when the buffer failed. -/
def Obligations.MissesAndSnapshots : Prop :=
  (∀ (s : State) (t : Nat) (c : Core) (q : Queue) (x : Cu), s.tab.state = 0 → clusterInReset s (c.val / 16) = false →
    overdueOp (atTime t s) c.val q.val = some x →
    ∃ u, exec (.deadlineMiss t c q) s = .next u ∧ counted 0x7001 s u ∧
      (∀ v ∈ (station u c.val).cus, v.op.queue = x.op.queue → v.op.opid = x.op.opid → v.start = x.start → v.missed = true) ∧
      (callerOff s = false → s.led.state ≠ 5 → s.rst.active = [] → s.rst.done = [] → s.tab.arm.getLsbD 16 = false →
        ∃ l : Level, u.rst.active.map (·.seq) = [s.rst.seq + 1] ∧ u.rst.latest = some l ∧ l.seq = s.rst.seq + 1 ∧ l.cause = 1 ∧
          l.level = (if (resetPolicy s).startL1 then 1 else 0) ∧ l.index = c.val ∧ l.start = timeAt t s)) ∧
  (∀ (s : State) (t : Nat) (c : Core) (q : Queue) (o : SyncOp), s.tab.state = 0 → clusterInReset s (c.val / 16) = false →
    overdueOp (atTime t s) c.val q.val = none → overdueSync (atTime t s) c.val q.val = some o →
    ∃ u, exec (.deadlineMiss t c q) s = .next u ∧ counted 0x7001 s u ∧
      (callerOff s = false → s.led.state ≠ 5 → s.rst.active = [] → s.rst.done = [] → s.tab.arm.getLsbD 16 = false →
        ∃ l : Level, u.rst.latest = some l ∧ l.cause = 1 ∧ l.level = (if (resetPolicy s).startL1 then 1 else 0))) ∧
  (∀ (s : State) (t : Nat), callerOff s = false →
    ∃ u, exec (.callerWatchdogExpiry t) s = .next u ∧ u.rst.callerIn = true ∧ counted 0x7001 s u ∧
      (∀ g, g < 38 → (gate u g).closed = 1) ∧ u.boot.shutdown = 0 ∧
      (s.rst.active = [] → ∃ l : Level, u.rst.latest = some l ∧ l.seq = s.rst.seq + 1 ∧ l.level = 4 ∧ l.cause = 5 ∧
        l.start = timeAt t s)) ∧
  (∀ (s : State) (t : Nat) (ok : Bool) (snap : Snapshot) (slot : Nat), callerOff s = false →
    s.crash.buffer = some (snap, slot) → slot < 40 → snap.evtOf = none → s.crash.redo = false →
    ∃ u, exec (.hangSnapshotCopyDone t ok) s = .next u ∧ u.crash.buffer = none ∧
      (tget {} slot u.crash.slots).state = (if ok then 2 else 3) ∧ (tget {} slot u.crash.slots).snap.isSome = true ∧
      u.crash.taken = (if ok then satAdd 0xFFFFFFFF s.crash.taken 1 else s.crash.taken) ∧
      (ok = true → records 0x7006 0x2000 snap.rstSeq.toNat (64 + 152 * slot) (b2n (!snap.incomplete)) s u) ∧
      (∀ k, k ≠ slot → tget {} k u.crash.slots = tget {} k s.crash.slots))

/-- R60, R61, R369 to R372, R375 to R380: a level's steps. Acknowledged containments let its scope stop; the reset is
asserted and released, for L4 with the caller's restart at B2; the level completes, or its deadline passes and the next
level above starts, and after L4 the chip is DEAD. -/
def Obligations.ResetSteps : Prop :=
  (∀ (s : State) (t : Nat) (seq : Word) (l : Level), activeOf s seq = some l → l.phase = 1 →
    (∀ x ∈ s.hz.contained, x.2.resets.contains seq = true → allAcked x.2 = true) →
    ∃ u, exec (.resetContainAcked t seq) s = .next u ∧ activeOf u seq = some { l with phase := 2 } ∧
      (3 ≤ l.level → s.rst.withdrawn = true → u.rst.naking = true) ∧
      (3 ≤ l.level → ∀ b, b < 256 → (barrier u b).state ≠ 1 ∧ (barrier u b).state ≠ 2)) ∧
  (∀ (s : State) (t : Nat) (seq : Word) (l : Level), activeOf s seq = some l → l.phase = 2 →
    ∃ u, exec (.resetAssert t seq) s = .next u ∧ activeOf u seq = some { l with phase := 3 } ∧
      (l.level = 0 → l.index < 256 → (queueOf u l.index l.queue).halted = true) ∧
      (1 ≤ l.level → ∀ c ∈ scopeCores l, coreInReset u c = true) ∧
      (2 ≤ l.level → ∀ k, k < 16 → k ∈ scopeClusters l → clusterInReset u k = true) ∧
      (l.level = 4 → u.rst.callerIn = true) ∧
      (l.level = 1 → l.index < 256 → s.adj.replays = [] → s.adj.slots = [] →
        ∀ o ∈ bankObjects s l.index, (object u o).value = 0 ∧ (object u o).subs = [])) ∧
  (∀ (s : State) (t : Nat) (seq : Word) (l : Level), activeOf s seq = some l → l.phase = 3 →
    ∃ u, exec (.resetRelease t seq) s = .next u ∧ activeOf u seq = some { l with phase := 4 } ∧
      (1 ≤ l.level → l.level < 4 → ∀ c ∈ scopeCores l, coreInReset u c = false) ∧
      (l.level = 4 → u.rst.callerIn = false ∧ u.ctxs = [] ∧ u.boot.stage = 2 ∧ u.boot.state = 0 ∧ u.boot.kind = 3)) ∧
  (∀ (s : State) (t : Nat) (seq : Word) (l : Level), activeOf s seq = some l → l.phase = 4 → callerOff s = false →
    levelReady s l = true →
    ∃ u, exec (.resetLevelComplete t seq) s = .next u ∧ activeOf u seq = none ∧ counted 0x7005 s u ∧
      (l.level, l.index, l.queue, timeAt t s) ∈ u.rst.done ∧
      (3 ≤ l.level → u.rst.naking = false ∧ u.rst.withdrawn = false)) ∧
  (∀ (s : State) (t : Nat) (seq : Word) (l : Level), activeOf s seq = some l → l.start + levelDeadline l.level ≤ timeAt t s →
    seq ≠ s.rst.seq + 1 →
    ∃ u, exec (.resetLevelOverrun t seq) s = .next u ∧ activeOf u seq = none ∧ counted 0x7002 s u ∧
      (l.level < 4 → ∃ k : Level, u.rst.latest = some k ∧ k.seq = s.rst.seq + 1 ∧ k.level = l.level + 1 ∧ k.cause = 2 ∧
        k.start = timeAt t s) ∧
      (l.level = 4 → u.led.state = 5 ∧ u.rst.callerIn = true ∧ ∀ p, (fport u p).width = 0))

/-- R58, R284, R285, R287 to R294: tempo. LIMIT_ACTIVE and the frequencies are kept; a canary lowers the interval's slack
and backs its domain off at the trip; the evaluation gives each domain its state; the chosen domain of lowest number
descends by one step; holds and learned floors end; a set-point is read back; a third failure of a frame is a fault, which
asserts VSAFE_N and returns every domain to 750 mV. -/
def Obligations.TempoSteps : Prop :=
  (∀ (s : State) (t : Nat) (active : Bool),
    ∃ u, exec (.limitActiveChange t active) s = .next u ∧ onlyChanges [.now, .tempo] s u ∧
      u.tempo = { s.tempo with limit := active, limitSeen := s.tempo.limitSeen || active }) ∧
  (∀ (s : State) (t mhz at_ : Nat) (cl : Cluster),
    ∃ u, exec (.frequencyChangeNotice t cl mhz at_) s = .next u ∧ onlyChanges [.now, .tempo] s u ∧
      tget 1100 cl.val u.tempo.freq = mhz ∧ u.tempo.doms = s.tempo.doms) ∧
  (∀ (s : State) (t canary : Nat) (d : Cluster) (slack : Int), callerOff s = false →
    ∃ u, exec (.canaryReport t d canary slack) s = .next u ∧ (∀ k, k ≠ d.val → domain u k = domain s k) ∧
      ((∀ p, tempoPolicy s = some p → (p.canaryTrip : Int) < clampSlack slack) → onlyChanges [.now, .tempo] s u ∧
        domain u d.val = { domain s d.val with slack := min (domain s d.val).slack (clampSlack slack) }) ∧
      ∀ p, tempoPolicy s = some p → clampSlack slack ≤ (p.canaryTrip : Int) → tempoEnabled s d.val = true →
        (domain s d.val).cmd = none →
        let x := domain u d.val
        x.chosen = false ∧ x.cause = 4 ∧ x.holdEnd = timeAt t s + p.holdS * second ∧
        x.learnedEnd = timeAt t s + p.learnS * second ∧ x.cmd.isSome = true ∧
        x.learned = max (learnedNow (atTime t s) d.val) (lowestRecent (atTime t s) d.val + p.stepDown) ∧
        (x.setpoint = min 1500 ((domain s d.val).setpoint + 2 * p.stepUp) ∨ (x.state = 6 ∧ x.setpoint = 1500))) ∧
  (∀ (s : State) (t : Nat) (p : TempoPolicy), tempoPolicy s = some p → s.tempo.began + p.evalS * second ≤ timeAt t s →
    s.tab.state = 0 → callerOff s = false →
    ∃ u, exec (.tempoEvaluation t) s = .next u ∧ onlyChanges [.now, .tempo] s u ∧ u.tempo.began = timeAt t s ∧
      u.tempo.limitSeen = s.tempo.limit ∧
      ∀ d, d < 16 →
        let e := evalDomain (atTime t s) d
        let x := domain s d
        domain u d = { x with state := e.1, chosen := e.2, canary := x.slack, slack := 100, passes := 0 }) ∧
  (∀ (s : State) (t : Nat) (d : Cluster) (p : TempoPolicy), tempoPolicy s = some p → (domain s d.val).chosen = true →
    (∀ k, k < d.val → (domain s k).chosen = false) →
    s.tempo.lastDescent + p.spacingMs * 1000000 ≤ timeAt t s → s.tab.state = 0 → callerOff s = false →
    (domain s d.val).cmd = none →
    ∃ u, exec (.tempoStep t d) s = .next u ∧ onlyChanges [.now, .tempo, .out] s u ∧
      (mayDescend (atTime t s) d.val p = true →
        let v := (domain s d.val).setpoint - p.stepDown
        (domain u d.val).setpoint = v ∧ (domain u d.val).chosen = false ∧ (domain u d.val).state = 2 ∧
        u.tempo.lastDescent = timeAt t s ∧ u.out.avs = (d.val, (v + 1) / 2) :: s.out.avs ∧
        (domain u d.val).cmd.map (fun c => (c.mv, c.since, c.kind)) = some ((v + 1) / 2, timeAt t s, 1)) ∧
      (mayDescend (atTime t s) d.val p = false →
        domain u d.val = { domain s d.val with chosen := false } ∧ u.out = s.out)) ∧
  (∀ (s : State) (t : Nat) (d : Cluster), callerOff s = false →
    (∃ u, exec (.tempoHoldEnd t d) s = .next u ∧ onlyChanges [.now, .tempo] s u ∧
      ((domain s d.val).holdEnd ≠ 0 → (domain s d.val).holdEnd ≤ timeAt t s → domain u d.val = { domain s d.val with
        holdEnd := 0, state := if (domain s d.val).state = 4 then 1 else (domain s d.val).state })) ∧
    ∃ u, exec (.learnedFloorExpiry t d) s = .next u ∧ onlyChanges [.now, .tempo] s u ∧
      ((domain s d.val).learnedEnd ≤ timeAt t s → domain u d.val = { domain s d.val with learned := 0, learnedEnd := 0 })) ∧
  (∀ (s : State) (t vout : Nat) (d : Cluster) (c : AvsCmd), (domain s d.val).cmd = some c → callerOff s = false →
    c.since + c.settle ≤ timeAt t s →
    ∃ u, exec (.avsSettleExpiry t d vout) s = .next u ∧
      let near := vout ≤ c.mv + 5 ∧ c.mv ≤ vout + 5
      (near → (domain u d.val).cmd = none ∧ (domain u d.val).readback = vout ∧
        (domain u d.val).setpoint = (domain s d.val).setpoint ∧ (c.kind = 1 ∨ c.kind = 2 → counted 0x4001 s u) ∧
        (c.kind = 3 → counted 0x4002 s u)) ∧
      (¬ near → c.again = false → (domain u d.val).cmd = some { c with again := true, since := timeAt t s } ∧
        (domain u d.val).readback = vout ∧ u.evt = s.evt) ∧
      (¬ near → c.again = true → u.tempo.vsafe = true ∧ u.tempo.off = true ∧ (domain u d.val).fault = true ∧ counted 0x4004 s u ∧
        ∀ k, k < 16 → (domain u k).setpoint = 1500)) ∧
  (∀ (s : State) (t : Nat) (d : Cluster) (x : FrameFailure), callerOff s = false →
    ∃ u, exec (.avsFrameFail t d x) s = .next u ∧
      let f := frameFailures (timeAt t s) x.frame (domain s d.val)
      (f.2 ≤ 2 → domain u d.val = { domain s d.val with frame := some (x.frame, f) } ∧ u.evt = s.evt) ∧
      (2 < f.2 → u.tempo.vsafe = true ∧ u.tempo.off = true ∧ (domain u d.val).fault = true ∧ counted 0x4004 s u ∧
        ∀ k, k < 16 → (domain u k).setpoint = 1500))

/-- R263 to R266, R270, R275, R276: the end of an interval computes the bound, sends the 128-byte report with its CRC to the
fabric manager of the policy and starts the counts again; at the drain limit every context ends; a drained chip is
quiescent, and QUARANTINED from DRAINING. -/
def Obligations.LedgerSteps : Prop :=
  (∀ (s : State) (t : Nat) (p : LedgerPolicy), ledgerPolicy s = some p → s.led.running = true →
    s.led.began + 60 * second ≤ timeAt t s → callerOff s = false →
    let b := boundOf (atTime t s) p
    ∃ u, exec (.ledgerIntervalEnd t) s = .next u ∧ counted 0x3003 s u ∧ u.led.x = f64Bits b.x ∧ u.led.uwr = f64Bits b.uwr ∧
      u.led.k = s.led.k + s.led.kInterval ∧ u.led.kInterval = 0 ∧ u.led.mt = 0 ∧ u.led.mc = 0 ∧ u.led.vt = 0 ∧ u.led.vc = 0 ∧
      u.led.vf = 0 ∧ u.led.bt = 0 ∧ u.led.bc = 0 ∧ u.led.det = [] ∧ u.led.seq = s.led.seq + 1 ∧
      u.led.began = s.led.began + 60 * second ∧ u.led.report.length = 128 ∧
      u.led.report.drop 124 = toLe 4 (crc32c (u.led.report.take 124)).toNat ∧ u.out.mgmt = ((p.fmChip, p.fmAddr), u.led.report) :: s.out.mgmt) ∧
  (∀ (s : State) (t : Nat) (p : LedgerPolicy), ledgerPolicy s = some p → draining s = true → s.tab.state = 0 →
    callerOff s = false → s.led.e + s.led.drainHeld + p.drainMs * 1000000 ≤ timeAt t s →
    ∃ u, exec (.drainLimitExpiry t) s = .next u ∧ u.ctxs = [] ∧ u.led = { s.led with limitEnded := s.led.limitEnded + s.ctxs.length }) ∧
  (∀ (s : State) (t : Nat), draining s = true → drainedNow s = true → callerOff s = false → s.cfg.active ≠ none →
    ∃ u, exec (.drained t) s = .next u ∧ u.led.quiescent = true ∧ counted 0x3002 s u ∧
      u.led.state = (if s.led.state = 2 then 3 else s.led.state) ∧
      (otpGen s 7 < 2 → u.led.flag = otpGen s 7 + 1) ∧ (2 ≤ otpGen s 7 → u.led.flag = 3))

/-- The step of the block: the command at the front of the queue runs on the state with the rest of the queue; with nothing
waiting the block idles, which is the model's choice (log entry 2). -/
def Obligations.StepRunsFront : Prop :=
  (∀ (s : State) (c : Instr) (rest : List Instr),
    step { s with pending := c :: rest } = exec c { s with pending := rest }) ∧
  (∀ (s : State), s.pending = [] → step s = .next s)

/-- R16, R34, R60, R272, R299, R448: power-on reset. Everything that software cannot reach before PWR_OK is held: the caller
and every core in reset, no gate point has taken a broadcast, the service state STARTING, every domain at 750 mV with
VSAFE_N asserted; and the invariants of the machine hold there. -/
def Obligations.ResetLeaves : Prop :=
  let s := State.reset
  s.pending = [] ∧ s.boot.pwrOk = false ∧ s.rst.callerIn = true ∧ (∀ c, c < 256 → coreInReset s c = true) ∧
  (∀ c, c < 16 → clusterInReset s c = true) ∧ (∀ g, g < 38 → (gate s g).opened = false) ∧ s.led.state = 0 ∧
  (∀ d, d < 16 → (domain s d).setpoint = 1500) ∧ s.tempo.vsafe = true ∧ s.cfg.epoch = 0 ∧ s.cfg.active = none ∧ s.evt.head = 0 ∧
  s.evt.threshold = 3 ∧ s.trace.ctl = 0x48000002 ∧ s.ctxs = [] ∧ (∀ b, b < 256 → (barrier s b).state = 0) ∧
  (∀ c, c < 256 → (station s c).tapFloor = 1 ∧ (station s c).slots = [] ∧ (station s c).pins = []) ∧ invariant s

/-- R402, R404, R472, R491, R299: from every state that meets the invariant, every step leads to one that meets it: memory
in its canonical form, no ingress FIFO of the recorder above 256 records, the out-of-band queue within 64 entries, no
set-point above nominal. From every state, a bit of OTP that is 1 stays 1. -/
def Obligations.EveryStepKeepsInvariant : Prop :=
  ∀ s t : State, step s = .next t → otpGrows s.boot t.boot ∧ (invariant s → invariant t)

/-- R31, R32, R196, R198: while the power stays on, the horizon at every gate point never decreases, and a gated item leaves
only from a gate point whose horizon lies at least 4 ns past its start time. -/
def Obligations.EveryStepKeepsGate : Prop :=
  ∀ s t : State, step s = .next t → s.pending.head? ≠ some .supplyLoss → gatesOnward s.hz t.hz ∧ leftBehindHorizon s t

/-- What a command leaves alone: the parts of the state outside its frame, and, for the commands that store to one place
that they name, every other byte of memory. -/
def Obligations.Frames : Prop :=
  (∀ (c : Instr) (s t : State), exec c s = .next t → onlyChanges (frame c) s t) ∧
  (∀ (c : Instr) (s t : State) (rs : List (Nat × Nat)), stores s c = some rs → exec c s = .next t →
    ∀ a, (∀ r ∈ rs, a < r.1 ∨ r.1 + r.2 ≤ a) → tget (0 : Byte) a t.mem = tget 0 a s.mem)

end
end

