-- ==== Sys2Proof/Laws/Frame.lean ====
section
/-! SUPPORT. Frames: which parts of the state an operation can change, as a relation that composes. -/

namespace Sys2Proof.Laws

open Sys2Proof.Machine Sys2Proof.Safety

/-- Every part of the first list is in the second. -/
def within (qs ps : List Part) : Bool := qs.all fun p => ps.contains p

theorem within_trans {a b c : List Part} (h : within a b = true) (k : within b c = true) : within a c = true := by
  simp only [within, List.all_eq_true, List.contains_iff_mem] at *
  exact fun x hx => k x (h x hx)
theorem within_mem {a b : List Part} {p : Part} (h : within a b = true) (k : a.contains p = true) : p ∈ b := by
  simp only [within, List.all_eq_true, List.contains_iff_mem] at *
  exact h p k

theorem only_refl (ps : List Part) (s : State) : onlyChanges ps s s := ⟨rfl, fun p _ => by cases p <;> rfl⟩
theorem only_trans {ps : List Part} {s t u : State} (h : onlyChanges ps s t) (k : onlyChanges ps t u) : onlyChanges ps s u :=
  ⟨k.1.trans h.1, fun p hp => by
    have a := h.2 p hp
    have b := k.2 p hp
    cases p <;> exact b.trans a⟩
theorem only_mono {qs ps : List Part} {s t : State} (hw : within qs ps = true) (h : onlyChanges qs s t) : onlyChanges ps s t :=
  ⟨h.1, fun p hp => h.2 p fun hq => hp (by
    simp only [within, List.all_eq_true, List.contains_iff_mem] at hw
    exact hw p hq)⟩
theorem only_ite {ps : List Part} {c : Prop} [Decidable c] {s a b : State} (ha : onlyChanges ps s a) (hb : onlyChanges ps s b) :
    onlyChanges ps s (if c then a else b) := by
  split <;> assumption
theorem only_foldl {α : Type} {ps : List Part} {r : State} {f : State → α → State} (h : ∀ s x, onlyChanges ps s (f s x))
    (l : List α) (s : State) (h0 : onlyChanges ps r s) : onlyChanges ps r (l.foldl f s) := by
  induction l generalizing s with
  | nil => exact h0
  | cons a l ih => exact ih _ (only_trans h0 (h s a))
theorem only_foldl2 {α β : Type} {ps : List Part} {f : β × State → α → β × State}
    (h : ∀ x p σ, onlyChanges ps σ x.2 → onlyChanges ps σ (f x p).2) (l : List α) (x : β × State) {σ : State}
    (h0 : onlyChanges ps σ x.2) : onlyChanges ps σ (l.foldl f x).2 := by
  induction l generalizing x with
  | nil => exact h0
  | cons a l ih => exact ih _ (h x a σ h0)
theorem updEvt_only {σ : State} {ps : List Part} (hp : within [.evt] ps = true) (f) (s : State) (h0 : onlyChanges ps σ s) :
    onlyChanges ps σ (updEvt f s) :=
  only_trans h0 ⟨rfl, fun p h => by cases p <;> first | rfl | exact absurd (within_mem hp rfl) h⟩
theorem updCrash_only {σ : State} {ps : List Part} (hp : within [.crash] ps = true) (f) (s : State) (h0 : onlyChanges ps σ s) :
    onlyChanges ps σ (updCrash f s) :=
  only_trans h0 ⟨rfl, fun p h => by cases p <;> first | rfl | exact absurd (within_mem hp rfl) h⟩
theorem updCfg_only {σ : State} {ps : List Part} (hp : within [.cfg] ps = true) (f) (s : State) (h0 : onlyChanges ps σ s) :
    onlyChanges ps σ (updCfg f s) :=
  only_trans h0 ⟨rfl, fun p h => by cases p <;> first | rfl | exact absurd (within_mem hp rfl) h⟩
theorem updHz_only {σ : State} {ps : List Part} (hp : within [.hz] ps = true) (f) (s : State) (h0 : onlyChanges ps σ s) :
    onlyChanges ps σ (updHz f s) :=
  only_trans h0 ⟨rfl, fun p h => by cases p <;> first | rfl | exact absurd (within_mem hp rfl) h⟩
theorem updAdj_only {σ : State} {ps : List Part} (hp : within [.adj] ps = true) (f) (s : State) (h0 : onlyChanges ps σ s) :
    onlyChanges ps σ (updAdj f s) :=
  only_trans h0 ⟨rfl, fun p h => by cases p <;> first | rfl | exact absurd (within_mem hp rfl) h⟩
theorem updLed_only {σ : State} {ps : List Part} (hp : within [.led] ps = true) (f) (s : State) (h0 : onlyChanges ps σ s) :
    onlyChanges ps σ (updLed f s) :=
  only_trans h0 ⟨rfl, fun p h => by cases p <;> first | rfl | exact absurd (within_mem hp rfl) h⟩
theorem updTempo_only {σ : State} {ps : List Part} (hp : within [.tempo] ps = true) (f) (s : State) (h0 : onlyChanges ps σ s) :
    onlyChanges ps σ (updTempo f s) :=
  only_trans h0 ⟨rfl, fun p h => by cases p <;> first | rfl | exact absurd (within_mem hp rfl) h⟩
theorem updSync_only {σ : State} {ps : List Part} (hp : within [.sync] ps = true) (f) (s : State) (h0 : onlyChanges ps σ s) :
    onlyChanges ps σ (updSync f s) :=
  only_trans h0 ⟨rfl, fun p h => by cases p <;> first | rfl | exact absurd (within_mem hp rfl) h⟩
theorem updRst_only {σ : State} {ps : List Part} (hp : within [.rst] ps = true) (f) (s : State) (h0 : onlyChanges ps σ s) :
    onlyChanges ps σ (updRst f s) :=
  only_trans h0 ⟨rfl, fun p h => by cases p <;> first | rfl | exact absurd (within_mem hp rfl) h⟩
theorem updTab_only {σ : State} {ps : List Part} (hp : within [.tab] ps = true) (f) (s : State) (h0 : onlyChanges ps σ s) :
    onlyChanges ps σ (updTab f s) :=
  only_trans h0 ⟨rfl, fun p h => by cases p <;> first | rfl | exact absurd (within_mem hp rfl) h⟩
theorem updTrace_only {σ : State} {ps : List Part} (hp : within [.trace] ps = true) (f) (s : State) (h0 : onlyChanges ps σ s) :
    onlyChanges ps σ (updTrace f s) :=
  only_trans h0 ⟨rfl, fun p h => by cases p <;> first | rfl | exact absurd (within_mem hp rfl) h⟩
theorem updBoot_only {σ : State} {ps : List Part} (hp : within [.boot] ps = true) (f) (s : State) (h0 : onlyChanges ps σ s) :
    onlyChanges ps σ (updBoot f s) :=
  only_trans h0 ⟨rfl, fun p h => by cases p <;> first | rfl | exact absurd (within_mem hp rfl) h⟩
theorem updI3c_only {σ : State} {ps : List Part} (hp : within [.i3c] ps = true) (f) (s : State) (h0 : onlyChanges ps σ s) :
    onlyChanges ps σ (updI3c f s) :=
  only_trans h0 ⟨rfl, fun p h => by cases p <;> first | rfl | exact absurd (within_mem hp rfl) h⟩
theorem updOut_only {σ : State} {ps : List Part} (hp : within [.out] ps = true) (f) (s : State) (h0 : onlyChanges ps σ s) :
    onlyChanges ps σ (updOut f s) :=
  only_trans h0 ⟨rfl, fun p h => by cases p <;> first | rfl | exact absurd (within_mem hp rfl) h⟩
end Sys2Proof.Laws
end

