-- ==== Sys2Proof/Laws/FrameUnits.lean ====
section
/-! SUPPORT. The frame of every operation and meaning of the shared operations, the gate, objects, tempo, the ledger and the stations: one lemma each, from those of the operations it calls. -/

namespace Sys2Proof.Laws

open Sys2Proof Sys2Proof.Machine Sys2Proof.Safety

theorem updStation_only {σ : State} {ps : List Part} (hp : within [.stations] ps = true) (c : Nat) (f :
    Station → Station) (s : State) (h0 : onlyChanges ps σ s) : onlyChanges ps σ (updStation c f s) := by
  refine only_trans h0 ?_; clear h0; unfold updStation
  repeat' (first
    | with_reducible exact only_refl _ _ | assumption | with_reducible apply only_ite | (intro _; try dsimp only)
    | dsimp only
    | exact ⟨rfl, fun p h => by cases p <;> first | (with_reducible rfl) | exact absurd (within_mem hp rfl) h⟩)

theorem updGate_only {σ : State} {ps : List Part} (hp : within [.hz] ps = true) (g : Nat) (f : GatePoint →
    GatePoint) (s : State) (h0 : onlyChanges ps σ s) : onlyChanges ps σ (updGate g f s) := by
  refine only_trans h0 ?_; clear h0; unfold updGate
  repeat' (first
    | with_reducible exact only_refl _ _ | assumption | with_reducible apply updHz_only (within_trans rfl hp))

theorem updDomain_only {σ : State} {ps : List Part} (hp : within [.tempo] ps = true) (d : Nat) (f : Domain →
    Domain) (s : State) (h0 : onlyChanges ps σ s) : onlyChanges ps σ (updDomain d f s) := by
  refine only_trans h0 ?_; clear h0; unfold updDomain
  repeat' (first
    | with_reducible exact only_refl _ _ | assumption | with_reducible apply updTempo_only (within_trans rfl hp))

theorem updObject_only {σ : State} {ps : List Part} (hp : within [.sync] ps = true) (o : Nat) (f : Obj → Obj)
    (s : State) (h0 : onlyChanges ps σ s) : onlyChanges ps σ (updObject o f s) := by
  refine only_trans h0 ?_; clear h0; unfold updObject
  repeat' (first
    | with_reducible exact only_refl _ _ | assumption | with_reducible apply updSync_only (within_trans rfl hp))

theorem updBarrier_only {σ : State} {ps : List Part} (hp : within [.sync] ps = true) (b : Nat) (f : Barrier →
    Barrier) (s : State) (h0 : onlyChanges ps σ s) : onlyChanges ps σ (updBarrier b f s) := by
  refine only_trans h0 ?_; clear h0; unfold updBarrier
  repeat' (first
    | with_reducible exact only_refl _ _ | assumption | with_reducible apply updSync_only (within_trans rfl hp))

theorem updFPort_only {σ : State} {ps : List Part} (hp : within [.sync] ps = true) (p : Nat) (f : FPort →
    FPort) (s : State) (h0 : onlyChanges ps σ s) : onlyChanges ps σ (updFPort p f s) := by
  refine only_trans h0 ?_; clear h0; unfold updFPort
  repeat' (first
    | with_reducible exact only_refl _ _ | assumption | with_reducible apply updSync_only (within_trans rfl hp))

theorem updCtx_only {σ : State} {ps : List Part} (hp : within [.ctxs] ps = true) (c : Nat) (f : Ctx → Ctx) (s
    : State) (h0 : onlyChanges ps σ s) : onlyChanges ps σ (updCtx c f s) := by
  refine only_trans h0 ?_; clear h0; unfold updCtx
  repeat' (first
    | with_reducible exact only_refl _ _ | assumption | with_reducible apply only_ite | (split <;> try dsimp only)
    | (intro _; try dsimp only) | dsimp only
    | exact ⟨rfl, fun p h => by cases p <;> first | (with_reducible rfl) | exact absurd (within_mem hp rfl) h⟩)

theorem atTime_only {σ : State} {ps : List Part} (hp : within [.now] ps = true) (t : Nat) (s : State) (h0 :
    onlyChanges ps σ s) : onlyChanges ps σ (atTime t s) := by
  refine only_trans h0 ?_; clear h0; unfold atTime
  repeat' (first
    | with_reducible exact only_refl _ _ | assumption | with_reducible apply only_ite | (intro _; try dsimp only)
    | dsimp only
    | exact ⟨rfl, fun p h => by cases p <;> first | (with_reducible rfl) | exact absurd (within_mem hp rfl) h⟩)

theorem fresh_only {σ : State} {ps : List Part} (hp : within [.free] ps = true) (s : State) (h0 : onlyChanges
    ps σ s) : onlyChanges ps σ (fresh s).2 := by
  refine only_trans h0 ?_; clear h0; unfold fresh
  (try dsimp only)
  repeat' (first
    | with_reducible exact only_refl _ _ | assumption | with_reducible apply only_ite | (intro _; try dsimp only)
    | dsimp only
    | exact ⟨rfl, fun p h => by cases p <;> first | (with_reducible rfl) | exact absurd (within_mem hp rfl) h⟩)

theorem memPut_only {σ : State} {ps : List Part} (hp : within [.mem, .memPoison] ps = true) (poison : Bool) (a
    : Nat) (bs : List Byte) (s : State) (h0 : onlyChanges ps σ s) : onlyChanges ps σ (memPut poison a bs s) := by
  refine only_trans h0 ?_; clear h0; unfold memPut
  repeat' (first
    | with_reducible exact only_refl _ _ | assumption | with_reducible apply only_ite | (intro _; try dsimp only)
    | dsimp only
    | exact ⟨rfl, fun p h => by cases p <;> first | (with_reducible rfl) | exact absurd (within_mem hp rfl) h⟩)

theorem memWrite_only {σ : State} {ps : List Part} (hp : within [.mem, .memPoison] ps = true) (a : Nat) (bs :
    List Byte) (s : State) (h0 : onlyChanges ps σ s) : onlyChanges ps σ (memWrite a bs s) := by
  refine only_trans h0 ?_; clear h0; unfold memWrite
  repeat' (first
    | with_reducible exact only_refl _ _ | assumption | with_reducible apply memPut_only (within_trans rfl hp))

theorem memStore_only {σ : State} {ps : List Part} (hp : within [.mem, .memPoison] ps = true) (poison : Bool)
    (a : Nat) (bs : List Byte) (s : State) (h0 : onlyChanges ps σ s) : onlyChanges ps σ (memStore poison a bs
    s) := by
  refine only_trans h0 ?_; clear h0; unfold memStore
  repeat' (first
    | with_reducible exact only_refl _ _ | assumption | with_reducible apply memPut_only (within_trans rfl hp)
    | with_reducible apply only_ite)

theorem setResult_only {σ : State} {ps : List Part} (hp : within [.cfg] ps = true) (reg : Nat) (r : Requester)
    (v : Nat) (s : State) (h0 : onlyChanges ps σ s) : onlyChanges ps σ (setResult reg r v s) := by
  refine only_trans h0 ?_; clear h0; unfold setResult
  repeat' (first
    | with_reducible exact only_refl _ _ | assumption | with_reducible apply updCfg_only (within_trans rfl hp))

theorem lineAligns_only {σ : State} {ps : List Part} (hp : within [.trace, .out] ps = true) (p n d : Nat)
    (tseq : Word) (s : State) (h0 : onlyChanges ps σ s) : onlyChanges ps σ (lineAligns p n d tseq s) := by
  refine only_trans h0 ?_; clear h0; unfold lineAligns
  (try dsimp only)
  repeat' (first
    | with_reducible exact only_refl _ _ | assumption | with_reducible apply updTrace_only (within_trans rfl hp)
    | with_reducible apply updOut_only (within_trans rfl hp))

theorem lineIdle_only {σ : State} {ps : List Part} (hp : within [.trace, .out] ps = true) (p : Nat) (tseq :
    Word) (s : State) (h0 : onlyChanges ps σ s) : onlyChanges ps σ (lineIdle p tseq s) := by
  refine only_trans h0 ?_; clear h0; unfold lineIdle
  (try dsimp only)
  repeat' (first
    | with_reducible exact only_refl _ _ | assumption | with_reducible apply lineAligns_only (within_trans rfl hp)
    | with_reducible apply only_ite)

theorem linePut_only {σ : State} {ps : List Part} (hp : within [.trace, .out] ps = true) (p : Nat) (us : List
    (BitVec 256)) (s : State) (h0 : onlyChanges ps σ s) : onlyChanges ps σ (linePut p us s) := by
  refine only_trans h0 ?_; clear h0; unfold linePut
  (try dsimp only)
  repeat' (first
    | with_reducible exact only_refl _ _ | assumption | with_reducible apply lineIdle_only (within_trans rfl hp)
    | with_reducible apply lineAligns_only (within_trans rfl hp)
    | with_reducible apply updTrace_only (within_trans rfl hp)
    | with_reducible apply updOut_only (within_trans rfl hp) | with_reducible apply only_ite)

theorem startFlush_only {σ : State} {ps : List Part} (hp : within [.trace] ps = true) (s : State) (h0 :
    onlyChanges ps σ s) : onlyChanges ps σ (startFlush s) := by
  refine only_trans h0 ?_; clear h0; unfold startFlush
  (try dsimp only)
  repeat' (first
    | with_reducible exact only_refl _ _ | assumption | with_reducible apply updTrace_only (within_trans rfl hp))

theorem routeSend_only {σ : State} {ps : List Part} (hp : within [.trace, .out] ps = true) (us : List (BitVec
    256)) (s : State) (h0 : onlyChanges ps σ s) : onlyChanges ps σ (routeSend us s) := by
  refine only_trans h0 ?_; clear h0; unfold routeSend
  repeat' (first
    | with_reducible exact only_refl _ _ | assumption | with_reducible apply linePut_only (within_trans rfl hp)
    | with_reducible apply startFlush_only (within_trans rfl hp)
    | with_reducible apply updTrace_only (within_trans rfl hp) | with_reducible apply only_ite)

theorem traceDrop_only {σ : State} {ps : List Part} (hp : within [.trace] ps = true) (port : Bool) (time :
    Nat) (tseq : Word) (s : State) (h0 : onlyChanges ps σ s) : onlyChanges ps σ (traceDrop port time tseq s) := by
  refine only_trans h0 ?_; clear h0; unfold traceDrop
  repeat' (first
    | with_reducible exact only_refl _ _ | assumption | with_reducible apply updTrace_only (within_trans rfl hp))

theorem traceVia_only {σ : State} {ps : List Part} (hp : within [.trace] ps = true) (port : Bool) (room : Nat
    → Bool) (send : List (BitVec 256) → State → State) (type : Nat) (source : BitVec 16) (time units : Nat)
    (body : List Byte) (s : State) (hsend : ∀ x0 {σ s : State}, onlyChanges ps σ s → onlyChanges ps σ (send x0
    s)) (h0 : onlyChanges ps σ s) : onlyChanges ps σ (traceVia port room send type source time units body s).1 := by
  refine only_trans h0 ?_; clear h0; unfold traceVia
  (try dsimp only)
  repeat' (first
    | with_reducible exact only_refl _ _ | assumption | with_reducible apply updTrace_only (within_trans rfl hp)
    | with_reducible apply traceDrop_only (within_trans rfl hp) | with_reducible apply hsend
    | with_reducible apply only_ite | (split <;> try dsimp only))

theorem traceEmit_only {σ : State} {ps : List Part} (hp : within [.trace, .out] ps = true) (type : Nat)
    (source : BitVec 16) (time units : Nat) (body : List Byte) (s : State) (h0 : onlyChanges ps σ s) :
    onlyChanges ps σ (traceEmit type source time units body s).1 := by
  refine only_trans h0 ?_; clear h0; unfold traceEmit
  repeat' (first
    | with_reducible exact only_refl _ _ | assumption | with_reducible apply traceVia_only (within_trans rfl hp)
    | with_reducible apply routeSend_only (within_trans rfl hp) | with_reducible apply only_ite
    | (intro _; try dsimp only))

theorem linesUp_only {σ : State} {ps : List Part} (hp : within [.trace, .out] ps = true) (s : State) (h0 :
    onlyChanges ps σ s) : onlyChanges ps σ (linesUp s) := by
  refine only_trans h0 ?_; clear h0; unfold linesUp
  (try dsimp only)
  repeat' (first
    | with_reducible exact only_refl _ _ | assumption | with_reducible apply lineAligns_only (within_trans rfl hp)
    | with_reducible apply lineIdle_only (within_trans rfl hp)
    | with_reducible apply updTrace_only (within_trans rfl hp) | with_reducible apply only_ite)

theorem linesLock_only {σ : State} {ps : List Part} (hp : within [.trace, .out] ps = true) (pll : Bool) (s :
    State) (h0 : onlyChanges ps σ s) : onlyChanges ps σ (linesLock pll s) := by
  refine only_trans h0 ?_; clear h0; unfold linesLock
  (try dsimp only)
  repeat' (first
    | with_reducible exact only_refl _ _ | assumption | with_reducible apply updTrace_only (within_trans rfl hp)
    | with_reducible apply linesUp_only (within_trans rfl hp) | with_reducible apply only_ite)

theorem traceDropAll_only {ps : List Part} (hp : within [.trace] ps = true)  : ∀ ls {σ s : State}, onlyChanges
    ps σ s → onlyChanges ps σ (traceDropAll  ls s) := by
  intro ls
  induction ls with
  | nil => intro σ s h; exact h
  | cons a l ih =>
    intro σ s h0
    cases a with
    | aligns => exact ih h0
    | record => exact ih (traceDrop_only (within_trans rfl hp) _ _ _ _ h0)

theorem linesDown_only {σ : State} {ps : List Part} (hp : within [.trace, .out] ps = true) (s : State) (h0 :
    onlyChanges ps σ s) : onlyChanges ps σ (linesDown s) := by
  refine only_trans h0 ?_; clear h0; unfold linesDown
  (try dsimp only)
  repeat' (first
    | with_reducible exact only_refl _ _ | assumption | with_reducible apply updTrace_only (within_trans rfl hp)
    | with_reducible apply updOut_only (within_trans rfl hp)
    | with_reducible apply traceDropAll_only (within_trans rfl hp))

theorem msix_only {σ : State} {ps : List Part} (hp : within [.out] ps = true) (v : Nat) (s : State) (h0 :
    onlyChanges ps σ s) : onlyChanges ps σ (msix v s) := by
  refine only_trans h0 ?_; clear h0; unfold msix
  repeat' (first
    | with_reducible exact only_refl _ _ | assumption | with_reducible apply updOut_only (within_trans rfl hp))

theorem raiseIbi_only {σ : State} {ps : List Part} (hp : within [.i3c, .out] ps = true) (s : State) (h0 :
    onlyChanges ps σ s) : onlyChanges ps σ (raiseIbi s) := by
  refine only_trans h0 ?_; clear h0; unfold raiseIbi
  (try dsimp only)
  repeat' (first
    | with_reducible exact only_refl _ _ | assumption | with_reducible apply only_ite | (split <;> try dsimp only)
    | (intro _; try dsimp only) | dsimp only
    | exact ⟨rfl, fun p h => by cases p <;> first | (with_reducible rfl) | exact absurd (within_mem hp rfl) h⟩)

theorem oobAdd_only {σ : State} {ps : List Part} (hp : within [.i3c, .out] ps = true) (kind : Nat) (body :
    List Byte) (s : State) (h0 : onlyChanges ps σ s) : onlyChanges ps σ (oobAdd kind body s) := by
  refine only_trans h0 ?_; clear h0; unfold oobAdd
  (try dsimp only)
  repeat' (first
    | with_reducible exact only_refl _ _ | assumption | with_reducible apply updI3c_only (within_trans rfl hp)
    | with_reducible apply raiseIbi_only (within_trans rfl hp) | with_reducible apply only_ite
    | (split <;> try dsimp only))

theorem tableauTrigger_only {σ : State} {ps : List Part} (hp : within [.tab] ps = true) (source : Nat) (s :
    State) (h0 : onlyChanges ps σ s) : onlyChanges ps σ (tableauTrigger source s) := by
  refine only_trans h0 ?_; clear h0; unfold tableauTrigger
  repeat' (first
    | with_reducible exact only_refl _ _ | assumption | with_reducible apply updTab_only (within_trans rfl hp)
    | with_reducible apply only_ite)

theorem eventTrigger_only {σ : State} {ps : List Part} (hp : within [.tab] ps = true) (code : BitVec 16) (s :
    State) (h0 : onlyChanges ps σ s) : onlyChanges ps σ (eventTrigger code s) := by
  refine only_trans h0 ?_; clear h0; unfold eventTrigger
  repeat' (first
    | with_reducible exact only_refl _ _ | assumption | with_reducible apply tableauTrigger_only (within_trans rfl hp)
    | with_reducible apply updTab_only (within_trans rfl hp) | with_reducible apply only_ite)

theorem occurEv_only {σ : State} {ps : List Part} (hp : within [.evt, .tab] ps = true) (ev : Ev) (s : State)
    (h0 : onlyChanges ps σ s) : onlyChanges ps σ (occurEv ev s) := by
  refine only_trans h0 ?_; clear h0; unfold occurEv
  repeat' (first
    | with_reducible exact only_refl _ _ | assumption | with_reducible apply eventTrigger_only (within_trans rfl hp)
    | with_reducible apply updEvt_only (within_trans rfl hp))

theorem occur_only {σ : State} {ps : List Part} (hp : within [.evt, .tab] ps = true) (code : BitVec 16) (src :
    BitVec 16) (p1 p2 p3 : Nat) (s : State) (h0 : onlyChanges ps σ s) : onlyChanges ps σ (occur code src p1 p2
    p3 s) := by
  refine only_trans h0 ?_; clear h0; unfold occur
  repeat' (first
    | with_reducible exact only_refl _ _ | assumption | with_reducible apply occurEv_only (within_trans rfl hp))

theorem occurDeferred_only {σ : State} {ps : List Part} (hp : within [.evt, .tab] ps = true) (code : BitVec
    16) (src : BitVec 16) (p1 p2 p3 : Nat) (s : State) (h0 : onlyChanges ps σ s) : onlyChanges ps σ
    (occurDeferred code src p1 p2 p3 s) := by
  refine only_trans h0 ?_; clear h0; unfold occurDeferred
  repeat' (first
    | with_reducible exact only_refl _ _ | assumption | with_reducible apply occurEv_only (within_trans rfl hp))

theorem noteGap_only {σ : State} {ps : List Part} (hp : within [.evt, .tab] ps = true) (d : Option (Word ×
    Word × Word)) (s : State) (h0 : onlyChanges ps σ s) : onlyChanges ps σ (noteGap d s) := by
  refine only_trans h0 ?_; clear h0; unfold noteGap
  repeat' (first
    | with_reducible exact only_refl _ _ | assumption | with_reducible apply occurEv_only (within_trans rfl hp)
    | with_reducible apply only_ite | (split <;> try dsimp only))

theorem traceAlways_only {σ : State} {ps : List Part} (hp : within [.evt, .tab, .trace, .out] ps = true) (type
    : Nat) (source : BitVec 16) (time units : Nat) (body : List Byte) (s : State) (h0 : onlyChanges ps σ s) :
    onlyChanges ps σ (traceAlways type source time units body s) := by
  refine only_trans h0 ?_; clear h0; unfold traceAlways
  (try dsimp only)
  repeat' (first
    | with_reducible exact only_refl _ _ | assumption | with_reducible apply traceEmit_only (within_trans rfl hp)
    | with_reducible apply noteGap_only (within_trans rfl hp))

theorem traceRec_only {σ : State} {ps : List Part} (hp : within [.evt, .tab, .trace, .out] ps = true) (type :
    Nat) (source : BitVec 16) (time units : Nat) (body : List Byte) (s : State) (h0 : onlyChanges ps σ s) :
    onlyChanges ps σ (traceRec type source time units body s) := by
  refine only_trans h0 ?_; clear h0; unfold traceRec
  repeat' (first
    | with_reducible exact only_refl _ _ | assumption | with_reducible apply traceAlways_only (within_trans rfl hp)
    | with_reducible apply only_ite)

theorem updQueue_only {σ : State} {ps : List Part} (hp : within [.stations] ps = true) (c q : Nat) (f : QState
    → QState) (s : State) (h0 : onlyChanges ps σ s) : onlyChanges ps σ (updQueue c q f s) := by
  refine only_trans h0 ?_; clear h0; unfold updQueue
  repeat' (first
    | with_reducible exact only_refl _ _ | assumption | with_reducible apply updStation_only (within_trans rfl hp))

theorem startSync_only {σ : State} {ps : List Part} (hp : within [.stations] ps = true) (c q op deadline :
    Nat) (s : State) (h0 : onlyChanges ps σ s) : onlyChanges ps σ (startSync c q op deadline s) := by
  refine only_trans h0 ?_; clear h0; unfold startSync
  repeat' (first
    | with_reducible exact only_refl _ _ | assumption | with_reducible apply updQueue_only (within_trans rfl hp))

theorem retireSync_only {σ : State} {ps : List Part} (hp : within [.stations, .out] ps = true) (c q : Nat)
    (opid : BitVec 16) (status : Nat) (value : Word) (s : State) (h0 : onlyChanges ps σ s) : onlyChanges ps σ
    (retireSync c q opid status value s) := by
  refine only_trans h0 ?_; clear h0; unfold retireSync
  repeat' (first
    | with_reducible exact only_refl _ _ | assumption | with_reducible apply updOut_only (within_trans rfl hp)
    | with_reducible apply updQueue_only (within_trans rfl hp))

theorem retireWait_only {σ : State} {ps : List Part} (hp : within [.stations, .out] ps = true) (c q w : Nat)
    (opid : BitVec 16) (status : Nat) (value : Word) (s : State) (h0 : onlyChanges ps σ s) : onlyChanges ps σ
    (retireWait c q w opid status value s) := by
  refine only_trans h0 ?_; clear h0; unfold retireWait
  repeat' (first
    | with_reducible exact only_refl _ _ | assumption | with_reducible apply retireSync_only (within_trans rfl hp)
    | with_reducible apply updQueue_only (within_trans rfl hp))

theorem freeWatch_only {σ : State} {ps : List Part} (hp : within [.stations, .sync] ps = true) (c w : Nat) (s
    : State) (h0 : onlyChanges ps σ s) : onlyChanges ps σ (freeWatch c w s) := by
  refine only_trans h0 ?_; clear h0; unfold freeWatch
  repeat' (first
    | with_reducible exact only_refl _ _ | assumption | with_reducible apply updSync_only (within_trans rfl hp)
    | with_reducible apply updStation_only (within_trans rfl hp))

theorem traceMsg_only {σ : State} {ps : List Part} (hp : within [.evt, .tab, .trace, .out] ps = true) (trace :
    Nat) (port : Nat) (type : Nat) (chip : ChipId) (m : SyncMsg) (s : State) (h0 : onlyChanges ps σ s) :
    onlyChanges ps σ (traceMsg trace port type chip m s) := by
  refine only_trans h0 ?_; clear h0; unfold traceMsg
  repeat' (first
    | with_reducible exact only_refl _ _ | assumption | with_reducible apply traceRec_only (within_trans rfl hp)
    | with_reducible apply only_ite)

theorem sendMsg_only {σ : State} {ps : List Part} (hp : within [.evt, .sync, .tab, .trace, .out] ps = true)
    (type : Nat) (chip : ChipId) (m : SyncMsg) (s : State) (h0 : onlyChanges ps σ s) : onlyChanges ps σ
    (sendMsg type chip m s) := by
  refine only_trans h0 ?_; clear h0; unfold sendMsg
  repeat' (first
    | with_reducible exact only_refl _ _ | assumption | with_reducible apply traceMsg_only (within_trans rfl hp)
    | with_reducible apply updOut_only (within_trans rfl hp)
    | with_reducible apply updFPort_only (within_trans rfl hp) | with_reducible apply only_ite)

theorem sendWaiting_only {ps : List Part} (hp : within [.evt, .sync, .tab, .trace, .out] ps = true)  : ∀ ls {σ
    s : State}, onlyChanges ps σ s → onlyChanges ps σ (sendWaiting  ls s) := by
  intro ls
  induction ls with
  | nil => intro σ s h; exact h
  | cons a l ih =>
    intro σ s h0
    refine only_trans h0 ?_; clear h0; unfold sendWaiting
    repeat' (first
      | with_reducible exact only_refl _ _ | with_reducible apply ih | assumption
      | with_reducible apply sendMsg_only (within_trans rfl hp))

theorem updContainment_only {σ : State} {ps : List Part} (hp : within [.hz] ps = true) (ctx : Nat) (f :
    Containment → Containment) (s : State) (h0 : onlyChanges ps σ s) : onlyChanges ps σ (updContainment ctx f
    s) := by
  refine only_trans h0 ?_; clear h0; unfold updContainment
  repeat' (first
    | with_reducible exact only_refl _ _ | assumption | with_reducible apply updHz_only (within_trans rfl hp))

theorem contain_only {σ : State} {ps : List Part} (hp : within [.hz] ps = true) (ctx tc : Nat) (cu : Option
    (Nat × Word)) (reset : Option Word) (s : State) (h0 : onlyChanges ps σ s) : onlyChanges ps σ (contain ctx
    tc cu reset s) := by
  refine only_trans h0 ?_; clear h0; unfold contain
  (try dsimp only)
  repeat' (first
    | with_reducible exact only_refl _ _ | assumption
    | with_reducible apply updContainment_only (within_trans rfl hp))

theorem updTallies_only {σ : State} {ps : List Part} (hp : within [.stations] ps = true) (c q : Nat) (f : List
    Tally → List Tally) (s : State) (h0 : onlyChanges ps σ s) : onlyChanges ps σ (updTallies c q f s) := by
  refine only_trans h0 ?_; clear h0; unfold updTallies
  repeat' (first
    | with_reducible exact only_refl _ _ | assumption | with_reducible apply updStation_only (within_trans rfl hp))

theorem updUnacked_only {σ : State} {ps : List Part} (hp : within [.stations] ps = true) (c q : Nat) (chip :
    ChipId) (f : Nat → Nat) (s : State) (h0 : onlyChanges ps σ s) : onlyChanges ps σ (updUnacked c q chip f s) := by
  refine only_trans h0 ?_; clear h0; unfold updUnacked
  repeat' (first
    | with_reducible exact only_refl _ _ | assumption | with_reducible apply updStation_only (within_trans rfl hp))

theorem traceGate_only {σ : State} {ps : List Part} (hp : within [.evt, .tab, .trace, .out] ps = true) (g :
    Nat) (i : GItem) (s : State) (h0 : onlyChanges ps σ s) : onlyChanges ps σ (traceGate g i s) := by
  refine only_trans h0 ?_; clear h0; unfold traceGate
  (try dsimp only)
  repeat' (first
    | with_reducible exact only_refl _ _ | assumption | with_reducible apply traceRec_only (within_trans rfl hp))

theorem retireSignal_only {σ : State} {ps : List Part} (hp : within [.stations, .out] ps = true) (i : GItem)
    (s : State) (h0 : onlyChanges ps σ s) : onlyChanges ps σ (retireSignal i s) := by
  refine only_trans h0 ?_; clear h0; unfold retireSignal
  (try dsimp only)
  repeat' (first
    | with_reducible exact only_refl _ _ | assumption | with_reducible apply retireSync_only (within_trans rfl hp)
    | with_reducible apply only_ite | (split <;> try dsimp only))

theorem leave_only {σ : State} {ps : List Part} (hp : within [.evt, .stations, .tab, .trace, .out] ps = true)
    (g : Nat) (i : GItem) (s : State) (h0 : onlyChanges ps σ s) : onlyChanges ps σ (leave g i s) := by
  refine only_trans h0 ?_; clear h0; unfold leave
  (try dsimp only)
  repeat' (first
    | with_reducible exact only_refl _ _ | assumption | with_reducible apply traceGate_only (within_trans rfl hp)
    | with_reducible apply traceMsg_only (within_trans rfl hp)
    | with_reducible apply updOut_only (within_trans rfl hp)
    | with_reducible apply retireSignal_only (within_trans rfl hp) | with_reducible apply only_ite
    | (split <;> try dsimp only))

theorem scanRelease_only {ps : List Part} (hp : within [.evt, .stations, .tab, .trace, .out] ps = true) (g :
    Nat) : ∀ ls v0 {σ s : State}, onlyChanges ps σ s → onlyChanges ps σ (scanRelease g ls v0 s).2 := by
  intro ls
  induction ls with
  | nil => intro v0 σ s h; exact h
  | cons a l ih =>
    intro v0 σ s h0
    refine only_trans h0 ?_; clear h0; unfold scanRelease
    (try dsimp only)
    repeat' (first
      | with_reducible exact only_refl _ _ | with_reducible apply ih | assumption
      | with_reducible apply leave_only (within_trans rfl hp) | with_reducible apply only_ite
      | (split <;> try dsimp only))

theorem release0_only {σ : State} {ps : List Part} (hp : within [.evt, .stations, .hz, .tab, .trace, .out] ps
    = true) (g : Nat) (s : State) (h0 : onlyChanges ps σ s) : onlyChanges ps σ (release0 g s) := by
  refine only_trans h0 ?_; clear h0; unfold release0
  (try dsimp only)
  repeat' (first
    | with_reducible exact only_refl _ _ | assumption | with_reducible apply scanRelease_only (within_trans rfl hp)
    | with_reducible apply updGate_only (within_trans rfl hp))

theorem dropAtProducer_only {σ : State} {ps : List Part} (hp : within [.stations, .out] ps = true) (i : GItem)
    (s : State) (h0 : onlyChanges ps σ s) : onlyChanges ps σ (dropAtProducer i s) := by
  refine only_trans h0 ?_; clear h0; unfold dropAtProducer
  repeat' (first
    | with_reducible exact only_refl _ _ | assumption | with_reducible apply updStation_only (within_trans rfl hp)
    | with_reducible apply retireSignal_only (within_trans rfl hp) | with_reducible apply only_ite)

theorem dropContained_only {σ : State} {ps : List Part} (hp : within [.stations, .hz, .out] ps = true) (i :
    GItem) (s : State) (h0 : onlyChanges ps σ s) : onlyChanges ps σ (dropContained i s) := by
  refine only_trans h0 ?_; clear h0; unfold dropContained
  (try dsimp only)
  repeat' (first
    | with_reducible exact only_refl _ _ | assumption | with_reducible apply updHz_only (within_trans rfl hp)
    | with_reducible apply updContainment_only (within_trans rfl hp)
    | with_reducible apply dropAtProducer_only (within_trans rfl hp))

theorem dropAll_only {ps : List Part} (hp : within [.stations, .hz, .out] ps = true)  : ∀ ls {σ s : State},
    onlyChanges ps σ s → onlyChanges ps σ (dropAll  ls s) := by
  intro ls
  induction ls with
  | nil => intro σ s h; exact h
  | cons a l ih =>
    intro σ s h0
    refine only_trans h0 ?_; clear h0; unfold dropAll
    repeat' (first
      | with_reducible exact only_refl _ _ | with_reducible apply ih | assumption
      | with_reducible apply dropContained_only (within_trans rfl hp))

theorem takePlace_only {σ : State} {ps : List Part} (hp : within [.evt, .stations, .hz, .tab, .trace, .out] ps
    = true) (g : Nat) (i : GItem) (s : State) (h0 : onlyChanges ps σ s) : onlyChanges ps σ (takePlace g i s) := by
  refine only_trans h0 ?_; clear h0; unfold takePlace
  repeat' (first
    | with_reducible exact only_refl _ _ | assumption | with_reducible apply dropContained_only (within_trans rfl hp)
    | with_reducible apply release0_only (within_trans rfl hp)
    | with_reducible apply updGate_only (within_trans rfl hp) | with_reducible apply only_ite)

theorem giveCredit_only {ps : List Part} (hp : within [.evt, .stations, .hz, .tab, .trace, .out] ps = true) (g
    : Nat) : ∀ ls {σ s : State}, onlyChanges ps σ s → onlyChanges ps σ (giveCredit g ls s) := by
  intro ls
  induction ls with
  | nil => intro σ s h; exact h
  | cons a l ih =>
    intro σ s h0
    refine only_trans h0 ?_; clear h0; unfold giveCredit
    repeat' (first
      | with_reducible exact only_refl _ _ | with_reducible apply ih | assumption
      | with_reducible apply takePlace_only (within_trans rfl hp)
      | with_reducible apply updGate_only (within_trans rfl hp) | with_reducible apply only_ite)

theorem putItem_only {σ : State} {ps : List Part} (hp : within [.evt, .stations, .hz, .tab, .trace, .out] ps =
    true) (g : Nat) (i : GItem) (s : State) (h0 : onlyChanges ps σ s) : onlyChanges ps σ (putItem g i s) := by
  refine only_trans h0 ?_; clear h0; unfold putItem
  (try dsimp only)
  repeat' (first
    | with_reducible exact only_refl _ _ | assumption | with_reducible apply updGate_only (within_trans rfl hp)
    | with_reducible apply giveCredit_only (within_trans rfl hp))

theorem tallyUp_only {σ : State} {ps : List Part} (hp : within [.free, .evt, .stations, .hz, .sync, .tab,
    .trace, .out] ps = true) (i : GItem) (s : State) (h0 : onlyChanges ps σ s) : onlyChanges ps σ (tallyUp i
    s) := by
  refine only_trans h0 ?_; clear h0; unfold tallyUp
  (try dsimp only)
  repeat' (first
    | with_reducible exact only_refl _ _ | assumption | with_reducible apply updSync_only (within_trans rfl hp)
    | with_reducible apply updUnacked_only (within_trans rfl hp)
    | with_reducible apply fresh_only (within_trans rfl hp)
    | with_reducible apply updTallies_only (within_trans rfl hp)
    | with_reducible apply putItem_only (within_trans rfl hp) | with_reducible apply only_ite
    | (split <;> try dsimp only))

theorem scanTally_only {ps : List Part} (hp : within [.free, .evt, .stations, .hz, .sync, .tab, .trace, .out]
    ps = true)  : ∀ ls {σ s : State}, onlyChanges ps σ s → onlyChanges ps σ (scanTally  ls s) := by
  intro ls
  induction ls with
  | nil => intro σ s h; exact h
  | cons a l ih =>
    intro σ s h0
    refine only_trans h0 ?_; clear h0; unfold scanTally
    repeat' (first
      | with_reducible exact only_refl _ _ | with_reducible apply ih | assumption
      | with_reducible apply tallyUp_only (within_trans rfl hp) | with_reducible apply only_ite)

theorem releaseItems_only {σ : State} {ps : List Part} (hp : within [.free, .evt, .stations, .hz, .sync, .tab,
    .trace, .out] ps = true) (g : Nat) (s : State) (h0 : onlyChanges ps σ s) : onlyChanges ps σ (releaseItems
    g s) := by
  refine only_trans h0 ?_; clear h0; unfold releaseItems
  (try dsimp only)
  repeat' (first
    | with_reducible exact only_refl _ _ | assumption | with_reducible apply release0_only (within_trans rfl hp)
    | with_reducible apply scanTally_only (within_trans rfl hp)
    | with_reducible apply giveCredit_only (within_trans rfl hp))

theorem sweepContained_only {σ : State} {ps : List Part} (hp : within [.stations, .hz, .out] ps = true) (g :
    Nat) (s : State) (h0 : onlyChanges ps σ s) : onlyChanges ps σ (sweepContained g s) := by
  refine only_trans h0 ?_; clear h0; unfold sweepContained
  (try dsimp only)
  repeat' (first
    | with_reducible exact only_refl _ _ | assumption | with_reducible apply dropAll_only (within_trans rfl hp)
    | with_reducible apply updGate_only (within_trans rfl hp))

theorem noteGating_only {σ : State} {ps : List Part} (hp : within [.cfg] ps = true) (s : State) (h0 :
    onlyChanges ps σ s) : onlyChanges ps σ (noteGating s) := by
  refine only_trans h0 ?_; clear h0; unfold noteGating
  repeat' (first
    | with_reducible exact only_refl _ _ | assumption | with_reducible apply updCfg_only (within_trans rfl hp))

theorem gateMsg_only {σ : State} {ps : List Part} (hp : within [.evt, .stations, .hz, .tab, .trace, .out] ps =
    true) (type : Nat) (core : Core) (queue : Queue) (opid : BitVec 16) (gated : Bool) (start ackNeed : Nat)
    (chip : ChipId) (m : SyncMsg) (s : State) (h0 : onlyChanges ps σ s) : onlyChanges ps σ (gateMsg type core
    queue opid gated start ackNeed chip m s) := by
  refine only_trans h0 ?_; clear h0; unfold gateMsg
  (try dsimp only)
  repeat' (first
    | with_reducible exact only_refl _ _ | assumption | with_reducible apply putItem_only (within_trans rfl hp))

theorem withhold_only {ps : List Part} (hp : within [.evt, .tab] ps = true) (ctx : Nat) : ∀ ls v0 v1 {σ s :
    State}, onlyChanges ps σ s → onlyChanges ps σ (withhold ctx ls v0 v1 s).2 := by
  intro ls
  induction ls with
  | nil => intro v0 v1 σ s h; exact h
  | cons a l ih =>
    intro v0 v1 σ s h0
    refine only_trans h0 ?_; clear h0; unfold withhold
    (try dsimp only)
    repeat' (first
      | with_reducible exact only_refl _ _ | with_reducible apply ih | assumption
      | with_reducible apply occur_only (within_trans rfl hp) | with_reducible apply only_ite
      | (split <;> try dsimp only))

theorem reportWithheld_only {σ : State} {ps : List Part} (hp : within [.evt, .ctxs, .tab] ps = true) (ctx :
    Nat) (s : State) (h0 : onlyChanges ps σ s) : onlyChanges ps σ (reportWithheld ctx s) := by
  refine only_trans h0 ?_; clear h0; unfold reportWithheld
  (try dsimp only)
  repeat' (first
    | with_reducible exact only_refl _ _ | assumption | with_reducible apply withhold_only (within_trans rfl hp)
    | with_reducible apply updCtx_only (within_trans rfl hp) | with_reducible apply only_ite
    | (split <;> try dsimp only))

theorem openIncident_only {σ : State} {ps : List Part} (hp : within [.evt, .ctxs, .tab] ps = true) (ctx reason
    step : Nat) (tag : Word) (s : State) (h0 : onlyChanges ps σ s) : onlyChanges ps σ (openIncident ctx reason
    step tag s) := by
  refine only_trans h0 ?_; clear h0; unfold openIncident
  repeat' (first
    | with_reducible exact only_refl _ _ | assumption | with_reducible apply reportWithheld_only (within_trans rfl hp)
    | with_reducible apply updCtx_only (within_trans rfl hp))

theorem openAtUnsealed_only {σ : State} {ps : List Part} (hp : within [.evt, .ctxs, .tab] ps = true) (ctx
    reason : Nat) (s : State) (h0 : onlyChanges ps σ s) : onlyChanges ps σ (openAtUnsealed ctx reason s) := by
  refine only_trans h0 ?_; clear h0; unfold openAtUnsealed
  repeat' (first
    | with_reducible exact only_refl _ _ | assumption | with_reducible apply openIncident_only (within_trans rfl hp)
    | with_reducible apply only_ite | (split <;> try dsimp only))

theorem closeAdjIncident_only {σ : State} {ps : List Part} (hp : within [.ctxs] ps = true) (ctx reason : Nat)
    (tag : Word) (confirmed : Bool) (s : State) (h0 : onlyChanges ps σ s) : onlyChanges ps σ (closeAdjIncident
    ctx reason tag confirmed s) := by
  refine only_trans h0 ?_; clear h0; unfold closeAdjIncident
  repeat' (first
    | with_reducible exact only_refl _ _ | assumption | with_reducible apply updCtx_only (within_trans rfl hp))

theorem sendRelease_only {σ : State} {ps : List Part} (hp : within [.evt, .stations, .hz, .sync, .tab, .trace,
    .out] ps = true) (o : Nat) (p : Word) (status : Nat) (value : Word) (start : Nat) (s : State) (h0 :
    onlyChanges ps σ s) : onlyChanges ps σ (sendRelease o p status value start s) := by
  refine only_trans h0 ?_; clear h0; unfold sendRelease
  (try dsimp only)
  repeat' (first
    | with_reducible exact only_refl _ _ | assumption | with_reducible apply updSync_only (within_trans rfl hp)
    | with_reducible apply gateMsg_only (within_trans rfl hp)
    | with_reducible apply sendMsg_only (within_trans rfl hp) | with_reducible apply only_ite)

theorem sendReleases_only {ps : List Part} (hp : within [.evt, .stations, .hz, .sync, .tab, .trace, .out] ps =
    true) (o status : Nat) (value : Word) (start : Nat) : ∀ ls {σ s : State}, onlyChanges ps σ s → onlyChanges
    ps σ (sendReleases o status value start ls s) := by
  intro ls
  induction ls with
  | nil => intro σ s h; exact h
  | cons a l ih =>
    intro σ s h0
    refine only_trans h0 ?_; clear h0; unfold sendReleases
    repeat' (first
      | with_reducible exact only_refl _ _ | with_reducible apply ih | assumption
      | with_reducible apply sendRelease_only (within_trans rfl hp))

theorem evalSubs_only {σ : State} {ps : List Part} (hp : within [.evt, .stations, .hz, .sync, .tab, .trace,
    .out] ps = true) (o start : Nat) (s : State) (h0 : onlyChanges ps σ s) : onlyChanges ps σ (evalSubs o
    start s) := by
  refine only_trans h0 ?_; clear h0; unfold evalSubs
  (try dsimp only)
  repeat' (first
    | with_reducible exact only_refl _ _ | assumption | with_reducible apply sendReleases_only (within_trans rfl hp)
    | with_reducible apply updObject_only (within_trans rfl hp))

theorem releaseAllSubs_only {σ : State} {ps : List Part} (hp : within [.evt, .stations, .hz, .sync, .tab,
    .trace, .out] ps = true) (o status : Nat) (s : State) (h0 : onlyChanges ps σ s) : onlyChanges ps σ
    (releaseAllSubs o status s) := by
  refine only_trans h0 ?_; clear h0; unfold releaseAllSubs
  (try dsimp only)
  repeat' (first
    | with_reducible exact only_refl _ _ | assumption | with_reducible apply sendReleases_only (within_trans rfl hp)
    | with_reducible apply updObject_only (within_trans rfl hp))

theorem hostWrite_only {σ : State} {ps : List Part} (hp : within [.evt, .stations, .hz, .tab, .trace, .out] ps
    = true) (o : Nat) (p : Word) (start : Nat) (s : State) (h0 : onlyChanges ps σ s) : onlyChanges ps σ
    (hostWrite o p start s) := by
  refine only_trans h0 ?_; clear h0; unfold hostWrite
  (try dsimp only)
  repeat' (first
    | with_reducible exact only_refl _ _ | assumption | with_reducible apply putItem_only (within_trans rfl hp)
    | with_reducible apply updGate_only (within_trans rfl hp) | with_reducible apply only_ite)

theorem change_only {σ : State} {ps : List Part} (hp : within [.evt, .stations, .hz, .sync, .tab, .trace,
    .out] ps = true) (o : Nat) (v : Word) (op : Nat) (p : Word) (start : Nat) (s : State) (h0 : onlyChanges ps
    σ s) : onlyChanges ps σ (change o v op p start s) := by
  refine only_trans h0 ?_; clear h0; unfold change
  (try dsimp only)
  repeat' (first
    | with_reducible exact only_refl _ _ | assumption | with_reducible apply updObject_only (within_trans rfl hp)
    | with_reducible apply hostWrite_only (within_trans rfl hp)
    | with_reducible apply evalSubs_only (within_trans rfl hp))

theorem releaseBarWaiters_only {σ : State} {ps : List Part} (hp : within [.sync] ps = true) (b status : Nat)
    (s : State) (h0 : onlyChanges ps σ s) : onlyChanges ps σ (releaseBarWaiters b status s) := by
  refine only_trans h0 ?_; clear h0; unfold releaseBarWaiters
  (try dsimp only)
  repeat' (first
    | with_reducible exact only_refl _ _ | assumption | with_reducible apply updSync_only (within_trans rfl hp)
    | with_reducible apply updBarrier_only (within_trans rfl hp))

theorem disarmOwned_only {ps : List Part} (hp : within [.sync] ps = true) (ctx : Nat) : ∀ ls {σ s : State},
    onlyChanges ps σ s → onlyChanges ps σ (disarmOwned ctx ls s) := by
  intro ls
  induction ls with
  | nil => intro σ s h; exact h
  | cons a l ih =>
    intro σ s h0
    refine only_trans h0 ?_; clear h0; unfold disarmOwned
    (try dsimp only)
    repeat' (first
      | with_reducible exact only_refl _ _ | with_reducible apply ih | assumption
      | with_reducible apply updBarrier_only (within_trans rfl hp)
      | with_reducible apply releaseBarWaiters_only (within_trans rfl hp) | with_reducible apply only_ite)

theorem clearObjects_only {ps : List Part} (hp : within [.sync] ps = true)  : ∀ ls {σ s : State}, onlyChanges
    ps σ s → onlyChanges ps σ (clearObjects  ls s) := by
  intro ls
  induction ls with
  | nil => intro σ s h; exact h
  | cons a l ih =>
    intro σ s h0
    refine only_trans h0 ?_; clear h0; unfold clearObjects
    repeat' (first
      | with_reducible exact only_refl _ _ | with_reducible apply ih | assumption
      | with_reducible apply updObject_only (within_trans rfl hp))

theorem releaseWatches_only {ps : List Part} (hp : within [.stations, .sync] ps = true) (status : Nat) : ∀ ls
    {σ s : State}, onlyChanges ps σ s → onlyChanges ps σ (releaseWatches status ls s) := by
  intro ls
  induction ls with
  | nil => intro σ s h; exact h
  | cons a l ih =>
    intro σ s h0
    refine only_trans h0 ?_; clear h0; unfold releaseWatches
    (try dsimp only)
    repeat' (first
      | with_reducible exact only_refl _ _ | with_reducible apply ih | assumption
      | with_reducible apply updSync_only (within_trans rfl hp)
      | with_reducible apply updStation_only (within_trans rfl hp)
      | with_reducible apply updObject_only (within_trans rfl hp) | with_reducible apply only_ite)

theorem releaseObjectSubs_only {ps : List Part} (hp : within [.evt, .stations, .hz, .sync, .tab, .trace, .out]
    ps = true) (status : Nat) : ∀ ls {σ s : State}, onlyChanges ps σ s → onlyChanges ps σ (releaseObjectSubs
    status ls s) := by
  intro ls
  induction ls with
  | nil => intro σ s h; exact h
  | cons a l ih =>
    intro σ s h0
    refine only_trans h0 ?_; clear h0; unfold releaseObjectSubs
    repeat' (first
      | with_reducible exact only_refl _ _ | with_reducible apply ih | assumption
      | with_reducible apply releaseAllSubs_only (within_trans rfl hp))

theorem settleCu_only {σ : State} {ps : List Part} (hp : within [.stations] ps = true) (c : Nat) (tag : Word)
    (s : State) (h0 : onlyChanges ps σ s) : onlyChanges ps σ (settleCu c tag s) := by
  refine only_trans h0 ?_; clear h0; unfold settleCu
  repeat' (first
    | with_reducible exact only_refl _ _ | assumption | with_reducible apply updStation_only (within_trans rfl hp))

theorem settleAll_only {ps : List Part} (hp : within [.stations] ps = true)  : ∀ ls {σ s : State}, onlyChanges
    ps σ s → onlyChanges ps σ (settleAll  ls s) := by
  intro ls
  induction ls with
  | nil => intro σ s h; exact h
  | cons a l ih =>
    intro σ s h0
    refine only_trans h0 ?_; clear h0; unfold settleAll
    repeat' (first
      | with_reducible exact only_refl _ _ | with_reducible apply ih | assumption
      | with_reducible apply settleCu_only (within_trans rfl hp))

theorem endContext_only {σ : State} {ps : List Part} (hp : within [.evt, .stations, .hz, .ctxs, .sync, .tab,
    .trace, .out] ps = true) (ctx cause : Nat) (s : State) (h0 : onlyChanges ps σ s) : onlyChanges ps σ
    (endContext ctx cause s) := by
  refine only_trans h0 ?_; clear h0; unfold endContext
  (try dsimp only)
  repeat' (first
    | with_reducible exact only_refl _ _ | assumption | with_reducible apply updSync_only (within_trans rfl hp)
    | with_reducible apply releaseWatches_only (within_trans rfl hp)
    | with_reducible apply releaseObjectSubs_only (within_trans rfl hp)
    | with_reducible apply disarmOwned_only (within_trans rfl hp)
    | with_reducible apply clearObjects_only (within_trans rfl hp)
    | with_reducible apply settleAll_only (within_trans rfl hp)
    | with_reducible apply updContainment_only (within_trans rfl hp)
    | with_reducible apply occur_only (within_trans rfl hp) | with_reducible apply only_ite
    | (split <;> try dsimp only) | (intro _; try dsimp only) | dsimp only
    | exact ⟨rfl, fun p h => by cases p <;> first | (with_reducible rfl) | exact absurd (within_mem hp rfl) h⟩)

theorem raiseSteps_only {ps : List Part} (hp : within [.stations] ps = true) (step : Nat) : ∀ ls {σ s :
    State}, onlyChanges ps σ s → onlyChanges ps σ (raiseSteps step ls s) := by
  intro ls
  induction ls with
  | nil => intro σ s h; exact h
  | cons a l ih =>
    intro σ s h0
    refine only_trans h0 ?_; clear h0; unfold raiseSteps
    (try dsimp only)
    repeat' (first
      | with_reducible exact only_refl _ _ | with_reducible apply ih | assumption
      | with_reducible apply updStation_only (within_trans rfl hp))

theorem observeStep_only {σ : State} {ps : List Part} (hp : within [.ctxs] ps = true) (ctx : Nat) (s : State)
    (h0 : onlyChanges ps σ s) : onlyChanges ps σ (observeStep ctx s) := by
  refine only_trans h0 ?_; clear h0; unfold observeStep
  repeat' (first
    | with_reducible exact only_refl _ _ | assumption | with_reducible apply updCtx_only (within_trans rfl hp)
    | with_reducible apply only_ite | (split <;> try dsimp only))

theorem atBoundary_only {σ : State} {ps : List Part} (hp : within [.evt, .stations, .hz, .ctxs, .sync, .tab,
    .trace, .out] ps = true) (ctx : Nat) (s : State) (h0 : onlyChanges ps σ s) : onlyChanges ps σ (atBoundary
    ctx s) := by
  refine only_trans h0 ?_; clear h0; unfold atBoundary
  repeat' (first
    | with_reducible exact only_refl _ _ | assumption | with_reducible apply endContext_only (within_trans rfl hp)
    | with_reducible apply only_ite)

theorem sealRequest_only {σ : State} {ps : List Part} (hp : within [.evt, .stations, .hz, .ctxs, .sync, .tab,
    .trace, .out] ps = true) (o n start : Nat) (s : State) (h0 : onlyChanges ps σ s) : onlyChanges ps σ
    (sealRequest o n start s) := by
  refine only_trans h0 ?_; clear h0; unfold sealRequest
  (try dsimp only)
  repeat' (first
    | with_reducible exact only_refl _ _ | assumption | with_reducible apply updCtx_only (within_trans rfl hp)
    | with_reducible apply raiseSteps_only (within_trans rfl hp)
    | with_reducible apply atBoundary_only (within_trans rfl hp)
    | with_reducible apply observeStep_only (within_trans rfl hp)
    | with_reducible apply reportWithheld_only (within_trans rfl hp) | with_reducible apply only_ite
    | (split <;> try dsimp only))

theorem applyOp_only {σ : State} {ps : List Part} (hp : within [.evt, .stations, .hz, .ctxs, .sync, .tab,
    .trace, .out] ps = true) (o op : Nat) (n : Word) (p : Word) (start : Nat) (s : State) (h0 : onlyChanges ps
    σ s) : onlyChanges ps σ (applyOp o op n p start s).2 := by
  refine only_trans h0 ?_; clear h0; unfold applyOp
  (try dsimp only)
  repeat' (first
    | with_reducible exact only_refl _ _ | assumption | with_reducible apply change_only (within_trans rfl hp)
    | with_reducible apply sealRequest_only (within_trans rfl hp)
    | with_reducible apply occur_only (within_trans rfl hp) | with_reducible apply only_ite
    | (split <;> try dsimp only))

theorem syncError_only {σ : State} {ps : List Part} (hp : within [.evt, .tab] ps = true) (src : BitVec 16)
    (name p : Word) (status op : Nat) (s : State) (h0 : onlyChanges ps σ s) : onlyChanges ps σ (syncError src
    name p status op s) := by
  refine only_trans h0 ?_; clear h0; unfold syncError
  repeat' (first
    | with_reducible exact only_refl _ _ | assumption | with_reducible apply occur_only (within_trans rfl hp))

theorem actOn_only {σ : State} {ps : List Part} (hp : within [.evt, .stations, .hz, .ctxs, .sync, .tab,
    .trace, .out] ps = true) (o op : Nat) (n : Word) (p : Word) (start : Nat) (s : State) (h0 : onlyChanges ps
    σ s) : onlyChanges ps σ (actOn o op n p start s).2 := by
  refine only_trans h0 ?_; clear h0; unfold actOn
  dsimp only
  split
  · exact syncError_only (within_trans rfl hp) _ _ _ _ _ _ (only_refl _ s)
  · have h := applyOp_only (ps := ps) (within_trans rfl hp) o op n p start s (only_refl _ s)
    rcases hx : applyOp o op n p start s with ⟨k, x⟩
    rw [hx] at h
    split
    · rename_i heq
      obtain ⟨rfl, rfl⟩ := Prod.mk.inj heq
      exact syncError_only (within_trans rfl hp) _ _ _ _ _ _ h
    · exact h

theorem otpBurn_only {σ : State} {ps : List Part} (hp : within [.boot] ps = true) (a : Nat) (bs : List Byte)
    (s : State) (h0 : onlyChanges ps σ s) : onlyChanges ps σ (otpBurn a bs s) := by
  refine only_trans h0 ?_; clear h0; unfold otpBurn
  repeat' (first
    | with_reducible exact only_refl _ _ | assumption | with_reducible apply updBoot_only (within_trans rfl hp))

theorem raiseNeed_only {σ : State} {ps : List Part} (hp : within [.i3c, .out] ps = true) (s : State) (h0 :
    onlyChanges ps σ s) : onlyChanges ps σ (raiseNeed s) := by
  refine only_trans h0 ?_; clear h0; unfold raiseNeed
  repeat' (first
    | with_reducible exact only_refl _ _ | assumption | with_reducible apply oobAdd_only (within_trans rfl hp)
    | with_reducible apply updI3c_only (within_trans rfl hp) | with_reducible apply only_ite
    | (split <;> try dsimp only))

theorem wantObjects_only {σ : State} {ps : List Part} (hp : within [.i3c, .out] ps = true) (os : List Nat) (s
    : State) (h0 : onlyChanges ps σ s) : onlyChanges ps σ (wantObjects os s) := by
  refine only_trans h0 ?_; clear h0; unfold wantObjects
  repeat' (first
    | with_reducible exact only_refl _ _ | assumption | with_reducible apply raiseNeed_only (within_trans rfl hp)
    | with_reducible apply updI3c_only (within_trans rfl hp))

theorem needSettled_only {σ : State} {ps : List Part} (hp : within [.boot, .i3c, .out] ps = true) (bytes :
    Option (List Byte)) (s : State) (h0 : onlyChanges ps σ s) : onlyChanges ps σ (needSettled bytes s) := by
  refine only_trans h0 ?_; clear h0; unfold needSettled
  (try dsimp only)
  repeat' (first
    | with_reducible exact only_refl _ _ | assumption | with_reducible apply updBoot_only (within_trans rfl hp)
    | with_reducible apply raiseNeed_only (within_trans rfl hp)
    | with_reducible apply updI3c_only (within_trans rfl hp) | with_reducible apply only_ite
    | (split <;> try dsimp only))

theorem startOffer_only {σ : State} {ps : List Part} (hp : within [.i3c, .out] ps = true) (obj : Nat) (bytes :
    List Byte) (s : State) (h0 : onlyChanges ps σ s) : onlyChanges ps σ (startOffer obj bytes s) := by
  refine only_trans h0 ?_; clear h0; unfold startOffer
  repeat' (first
    | with_reducible exact only_refl _ _ | assumption | with_reducible apply oobAdd_only (within_trans rfl hp)
    | with_reducible apply updI3c_only (within_trans rfl hp))

theorem offerObject_only {σ : State} {ps : List Part} (hp : within [.i3c, .out] ps = true) (obj : Nat) (bytes
    : List Byte) (s : State) (h0 : onlyChanges ps σ s) : onlyChanges ps σ (offerObject obj bytes s) := by
  refine only_trans h0 ?_; clear h0; unfold offerObject
  repeat' (first
    | with_reducible exact only_refl _ _ | assumption | with_reducible apply updI3c_only (within_trans rfl hp)
    | with_reducible apply startOffer_only (within_trans rfl hp) | with_reducible apply only_ite)

theorem nextOffer_only {σ : State} {ps : List Part} (hp : within [.i3c, .out] ps = true) (s : State) (h0 :
    onlyChanges ps σ s) : onlyChanges ps σ (nextOffer s) := by
  refine only_trans h0 ?_; clear h0; unfold nextOffer
  (try dsimp only)
  repeat' (first
    | with_reducible exact only_refl _ _ | assumption | with_reducible apply updI3c_only (within_trans rfl hp)
    | with_reducible apply startOffer_only (within_trans rfl hp) | with_reducible apply only_ite
    | (split <;> try dsimp only))

theorem dropShutRecord_only {σ : State} {ps : List Part} (hp : within [.i3c, .out] ps = true) (s : State) (h0
    : onlyChanges ps σ s) : onlyChanges ps σ (dropShutRecord s) := by
  refine only_trans h0 ?_; clear h0; unfold dropShutRecord
  (try dsimp only)
  repeat' (first
    | with_reducible exact only_refl _ _ | assumption | with_reducible apply updI3c_only (within_trans rfl hp)
    | with_reducible apply nextOffer_only (within_trans rfl hp) | with_reducible apply only_ite
    | (split <;> try dsimp only))

theorem offerImage_only {σ : State} {ps : List Part} (hp : within [.i3c, .out] ps = true) (type : Nat) (img :
    List Byte) (s : State) (h0 : onlyChanges ps σ s) : onlyChanges ps σ (offerImage type img s) := by
  refine only_trans h0 ?_; clear h0; unfold offerImage
  repeat' (first
    | with_reducible exact only_refl _ _ | assumption | with_reducible apply offerObject_only (within_trans rfl hp))

theorem setPoint_only {σ : State} {ps : List Part} (hp : within [.tempo] ps = true) (d v : Nat) (s : State)
    (h0 : onlyChanges ps σ s) : onlyChanges ps σ (setPoint d v s) := by
  refine only_trans h0 ?_; clear h0; unfold setPoint
  repeat' (first
    | with_reducible exact only_refl _ _ | assumption | with_reducible apply updDomain_only (within_trans rfl hp))

theorem avsCommand_only {σ : State} {ps : List Part} (hp : within [.tempo, .out] ps = true) (d kind old cause
    : Nat) (p2 : Word) (s : State) (h0 : onlyChanges ps σ s) : onlyChanges ps σ (avsCommand d kind old cause
    p2 s) := by
  refine only_trans h0 ?_; clear h0; unfold avsCommand
  (try dsimp only)
  repeat' (first
    | with_reducible exact only_refl _ _ | assumption | with_reducible apply updOut_only (within_trans rfl hp)
    | with_reducible apply updDomain_only (within_trans rfl hp))

theorem recordStep_only {σ : State} {ps : List Part} (hp : within [.evt, .tab] ps = true) (rise : Bool) (d old
    : Nat) (s : State) (h0 : onlyChanges ps σ s) : onlyChanges ps σ (recordStep rise d old s) := by
  refine only_trans h0 ?_; clear h0; unfold recordStep
  (try dsimp only)
  repeat' (first
    | with_reducible exact only_refl _ _ | assumption | with_reducible apply occur_only (within_trans rfl hp))

theorem recordReplaced_only {σ : State} {ps : List Part} (hp : within [.evt, .tab] ps = true) (steps : Bool)
    (d : Nat) (s : State) (h0 : onlyChanges ps σ s) : onlyChanges ps σ (recordReplaced steps d s) := by
  refine only_trans h0 ?_; clear h0; unfold recordReplaced
  repeat' (first
    | with_reducible exact only_refl _ _ | assumption | with_reducible apply recordStep_only (within_trans rfl hp)
    | with_reducible apply only_ite | (split <;> try dsimp only))

theorem toNominal_only {σ : State} {ps : List Part} (hp : within [.evt, .tempo, .tab, .out] ps = true) (d :
    Nat) (s : State) (h0 : onlyChanges ps σ s) : onlyChanges ps σ (toNominal d s) := by
  refine only_trans h0 ?_; clear h0; unfold toNominal
  (try dsimp only)
  repeat' (first
    | with_reducible exact only_refl _ _ | assumption | with_reducible apply updDomain_only (within_trans rfl hp)
    | with_reducible apply recordReplaced_only (within_trans rfl hp)
    | with_reducible apply avsCommand_only (within_trans rfl hp)
    | with_reducible apply setPoint_only (within_trans rfl hp) | with_reducible apply only_ite)

theorem allNominal_only {ps : List Part} (hp : within [.evt, .tempo, .tab, .out] ps = true)  : ∀ ls {σ s :
    State}, onlyChanges ps σ s → onlyChanges ps σ (allNominal  ls s) := by
  intro ls
  induction ls with
  | nil => intro σ s h; exact h
  | cons a l ih =>
    intro σ s h0
    refine only_trans h0 ?_; clear h0; unfold allNominal
    repeat' (first
      | with_reducible exact only_refl _ _ | with_reducible apply ih | assumption
      | with_reducible apply toNominal_only (within_trans rfl hp))

theorem leaveServing_only {σ : State} {ps : List Part} (hp : within [.evt, .tempo, .tab, .out] ps = true) (s :
    State) (h0 : onlyChanges ps σ s) : onlyChanges ps σ (leaveServing s) := by
  refine only_trans h0 ?_; clear h0; unfold leaveServing
  repeat' (first
    | with_reducible exact only_refl _ _ | assumption | with_reducible apply allNominal_only (within_trans rfl hp))

theorem lockDomain_only {σ : State} {ps : List Part} (hp : within [.evt, .tempo, .tab, .out] ps = true) (d :
    Nat) (p : TempoPolicy) (s : State) (h0 : onlyChanges ps σ s) : onlyChanges ps σ (lockDomain d p s) := by
  refine only_trans h0 ?_; clear h0; unfold lockDomain
  (try dsimp only)
  repeat' (first
    | with_reducible exact only_refl _ _ | assumption | with_reducible apply setPoint_only (within_trans rfl hp)
    | with_reducible apply updOut_only (within_trans rfl hp)
    | with_reducible apply updDomain_only (within_trans rfl hp)
    | with_reducible apply occur_only (within_trans rfl hp) | with_reducible apply only_ite)

theorem cancelStep_only {σ : State} {ps : List Part} (hp : within [.tempo, .out] ps = true) (d : Nat) (s :
    State) (h0 : onlyChanges ps σ s) : onlyChanges ps σ (cancelStep d s) := by
  refine only_trans h0 ?_; clear h0; unfold cancelStep
  repeat' (first
    | with_reducible exact only_refl _ _ | assumption | with_reducible apply updOut_only (within_trans rfl hp)
    | with_reducible apply updTempo_only (within_trans rfl hp)
    | with_reducible apply updDomain_only (within_trans rfl hp) | with_reducible apply only_ite
    | (split <;> try dsimp only))

theorem startBackoff_only {σ : State} {ps : List Part} (hp : within [.evt, .tempo, .tab, .out] ps = true) (d
    cause : Nat) (p2 : Word) (p : TempoPolicy) (s : State) (h0 : onlyChanges ps σ s) : onlyChanges ps σ
    (startBackoff d cause p2 p s) := by
  refine only_trans h0 ?_; clear h0; unfold startBackoff
  (try dsimp only)
  repeat' (first
    | with_reducible exact only_refl _ _ | assumption | with_reducible apply recordReplaced_only (within_trans rfl hp)
    | with_reducible apply setPoint_only (within_trans rfl hp)
    | with_reducible apply updDomain_only (within_trans rfl hp)
    | with_reducible apply lockDomain_only (within_trans rfl hp)
    | with_reducible apply avsCommand_only (within_trans rfl hp))

theorem backoff_only {σ : State} {ps : List Part} (hp : within [.evt, .tempo, .tab, .out] ps = true) (d cause
    : Nat) (p2 : Word) (s : State) (h0 : onlyChanges ps σ s) : onlyChanges ps σ (backoff d cause p2 s) := by
  refine only_trans h0 ?_; clear h0; unfold backoff
  (try dsimp only)
  repeat' (first
    | with_reducible exact only_refl _ _ | assumption | with_reducible apply updDomain_only (within_trans rfl hp)
    | with_reducible apply cancelStep_only (within_trans rfl hp)
    | with_reducible apply lockDomain_only (within_trans rfl hp)
    | with_reducible apply startBackoff_only (within_trans rfl hp) | with_reducible apply only_ite
    | (split <;> try dsimp only))

theorem backoffCore_only {σ : State} {ps : List Part} (hp : within [.evt, .tempo, .tab, .out] ps = true) (c
    cause : Nat) (p2 : Word) (s : State) (h0 : onlyChanges ps σ s) : onlyChanges ps σ (backoffCore c cause p2
    s) := by
  refine only_trans h0 ?_; clear h0; unfold backoffCore
  repeat' (first
    | with_reducible exact only_refl _ _ | assumption | with_reducible apply backoff_only (within_trans rfl hp))

theorem evalDomains_only {ps : List Part} (hp : within [.tempo] ps = true)  : ∀ ls {σ s : State}, onlyChanges
    ps σ s → onlyChanges ps σ (evalDomains  ls s) := by
  intro ls
  induction ls with
  | nil => intro σ s h; exact h
  | cons a l ih =>
    intro σ s h0
    refine only_trans h0 ?_; clear h0; unfold evalDomains
    (try dsimp only)
    repeat' (first
      | with_reducible exact only_refl _ _ | with_reducible apply ih | assumption
      | with_reducible apply updDomain_only (within_trans rfl hp))

theorem tempoEvaluate_only {σ : State} {ps : List Part} (hp : within [.tempo] ps = true) (s : State) (h0 :
    onlyChanges ps σ s) : onlyChanges ps σ (tempoEvaluate s) := by
  refine only_trans h0 ?_; clear h0; unfold tempoEvaluate
  repeat' (first
    | with_reducible exact only_refl _ _ | assumption | with_reducible apply updTempo_only (within_trans rfl hp)
    | with_reducible apply evalDomains_only (within_trans rfl hp) | with_reducible apply only_ite
    | (split <;> try dsimp only))

theorem tempoDescend_only {σ : State} {ps : List Part} (hp : within [.tempo, .out] ps = true) (d : Nat) (s :
    State) (h0 : onlyChanges ps σ s) : onlyChanges ps σ (tempoDescend d s) := by
  refine only_trans h0 ?_; clear h0; unfold tempoDescend
  (try dsimp only)
  repeat' (first
    | with_reducible exact only_refl _ _ | assumption | with_reducible apply updDomain_only (within_trans rfl hp)
    | with_reducible apply setPoint_only (within_trans rfl hp)
    | with_reducible apply updTempo_only (within_trans rfl hp)
    | with_reducible apply avsCommand_only (within_trans rfl hp) | with_reducible apply only_ite
    | (split <;> try dsimp only))

theorem riseToFloor_only {σ : State} {ps : List Part} (hp : within [.evt, .tempo, .tab, .out] ps = true) (d :
    Nat) (s : State) (h0 : onlyChanges ps σ s) : onlyChanges ps σ (riseToFloor d s) := by
  refine only_trans h0 ?_; clear h0; unfold riseToFloor
  (try dsimp only)
  repeat' (first
    | with_reducible exact only_refl _ _ | assumption | with_reducible apply recordReplaced_only (within_trans rfl hp)
    | with_reducible apply avsCommand_only (within_trans rfl hp)
    | with_reducible apply setPoint_only (within_trans rfl hp)
    | with_reducible apply recordStep_only (within_trans rfl hp) | with_reducible apply only_ite)

theorem applyPolicy_only {ps : List Part} (hp : within [.evt, .tempo, .tab, .out] ps = true) (unlock : Bool) :
    ∀ ls {σ s : State}, onlyChanges ps σ s → onlyChanges ps σ (applyPolicy unlock ls s) := by
  intro ls
  induction ls with
  | nil => intro σ s h; exact h
  | cons a l ih =>
    intro σ s h0
    refine only_trans h0 ?_; clear h0; unfold applyPolicy
    (try dsimp only)
    repeat' (first
      | with_reducible exact only_refl _ _ | with_reducible apply ih | assumption
      | with_reducible apply updDomain_only (within_trans rfl hp)
      | with_reducible apply toNominal_only (within_trans rfl hp)
      | with_reducible apply riseToFloor_only (within_trans rfl hp) | with_reducible apply only_ite)

theorem recordBackoff_only {σ : State} {ps : List Part} (hp : within [.evt, .tab] ps = true) (d : Nat) (c :
    AvsCmd) (s : State) (h0 : onlyChanges ps σ s) : onlyChanges ps σ (recordBackoff d c s) := by
  refine only_trans h0 ?_; clear h0; unfold recordBackoff
  (try dsimp only)
  repeat' (first
    | with_reducible exact only_refl _ _ | assumption | with_reducible apply occur_only (within_trans rfl hp))

theorem avsFault_only {σ : State} {ps : List Part} (hp : within [.evt, .tempo, .tab, .out] ps = true) (d kind
    written readBack : Nat) (s : State) (h0 : onlyChanges ps σ s) : onlyChanges ps σ (avsFault d kind written
    readBack s) := by
  refine only_trans h0 ?_; clear h0; unfold avsFault
  (try dsimp only)
  repeat' (first
    | with_reducible exact only_refl _ _ | assumption | with_reducible apply occur_only (within_trans rfl hp)
    | with_reducible apply updTempo_only (within_trans rfl hp)
    | with_reducible apply recordReplaced_only (within_trans rfl hp)
    | with_reducible apply recordBackoff_only (within_trans rfl hp)
    | with_reducible apply updDomain_only (within_trans rfl hp)
    | with_reducible apply applyPolicy_only (within_trans rfl hp) | with_reducible apply only_ite
    | (split <;> try dsimp only))

theorem avsSend_only {σ : State} {ps : List Part} (hp : within [.out] ps = true) (d : Nat) (fs : List
    AvsFrame) (s : State) (h0 : onlyChanges ps σ s) : onlyChanges ps σ (avsSend d fs s) := by
  refine only_trans h0 ?_; clear h0; unfold avsSend
  repeat' (first
    | with_reducible exact only_refl _ _ | assumption | with_reducible apply updOut_only (within_trans rfl hp))

theorem avsComplete_only {σ : State} {ps : List Part} (hp : within [.evt, .tempo, .tab] ps = true) (d vout :
    Nat) (c : AvsCmd) (s : State) (h0 : onlyChanges ps σ s) : onlyChanges ps σ (avsComplete d vout c s) := by
  refine only_trans h0 ?_; clear h0; unfold avsComplete
  (try dsimp only)
  repeat' (first
    | with_reducible exact only_refl _ _ | assumption | with_reducible apply updDomain_only (within_trans rfl hp)
    | with_reducible apply recordStep_only (within_trans rfl hp)
    | with_reducible apply recordBackoff_only (within_trans rfl hp) | with_reducible apply only_ite
    | (split <;> try dsimp only))

theorem avsSettled_only {σ : State} {ps : List Part} (hp : within [.evt, .tempo, .tab, .out] ps = true) (d
    vout : Nat) (s : State) (h0 : onlyChanges ps σ s) : onlyChanges ps σ (avsSettled d vout s) := by
  refine only_trans h0 ?_; clear h0; unfold avsSettled
  (try dsimp only)
  repeat' (first
    | with_reducible exact only_refl _ _ | assumption | with_reducible apply avsSend_only (within_trans rfl hp)
    | with_reducible apply avsComplete_only (within_trans rfl hp)
    | with_reducible apply updDomain_only (within_trans rfl hp)
    | with_reducible apply avsFault_only (within_trans rfl hp) | with_reducible apply only_ite
    | (split <;> try dsimp only))

theorem avsFrameFailed_only {σ : State} {ps : List Part} (hp : within [.evt, .tempo, .tab, .out] ps = true) (d
    : Nat) (k : FrameFailure) (s : State) (h0 : onlyChanges ps σ s) : onlyChanges ps σ (avsFrameFailed d k s) := by
  refine only_trans h0 ?_; clear h0; unfold avsFrameFailed
  (try dsimp only)
  repeat' (first
    | with_reducible exact only_refl _ _ | assumption | with_reducible apply updDomain_only (within_trans rfl hp)
    | with_reducible apply avsFault_only (within_trans rfl hp) | with_reducible apply only_ite)

theorem canaryReports_only {σ : State} {ps : List Part} (hp : within [.evt, .tempo, .tab, .out] ps = true) (d
    canary : Nat) (slack : Int) (s : State) (h0 : onlyChanges ps σ s) : onlyChanges ps σ (canaryReports d
    canary slack s) := by
  refine only_trans h0 ?_; clear h0; unfold canaryReports
  (try dsimp only)
  repeat' (first
    | with_reducible exact only_refl _ _ | assumption | with_reducible apply updDomain_only (within_trans rfl hp)
    | with_reducible apply backoff_only (within_trans rfl hp) | with_reducible apply only_ite
    | (split <;> try dsimp only))

theorem execLimitActiveChange_only (t : Nat) (active : Bool) (s : State) : ∃ s', execLimitActiveChange t
    active s = .next s' ∧ onlyChanges [.now, .tempo] s s' := by
  refine ⟨_, rfl, ?_⟩
  have hp : within [.now, .tempo] [.now, .tempo] = true := rfl
  repeat' (first
    | with_reducible exact only_refl _ _ | assumption | with_reducible apply updTempo_only (within_trans rfl hp)
    | with_reducible apply atTime_only (within_trans rfl hp))

theorem changeFreq_only {σ : State} {ps : List Part} (hp : within [.tempo] ps = true) (k mhz at_ : Nat) (s :
    State) (h0 : onlyChanges ps σ s) : onlyChanges ps σ (changeFreq k mhz at_ s) := by
  refine only_trans h0 ?_; clear h0; unfold changeFreq
  (try dsimp only)
  repeat' (first
    | with_reducible exact only_refl _ _ | assumption | with_reducible apply updTempo_only (within_trans rfl hp))

theorem execFrequencyChangeNotice_only (t : Nat) (cluster : Cluster) (mhz : Nat) (at_ : Nat) (s : State) : ∃
    s', execFrequencyChangeNotice t cluster mhz at_ s = .next s' ∧ onlyChanges [.now, .tempo] s s' := by
  refine ⟨_, rfl, ?_⟩
  have hp : within [.now, .tempo] [.now, .tempo] = true := rfl
  repeat' (first
    | with_reducible exact only_refl _ _ | assumption | with_reducible apply changeFreq_only (within_trans rfl hp)
    | with_reducible apply atTime_only (within_trans rfl hp))

theorem execCanaryReport_only (t : Nat) (domain : Cluster) (canary : Nat) (slack : Int) (s : State) : ∃ s',
    execCanaryReport t domain canary slack s = .next s' ∧ onlyChanges [.now, .evt, .tempo, .tab, .out] s s' := by
  refine ⟨_, rfl, ?_⟩
  have hp : within [.now, .evt, .tempo, .tab, .out] [.now, .evt, .tempo, .tab, .out] = true := rfl
  repeat' (first
    | with_reducible exact only_refl _ _ | assumption | with_reducible apply canaryReports_only (within_trans rfl hp)
    | with_reducible apply atTime_only (within_trans rfl hp))

theorem execTempoEvaluation_only (t : Nat) (s : State) : ∃ s', execTempoEvaluation t s = .next s' ∧
    onlyChanges [.now, .tempo] s s' := by
  refine ⟨_, rfl, ?_⟩
  have hp : within [.now, .tempo] [.now, .tempo] = true := rfl
  repeat' (first
    | with_reducible exact only_refl _ _ | assumption | with_reducible apply tempoEvaluate_only (within_trans rfl hp)
    | with_reducible apply atTime_only (within_trans rfl hp))

theorem execTempoStep_only (t : Nat) (domain : Cluster) (s : State) : ∃ s', execTempoStep t domain s = .next
    s' ∧ onlyChanges [.now, .tempo, .out] s s' := by
  refine ⟨_, rfl, ?_⟩
  have hp : within [.now, .tempo, .out] [.now, .tempo, .out] = true := rfl
  repeat' (first
    | with_reducible exact only_refl _ _ | assumption | with_reducible apply tempoDescend_only (within_trans rfl hp)
    | with_reducible apply atTime_only (within_trans rfl hp))

theorem execTempoHoldEnd_only (t : Nat) (d : Cluster) (s : State) : ∃ s', execTempoHoldEnd t d s = .next s' ∧
    onlyChanges [.now, .tempo] s s' := by
  refine ⟨_, rfl, ?_⟩
  have hp : within [.now, .tempo] [.now, .tempo] = true := rfl
  repeat' (first
    | with_reducible exact only_refl _ _ | assumption | with_reducible apply atTime_only (within_trans rfl hp)
    | with_reducible apply updDomain_only (within_trans rfl hp) | with_reducible apply only_ite)

theorem execLearnedFloorExpiry_only (t : Nat) (d : Cluster) (s : State) : ∃ s', execLearnedFloorExpiry t d s =
    .next s' ∧ onlyChanges [.now, .tempo] s s' := by
  refine ⟨_, rfl, ?_⟩
  have hp : within [.now, .tempo] [.now, .tempo] = true := rfl
  repeat' (first
    | with_reducible exact only_refl _ _ | assumption | with_reducible apply atTime_only (within_trans rfl hp)
    | with_reducible apply updDomain_only (within_trans rfl hp) | with_reducible apply only_ite)

theorem execAvsSettleExpiry_only (t : Nat) (domain : Cluster) (vout : Nat) (s : State) : ∃ s',
    execAvsSettleExpiry t domain vout s = .next s' ∧ onlyChanges [.now, .evt, .tempo, .tab, .out] s s' := by
  refine ⟨_, rfl, ?_⟩
  have hp : within [.now, .evt, .tempo, .tab, .out] [.now, .evt, .tempo, .tab, .out] = true := rfl
  repeat' (first
    | with_reducible exact only_refl _ _ | assumption | with_reducible apply avsSettled_only (within_trans rfl hp)
    | with_reducible apply atTime_only (within_trans rfl hp))

theorem execAvsFrameFail_only (t : Nat) (domain : Cluster) (failure : FrameFailure) (s : State) : ∃ s',
    execAvsFrameFail t domain failure s = .next s' ∧ onlyChanges [.now, .evt, .tempo, .tab, .out] s s' := by
  refine ⟨_, rfl, ?_⟩
  have hp : within [.now, .evt, .tempo, .tab, .out] [.now, .evt, .tempo, .tab, .out] = true := rfl
  repeat' (first
    | with_reducible exact only_refl _ _ | assumption | with_reducible apply avsFrameFailed_only (within_trans rfl hp)
    | with_reducible apply atTime_only (within_trans rfl hp))

theorem sendMgmt_only {σ : State} {ps : List Part} (hp : within [.out] ps = true) (bytes : List Byte) (s :
    State) (h0 : onlyChanges ps σ s) : onlyChanges ps σ (sendMgmt bytes s) := by
  refine only_trans h0 ?_; clear h0; unfold sendMgmt
  repeat' (first
    | with_reducible exact only_refl _ _ | assumption | with_reducible apply updOut_only (within_trans rfl hp)
    | with_reducible apply only_ite | (split <;> try dsimp only))

theorem makeReport_only {σ : State} {ps : List Part} (hp : within [.evt, .led, .tempo, .tab, .i3c, .out] ps =
    true) (unscheduled : Bool) (p : LedgerPolicy) (b : Bound) (s : State) (h0 : onlyChanges ps σ s) :
    onlyChanges ps σ (makeReport unscheduled p b s) := by
  refine only_trans h0 ?_; clear h0; unfold makeReport
  (try dsimp only)
  repeat' (first
    | with_reducible exact only_refl _ _ | assumption | with_reducible apply updLed_only (within_trans rfl hp)
    | with_reducible apply updTempo_only (within_trans rfl hp)
    | with_reducible apply sendMgmt_only (within_trans rfl hp)
    | with_reducible apply oobAdd_only (within_trans rfl hp) | with_reducible apply occur_only (within_trans rfl hp)
    | with_reducible apply only_ite)

theorem unscheduledReport_only {σ : State} {ps : List Part} (hp : within [.evt, .led, .tempo, .tab, .i3c,
    .out] ps = true) (s : State) (h0 : onlyChanges ps σ s) : onlyChanges ps σ (unscheduledReport s) := by
  refine only_trans h0 ?_; clear h0; unfold unscheduledReport
  repeat' (first
    | with_reducible exact only_refl _ _ | assumption | with_reducible apply makeReport_only (within_trans rfl hp)
    | with_reducible apply only_ite | (split <;> try dsimp only))

theorem intervalEnds_only {σ : State} {ps : List Part} (hp : within [.evt, .led, .tempo, .tab, .i3c, .out] ps
    = true) (s : State) (h0 : onlyChanges ps σ s) : onlyChanges ps σ (intervalEnds s) := by
  refine only_trans h0 ?_; clear h0; unfold intervalEnds
  (try dsimp only)
  repeat' (first
    | with_reducible exact only_refl _ _ | assumption | with_reducible apply makeReport_only (within_trans rfl hp)
    | with_reducible apply updLed_only (within_trans rfl hp) | with_reducible apply only_ite
    | (split <;> try dsimp only))

theorem setState_only {σ : State} {ps : List Part} (hp : within [.evt, .led, .tempo, .tab, .out] ps = true) (v
    : Nat) (s : State) (h0 : onlyChanges ps σ s) : onlyChanges ps σ (setState v s) := by
  refine only_trans h0 ?_; clear h0; unfold setState
  (try dsimp only)
  repeat' (first
    | with_reducible exact only_refl _ _ | assumption | with_reducible apply leaveServing_only (within_trans rfl hp)
    | with_reducible apply updLed_only (within_trans rfl hp)
    | with_reducible apply updTempo_only (within_trans rfl hp) | with_reducible apply msix_only (within_trans rfl hp)
    | with_reducible apply only_ite)

theorem openAll_only {ps : List Part} (hp : within [.evt, .ctxs, .tab] ps = true) (reason : Nat) : ∀ ls {σ s :
    State}, onlyChanges ps σ s → onlyChanges ps σ (openAll reason ls s) := by
  intro ls
  induction ls with
  | nil => intro σ s h; exact h
  | cons a l ih =>
    intro σ s h0
    refine only_trans h0 ?_; clear h0; unfold openAll
    repeat' (first
      | with_reducible exact only_refl _ _ | with_reducible apply ih | assumption
      | with_reducible apply openAtUnsealed_only (within_trans rfl hp))

theorem endAll_only {ps : List Part} (hp : within [.evt, .stations, .hz, .ctxs, .sync, .tab, .trace, .out] ps
    = true) (cause : Nat) : ∀ ls {σ s : State}, onlyChanges ps σ s → onlyChanges ps σ (endAll cause ls s) := by
  intro ls
  induction ls with
  | nil => intro σ s h; exact h
  | cons a l ih =>
    intro σ s h0
    refine only_trans h0 ?_; clear h0; unfold endAll
    repeat' (first
      | with_reducible exact only_refl _ _ | with_reducible apply ih | assumption
      | with_reducible apply endContext_only (within_trans rfl hp))

theorem drainBegins_only {σ : State} {ps : List Part} (hp : within [.evt, .stations, .hz, .ctxs, .led, .tempo,
    .sync, .tab, .trace, .i3c, .out] ps = true) (s : State) (h0 : onlyChanges ps σ s) : onlyChanges ps σ
    (drainBegins s) := by
  refine only_trans h0 ?_; clear h0; unfold drainBegins
  (try dsimp only)
  repeat' (first
    | with_reducible exact only_refl _ _ | assumption | with_reducible apply oobAdd_only (within_trans rfl hp)
    | with_reducible apply unscheduledReport_only (within_trans rfl hp)
    | with_reducible apply endAll_only (within_trans rfl hp))

theorem suspect_only {σ : State} {ps : List Part} (hp : within [.evt, .stations, .hz, .ctxs, .led, .tempo,
    .sync, .tab, .trace, .i3c, .out] ps = true) (cause unit core mask : Nat) (p3 : Word) (s : State) (h0 :
    onlyChanges ps σ s) : onlyChanges ps σ (suspect cause unit core mask p3 s) := by
  refine only_trans h0 ?_; clear h0; unfold suspect
  (try dsimp only)
  repeat' (first
    | with_reducible exact only_refl _ _ | assumption | with_reducible apply updLed_only (within_trans rfl hp)
    | with_reducible apply occur_only (within_trans rfl hp) | with_reducible apply setState_only (within_trans rfl hp)
    | with_reducible apply openAll_only (within_trans rfl hp)
    | with_reducible apply drainBegins_only (within_trans rfl hp) | with_reducible apply only_ite)

theorem outOfService_only {σ : State} {ps : List Part} (hp : within [.evt, .stations, .hz, .ctxs, .led,
    .tempo, .sync, .tab, .trace, .i3c, .out] ps = true) (count windowS : Nat) (seq : Word) (s : State) (h0 :
    onlyChanges ps σ s) : onlyChanges ps σ (outOfService count windowS seq s) := by
  refine only_trans h0 ?_; clear h0; unfold outOfService
  (try dsimp only)
  repeat' (first
    | with_reducible exact only_refl _ _ | assumption | with_reducible apply occur_only (within_trans rfl hp)
    | with_reducible apply setState_only (within_trans rfl hp)
    | with_reducible apply updLed_only (within_trans rfl hp) | with_reducible apply openAll_only (within_trans rfl hp)
    | with_reducible apply drainBegins_only (within_trans rfl hp)
    | with_reducible apply unscheduledReport_only (within_trans rfl hp) | with_reducible apply only_ite)

theorem windowPut_only {σ : State} {ps : List Part} (hp : within [.led] ps = true) (core unit : Nat) (s :
    State) (h0 : onlyChanges ps σ s) : onlyChanges ps σ (windowPut core unit s) := by
  refine only_trans h0 ?_; clear h0; unfold windowPut
  repeat' (first
    | with_reducible exact only_refl _ _ | assumption | with_reducible apply updLed_only (within_trans rfl hp))

theorem countDet_only {σ : State} {ps : List Part} (hp : within [.led] ps = true) (i : Nat) (s : State) (h0 :
    onlyChanges ps σ s) : onlyChanges ps σ (countDet i s) := by
  refine only_trans h0 ?_; clear h0; unfold countDet
  repeat' (first
    | with_reducible exact only_refl _ _ | assumption | with_reducible apply updLed_only (within_trans rfl hp))

theorem countConfirmed_only {σ : State} {ps : List Part} (hp : within [.led] ps = true) (s : State) (h0 :
    onlyChanges ps σ s) : onlyChanges ps σ (countConfirmed s) := by
  refine only_trans h0 ?_; clear h0; unfold countConfirmed
  repeat' (first
    | with_reducible exact only_refl _ _ | assumption | with_reducible apply updLed_only (within_trans rfl hp))

theorem chargeEngine_only {σ : State} {ps : List Part} (hp : within [.evt, .stations, .hz, .ctxs, .led,
    .tempo, .sync, .tab, .trace, .i3c, .out] ps = true) (core q : Nat) (tag : Word) (s : State) (h0 :
    onlyChanges ps σ s) : onlyChanges ps σ (chargeEngine core q tag s) := by
  refine only_trans h0 ?_; clear h0; unfold chargeEngine
  (try dsimp only)
  repeat' (first
    | with_reducible exact only_refl _ _ | assumption | with_reducible apply windowPut_only (within_trans rfl hp)
    | with_reducible apply suspect_only (within_trans rfl hp) | with_reducible apply only_ite
    | (split <;> try dsimp only))

theorem stationFault_only {σ : State} {ps : List Part} (hp : within [.evt, .stations, .hz, .ctxs, .led,
    .tempo, .sync, .tab, .trace, .i3c, .out] ps = true) (core : Nat) (tag : Word) (s : State) (h0 :
    onlyChanges ps σ s) : onlyChanges ps σ (stationFault core tag s) := by
  refine only_trans h0 ?_; clear h0; unfold stationFault
  (try dsimp only)
  repeat' (first
    | with_reducible exact only_refl _ _ | assumption | with_reducible apply countDet_only (within_trans rfl hp)
    | with_reducible apply updLed_only (within_trans rfl hp)
    | with_reducible apply windowPut_only (within_trans rfl hp)
    | with_reducible apply suspect_only (within_trans rfl hp) | with_reducible apply only_ite
    | (split <;> try dsimp only))

theorem recheckUnits_only {ps : List Part} (hp : within [.evt, .stations, .hz, .ctxs, .led, .tempo, .sync,
    .tab, .trace, .i3c, .out] ps = true) (p : LedgerPolicy) : ∀ ls {σ s : State}, onlyChanges ps σ s →
    onlyChanges ps σ (recheckUnits p ls s) := by
  intro ls
  induction ls with
  | nil => intro σ s h; exact h
  | cons a l ih =>
    intro σ s h0
    refine only_trans h0 ?_; clear h0; unfold recheckUnits
    (try dsimp only)
    repeat' (first
      | with_reducible exact only_refl _ _ | with_reducible apply ih | assumption
      | with_reducible apply suspect_only (within_trans rfl hp) | with_reducible apply only_ite)

theorem drainLimit_only {σ : State} {ps : List Part} (hp : within [.evt, .stations, .hz, .ctxs, .led, .sync,
    .tab, .trace, .out] ps = true) (s : State) (h0 : onlyChanges ps σ s) : onlyChanges ps σ (drainLimit s) := by
  refine only_trans h0 ?_; clear h0; unfold drainLimit
  (try dsimp only)
  repeat' (first
    | with_reducible exact only_refl _ _ | assumption | with_reducible apply updLed_only (within_trans rfl hp)
    | with_reducible apply endAll_only (within_trans rfl hp) | with_reducible apply only_ite
    | (split <;> try dsimp only))

theorem writeFlag_only {σ : State} {ps : List Part} (hp : within [.led, .boot, .i3c, .out] ps = true) (s :
    State) (h0 : onlyChanges ps σ s) : onlyChanges ps σ (writeFlag s) := by
  refine only_trans h0 ?_; clear h0; unfold writeFlag
  (try dsimp only)
  repeat' (first
    | with_reducible exact only_refl _ _ | assumption | with_reducible apply updLed_only (within_trans rfl hp)
    | with_reducible apply otpBurn_only (within_trans rfl hp)
    | with_reducible apply offerImage_only (within_trans rfl hp) | with_reducible apply only_ite)

theorem becomeDrained_only {σ : State} {ps : List Part} (hp : within [.evt, .led, .tempo, .tab, .boot, .i3c,
    .out] ps = true) (s : State) (h0 : onlyChanges ps σ s) : onlyChanges ps σ (becomeDrained s) := by
  refine only_trans h0 ?_; clear h0; unfold becomeDrained
  (try dsimp only)
  repeat' (first
    | with_reducible exact only_refl _ _ | assumption | with_reducible apply writeFlag_only (within_trans rfl hp)
    | with_reducible apply occur_only (within_trans rfl hp) | with_reducible apply updLed_only (within_trans rfl hp)
    | with_reducible apply unscheduledReport_only (within_trans rfl hp)
    | with_reducible apply setState_only (within_trans rfl hp) | with_reducible apply only_ite)

theorem execLedgerIntervalEnd_only (t : Nat) (s : State) : ∃ s', execLedgerIntervalEnd t s = .next s' ∧
    onlyChanges [.now, .evt, .led, .tempo, .tab, .i3c, .out] s s' := by
  refine ⟨_, rfl, ?_⟩
  have hp : within [.now, .evt, .led, .tempo, .tab, .i3c, .out] [.now, .evt, .led, .tempo, .tab, .i3c, .out] = true := rfl
  repeat' (first
    | with_reducible exact only_refl _ _ | assumption | with_reducible apply intervalEnds_only (within_trans rfl hp)
    | with_reducible apply atTime_only (within_trans rfl hp))

theorem execDrainLimitExpiry_only (t : Nat) (s : State) : ∃ s', execDrainLimitExpiry t s = .next s' ∧
    onlyChanges [.now, .evt, .stations, .hz, .ctxs, .led, .sync, .tab, .trace, .out] s s' := by
  refine ⟨_, rfl, ?_⟩
  have hp : within [.now, .evt, .stations, .hz, .ctxs, .led, .sync, .tab, .trace, .out] [.now, .evt, .stations, .hz, .ctxs, .led, .sync, .tab, .trace, .out] = true := rfl
  repeat' (first
    | with_reducible exact only_refl _ _ | assumption | with_reducible apply drainLimit_only (within_trans rfl hp)
    | with_reducible apply atTime_only (within_trans rfl hp))

theorem execDrained_only (t : Nat) (s : State) : ∃ s', execDrained t s = .next s' ∧ onlyChanges [.now, .evt,
    .led, .tempo, .tab, .boot, .i3c, .out] s s' := by
  refine ⟨_, rfl, ?_⟩
  have hp : within [.now, .evt, .led, .tempo, .tab, .boot, .i3c, .out] [.now, .evt, .led, .tempo, .tab, .boot, .i3c, .out] = true := rfl
  repeat' (first
    | with_reducible exact only_refl _ _ | assumption | with_reducible apply becomeDrained_only (within_trans rfl hp)
    | with_reducible apply atTime_only (within_trans rfl hp))

theorem updCus_only {σ : State} {ps : List Part} (hp : within [.stations] ps = true) (c : Nat) (p : Cu → Bool)
    (f : Cu → Cu) (s : State) (h0 : onlyChanges ps σ s) : onlyChanges ps σ (updCus c p f s) := by
  refine only_trans h0 ?_; clear h0; unfold updCus
  repeat' (first
    | with_reducible exact only_refl _ _ | assumption | with_reducible apply updStation_only (within_trans rfl hp))

theorem setDisp_only {σ : State} {ps : List Part} (hp : within [.stations] ps = true) (c : Nat) (tag : Word)
    (retire disp : Nat) (s : State) (h0 : onlyChanges ps σ s) : onlyChanges ps σ (setDisp c tag retire disp s) := by
  refine only_trans h0 ?_; clear h0; unfold setDisp
  (try dsimp only)
  repeat' (first
    | with_reducible exact only_refl _ _ | assumption | with_reducible apply updStation_only (within_trans rfl hp))

theorem loadPin_only {σ : State} {ps : List Part} (hp : within [.stations] ps = true) (c : Nat) (u : Cu) (s :
    State) (h0 : onlyChanges ps σ s) : onlyChanges ps σ (loadPin c u s) := by
  refine only_trans h0 ?_; clear h0; unfold loadPin
  (try dsimp only)
  repeat' (first
    | with_reducible exact only_refl _ _ | assumption | with_reducible apply updStation_only (within_trans rfl hp)
    | with_reducible apply only_ite)

theorem spadPut_only {σ : State} {ps : List Part} (hp : within [.stations] ps = true) (c : Nat) (poison :
    Bool) (a : Nat) (bs : List Byte) (s : State) (h0 : onlyChanges ps σ s) : onlyChanges ps σ (spadPut c
    poison a bs s) := by
  refine only_trans h0 ?_; clear h0; unfold spadPut
  repeat' (first
    | with_reducible exact only_refl _ _ | assumption | with_reducible apply updStation_only (within_trans rfl hp))

theorem landSector_only {σ : State} {ps : List Part} (hp : within [.stations] ps = true) (c a : Nat) (w :
    InbWrite) (s : State) (h0 : onlyChanges ps σ s) : onlyChanges ps σ (landSector c a w s) := by
  refine only_trans h0 ?_; clear h0; unfold landSector
  repeat' (first
    | with_reducible exact only_refl _ _ | assumption | with_reducible apply spadPut_only (within_trans rfl hp))

theorem landHeld_only {ps : List Part} (hp : within [.stations] ps = true) (c : Nat) : ∀ ls {σ s : State},
    onlyChanges ps σ s → onlyChanges ps σ (landHeld c ls s) := by
  intro ls
  induction ls with
  | nil => intro σ s h; exact h
  | cons a l ih =>
    intro σ s h0
    refine only_trans h0 ?_; clear h0; unfold landHeld
    repeat' (first
      | with_reducible exact only_refl _ _ | with_reducible apply ih | assumption
      | with_reducible apply updStation_only (within_trans rfl hp)
      | with_reducible apply landSector_only (within_trans rfl hp) | with_reducible apply only_ite
      | (split <;> try dsimp only))

theorem dropPins_only {σ : State} {ps : List Part} (hp : within [.stations] ps = true) (c : Nat) (p : Pin →
    Bool) (s : State) (h0 : onlyChanges ps σ s) : onlyChanges ps σ (dropPins c p s) := by
  refine only_trans h0 ?_; clear h0; unfold dropPins
  (try dsimp only)
  repeat' (first
    | with_reducible exact only_refl _ _ | assumption | with_reducible apply updStation_only (within_trans rfl hp)
    | with_reducible apply landHeld_only (within_trans rfl hp))

theorem updReh_only {σ : State} {ps : List Part} (hp : within [.stations] ps = true) (c : Nat) (f : Rehearsal
    → Rehearsal) (s : State) (h0 : onlyChanges ps σ s) : onlyChanges ps σ (updReh c f s) := by
  refine only_trans h0 ?_; clear h0; unfold updReh
  repeat' (first
    | with_reducible exact only_refl _ _ | assumption | with_reducible apply updStation_only (within_trans rfl hp))

theorem kitInvalid_only {σ : State} {ps : List Part} (hp : within [.evt, .stations, .led, .tab] ps = true) (id
    cause core : Nat) (s : State) (h0 : onlyChanges ps σ s) : onlyChanges ps σ (kitInvalid id cause core s) := by
  refine only_trans h0 ?_; clear h0; unfold kitInvalid
  have hk := updLed_only (ps := ps) (within_trans rfl hp)
    (fun l => { l with badKits := if l.badKits.contains id then l.badKits else id :: l.badKits }) s (only_refl _ s)
  exact occur_only (within_trans rfl hp) _ _ _ _ _ _ (only_trans hk
    ⟨rfl, fun p h => by cases p <;> first | (with_reducible rfl) | exact absurd (within_mem hp rfl) h⟩)

theorem writeCapsuleHead_only {σ : State} {ps : List Part} (hp : within [.mem, .memPoison] ps = true) (c :
    Nat) (k : Capsule) (s : State) (h0 : onlyChanges ps σ s) : onlyChanges ps σ (writeCapsuleHead c k s) := by
  refine only_trans h0 ?_; clear h0; unfold writeCapsuleHead
  (try dsimp only)
  repeat' (first
    | with_reducible exact only_refl _ _ | assumption | with_reducible apply memWrite_only (within_trans rfl hp))

theorem freeCapsules_only {σ : State} {ps : List Part} (hp : within [.stations] ps = true) (c : Nat) (s :
    State) (h0 : onlyChanges ps σ s) : onlyChanges ps σ (freeCapsules c s) := by
  refine only_trans h0 ?_; clear h0; unfold freeCapsules
  repeat' (first
    | with_reducible exact only_refl _ _ | assumption | with_reducible apply updStation_only (within_trans rfl hp))

theorem updCapsule_only {σ : State} {ps : List Part} (hp : within [.stations] ps = true) (c : Nat) (tag :
    Word) (f : Capsule → Capsule) (s : State) (h0 : onlyChanges ps σ s) : onlyChanges ps σ (updCapsule c tag f
    s) := by
  refine only_trans h0 ?_; clear h0; unfold updCapsule
  repeat' (first
    | with_reducible exact only_refl _ _ | assumption | with_reducible apply updStation_only (within_trans rfl hp))

theorem claimCapsule_only {ps : List Part} (hp : within [.stations, .mem, .memPoison] ps = true) (c : Nat) (k : Capsule) (s t : State)
    (h : claimCapsule c k s = some t) : onlyChanges ps s t := by
  unfold claimCapsule at h
  dsimp only at h
  split at h
  · simp at h
  · obtain rfl := Option.some.inj h
    refine writeCapsuleHead_only (within_trans rfl hp) _ _ _ (freeCapsules_only (within_trans rfl hp) _ _
      (updStation_only (within_trans rfl hp) _ _ _ ?_))
    split
    · exact only_refl _ s
    · exact writeCapsuleHead_only (within_trans rfl hp) _ _ _ (updStation_only (within_trans rfl hp) _ _ _ (only_refl _ s))

theorem skipSample_only {σ : State} {ps : List Part} (hp : within [.evt, .stations, .tab, .mem, .memPoison] ps
    = true) (c : Nat) (tag : Word) (cause : Nat) (s : State) (h0 : onlyChanges ps σ s) : onlyChanges ps σ
    (skipSample c tag cause s) := by
  refine only_trans h0 ?_; clear h0; unfold skipSample
  (try dsimp only)
  repeat' (first
    | with_reducible exact only_refl _ _ | assumption | with_reducible apply updCus_only (within_trans rfl hp)
    | with_reducible apply writeCapsuleHead_only (within_trans rfl hp)
    | with_reducible apply freeCapsules_only (within_trans rfl hp)
    | with_reducible apply updCapsule_only (within_trans rfl hp)
    | with_reducible apply updStation_only (within_trans rfl hp)
    | with_reducible apply occur_only (within_trans rfl hp) | with_reducible apply only_ite
    | (split <;> try dsimp only))

theorem giveReprise_only {σ : State} {ps : List Part} (hp : within [.stations, .led] ps = true) (c : Nat) (tag
    : Word) (verdict : Nat) (s : State) (h0 : onlyChanges ps σ s) : onlyChanges ps σ (giveReprise c tag
    verdict s) := by
  refine only_trans h0 ?_; clear h0; unfold giveReprise
  (try dsimp only)
  repeat' (first
    | with_reducible exact only_refl _ _ | assumption | with_reducible apply updLed_only (within_trans rfl hp)
    | with_reducible apply freeCapsules_only (within_trans rfl hp)
    | with_reducible apply updCapsule_only (within_trans rfl hp) | with_reducible apply only_ite
    | (split <;> try dsimp only))

theorem abandonReprise_only {σ : State} {ps : List Part} (hp : within [.evt, .stations, .adj, .led, .tab] ps =
    true) (deferred : Bool) (c : Nat) (tag : Word) (cause : Nat) (s : State) (h0 : onlyChanges ps σ s) :
    onlyChanges ps σ (abandonReprise deferred c tag cause s) := by
  refine only_trans h0 ?_; clear h0; unfold abandonReprise
  (try dsimp only)
  repeat' (first
    | with_reducible exact only_refl _ _ | assumption | with_reducible apply updAdj_only (within_trans rfl hp)
    | with_reducible apply giveReprise_only (within_trans rfl hp)
    | with_reducible apply occurDeferred_only (within_trans rfl hp)
    | with_reducible apply occur_only (within_trans rfl hp) | with_reducible apply only_ite
    | (split <;> try dsimp only))

end Sys2Proof.Laws
end

