-- ==== Sys2Proof/Laws/FrameWork.lean ====
section
/-! SUPPORT. The frame of every operation and meaning of adjudication, barriers, the recorder, snapshots, sync operations, messages, residency, verdicts, rehearsal, reprise and taps: one lemma each, from those of the operations it calls. -/

namespace Sys2Proof.Laws

open Sys2Proof Sys2Proof.Machine Sys2Proof.Safety

theorem updAdjSlot_only {σ : State} {ps : List Part} (hp : within [.adj] ps = true) (i : Nat) (f : Adj → Adj)
    (s : State) (h0 : onlyChanges ps σ s) : onlyChanges ps σ (updAdjSlot i f s) := by
  refine only_trans h0 ?_; clear h0; unfold updAdjSlot
  repeat' (first
    | with_reducible exact only_refl _ _ | assumption | with_reducible apply updAdj_only (within_trans rfl hp))

theorem mapAdjs_only {σ : State} {ps : List Part} (hp : within [.adj] ps = true) (p : Adj → Bool) (f : Adj →
    Adj) (s : State) (h0 : onlyChanges ps σ s) : onlyChanges ps σ (mapAdjs p f s) := by
  refine only_trans h0 ?_; clear h0; unfold mapAdjs
  repeat' (first
    | with_reducible exact only_refl _ _ | assumption | with_reducible apply updAdj_only (within_trans rfl hp))

theorem notify_only {σ : State} {ps : List Part} (hp : within [.stations] ps = true) (c : Nat) (n : Notice) (s
    : State) (h0 : onlyChanges ps σ s) : onlyChanges ps σ (notify c n s) := by
  refine only_trans h0 ?_; clear h0; unfold notify
  repeat' (first
    | with_reducible exact only_refl _ _ | assumption | with_reducible apply updStation_only (within_trans rfl hp))

theorem copySources_only {σ : State} {ps : List Part} (hp : within [.stations] ps = true) (c : Nat) (k :
    Capsule) (d : Nat) (s : State) (h0 : onlyChanges ps σ s) : onlyChanges ps σ (copySources c k d s) := by
  refine only_trans h0 ?_; clear h0; unfold copySources
  repeat' (first
    | with_reducible exact only_refl _ _ | assumption | with_reducible apply spadPut_only (within_trans rfl hp))

theorem holdCapsuleOf_only {σ : State} {ps : List Part} (hp : within [.stations, .mem, .memPoison] ps = true)
    (c : Nat) (k : Capsule) (s : State) (h0 : onlyChanges ps σ s) : onlyChanges ps σ (holdCapsuleOf c k s) := by
  refine only_trans h0 ?_; clear h0; unfold holdCapsuleOf
  repeat' (first
    | with_reducible exact only_refl _ _ | assumption
    | with_reducible apply writeCapsuleHead_only (within_trans rfl hp)
    | with_reducible apply updCapsule_only (within_trans rfl hp))

theorem giveInputs_only {σ : State} {ps : List Part} (hp : within [.stations, .adj, .mem, .memPoison] ps =
    true) (i : Nat) (a : Adj) (s : State) (h0 : onlyChanges ps σ s) : onlyChanges ps σ (giveInputs i a s) := by
  refine only_trans h0 ?_; clear h0; unfold giveInputs
  repeat' (first
    | with_reducible exact only_refl _ _ | assumption | with_reducible apply holdCapsuleOf_only (within_trans rfl hp)
    | with_reducible apply updAdjSlot_only (within_trans rfl hp) | with_reducible apply only_ite
    | (split <;> try dsimp only))

theorem startExec_only {σ : State} {ps : List Part} (hp : within [.stations, .adj, .mem, .memPoison] ps =
    true) (i : Nat) (w : ExecName) (d : Nat) (s : State) (h0 : onlyChanges ps σ s) : onlyChanges ps σ
    (startExec i w d s) := by
  refine only_trans h0 ?_; clear h0; unfold startExec
  repeat' (first
    | with_reducible exact only_refl _ _ | assumption | with_reducible apply notify_only (within_trans rfl hp)
    | with_reducible apply giveInputs_only (within_trans rfl hp) | with_reducible apply only_ite
    | (split <;> try dsimp only))

theorem assignU_only {σ : State} {ps : List Part} (hp : within [.stations, .adj, .mem, .memPoison] ps = true)
    (i : Nat) (c : Core) (s : State) (h0 : onlyChanges ps σ s) : onlyChanges ps σ (assignU i c s) := by
  refine only_trans h0 ?_; clear h0; unfold assignU
  repeat' (first
    | with_reducible exact only_refl _ _ | assumption | with_reducible apply startExec_only (within_trans rfl hp)
    | with_reducible apply updAdjSlot_only (within_trans rfl hp))

theorem assignV_only {σ : State} {ps : List Part} (hp : within [.stations, .adj, .mem, .memPoison] ps = true)
    (i : Nat) (c : Core) (s : State) (h0 : onlyChanges ps σ s) : onlyChanges ps σ (assignV i c s) := by
  refine only_trans h0 ?_; clear h0; unfold assignV
  repeat' (first
    | with_reducible exact only_refl _ _ | assumption | with_reducible apply startExec_only (within_trans rfl hp)
    | with_reducible apply updAdjSlot_only (within_trans rfl hp))

theorem lookFor_only {σ : State} {ps : List Part} (hp : within [.stations, .adj, .mem, .memPoison] ps = true)
    (i : Nat) (s : State) (h0 : onlyChanges ps σ s) : onlyChanges ps σ (lookFor i s) := by
  refine only_trans h0 ?_; clear h0; unfold lookFor
  (try dsimp only)
  repeat' (first
    | with_reducible exact only_refl _ _ | assumption | with_reducible apply assignU_only (within_trans rfl hp)
    | with_reducible apply assignV_only (within_trans rfl hp) | with_reducible apply only_ite
    | (split <;> try dsimp only))

theorem wantH_only {σ : State} {ps : List Part} (hp : within [.stations, .adj, .mem, .memPoison] ps = true) (i
    : Nat) (s : State) (h0 : onlyChanges ps σ s) : onlyChanges ps σ (wantH i s) := by
  refine only_trans h0 ?_; clear h0; unfold wantH
  (try dsimp only)
  repeat' (first
    | with_reducible exact only_refl _ _ | assumption | with_reducible apply updAdjSlot_only (within_trans rfl hp)
    | with_reducible apply startExec_only (within_trans rfl hp) | with_reducible apply only_ite
    | (split <;> try dsimp only))

theorem startHomes_only {ps : List Part} (hp : within [.stations, .adj, .mem, .memPoison] ps = true) (c : Nat)
    : ∀ ls {σ s : State}, onlyChanges ps σ s → onlyChanges ps σ (startHomes c ls s) := by
  intro ls
  induction ls with
  | nil => intro σ s h; exact h
  | cons a l ih =>
    intro σ s h0
    refine only_trans h0 ?_; clear h0; unfold startHomes
    repeat' (first
      | with_reducible exact only_refl _ _ | with_reducible apply ih | assumption
      | with_reducible apply startExec_only (within_trans rfl hp) | with_reducible apply only_ite
      | (split <;> try dsimp only))

theorem releaseStop_only {σ : State} {ps : List Part} (hp : within [.stations] ps = true) (c : Nat) (s :
    State) (h0 : onlyChanges ps σ s) : onlyChanges ps σ (releaseStop c s) := by
  refine only_trans h0 ?_; clear h0; unfold releaseStop
  repeat' (first
    | with_reducible exact only_refl _ _ | assumption | with_reducible apply updStation_only (within_trans rfl hp)
    | with_reducible apply only_ite)

theorem unholdCapsule_only {σ : State} {ps : List Part} (hp : within [.stations, .mem, .memPoison] ps = true)
    (a : Adj) (s : State) (h0 : onlyChanges ps σ s) : onlyChanges ps σ (unholdCapsule a s) := by
  refine only_trans h0 ?_; clear h0; unfold unholdCapsule
  (try dsimp only)
  repeat' (first
    | with_reducible exact only_refl _ _ | assumption | with_reducible apply freeCapsules_only (within_trans rfl hp)
    | with_reducible apply writeCapsuleHead_only (within_trans rfl hp)
    | with_reducible apply updCapsule_only (within_trans rfl hp) | with_reducible apply only_ite
    | (split <;> try dsimp only))

theorem endExecs_only {σ : State} {ps : List Part} (hp : within [.stations] ps = true) (a : Adj) (s : State)
    (h0 : onlyChanges ps σ s) : onlyChanges ps σ (endExecs a s) := by
  refine only_trans h0 ?_; clear h0; unfold endExecs
  (try dsimp only)
  repeat' (first
    | with_reducible exact only_refl _ _ | assumption | with_reducible apply only_ite | (intro _; try dsimp only)
    | dsimp only
    | exact ⟨rfl, fun p h => by cases p <;> first | (with_reducible rfl) | exact absurd (within_mem hp rfl) h⟩)

theorem finishClose_only {σ : State} {ps : List Part} (hp : within [.stations, .mem, .memPoison] ps = true) (a
    : Adj) (s : State) (h0 : onlyChanges ps σ s) : onlyChanges ps σ (finishClose a s) := by
  refine only_trans h0 ?_; clear h0; unfold finishClose
  (try dsimp only)
  repeat' (first
    | with_reducible exact only_refl _ _ | assumption | with_reducible apply endExecs_only (within_trans rfl hp)
    | with_reducible apply unholdCapsule_only (within_trans rfl hp)
    | with_reducible apply dropPins_only (within_trans rfl hp)
    | with_reducible apply releaseStop_only (within_trans rfl hp) | with_reducible apply only_ite)

theorem countClass_only {σ : State} {ps : List Part} (hp : within [.evt, .stations, .hz, .ctxs, .led, .tempo,
    .sync, .tab, .trace, .i3c, .out] ps = true) (a : Adj) (cls : Nat) (charged : Option Core) (s : State) (h0
    : onlyChanges ps σ s) : onlyChanges ps σ (countClass a cls charged s) := by
  refine only_trans h0 ?_; clear h0; unfold countClass
  (try dsimp only)
  repeat' (first
    | with_reducible exact only_refl _ _ | assumption | with_reducible apply backoffCore_only (within_trans rfl hp)
    | with_reducible apply chargeEngine_only (within_trans rfl hp)
    | with_reducible apply countConfirmed_only (within_trans rfl hp)
    | with_reducible apply countDet_only (within_trans rfl hp)
    | with_reducible apply windowPut_only (within_trans rfl hp)
    | with_reducible apply suspect_only (within_trans rfl hp)
    | with_reducible apply stationFault_only (within_trans rfl hp)
    | with_reducible apply updDomain_only (within_trans rfl hp) | with_reducible apply only_ite
    | (split <;> try dsimp only))

theorem closeCore_only {σ : State} {ps : List Part} (hp : within [.evt, .stations, .hz, .ctxs, .adj, .led,
    .tempo, .sync, .tab, .trace, .i3c, .out] ps = true) (deferred : Bool) (a : Adj) (cls : Nat) (charged :
    Option Core) (row : Nat) (s : State) (h0 : onlyChanges ps σ s) : onlyChanges ps σ (closeCore deferred a
    cls charged row s).1 := by
  refine only_trans h0 ?_; clear h0; unfold closeCore
  (try dsimp only)
  repeat' (first
    | with_reducible exact only_refl _ _ | assumption | with_reducible apply occurDeferred_only (within_trans rfl hp)
    | with_reducible apply occur_only (within_trans rfl hp) | with_reducible apply setDisp_only (within_trans rfl hp)
    | with_reducible apply updAdj_only (within_trans rfl hp)
    | with_reducible apply updStation_only (within_trans rfl hp)
    | with_reducible apply countClass_only (within_trans rfl hp)
    | with_reducible apply closeAdjIncident_only (within_trans rfl hp)
    | with_reducible apply contain_only (within_trans rfl hp)
    | with_reducible apply settleCu_only (within_trans rfl hp) | with_reducible apply only_ite
    | (split <;> try dsimp only))

theorem standIn_only {σ : State} {ps : List Part} (hp : within [.stations, .adj, .mem, .memPoison] ps = true)
    (i : Nat) (s : State) (h0 : onlyChanges ps σ s) : onlyChanges ps σ (standIn i s) := by
  refine only_trans h0 ?_; clear h0; unfold standIn
  repeat' (first
    | with_reducible exact only_refl _ _ | assumption | with_reducible apply wantH_only (within_trans rfl hp)
    | with_reducible apply updAdjSlot_only (within_trans rfl hp) | with_reducible apply only_ite
    | (split <;> try dsimp only))

theorem takeQueued_only {σ : State} {ps : List Part} (hp : within [.stations, .adj, .mem, .memPoison] ps =
    true) (s : State) (h0 : onlyChanges ps σ s) : onlyChanges ps σ (takeQueued s) := by
  refine only_trans h0 ?_; clear h0; unfold takeQueued
  (try dsimp only)
  repeat' (first
    | with_reducible exact only_refl _ _ | assumption | with_reducible apply standIn_only (within_trans rfl hp)
    | with_reducible apply lookFor_only (within_trans rfl hp) | with_reducible apply updAdj_only (within_trans rfl hp)
    | with_reducible apply only_ite | (split <;> try dsimp only))

theorem freeAdjSlot_only {σ : State} {ps : List Part} (hp : within [.stations, .adj, .mem, .memPoison] ps =
    true) (i : Nat) (s : State) (h0 : onlyChanges ps σ s) : onlyChanges ps σ (freeAdjSlot i s) := by
  refine only_trans h0 ?_; clear h0; unfold freeAdjSlot
  repeat' (first
    | with_reducible exact only_refl _ _ | assumption | with_reducible apply takeQueued_only (within_trans rfl hp)
    | with_reducible apply finishClose_only (within_trans rfl hp)
    | with_reducible apply updAdj_only (within_trans rfl hp) | with_reducible apply only_ite
    | (split <;> try dsimp only))

theorem closeSlot_only {σ : State} {ps : List Part} (hp : within [.evt, .stations, .hz, .ctxs, .adj, .led,
    .tempo, .sync, .tab, .trace, .i3c, .mem, .memPoison, .out] ps = true) (i cls : Nat) (charged : Option
    Core) (row : Nat) (s : State) (h0 : onlyChanges ps σ s) : onlyChanges ps σ (closeSlot i cls charged row s) := by
  refine only_trans h0 ?_; clear h0; unfold closeSlot
  (try dsimp only)
  repeat' (first
    | with_reducible exact only_refl _ _ | assumption | with_reducible apply closeCore_only (within_trans rfl hp)
    | with_reducible apply updAdjSlot_only (within_trans rfl hp)
    | with_reducible apply freeAdjSlot_only (within_trans rfl hp) | with_reducible apply only_ite
    | (split <;> try dsimp only))

theorem closeUnslotted_only {σ : State} {ps : List Part} (hp : within [.evt, .stations, .hz, .ctxs, .adj,
    .led, .tempo, .sync, .tab, .trace, .i3c, .mem, .memPoison, .out] ps = true) (deferred : Bool) (a : Adj) (s
    : State) (h0 : onlyChanges ps σ s) : onlyChanges ps σ (closeUnslotted deferred a s) := by
  refine only_trans h0 ?_; clear h0; unfold closeUnslotted
  (try dsimp only)
  repeat' (first
    | with_reducible exact only_refl _ _ | assumption | with_reducible apply closeCore_only (within_trans rfl hp)
    | with_reducible apply updAdj_only (within_trans rfl hp)
    | with_reducible apply finishClose_only (within_trans rfl hp) | with_reducible apply only_ite)

theorem assertStop_only {σ : State} {ps : List Part} (hp : within [.stations] ps = true) (c : Nat) (s : State)
    (h0 : onlyChanges ps σ s) : onlyChanges ps σ (assertStop c s) := by
  refine only_trans h0 ?_; clear h0; unfold assertStop
  repeat' (first
    | with_reducible exact only_refl _ _ | assumption | with_reducible apply updStation_only (within_trans rfl hp))

theorem openAdj_only {σ : State} {ps : List Part} (hp : within [.evt, .stations, .hz, .ctxs, .adj, .led,
    .tempo, .sync, .tab, .trace, .i3c, .mem, .memPoison, .out] ps = true) (a : Adj) (s : State) (h0 :
    onlyChanges ps σ s) : onlyChanges ps σ (openAdj a s) := by
  refine only_trans h0 ?_; clear h0; unfold openAdj
  (try dsimp only)
  repeat' (first
    | with_reducible exact only_refl _ _ | assumption | with_reducible apply openIncident_only (within_trans rfl hp)
    | with_reducible apply assertStop_only (within_trans rfl hp)
    | with_reducible apply takeQueued_only (within_trans rfl hp)
    | with_reducible apply updAdj_only (within_trans rfl hp)
    | with_reducible apply closeUnslotted_only (within_trans rfl hp) | with_reducible apply only_ite)

theorem understudyFault_only {σ : State} {ps : List Part} (hp : within [.evt, .stations, .hz, .ctxs, .led,
    .tempo, .sync, .tab, .trace, .i3c, .out] ps = true) (a : Adj) (u : Core) (s : State) (h0 : onlyChanges ps
    σ s) : onlyChanges ps σ (understudyFault a u s) := by
  refine only_trans h0 ?_; clear h0; unfold understudyFault
  (try dsimp only)
  repeat' (first
    | with_reducible exact only_refl _ _ | assumption | with_reducible apply occur_only (within_trans rfl hp)
    | with_reducible apply backoffCore_only (within_trans rfl hp)
    | with_reducible apply chargeEngine_only (within_trans rfl hp)
    | with_reducible apply countConfirmed_only (within_trans rfl hp))

theorem makeMove_only {σ : State} {ps : List Part} (hp : within [.evt, .stations, .hz, .ctxs, .adj, .led,
    .tempo, .sync, .tab, .trace, .i3c, .mem, .memPoison, .out] ps = true) (i : Nat) (m : AdjMove) (s : State)
    (h0 : onlyChanges ps σ s) : onlyChanges ps σ (makeMove i m s) := by
  refine only_trans h0 ?_; clear h0; unfold makeMove
  repeat' (first
    | with_reducible exact only_refl _ _ | assumption | with_reducible apply closeSlot_only (within_trans rfl hp)
    | with_reducible apply wantH_only (within_trans rfl hp) | with_reducible apply only_ite
    | (split <;> try dsimp only))

theorem replaceFailing_only {σ : State} {ps : List Part} (hp : within [.evt, .stations, .hz, .ctxs, .adj,
    .led, .tempo, .sync, .tab, .trace, .i3c, .mem, .memPoison, .out] ps = true) (i : Nat) (a : Adj) (uFails :
    Bool) (u v : ExecOutcome) (s : State) (h0 : onlyChanges ps σ s) : onlyChanges ps σ (replaceFailing i a
    uFails u v s) := by
  refine only_trans h0 ?_; clear h0; unfold replaceFailing
  (try dsimp only)
  repeat' (first
    | with_reducible exact only_refl _ _ | assumption
    | with_reducible apply understudyFault_only (within_trans rfl hp)
    | with_reducible apply updAdjSlot_only (within_trans rfl hp)
    | with_reducible apply assignU_only (within_trans rfl hp)
    | with_reducible apply assignV_only (within_trans rfl hp)
    | with_reducible apply makeMove_only (within_trans rfl hp) | with_reducible apply only_ite
    | (split <;> try dsimp only))

theorem evaluate_only {σ : State} {ps : List Part} (hp : within [.evt, .stations, .hz, .ctxs, .adj, .led,
    .tempo, .sync, .tab, .trace, .i3c, .mem, .memPoison, .out] ps = true) (i : Nat) (s : State) (h0 :
    onlyChanges ps σ s) : onlyChanges ps σ (evaluate i s) := by
  refine only_trans h0 ?_; clear h0; unfold evaluate
  (try dsimp only)
  repeat' (first
    | with_reducible exact only_refl _ _ | assumption | with_reducible apply replaceFailing_only (within_trans rfl hp)
    | with_reducible apply makeMove_only (within_trans rfl hp)
    | with_reducible apply updAdjSlot_only (within_trans rfl hp) | with_reducible apply only_ite
    | (split <;> try dsimp only))

theorem understudyLost_only {σ : State} {ps : List Part} (hp : within [.evt, .stations, .hz, .ctxs, .adj,
    .led, .tempo, .sync, .tab, .trace, .i3c, .mem, .memPoison, .out] ps = true) (i : Nat) (a : Adj) (isU :
    Bool) (s : State) (h0 : onlyChanges ps σ s) : onlyChanges ps σ (understudyLost i a isU s) := by
  refine only_trans h0 ?_; clear h0; unfold understudyLost
  (try dsimp only)
  repeat' (first
    | with_reducible exact only_refl _ _ | assumption | with_reducible apply assignU_only (within_trans rfl hp)
    | with_reducible apply assignV_only (within_trans rfl hp)
    | with_reducible apply updAdjSlot_only (within_trans rfl hp)
    | with_reducible apply evaluate_only (within_trans rfl hp) | with_reducible apply only_ite
    | (split <;> try dsimp only))

theorem takeOutcome_only {σ : State} {ps : List Part} (hp : within [.evt, .stations, .hz, .ctxs, .adj, .led,
    .tempo, .sync, .tab, .trace, .i3c, .mem, .memPoison, .out] ps = true) (i : Nat) (which : ExecName) (out :
    ExecOutcome) (a : Adj) (s : State) (h0 : onlyChanges ps σ s) : onlyChanges ps σ (takeOutcome i which out a
    s) := by
  refine only_trans h0 ?_; clear h0; unfold takeOutcome
  (try dsimp only)
  repeat' (first
    | with_reducible exact only_refl _ _ | assumption | with_reducible apply understudyLost_only (within_trans rfl hp)
    | with_reducible apply evaluate_only (within_trans rfl hp)
    | with_reducible apply updAdjSlot_only (within_trans rfl hp) | with_reducible apply only_ite
    | (split <;> try dsimp only))

theorem outcomeArrives_only {σ : State} {ps : List Part} (hp : within [.evt, .stations, .hz, .ctxs, .adj,
    .led, .tempo, .sync, .tab, .trace, .i3c, .mem, .memPoison, .out] ps = true) (i : Nat) (which : ExecName)
    (gave : Bool) (s : State) (h0 : onlyChanges ps σ s) : onlyChanges ps σ (outcomeArrives i which gave s) := by
  refine only_trans h0 ?_; clear h0; unfold outcomeArrives
  (try dsimp only)
  repeat' (first
    | with_reducible exact only_refl _ _ | assumption | with_reducible apply lookFor_only (within_trans rfl hp)
    | with_reducible apply takeOutcome_only (within_trans rfl hp) | with_reducible apply only_ite
    | (split <;> try dsimp only))

theorem execEnds_only {σ : State} {ps : List Part} (hp : within [.stations, .adj] ps = true) (d : Nat) (core :
    Core) (tag : Word) (start : Nat) (mismatch : Bool) (w : ExecName) (o : ExecOutcome) (s : State) (h0 :
    onlyChanges ps σ s) : onlyChanges ps σ (execEnds d core tag start mismatch w o s) := by
  refine only_trans h0 ?_; clear h0; unfold execEnds
  (try dsimp only)
  repeat' (first
    | with_reducible exact only_refl _ _ | assumption | with_reducible apply updAdjSlot_only (within_trans rfl hp)
    | with_reducible apply notify_only (within_trans rfl hp) | with_reducible apply only_ite
    | (split <;> try dsimp only))

theorem replayEnds_only {σ : State} {ps : List Part} (hp : within [.adj] ps = true) (core : Core) (tag : Word)
    (bytes : List Byte) (s : State) (h0 : onlyChanges ps σ s) : onlyChanges ps σ (replayEnds core tag bytes s) := by
  refine only_trans h0 ?_; clear h0; unfold replayEnds
  repeat' (first
    | with_reducible exact only_refl _ _ | assumption | with_reducible apply updAdj_only (within_trans rfl hp))

theorem adjTimeout_only {σ : State} {ps : List Part} (hp : within [.evt, .stations, .hz, .ctxs, .adj, .led,
    .tempo, .sync, .tab, .trace, .i3c, .mem, .memPoison, .out] ps = true) (i : Nat) (s : State) (h0 :
    onlyChanges ps σ s) : onlyChanges ps σ (adjTimeout i s) := by
  refine only_trans h0 ?_; clear h0; unfold adjTimeout
  repeat' (first
    | with_reducible exact only_refl _ _ | assumption | with_reducible apply closeSlot_only (within_trans rfl hp)
    | with_reducible apply only_ite | (split <;> try dsimp only))

theorem containedAll_only {ps : List Part} (hp : within [.evt, .stations, .tab] ps = true) (ctx tc : Nat) : ∀
    ls {σ s : State}, onlyChanges ps σ s → onlyChanges ps σ (containedAll ctx tc ls s) := by
  intro ls
  induction ls with
  | nil => intro σ s h; exact h
  | cons a l ih =>
    intro σ s h0
    refine only_trans h0 ?_; clear h0; unfold containedAll
    repeat' (first
      | with_reducible exact only_refl _ _ | with_reducible apply ih | assumption
      | with_reducible apply occur_only (within_trans rfl hp)
      | with_reducible apply settleCu_only (within_trans rfl hp))

theorem finishWaiting_only {ps : List Part} (hp : within [.stations, .adj, .mem, .memPoison] ps = true) (ctx :
    Nat) : ∀ ls {σ s : State}, onlyChanges ps σ s → onlyChanges ps σ (finishWaiting ctx ls s) := by
  intro ls
  induction ls with
  | nil => intro σ s h; exact h
  | cons a l ih =>
    intro σ s h0
    refine only_trans h0 ?_; clear h0; unfold finishWaiting
    repeat' (first
      | with_reducible exact only_refl _ _ | with_reducible apply ih | assumption
      | with_reducible apply freeAdjSlot_only (within_trans rfl hp) | with_reducible apply only_ite
      | (split <;> try dsimp only))

theorem finishUnslotted_only {σ : State} {ps : List Part} (hp : within [.stations, .adj, .mem, .memPoison] ps
    = true) (ctx : Nat) (s : State) (h0 : onlyChanges ps σ s) : onlyChanges ps σ (finishUnslotted ctx s) := by
  refine only_trans h0 ?_; clear h0; unfold finishUnslotted
  (try dsimp only)
  repeat' (first
    | with_reducible exact only_refl _ _ | assumption | with_reducible apply finishClose_only (within_trans rfl hp)
    | with_reducible apply updAdj_only (within_trans rfl hp) | with_reducible apply only_ite
    | (with_reducible apply only_foldl; (intro _ _; try dsimp only)))

theorem finishContext_only {σ : State} {ps : List Part} (hp : within [.stations, .adj, .mem, .memPoison] ps =
    true) (ctx : Nat) (s : State) (h0 : onlyChanges ps σ s) : onlyChanges ps σ (finishContext ctx s) := by
  refine only_trans h0 ?_; clear h0; unfold finishContext
  repeat' (first
    | with_reducible exact only_refl _ _ | assumption
    | with_reducible apply finishUnslotted_only (within_trans rfl hp)
    | with_reducible apply finishWaiting_only (within_trans rfl hp))

theorem acksComplete_only {σ : State} {ps : List Part} (hp : within [.evt, .stations, .hz, .adj, .tab, .mem,
    .memPoison] ps = true) (ctx : Nat) (s : State) (h0 : onlyChanges ps σ s) : onlyChanges ps σ (acksComplete
    ctx s) := by
  refine only_trans h0 ?_; clear h0; unfold acksComplete
  (try dsimp only)
  repeat' (first
    | with_reducible exact only_refl _ _ | assumption | with_reducible apply finishContext_only (within_trans rfl hp)
    | with_reducible apply updContainment_only (within_trans rfl hp)
    | with_reducible apply containedAll_only (within_trans rfl hp) | with_reducible apply only_ite
    | (split <;> try dsimp only))

theorem losePin_only {σ : State} {ps : List Part} (hp : within [.adj] ps = true) (c : Nat) (tag : Word) (s :
    State) (h0 : onlyChanges ps σ s) : onlyChanges ps σ (losePin c tag s) := by
  refine only_trans h0 ?_; clear h0; unfold losePin
  repeat' (first
    | with_reducible exact only_refl _ _ | assumption | with_reducible apply mapAdjs_only (within_trans rfl hp))

theorem withoutHomes_only {ps : List Part} (hp : within [.evt, .stations, .hz, .ctxs, .adj, .led, .tempo,
    .sync, .tab, .trace, .i3c, .mem, .memPoison, .out] ps = true) (c : Nat) : ∀ ls {σ s : State}, onlyChanges
    ps σ s → onlyChanges ps σ (withoutHomes c ls s) := by
  intro ls
  induction ls with
  | nil => intro σ s h; exact h
  | cons a l ih =>
    intro σ s h0
    refine only_trans h0 ?_; clear h0; unfold withoutHomes
    repeat' (first
      | with_reducible exact only_refl _ _ | with_reducible apply ih | assumption
      | with_reducible apply evaluate_only (within_trans rfl hp) | with_reducible apply only_ite
      | (split <;> try dsimp only))

theorem pinExpires_only {σ : State} {ps : List Part} (hp : within [.evt, .stations, .hz, .ctxs, .adj, .led,
    .tempo, .sync, .tab, .trace, .i3c, .mem, .memPoison, .out] ps = true) (c e : Nat) (s : State) (h0 :
    onlyChanges ps σ s) : onlyChanges ps σ (pinExpires c e s) := by
  refine only_trans h0 ?_; clear h0; unfold pinExpires
  (try dsimp only)
  repeat' (first
    | with_reducible exact only_refl _ _ | assumption | with_reducible apply dropPins_only (within_trans rfl hp)
    | with_reducible apply withoutHomes_only (within_trans rfl hp)
    | with_reducible apply occur_only (within_trans rfl hp) | with_reducible apply losePin_only (within_trans rfl hp)
    | with_reducible apply only_ite | (split <;> try dsimp only))

theorem execAdjExecutionOutcome_only (t : Nat) (slot : Fin 8) (which : ExecName) (gave : Bool) (s : State) : ∃
    s', execAdjExecutionOutcome t slot which gave s = .next s' ∧ onlyChanges [.now, .evt, .stations, .hz,
    .ctxs, .adj, .led, .tempo, .sync, .tab, .trace, .i3c, .mem, .memPoison, .out] s s' := by
  refine ⟨_, rfl, ?_⟩
  have hp : within [.now, .evt, .stations, .hz, .ctxs, .adj, .led, .tempo, .sync, .tab, .trace, .i3c, .mem, .memPoison, .out] [.now, .evt, .stations, .hz, .ctxs, .adj, .led, .tempo, .sync, .tab, .trace, .i3c, .mem, .memPoison, .out] = true := rfl
  repeat' (first
    | with_reducible exact only_refl _ _ | assumption | with_reducible apply outcomeArrives_only (within_trans rfl hp)
    | with_reducible apply atTime_only (within_trans rfl hp))

theorem execAdjTimeout_only (t : Nat) (slot : Fin 8) (s : State) : ∃ s', execAdjTimeout t slot s = .next s' ∧
    onlyChanges [.now, .evt, .stations, .hz, .ctxs, .adj, .led, .tempo, .sync, .tab, .trace, .i3c, .mem,
    .memPoison, .out] s s' := by
  refine ⟨_, rfl, ?_⟩
  have hp : within [.now, .evt, .stations, .hz, .ctxs, .adj, .led, .tempo, .sync, .tab, .trace, .i3c, .mem, .memPoison, .out] [.now, .evt, .stations, .hz, .ctxs, .adj, .led, .tempo, .sync, .tab, .trace, .i3c, .mem, .memPoison, .out] = true := rfl
  repeat' (first
    | with_reducible exact only_refl _ _ | assumption | with_reducible apply adjTimeout_only (within_trans rfl hp)
    | with_reducible apply atTime_only (within_trans rfl hp))

theorem execContainmentAcksComplete_only (t : Nat) (ctx : CtxId) (s : State) : ∃ s',
    execContainmentAcksComplete t ctx s = .next s' ∧ onlyChanges [.now, .evt, .stations, .hz, .adj, .tab,
    .mem, .memPoison] s s' := by
  refine ⟨_, rfl, ?_⟩
  have hp : within [.now, .evt, .stations, .hz, .adj, .tab, .mem, .memPoison] [.now, .evt, .stations, .hz, .adj, .tab, .mem, .memPoison] = true := rfl
  repeat' (first
    | with_reducible exact only_refl _ _ | assumption | with_reducible apply acksComplete_only (within_trans rfl hp)
    | with_reducible apply atTime_only (within_trans rfl hp))

theorem execPinExpired_only (t : Nat) (core : Core) (entry : Fin 4) (s : State) : ∃ s', execPinExpired t core
    entry s = .next s' ∧ onlyChanges [.now, .evt, .stations, .hz, .ctxs, .adj, .led, .tempo, .sync, .tab,
    .trace, .i3c, .mem, .memPoison, .out] s s' := by
  refine ⟨_, rfl, ?_⟩
  have hp : within [.now, .evt, .stations, .hz, .ctxs, .adj, .led, .tempo, .sync, .tab, .trace, .i3c, .mem, .memPoison, .out] [.now, .evt, .stations, .hz, .ctxs, .adj, .led, .tempo, .sync, .tab, .trace, .i3c, .mem, .memPoison, .out] = true := rfl
  repeat' (first
    | with_reducible exact only_refl _ _ | assumption | with_reducible apply pinExpires_only (within_trans rfl hp)
    | with_reducible apply atTime_only (within_trans rfl hp))

theorem recount_only {ps : List Part} (hp : within [.evt, .stations, .hz, .sync, .tab, .trace, .out] ps =
    true) (gen : Nat) : ∀ ls {σ s : State}, onlyChanges ps σ s → onlyChanges ps σ (recount gen ls s) := by
  intro ls
  induction ls with
  | nil => intro σ s h; exact h
  | cons a l ih =>
    intro σ s h0
    refine only_trans h0 ?_; clear h0; unfold recount
    (try dsimp only)
    repeat' (first
      | with_reducible exact only_refl _ _ | with_reducible apply ih | assumption
      | with_reducible apply occur_only (within_trans rfl hp) | with_reducible apply change_only (within_trans rfl hp)
      | with_reducible apply only_ite)

theorem sendBreleases_only {ps : List Part} (hp : within [.evt, .stations, .hz, .tab, .trace, .out] ps = true)
    (x : Barrier) : ∀ ls {σ s : State}, onlyChanges ps σ s → onlyChanges ps σ (sendBreleases x ls s) := by
  intro ls
  induction ls with
  | nil => intro σ s h; exact h
  | cons a l ih =>
    intro σ s h0
    refine only_trans h0 ?_; clear h0; unfold sendBreleases
    (try dsimp only)
    repeat' (first
      | with_reducible exact only_refl _ _ | with_reducible apply ih | assumption
      | with_reducible apply gateMsg_only (within_trans rfl hp))

theorem completeGen_only {σ : State} {ps : List Part} (hp : within [.evt, .stations, .hz, .ctxs, .sync, .tab,
    .trace, .out] ps = true) (b : Nat) (s : State) (h0 : onlyChanges ps σ s) : onlyChanges ps σ (completeGen b
    s) := by
  refine only_trans h0 ?_; clear h0; unfold completeGen
  (try dsimp only)
  repeat' (first
    | with_reducible exact only_refl _ _ | assumption | with_reducible apply recount_only (within_trans rfl hp)
    | with_reducible apply actOn_only (within_trans rfl hp)
    | with_reducible apply releaseBarWaiters_only (within_trans rfl hp)
    | with_reducible apply sendBreleases_only (within_trans rfl hp)
    | with_reducible apply updBarrier_only (within_trans rfl hp) | with_reducible apply only_ite
    | (split <;> try dsimp only))

theorem checkBarrier_only {ps : List Part} (hp : within [.evt, .stations, .hz, .ctxs, .sync, .tab, .trace,
    .out] ps = true) (b : Nat) : ∀ ls {σ s : State}, onlyChanges ps σ s → onlyChanges ps σ (checkBarrier b ls
    s) := by
  intro ls
  induction ls with
  | zero => intro σ s h; exact h
  | succ a ih =>
    intro σ s h0
    refine only_trans h0 ?_; clear h0; unfold checkBarrier
    (try dsimp only)
    repeat' (first
      | with_reducible exact only_refl _ _ | with_reducible apply ih | assumption
      | with_reducible apply updBarrier_only (within_trans rfl hp)
      | with_reducible apply gateMsg_only (within_trans rfl hp)
      | with_reducible apply completeGen_only (within_trans rfl hp) | with_reducible apply only_ite
      | (split <;> try dsimp only))

theorem advance_only {σ : State} {ps : List Part} (hp : within [.evt, .stations, .hz, .ctxs, .sync, .tab,
    .trace, .out] ps = true) (b : Nat) (s : State) (h0 : onlyChanges ps σ s) : onlyChanges ps σ (advance b s) := by
  refine only_trans h0 ?_; clear h0; unfold advance
  repeat' (first
    | with_reducible exact only_refl _ _ | assumption | with_reducible apply checkBarrier_only (within_trans rfl hp))

theorem advanceSeals_only {ps : List Part} (hp : within [.evt, .stations, .hz, .ctxs, .sync, .tab, .trace,
    .out] ps = true) (ctx : Nat) : ∀ ls {σ s : State}, onlyChanges ps σ s → onlyChanges ps σ (advanceSeals ctx
    ls s) := by
  intro ls
  induction ls with
  | nil => intro σ s h; exact h
  | cons a l ih =>
    intro σ s h0
    refine only_trans h0 ?_; clear h0; unfold advanceSeals
    (try dsimp only)
    repeat' (first
      | with_reducible exact only_refl _ _ | with_reducible apply ih | assumption
      | with_reducible apply advance_only (within_trans rfl hp) | with_reducible apply only_ite)

theorem sealChanged_only {σ : State} {ps : List Part} (hp : within [.evt, .stations, .hz, .ctxs, .sync, .tab,
    .trace, .out] ps = true) (o : Nat) (s : State) (h0 : onlyChanges ps σ s) : onlyChanges ps σ (sealChanged o
    s) := by
  refine only_trans h0 ?_; clear h0; unfold sealChanged
  (try dsimp only)
  repeat' (first
    | with_reducible exact only_refl _ _ | assumption | with_reducible apply advanceSeals_only (within_trans rfl hp)
    | with_reducible apply only_ite | (split <;> try dsimp only))

theorem breakBarrier_only {σ : State} {ps : List Part} (hp : within [.sync] ps = true) (b : Nat) (s : State)
    (h0 : onlyChanges ps σ s) : onlyChanges ps σ (breakBarrier b s) := by
  refine only_trans h0 ?_; clear h0; unfold breakBarrier
  repeat' (first
    | with_reducible exact only_refl _ _ | assumption | with_reducible apply updBarrier_only (within_trans rfl hp)
    | with_reducible apply releaseBarWaiters_only (within_trans rfl hp))

theorem breakBarriers_only {ps : List Part} (hp : within [.sync] ps = true) (p : Barrier → Bool) : ∀ ls {σ s :
    State}, onlyChanges ps σ s → onlyChanges ps σ (breakBarriers p ls s) := by
  intro ls
  induction ls with
  | nil => intro σ s h; exact h
  | cons a l ih =>
    intro σ s h0
    refine only_trans h0 ?_; clear h0; unfold breakBarriers
    (try dsimp only)
    repeat' (first
      | with_reducible exact only_refl _ _ | with_reducible apply ih | assumption
      | with_reducible apply breakBarrier_only (within_trans rfl hp) | with_reducible apply only_ite)

theorem armBarrier_only {σ : State} {ps : List Part} (hp : within [.cfg, .sync] ps = true) (r : Requester) (b
    : Nat) (s : State) (h0 : onlyChanges ps σ s) : onlyChanges ps σ (armBarrier r b s) := by
  refine only_trans h0 ?_; clear h0; unfold armBarrier
  (try dsimp only)
  repeat' (first
    | with_reducible exact only_refl _ _ | assumption | with_reducible apply setResult_only (within_trans rfl hp)
    | with_reducible apply updCfg_only (within_trans rfl hp)
    | with_reducible apply updBarrier_only (within_trans rfl hp) | with_reducible apply only_ite)

theorem disarmBarrier_only {σ : State} {ps : List Part} (hp : within [.cfg, .sync] ps = true) (r : Requester)
    (b : Nat) (s : State) (h0 : onlyChanges ps σ s) : onlyChanges ps σ (disarmBarrier r b s) := by
  refine only_trans h0 ?_; clear h0; unfold disarmBarrier
  (try dsimp only)
  repeat' (first
    | with_reducible exact only_refl _ _ | assumption | with_reducible apply setResult_only (within_trans rfl hp)
    | with_reducible apply updCfg_only (within_trans rfl hp)
    | with_reducible apply updBarrier_only (within_trans rfl hp) | with_reducible apply only_ite)

theorem arriveNow_only {σ : State} {ps : List Part} (hp : within [.evt, .stations, .hz, .ctxs, .led, .sync,
    .tab, .trace, .out] ps = true) (c q b : Nat) (timeout : BitVec 24) (s : State) (h0 : onlyChanges ps σ s) :
    onlyChanges ps σ (arriveNow c q b timeout s) := by
  refine only_trans h0 ?_; clear h0; unfold arriveNow
  (try dsimp only)
  repeat' (first
    | with_reducible exact only_refl _ _ | assumption | with_reducible apply kitInvalid_only (within_trans rfl hp)
    | with_reducible apply startSync_only (within_trans rfl hp)
    | with_reducible apply retireSync_only (within_trans rfl hp)
    | with_reducible apply occur_only (within_trans rfl hp)
    | with_reducible apply updStation_only (within_trans rfl hp)
    | with_reducible apply updQueue_only (within_trans rfl hp)
    | with_reducible apply updBarrier_only (within_trans rfl hp)
    | with_reducible apply advance_only (within_trans rfl hp) | with_reducible apply only_ite
    | (split <;> try dsimp only))

theorem barrierTimeoutNow_only {σ : State} {ps : List Part} (hp : within [.evt, .stations, .sync, .tab, .out]
    ps = true) (c w : Nat) (s : State) (h0 : onlyChanges ps σ s) : onlyChanges ps σ (barrierTimeoutNow c w s) := by
  refine only_trans h0 ?_; clear h0; unfold barrierTimeoutNow
  (try dsimp only)
  repeat' (first
    | with_reducible exact only_refl _ _ | assumption | with_reducible apply occur_only (within_trans rfl hp)
    | with_reducible apply updBarrier_only (within_trans rfl hp)
    | with_reducible apply retireWait_only (within_trans rfl hp)
    | with_reducible apply freeWatch_only (within_trans rfl hp) | with_reducible apply only_ite
    | (split <;> try dsimp only))

theorem execBarrierArm_only (t : Nat) (r : Requester) (b : Byte) (s : State) : ∃ s', execBarrierArm t r b s =
    .next s' ∧ onlyChanges [.now, .cfg, .sync] s s' := by
  refine ⟨_, rfl, ?_⟩
  have hp : within [.now, .cfg, .sync] [.now, .cfg, .sync] = true := rfl
  repeat' (first
    | with_reducible exact only_refl _ _ | assumption | with_reducible apply atTime_only (within_trans rfl hp)
    | with_reducible apply armBarrier_only (within_trans rfl hp) | with_reducible apply only_ite)

theorem execBarrierDisarm_only (t : Nat) (r : Requester) (b : Byte) (s : State) : ∃ s', execBarrierDisarm t r
    b s = .next s' ∧ onlyChanges [.now, .cfg, .sync] s s' := by
  refine ⟨_, rfl, ?_⟩
  have hp : within [.now, .cfg, .sync] [.now, .cfg, .sync] = true := rfl
  repeat' (first
    | with_reducible exact only_refl _ _ | assumption | with_reducible apply atTime_only (within_trans rfl hp)
    | with_reducible apply disarmBarrier_only (within_trans rfl hp) | with_reducible apply only_ite)

theorem execBarrierArrive_only (t : Nat) (core : Core) (queue : Queue) (b : Byte) (timeout : BitVec 24) (s :
    State) : ∃ s', execBarrierArrive t core queue b timeout s = .next s' ∧ onlyChanges [.now, .evt, .stations,
    .hz, .ctxs, .led, .sync, .tab, .trace, .out] s s' := by
  refine ⟨_, rfl, ?_⟩
  have hp : within [.now, .evt, .stations, .hz, .ctxs, .led, .sync, .tab, .trace, .out] [.now, .evt, .stations, .hz, .ctxs, .led, .sync, .tab, .trace, .out] = true := rfl
  repeat' (first
    | with_reducible exact only_refl _ _ | assumption | with_reducible apply arriveNow_only (within_trans rfl hp)
    | with_reducible apply atTime_only (within_trans rfl hp))

theorem execBarrierTimeout_only (t : Nat) (core : Core) (slot : Fin 16) (s : State) : ∃ s', execBarrierTimeout
    t core slot s = .next s' ∧ onlyChanges [.now, .evt, .stations, .sync, .tab, .out] s s' := by
  refine ⟨_, rfl, ?_⟩
  have hp : within [.now, .evt, .stations, .sync, .tab, .out] [.now, .evt, .stations, .sync, .tab, .out] = true := rfl
  repeat' (first
    | with_reducible exact only_refl _ _ | assumption
    | with_reducible apply barrierTimeoutNow_only (within_trans rfl hp)
    | with_reducible apply atTime_only (within_trans rfl hp))

theorem writeOne_only {σ : State} {ps : List Part} (hp : within [.evt, .tab, .trace, .i3c, .out] ps = true)
    (ev : Ev) (s : State) (h0 : onlyChanges ps σ s) : onlyChanges ps σ (writeOne ev s) := by
  refine only_trans h0 ?_; clear h0; unfold writeOne
  (try dsimp only)
  repeat' (first
    | with_reducible exact only_refl _ _ | assumption | with_reducible apply updEvt_only (within_trans rfl hp)
    | with_reducible apply msix_only (within_trans rfl hp) | with_reducible apply oobAdd_only (within_trans rfl hp)
    | with_reducible apply traceAlways_only (within_trans rfl hp)
    | with_reducible apply traceRec_only (within_trans rfl hp) | with_reducible apply only_ite)

theorem writeRecord_only {σ : State} {ps : List Part} (hp : within [.evt, .tab, .trace, .i3c, .out] ps = true)
    (ev : Ev) (s : State) (h0 : onlyChanges ps σ s) : onlyChanges ps σ (writeRecord ev s) := by
  refine only_trans h0 ?_; clear h0; unfold writeRecord
  (try dsimp only)
  repeat' (first
    | with_reducible exact only_refl _ _ | assumption | with_reducible apply writeOne_only (within_trans rfl hp)
    | with_reducible apply eventTrigger_only (within_trans rfl hp)
    | with_reducible apply updEvt_only (within_trans rfl hp) | with_reducible apply only_ite)

theorem recordWriteNow_only {σ : State} {ps : List Part} (hp : within [.evt, .tab, .trace, .i3c, .out] ps =
    true) (s : State) (h0 : onlyChanges ps σ s) : onlyChanges ps σ (recordWriteNow s) := by
  refine only_trans h0 ?_; clear h0; unfold recordWriteNow
  repeat' (first
    | with_reducible exact only_refl _ _ | assumption | with_reducible apply writeRecord_only (within_trans rfl hp)
    | with_reducible apply only_ite | (split <;> try dsimp only) | (intro _; try dsimp only) | dsimp only
    | exact ⟨rfl, fun p h => by cases p <;> first | (with_reducible rfl) | exact absurd (within_mem hp rfl) h⟩)

theorem damageTail_only {σ : State} {ps : List Part} (hp : within [.crash] ps = true) (word : Nat) (s : State)
    (h0 : onlyChanges ps σ s) : onlyChanges ps σ (damageTail word s) := by
  refine only_trans h0 ?_; clear h0; unfold damageTail
  (try dsimp only)
  repeat' (first
    | with_reducible exact only_refl _ _ | assumption | with_reducible apply updCrash_only (within_trans rfl hp)
    | with_reducible apply only_ite | (split <;> try dsimp only))

theorem dkError_only {σ : State} {ps : List Part} (hp : within [.evt, .crash] ps = true) (word detail : Word)
    (s : State) (h0 : onlyChanges ps σ s) : onlyChanges ps σ (dkError word detail s) := by
  refine only_trans h0 ?_; clear h0; unfold dkError
  (try dsimp only)
  repeat' (first
    | with_reducible exact only_refl _ _ | assumption | with_reducible apply updEvt_only (within_trans rfl hp)
    | with_reducible apply damageTail_only (within_trans rfl hp) | with_reducible apply only_ite)

theorem occurrence_only {σ : State} {ps : List Part} (hp : within [.evt, .crash, .tab] ps = true) (code source
    : BitVec 16) (p1 p2 p3 : Word) (s : State) (h0 : onlyChanges ps σ s) : onlyChanges ps σ (occurrence code
    source p1 p2 p3 s) := by
  refine only_trans h0 ?_; clear h0; unfold occurrence
  (try dsimp only)
  repeat' (first
    | with_reducible exact only_refl _ _ | assumption | with_reducible apply dkError_only (within_trans rfl hp)
    | with_reducible apply occurEv_only (within_trans rfl hp) | with_reducible apply only_ite)

theorem refill_only {σ : State} {ps : List Part} (hp : within [.evt, .tab] ps = true) (code : BitVec 16) (s :
    State) (h0 : onlyChanges ps σ s) : onlyChanges ps σ (refill code s) := by
  refine only_trans h0 ?_; clear h0; unfold refill
  (try dsimp only)
  repeat' (first
    | with_reducible exact only_refl _ _ | assumption | with_reducible apply eventTrigger_only (within_trans rfl hp)
    | with_reducible apply updEvt_only (within_trans rfl hp) | with_reducible apply only_ite
    | (split <;> try dsimp only))

theorem refuseClear_only {σ : State} {ps : List Part} (hp : within [.evt, .tab] ps = true) (r : Requester) (v
    : Nat) (s : State) (h0 : onlyChanges ps σ s) : onlyChanges ps σ (refuseClear r v s) := by
  refine only_trans h0 ?_; clear h0; unfold refuseClear
  (try dsimp only)
  repeat' (first
    | with_reducible exact only_refl _ _ | assumption | with_reducible apply updEvt_only (within_trans rfl hp)
    | with_reducible apply occur_only (within_trans rfl hp))

theorem countMismatch_only {σ : State} {ps : List Part} (hp : within [.evt] ps = true) (s : State) (h0 :
    onlyChanges ps σ s) : onlyChanges ps σ (countMismatch s) := by
  refine only_trans h0 ?_; clear h0; unfold countMismatch
  repeat' (first
    | with_reducible exact only_refl _ _ | assumption | with_reducible apply updEvt_only (within_trans rfl hp))

theorem challenge_only {σ : State} {ps : List Part} (hp : within [.free, .evt, .tab] ps = true) (r :
    Requester) (s : State) (h0 : onlyChanges ps σ s) : onlyChanges ps σ (challenge r s) := by
  refine only_trans h0 ?_; clear h0; unfold challenge
  (try dsimp only)
  repeat' (first
    | with_reducible exact only_refl _ _ | assumption | with_reducible apply refuseClear_only (within_trans rfl hp)
    | with_reducible apply fresh_only (within_trans rfl hp) | with_reducible apply updEvt_only (within_trans rfl hp)
    | with_reducible apply only_ite)

theorem clearLog_only {σ : State} {ps : List Part} (hp : within [.evt, .tab] ps = true) (r : Requester) (s :
    State) (h0 : onlyChanges ps σ s) : onlyChanges ps σ (clearLog r s) := by
  refine only_trans h0 ?_; clear h0; unfold clearLog
  (try dsimp only)
  repeat' (first
    | with_reducible exact only_refl _ _ | assumption | with_reducible apply refuseClear_only (within_trans rfl hp)
    | with_reducible apply updEvt_only (within_trans rfl hp)
    | with_reducible apply countMismatch_only (within_trans rfl hp) | with_reducible apply only_ite
    | (split <;> try dsimp only))

theorem finishClear_only {σ : State} {ps : List Part} (hp : within [.evt, .crash, .tab, .trace, .i3c, .out] ps
    = true) (r : Nat) (s : State) (h0 : onlyChanges ps σ s) : onlyChanges ps σ (finishClear r s) := by
  refine only_trans h0 ?_; clear h0; unfold finishClear
  (try dsimp only)
  repeat' (first
    | with_reducible exact only_refl _ _ | assumption | with_reducible apply updCrash_only (within_trans rfl hp)
    | with_reducible apply updEvt_only (within_trans rfl hp)
    | with_reducible apply eventTrigger_only (within_trans rfl hp)
    | with_reducible apply writeRecord_only (within_trans rfl hp))

theorem beginCopy_only {σ : State} {ps : List Part} (hp : within [.crash] ps = true) (snap : Snapshot) (slot :
    Nat) (s : State) (h0 : onlyChanges ps σ s) : onlyChanges ps σ (beginCopy snap slot s) := by
  refine only_trans h0 ?_; clear h0; unfold beginCopy
  (try dsimp only)
  repeat' (first
    | with_reducible exact only_refl _ _ | assumption | with_reducible apply updCrash_only (within_trans rfl hp))

theorem startCopyAfterClear_only {σ : State} {ps : List Part} (hp : within [.crash] ps = true) (s : State) (h0
    : onlyChanges ps σ s) : onlyChanges ps σ (startCopyAfterClear s) := by
  refine only_trans h0 ?_; clear h0; unfold startCopyAfterClear
  repeat' (first
    | with_reducible exact only_refl _ _ | assumption | with_reducible apply beginCopy_only (within_trans rfl hp)
    | with_reducible apply only_ite | (split <;> try dsimp only))

theorem logClearNow_only {σ : State} {ps : List Part} (hp : within [.evt, .crash, .tab, .trace, .i3c, .out] ps
    = true) (s : State) (h0 : onlyChanges ps σ s) : onlyChanges ps σ (logClearNow s) := by
  refine only_trans h0 ?_; clear h0; unfold logClearNow
  repeat' (first
    | with_reducible exact only_refl _ _ | assumption
    | with_reducible apply startCopyAfterClear_only (within_trans rfl hp)
    | with_reducible apply finishClear_only (within_trans rfl hp) | with_reducible apply only_ite
    | (split <;> try dsimp only))

theorem execEvtReadLatch_only (t : Nat) (r : Requester) (seq : Word) (upper : Option Word) (s : State) : ∃ s',
    execEvtReadLatch t r seq upper s = .next s' ∧ onlyChanges [.now, .evt] s s' := by
  unfold execEvtReadLatch
  dsimp only
  split
  · exact ⟨_, rfl, atTime_only rfl _ _ (only_refl _ s)⟩
  · exact ⟨_, rfl, updEvt_only rfl _ _ (atTime_only rfl _ _ (only_refl _ s))⟩

theorem execEvtChallenge_only (t : Nat) (r : Requester) (s : State) : ∃ s', execEvtChallenge t r s = .next s'
    ∧ onlyChanges [.now, .free, .evt, .tab] s s' := by
  refine ⟨_, rfl, ?_⟩
  have hp : within [.now, .free, .evt, .tab] [.now, .free, .evt, .tab] = true := rfl
  repeat' (first
    | with_reducible exact only_refl _ _ | assumption | with_reducible apply atTime_only (within_trans rfl hp)
    | with_reducible apply challenge_only (within_trans rfl hp) | with_reducible apply only_ite)

theorem execEvtClear_only (t : Nat) (r : Requester) (s : State) : ∃ s', execEvtClear t r s = .next s' ∧
    onlyChanges [.now, .evt, .tab] s s' := by
  refine ⟨_, rfl, ?_⟩
  have hp : within [.now, .evt, .tab] [.now, .evt, .tab] = true := rfl
  repeat' (first
    | with_reducible exact only_refl _ _ | assumption | with_reducible apply atTime_only (within_trans rfl hp)
    | with_reducible apply clearLog_only (within_trans rfl hp) | with_reducible apply only_ite)

theorem execNonceExpiry_only (t : Nat) (r : Requester) (s : State) : ∃ s', execNonceExpiry t r s = .next s' ∧
    onlyChanges [.now, .evt] s s' := by
  refine ⟨_, rfl, ?_⟩
  have hp : within [.now, .evt] [.now, .evt] = true := rfl
  repeat' (first
    | with_reducible exact only_refl _ _ | assumption | with_reducible apply atTime_only (within_trans rfl hp)
    | with_reducible apply updEvt_only (within_trans rfl hp) | with_reducible apply only_ite
    | (split <;> try dsimp only))

theorem execLogClearComplete_only (t : Nat) (s : State) : ∃ s', execLogClearComplete t s = .next s' ∧
    onlyChanges [.now, .evt, .crash, .tab, .trace, .i3c, .out] s s' := by
  refine ⟨_, rfl, ?_⟩
  have hp : within [.now, .evt, .crash, .tab, .trace, .i3c, .out] [.now, .evt, .crash, .tab, .trace, .i3c, .out] = true := rfl
  repeat' (first
    | with_reducible exact only_refl _ _ | assumption | with_reducible apply logClearNow_only (within_trans rfl hp)
    | with_reducible apply atTime_only (within_trans rfl hp))

theorem execEventOccurrence_only (t : Nat) (code source : BitVec 16) (p1 p2 p3 : Word) (s : State) : ∃ s',
    execEventOccurrence t code source p1 p2 p3 s = .next s' ∧ onlyChanges [.now, .evt, .crash, .tab] s s' := by
  refine ⟨_, rfl, ?_⟩
  have hp : within [.now, .evt, .crash, .tab] [.now, .evt, .crash, .tab] = true := rfl
  repeat' (first
    | with_reducible exact only_refl _ _ | assumption | with_reducible apply occurrence_only (within_trans rfl hp)
    | with_reducible apply atTime_only (within_trans rfl hp))

theorem execRecordWrite_only (t : Nat) (s : State) : ∃ s', execRecordWrite t s = .next s' ∧ onlyChanges [.now,
    .evt, .tab, .trace, .i3c, .out] s s' := by
  refine ⟨_, rfl, ?_⟩
  have hp : within [.now, .evt, .tab, .trace, .i3c, .out] [.now, .evt, .tab, .trace, .i3c, .out] = true := rfl
  repeat' (first
    | with_reducible exact only_refl _ _ | assumption | with_reducible apply recordWriteNow_only (within_trans rfl hp)
    | with_reducible apply atTime_only (within_trans rfl hp))

theorem execTokenRefill_only (t : Nat) (code : BitVec 16) (s : State) : ∃ s', execTokenRefill t code s = .next
    s' ∧ onlyChanges [.now, .evt, .tab] s s' := by
  refine ⟨_, rfl, ?_⟩
  have hp : within [.now, .evt, .tab] [.now, .evt, .tab] = true := rfl
  repeat' (first
    | with_reducible exact only_refl _ _ | assumption | with_reducible apply refill_only (within_trans rfl hp)
    | with_reducible apply atTime_only (within_trans rfl hp))

theorem execClearLockoutExpiry_only (t : Nat) (s : State) : ∃ s', execClearLockoutExpiry t s = .next s' ∧
    onlyChanges [.now, .evt] s s' := by
  refine ⟨_, rfl, ?_⟩
  have hp : within [.now, .evt] [.now, .evt] = true := rfl
  repeat' (first
    | with_reducible exact only_refl _ _ | assumption | with_reducible apply atTime_only (within_trans rfl hp)
    | with_reducible apply updEvt_only (within_trans rfl hp) | with_reducible apply only_ite)

theorem capture_only {σ : State} {ps : List Part} (hp : within [.evt, .crash, .tab] ps = true) (trigger :
    Byte) (index queue : Nat) (incomplete : Bool) (ev : Option Ev) (seq : Word) (s : State) (h0 : onlyChanges
    ps σ s) : onlyChanges ps σ (capture trigger index queue incomplete ev seq s) := by
  refine only_trans h0 ?_; clear h0; unfold capture
  (try dsimp only)
  repeat' (first
    | with_reducible exact only_refl _ _ | assumption | with_reducible apply occur_only (within_trans rfl hp)
    | with_reducible apply updCrash_only (within_trans rfl hp)
    | with_reducible apply beginCopy_only (within_trans rfl hp) | with_reducible apply only_ite)

theorem completeCopy_only {σ : State} {ps : List Part} (hp : within [.evt, .crash, .tab] ps = true) (ok :
    Bool) (s : State) (h0 : onlyChanges ps σ s) : onlyChanges ps σ (completeCopy ok s) := by
  refine only_trans h0 ?_; clear h0; unfold completeCopy
  (try dsimp only)
  repeat' (first
    | with_reducible exact only_refl _ _ | assumption | with_reducible apply updCrash_only (within_trans rfl hp)
    | with_reducible apply occurDeferred_only (within_trans rfl hp)
    | with_reducible apply occur_only (within_trans rfl hp) | with_reducible apply only_ite
    | (split <;> try dsimp only))

theorem copyDone_only {σ : State} {ps : List Part} (hp : within [.evt, .crash, .tab] ps = true) (ok : Bool) (s
    : State) (h0 : onlyChanges ps σ s) : onlyChanges ps σ (copyDone ok s) := by
  refine only_trans h0 ?_; clear h0; unfold copyDone
  repeat' (first
    | with_reducible exact only_refl _ _ | assumption | with_reducible apply completeCopy_only (within_trans rfl hp)
    | with_reducible apply only_ite)

theorem execHangSnapshotCopyDone_only (t : Nat) (bufferOk : Bool) (s : State) : ∃ s', execHangSnapshotCopyDone
    t bufferOk s = .next s' ∧ onlyChanges [.now, .evt, .crash, .tab] s s' := by
  refine ⟨_, rfl, ?_⟩
  have hp : within [.now, .evt, .crash, .tab] [.now, .evt, .crash, .tab] = true := rfl
  repeat' (first
    | with_reducible exact only_refl _ _ | assumption | with_reducible apply copyDone_only (within_trans rfl hp)
    | with_reducible apply atTime_only (within_trans rfl hp))

theorem failSync_only {σ : State} {ps : List Part} (hp : within [.evt, .stations, .tab, .out] ps = true) (c q
    op : Nat) (name : Word) (status : Nat) (s : State) (h0 : onlyChanges ps σ s) : onlyChanges ps σ (failSync
    c q op name status s) := by
  refine only_trans h0 ?_; clear h0; unfold failSync
  (try dsimp only)
  repeat' (first
    | with_reducible exact only_refl _ _ | assumption | with_reducible apply syncError_only (within_trans rfl hp)
    | with_reducible apply retireSync_only (within_trans rfl hp) | with_reducible apply only_ite)

theorem releaseTo_only {σ : State} {ps : List Part} (hp : within [.sync] ps = true) (p name : Word) (status :
    Nat) (value : Word) (s : State) (h0 : onlyChanges ps σ s) : onlyChanges ps σ (releaseTo p name status
    value s) := by
  refine only_trans h0 ?_; clear h0; unfold releaseTo
  repeat' (first
    | with_reducible exact only_refl _ _ | assumption | with_reducible apply updSync_only (within_trans rfl hp))

theorem cancelSub_only {σ : State} {ps : List Part} (hp : within [.sync] ps = true) (o : Nat) (p : Word) (s :
    State) (h0 : onlyChanges ps σ s) : onlyChanges ps σ (cancelSub o p s) := by
  refine only_trans h0 ?_; clear h0; unfold cancelSub
  repeat' (first
    | with_reducible exact only_refl _ _ | assumption | with_reducible apply updObject_only (within_trans rfl hp))

theorem cancelTaken_only {σ : State} {ps : List Part} (hp : within [.stations, .sync] ps = true) (c : Nat) (k
    : Nat × Word × Word) (s : State) (h0 : onlyChanges ps σ s) : onlyChanges ps σ (cancelTaken c k s) := by
  refine only_trans h0 ?_; clear h0; unfold cancelTaken
  repeat' (first
    | with_reducible exact only_refl _ _ | assumption | with_reducible apply cancelSub_only (within_trans rfl hp)
    | with_reducible apply updSync_only (within_trans rfl hp)
    | with_reducible apply updStation_only (within_trans rfl hp))

theorem cancelsTaken_only {ps : List Part} (hp : within [.stations, .sync] ps = true) (c : Nat) : ∀ ls {σ s :
    State}, onlyChanges ps σ s → onlyChanges ps σ (cancelsTaken c ls s) := by
  intro ls
  induction ls with
  | nil => intro σ s h; exact h
  | cons a l ih =>
    intro σ s h0
    refine only_trans h0 ?_; clear h0; unfold cancelsTaken
    repeat' (first
      | with_reducible exact only_refl _ _ | with_reducible apply ih | assumption
      | with_reducible apply cancelTaken_only (within_trans rfl hp))

theorem subscribe_only {σ : State} {ps : List Part} (hp : within [.evt, .stations, .hz, .sync, .tab, .trace,
    .out] ps = true) (o : Nat) (p : Word) (cond : Nat) (target : Word) (op : Nat) (s : State) (h0 :
    onlyChanges ps σ s) : onlyChanges ps σ (subscribe o p cond target op s) := by
  refine only_trans h0 ?_; clear h0; unfold subscribe
  (try dsimp only)
  repeat' (first
    | with_reducible exact only_refl _ _ | assumption | with_reducible apply occur_only (within_trans rfl hp)
    | with_reducible apply sendRelease_only (within_trans rfl hp)
    | with_reducible apply syncError_only (within_trans rfl hp)
    | with_reducible apply updObject_only (within_trans rfl hp) | with_reducible apply only_ite)

theorem register_only {σ : State} {ps : List Part} (hp : within [.evt, .stations, .hz, .sync, .tab, .trace,
    .out] ps = true) (c w : Nat) (s : State) (h0 : onlyChanges ps σ s) : onlyChanges ps σ (register c w s) := by
  refine only_trans h0 ?_; clear h0; unfold register
  (try dsimp only)
  repeat' (first
    | with_reducible exact only_refl _ _ | assumption | with_reducible apply cancelsTaken_only (within_trans rfl hp)
    | with_reducible apply updStation_only (within_trans rfl hp)
    | with_reducible apply releaseTo_only (within_trans rfl hp)
    | with_reducible apply syncError_only (within_trans rfl hp)
    | with_reducible apply subscribe_only (within_trans rfl hp) | with_reducible apply only_ite
    | (split <;> try dsimp only))

theorem registerUntil_only {ps : List Part} (hp : within [.evt, .stations, .hz, .sync, .tab, .trace, .out] ps
    = true) (c q : Nat) (name : Word) (w : Option Nat) : ∀ ls {σ s : State}, onlyChanges ps σ s → onlyChanges
    ps σ (registerUntil c q name w ls s) := by
  intro ls
  induction ls with
  | zero => intro σ s h; exact h
  | succ a ih =>
    intro σ s h0
    refine only_trans h0 ?_; clear h0; unfold registerUntil
    repeat' (first
      | with_reducible exact only_refl _ _ | with_reducible apply ih | assumption
      | with_reducible apply register_only (within_trans rfl hp) | with_reducible apply only_ite
      | (split <;> try dsimp only))

theorem subscriptionArrives_only {σ : State} {ps : List Part} (hp : within [.evt, .stations, .hz, .sync, .tab,
    .trace, .out] ps = true) (c w : Nat) (s : State) (h0 : onlyChanges ps σ s) : onlyChanges ps σ
    (subscriptionArrives c w s) := by
  refine only_trans h0 ?_; clear h0; unfold subscriptionArrives
  (try dsimp only)
  repeat' (first
    | with_reducible exact only_refl _ _ | assumption | with_reducible apply registerUntil_only (within_trans rfl hp)
    | with_reducible apply only_ite)

theorem takeSlot_only {σ : State} {ps : List Part} (hp : within [.evt, .stations, .sync, .tab, .trace, .out]
    ps = true) (c q op cond : Nat) (name n : Word) (timeout : BitVec 24) (raddr : DWord) (w : Nat) (s : State)
    (h0 : onlyChanges ps σ s) : onlyChanges ps σ (takeSlot c q op cond name n timeout raddr w s) := by
  refine only_trans h0 ?_; clear h0; unfold takeSlot
  (try dsimp only)
  repeat' (first
    | with_reducible exact only_refl _ _ | assumption | with_reducible apply updStation_only (within_trans rfl hp)
    | with_reducible apply updQueue_only (within_trans rfl hp)
    | with_reducible apply retireSync_only (within_trans rfl hp)
    | with_reducible apply sendMsg_only (within_trans rfl hp) | with_reducible apply only_ite)

theorem waitOp_only {σ : State} {ps : List Part} (hp : within [.evt, .stations, .sync, .tab, .trace, .out] ps
    = true) (c q op cond : Nat) (name n : Word) (timeout : BitVec 24) (raddr : DWord) (deadline : BitVec 24)
    (s : State) (h0 : onlyChanges ps σ s) : onlyChanges ps σ (waitOp c q op cond name n timeout raddr deadline
    s) := by
  refine only_trans h0 ?_; clear h0; unfold waitOp
  (try dsimp only)
  repeat' (first
    | with_reducible exact only_refl _ _ | assumption | with_reducible apply startSync_only (within_trans rfl hp)
    | with_reducible apply failSync_only (within_trans rfl hp) | with_reducible apply occur_only (within_trans rfl hp)
    | with_reducible apply takeSlot_only (within_trans rfl hp) | with_reducible apply only_ite
    | (split <;> try dsimp only))

theorem signalLocal_only {σ : State} {ps : List Part} (hp : within [.evt, .stations, .hz, .ctxs, .sync, .tab,
    .trace, .out] ps = true) (c q op : Nat) (name n : Word) (s : State) (h0 : onlyChanges ps σ s) :
    onlyChanges ps σ (signalLocal c q op name n s) := by
  refine only_trans h0 ?_; clear h0; unfold signalLocal
  (try dsimp only)
  repeat' (first
    | with_reducible exact only_refl _ _ | assumption | with_reducible apply failSync_only (within_trans rfl hp)
    | with_reducible apply registerUntil_only (within_trans rfl hp)
    | with_reducible apply applyOp_only (within_trans rfl hp)
    | with_reducible apply sealChanged_only (within_trans rfl hp) | with_reducible apply only_ite
    | (split <;> try dsimp only))

theorem signalRemote_only {σ : State} {ps : List Part} (hp : within [.evt, .stations, .hz, .tab, .trace, .out]
    ps = true) (c q op : Nat) (name n : Word) (s : State) (h0 : onlyChanges ps σ s) : onlyChanges ps σ
    (signalRemote c q op name n s) := by
  refine only_trans h0 ?_; clear h0; unfold signalRemote
  (try dsimp only)
  repeat' (first
    | with_reducible exact only_refl _ _ | assumption | with_reducible apply updTallies_only (within_trans rfl hp)
    | with_reducible apply gateMsg_only (within_trans rfl hp))

theorem signalOp_only {σ : State} {ps : List Part} (hp : within [.evt, .stations, .hz, .ctxs, .led, .sync,
    .tab, .trace, .out] ps = true) (c q op : Nat) (name n : Word) (deadline : BitVec 24) (s : State) (h0 :
    onlyChanges ps σ s) : onlyChanges ps σ (signalOp c q op name n deadline s) := by
  refine only_trans h0 ?_; clear h0; unfold signalOp
  (try dsimp only)
  repeat' (first
    | with_reducible exact only_refl _ _ | assumption | with_reducible apply kitInvalid_only (within_trans rfl hp)
    | with_reducible apply startSync_only (within_trans rfl hp)
    | with_reducible apply signalLocal_only (within_trans rfl hp)
    | with_reducible apply signalRemote_only (within_trans rfl hp)
    | with_reducible apply failSync_only (within_trans rfl hp) | with_reducible apply only_ite)

theorem putRecord_only {σ : State} {ps : List Part} (hp : within [.stations, .mem, .memPoison] ps = true) (c w
    status : Nat) (raddr : DWord) (name value : Word) (s : State) (h0 : onlyChanges ps σ s) : onlyChanges ps σ
    (putRecord c w status raddr name value s) := by
  refine only_trans h0 ?_; clear h0; unfold putRecord
  (try dsimp only)
  repeat' (first
    | with_reducible exact only_refl _ _ | assumption | with_reducible apply spadPut_only (within_trans rfl hp)
    | with_reducible apply memStore_only (within_trans rfl hp) | with_reducible apply only_ite)

theorem endWatch_only {σ : State} {ps : List Part} (hp : within [.stations, .sync, .mem, .memPoison, .out] ps
    = true) (c w status : Nat) (name value : Word) (s : State) (h0 : onlyChanges ps σ s) : onlyChanges ps σ
    (endWatch c w status name value s) := by
  refine only_trans h0 ?_; clear h0; unfold endWatch
  (try dsimp only)
  repeat' (first
    | with_reducible exact only_refl _ _ | assumption | with_reducible apply freeWatch_only (within_trans rfl hp)
    | with_reducible apply putRecord_only (within_trans rfl hp)
    | with_reducible apply retireSync_only (within_trans rfl hp)
    | with_reducible apply retireWait_only (within_trans rfl hp) | with_reducible apply only_ite)

theorem deliverRelease_only {σ : State} {ps : List Part} (hp : within [.stations, .sync, .mem, .memPoison,
    .out] ps = true) (c w : Nat) (s : State) (h0 : onlyChanges ps σ s) : onlyChanges ps σ (deliverRelease c w
    s) := by
  refine only_trans h0 ?_; clear h0; unfold deliverRelease
  (try dsimp only)
  repeat' (first
    | with_reducible exact only_refl _ _ | assumption | with_reducible apply updSync_only (within_trans rfl hp)
    | with_reducible apply updStation_only (within_trans rfl hp)
    | with_reducible apply endWatch_only (within_trans rfl hp) | with_reducible apply only_ite
    | (split <;> try dsimp only))

theorem sendCancel_only {σ : State} {ps : List Part} (hp : within [.evt, .stations, .sync, .tab, .trace, .out]
    ps = true) (c w : Nat) (name p : Word) (s : State) (h0 : onlyChanges ps σ s) : onlyChanges ps σ
    (sendCancel c w name p s) := by
  refine only_trans h0 ?_; clear h0; unfold sendCancel
  (try dsimp only)
  repeat' (first
    | with_reducible exact only_refl _ _ | assumption | with_reducible apply updStation_only (within_trans rfl hp)
    | with_reducible apply sendMsg_only (within_trans rfl hp) | with_reducible apply only_ite)

theorem expireWatch_only {σ : State} {ps : List Part} (hp : within [.evt, .stations, .sync, .tab, .trace,
    .mem, .memPoison, .out] ps = true) (c w : Nat) (reply : Word) (s : State) (h0 : onlyChanges ps σ s) :
    onlyChanges ps σ (expireWatch c w reply s) := by
  refine only_trans h0 ?_; clear h0; unfold expireWatch
  (try dsimp only)
  repeat' (first
    | with_reducible exact only_refl _ _ | assumption | with_reducible apply occur_only (within_trans rfl hp)
    | with_reducible apply sendCancel_only (within_trans rfl hp)
    | with_reducible apply endWatch_only (within_trans rfl hp) | with_reducible apply only_ite)

theorem cancelArrives_only {σ : State} {ps : List Part} (hp : within [.stations, .sync] ps = true) (c w : Nat)
    (s : State) (h0 : onlyChanges ps σ s) : onlyChanges ps σ (cancelArrives c w s) := by
  refine only_trans h0 ?_; clear h0; unfold cancelArrives
  repeat' (first
    | with_reducible exact only_refl _ _ | assumption | with_reducible apply cancelTaken_only (within_trans rfl hp)
    | with_reducible apply only_ite | (split <;> try dsimp only))

theorem execSyncSet_only (t : Nat) (core : Core) (issue : SyncIssue) (name operand : Word) (s : State) : ∃ s',
    execSyncSet t core issue name operand s = .next s' ∧ onlyChanges [.now, .evt, .stations, .hz, .ctxs, .led,
    .sync, .tab, .trace, .out] s s' := by
  refine ⟨_, rfl, ?_⟩
  have hp : within [.now, .evt, .stations, .hz, .ctxs, .led, .sync, .tab, .trace, .out] [.now, .evt, .stations, .hz, .ctxs, .led, .sync, .tab, .trace, .out] = true := rfl
  repeat' (first
    | with_reducible exact only_refl _ _ | assumption | with_reducible apply signalOp_only (within_trans rfl hp)
    | with_reducible apply atTime_only (within_trans rfl hp))

theorem execSyncClear_only (t : Nat) (core : Core) (issue : SyncIssue) (name : Word) (s : State) : ∃ s',
    execSyncClear t core issue name s = .next s' ∧ onlyChanges [.now, .evt, .stations, .hz, .ctxs, .led,
    .sync, .tab, .trace, .out] s s' := by
  refine ⟨_, rfl, ?_⟩
  have hp : within [.now, .evt, .stations, .hz, .ctxs, .led, .sync, .tab, .trace, .out] [.now, .evt, .stations, .hz, .ctxs, .led, .sync, .tab, .trace, .out] = true := rfl
  repeat' (first
    | with_reducible exact only_refl _ _ | assumption | with_reducible apply signalOp_only (within_trans rfl hp)
    | with_reducible apply atTime_only (within_trans rfl hp))

theorem execSyncAdd_only (t : Nat) (core : Core) (issue : SyncIssue) (name operand : Word) (s : State) : ∃ s',
    execSyncAdd t core issue name operand s = .next s' ∧ onlyChanges [.now, .evt, .stations, .hz, .ctxs, .led,
    .sync, .tab, .trace, .out] s s' := by
  refine ⟨_, rfl, ?_⟩
  have hp : within [.now, .evt, .stations, .hz, .ctxs, .led, .sync, .tab, .trace, .out] [.now, .evt, .stations, .hz, .ctxs, .led, .sync, .tab, .trace, .out] = true := rfl
  repeat' (first
    | with_reducible exact only_refl _ _ | assumption | with_reducible apply signalOp_only (within_trans rfl hp)
    | with_reducible apply atTime_only (within_trans rfl hp))

theorem execSyncSub_only (t : Nat) (core : Core) (issue : SyncIssue) (name operand : Word) (s : State) : ∃ s',
    execSyncSub t core issue name operand s = .next s' ∧ onlyChanges [.now, .evt, .stations, .hz, .ctxs, .led,
    .sync, .tab, .trace, .out] s s' := by
  refine ⟨_, rfl, ?_⟩
  have hp : within [.now, .evt, .stations, .hz, .ctxs, .led, .sync, .tab, .trace, .out] [.now, .evt, .stations, .hz, .ctxs, .led, .sync, .tab, .trace, .out] = true := rfl
  repeat' (first
    | with_reducible exact only_refl _ _ | assumption | with_reducible apply signalOp_only (within_trans rfl hp)
    | with_reducible apply atTime_only (within_trans rfl hp))

theorem execSyncWaitEq_only (t : Nat) (core : Core) (queue : Queue) (name operand : Word) (timeout : BitVec
    24) (s : State) : ∃ s', execSyncWaitEq t core queue name operand timeout s = .next s' ∧ onlyChanges [.now,
    .evt, .stations, .sync, .tab, .trace, .out] s s' := by
  refine ⟨_, rfl, ?_⟩
  have hp : within [.now, .evt, .stations, .sync, .tab, .trace, .out] [.now, .evt, .stations, .sync, .tab, .trace, .out] = true := rfl
  repeat' (first
    | with_reducible exact only_refl _ _ | assumption | with_reducible apply waitOp_only (within_trans rfl hp)
    | with_reducible apply atTime_only (within_trans rfl hp))

theorem execSyncWaitGe_only (t : Nat) (core : Core) (queue : Queue) (name operand : Word) (timeout : BitVec
    24) (s : State) : ∃ s', execSyncWaitGe t core queue name operand timeout s = .next s' ∧ onlyChanges [.now,
    .evt, .stations, .sync, .tab, .trace, .out] s s' := by
  refine ⟨_, rfl, ?_⟩
  have hp : within [.now, .evt, .stations, .sync, .tab, .trace, .out] [.now, .evt, .stations, .sync, .tab, .trace, .out] = true := rfl
  repeat' (first
    | with_reducible exact only_refl _ _ | assumption | with_reducible apply waitOp_only (within_trans rfl hp)
    | with_reducible apply atTime_only (within_trans rfl hp))

theorem execSyncWaitFlag_only (t : Nat) (core : Core) (queue : Queue) (name : Word) (timeout : BitVec 24) (s :
    State) : ∃ s', execSyncWaitFlag t core queue name timeout s = .next s' ∧ onlyChanges [.now, .evt,
    .stations, .sync, .tab, .trace, .out] s s' := by
  refine ⟨_, rfl, ?_⟩
  have hp : within [.now, .evt, .stations, .sync, .tab, .trace, .out] [.now, .evt, .stations, .sync, .tab, .trace, .out] = true := rfl
  repeat' (first
    | with_reducible exact only_refl _ _ | assumption | with_reducible apply waitOp_only (within_trans rfl hp)
    | with_reducible apply atTime_only (within_trans rfl hp))

theorem execSyncWatch_only (t : Nat) (core : Core) (issue : SyncIssue) (cond : BitVec 2) (name operand : Word)
    (timeout : BitVec 24) (raddr : DWord) (s : State) : ∃ s', execSyncWatch t core issue cond name operand
    timeout raddr s = .next s' ∧ onlyChanges [.now, .evt, .stations, .sync, .tab, .trace, .out] s s' := by
  refine ⟨_, rfl, ?_⟩
  have hp : within [.now, .evt, .stations, .sync, .tab, .trace, .out] [.now, .evt, .stations, .sync, .tab, .trace, .out] = true := rfl
  repeat' (first
    | with_reducible exact only_refl _ _ | assumption | with_reducible apply waitOp_only (within_trans rfl hp)
    | with_reducible apply atTime_only (within_trans rfl hp))

theorem execSubscriptionArrival_only (t : Nat) (core : Core) (slot : Fin 16) (s : State) : ∃ s',
    execSubscriptionArrival t core slot s = .next s' ∧ onlyChanges [.now, .evt, .stations, .hz, .sync, .tab,
    .trace, .out] s s' := by
  refine ⟨_, rfl, ?_⟩
  have hp : within [.now, .evt, .stations, .hz, .sync, .tab, .trace, .out] [.now, .evt, .stations, .hz, .sync, .tab, .trace, .out] = true := rfl
  repeat' (first
    | with_reducible exact only_refl _ _ | assumption
    | with_reducible apply subscriptionArrives_only (within_trans rfl hp)
    | with_reducible apply atTime_only (within_trans rfl hp))

theorem execSyncReleaseDelivery_only (t : Nat) (core : Core) (slot : Fin 16) (s : State) : ∃ s',
    execSyncReleaseDelivery t core slot s = .next s' ∧ onlyChanges [.now, .stations, .sync, .mem, .memPoison,
    .out] s s' := by
  refine ⟨_, rfl, ?_⟩
  have hp : within [.now, .stations, .sync, .mem, .memPoison, .out] [.now, .stations, .sync, .mem, .memPoison, .out] = true := rfl
  repeat' (first
    | with_reducible exact only_refl _ _ | assumption | with_reducible apply deliverRelease_only (within_trans rfl hp)
    | with_reducible apply atTime_only (within_trans rfl hp))

theorem execWaitTimeout_only (t : Nat) (core : Core) (expiry : Expiry) (s : State) : ∃ s', execWaitTimeout t
    core expiry s = .next s' ∧ onlyChanges [.now, .evt, .stations, .sync, .tab, .trace, .mem, .memPoison,
    .out] s s' := by
  refine ⟨_, rfl, ?_⟩
  have hp : within [.now, .evt, .stations, .sync, .tab, .trace, .mem, .memPoison, .out] [.now, .evt, .stations, .sync, .tab, .trace, .mem, .memPoison, .out] = true := rfl
  repeat' (first
    | with_reducible exact only_refl _ _ | assumption | with_reducible apply expireWatch_only (within_trans rfl hp)
    | with_reducible apply atTime_only (within_trans rfl hp))

theorem execCancelArrival_only (t : Nat) (core : Core) (slot : Fin 16) (s : State) : ∃ s', execCancelArrival t
    core slot s = .next s' ∧ onlyChanges [.now, .stations, .sync] s s' := by
  refine ⟨_, rfl, ?_⟩
  have hp : within [.now, .stations, .sync] [.now, .stations, .sync] = true := rfl
  repeat' (first
    | with_reducible exact only_refl _ _ | assumption | with_reducible apply cancelArrives_only (within_trans rfl hp)
    | with_reducible apply atTime_only (within_trans rfl hp))

theorem sendNak_only {σ : State} {ps : List Part} (hp : within [.out] ps = true) (port : Nat) (s : State) (h0
    : onlyChanges ps σ s) : onlyChanges ps σ (sendNak port s) := by
  refine only_trans h0 ?_; clear h0; unfold sendNak
  repeat' (first
    | with_reducible exact only_refl _ _ | assumption | with_reducible apply updOut_only (within_trans rfl hp))

theorem receive_only {σ : State} {ps : List Part} (hp : within [.evt, .tab, .trace, .out] ps = true) (type :
    Nat) (port : Nat) (m : SyncMsg) (act : SyncMsg → State → State) (s : State) (hact : ∀ x0 {σ s : State},
    onlyChanges ps σ s → onlyChanges ps σ (act x0 s)) (h0 : onlyChanges ps σ s) : onlyChanges ps σ (receive
    type port m act s) := by
  refine only_trans h0 ?_; clear h0; unfold receive
  (try dsimp only)
  repeat' (first
    | with_reducible exact only_refl _ _ | assumption | with_reducible apply sendNak_only (within_trans rfl hp)
    | with_reducible apply traceMsg_only (within_trans rfl hp)
    | with_reducible apply syncError_only (within_trans rfl hp) | with_reducible apply hact
    | with_reducible apply only_ite)

theorem updArrival_only {σ : State} {ps : List Part} (hp : within [.sync] ps = true) (p : Word) (f : Arrival →
    Arrival) (s : State) (h0 : onlyChanges ps σ s) : onlyChanges ps σ (updArrival p f s) := by
  refine only_trans h0 ?_; clear h0; unfold updArrival
  repeat' (first
    | with_reducible exact only_refl _ _ | assumption | with_reducible apply updSync_only (within_trans rfl hp))

theorem applySignal_only {σ : State} {ps : List Part} (hp : within [.evt, .stations, .hz, .ctxs, .sync, .tab,
    .trace, .out] ps = true) (m : SyncMsg) (s : State) (h0 : onlyChanges ps σ s) : onlyChanges ps σ
    (applySignal m s) := by
  refine only_trans h0 ?_; clear h0; unfold applySignal
  (try dsimp only)
  repeat' (first
    | with_reducible exact only_refl _ _ | assumption | with_reducible apply syncError_only (within_trans rfl hp)
    | with_reducible apply sealChanged_only (within_trans rfl hp)
    | with_reducible apply actOn_only (within_trans rfl hp) | with_reducible apply only_ite)

theorem applySubscribe_only {σ : State} {ps : List Part} (hp : within [.evt, .stations, .hz, .sync, .tab,
    .trace, .out] ps = true) (m : SyncMsg) (s : State) (h0 : onlyChanges ps σ s) : onlyChanges ps σ
    (applySubscribe m s) := by
  refine only_trans h0 ?_; clear h0; unfold applySubscribe
  (try dsimp only)
  repeat' (first
    | with_reducible exact only_refl _ _ | assumption | with_reducible apply sendMsg_only (within_trans rfl hp)
    | with_reducible apply syncError_only (within_trans rfl hp)
    | with_reducible apply subscribe_only (within_trans rfl hp) | with_reducible apply only_ite)

theorem applyCancel_only {σ : State} {ps : List Part} (hp : within [.evt, .sync, .tab, .trace, .out] ps =
    true) (m : SyncMsg) (s : State) (h0 : onlyChanges ps σ s) : onlyChanges ps σ (applyCancel m s) := by
  refine only_trans h0 ?_; clear h0; unfold applyCancel
  (try dsimp only)
  repeat' (first
    | with_reducible exact only_refl _ _ | assumption | with_reducible apply cancelSub_only (within_trans rfl hp)
    | with_reducible apply sendMsg_only (within_trans rfl hp) | with_reducible apply only_ite)

theorem applyCarry_only {σ : State} {ps : List Part} (hp : within [.sync] ps = true) (m : SyncMsg) (s : State)
    (h0 : onlyChanges ps σ s) : onlyChanges ps σ (applyCarry m s) := by
  refine only_trans h0 ?_; clear h0; unfold applyCarry
  repeat' (first
    | with_reducible exact only_refl _ _ | assumption | with_reducible apply updArrival_only (within_trans rfl hp))

theorem drainHeld_only {ps : List Part} (hp : within [.evt, .stations, .hz, .ctxs, .sync, .tab, .trace, .out]
    ps = true) (p : Word) : ∀ ls  {σ s : State}, onlyChanges ps σ s → onlyChanges ps σ (drainHeld p ls  s).2 := by
  intro ls
  induction ls with
  | nil => intro  σ s h; exact h
  | cons a l ih =>
    intro  σ s h0
    refine only_trans h0 ?_; clear h0; unfold drainHeld
    (try dsimp only)
    repeat' (first
      | with_reducible exact only_refl _ _ | with_reducible apply ih | assumption
      | with_reducible apply applySignal_only (within_trans rfl hp)
      | with_reducible apply updArrival_only (within_trans rfl hp)
      | with_reducible apply applySubscribe_only (within_trans rfl hp)
      | with_reducible apply applyCancel_only (within_trans rfl hp)
      | with_reducible apply applyCarry_only (within_trans rfl hp) | with_reducible apply only_ite
      | (split <;> try dsimp only))

theorem drainSource_only {σ : State} {ps : List Part} (hp : within [.evt, .stations, .hz, .ctxs, .sync, .tab,
    .trace, .out] ps = true) (p : Word) (s : State) (h0 : onlyChanges ps σ s) : onlyChanges ps σ (drainSource
    p s) := by
  refine only_trans h0 ?_; clear h0; unfold drainSource
  (try dsimp only)
  repeat' (first
    | with_reducible exact only_refl _ _ | assumption | with_reducible apply drainHeld_only (within_trans rfl hp)
    | with_reducible apply updArrival_only (within_trans rfl hp))

theorem drainWaiting_only {ps : List Part} (hp : within [.evt, .stations, .hz, .ctxs, .sync, .tab, .trace,
    .out] ps = true)  : ∀ ls {σ s : State}, onlyChanges ps σ s → onlyChanges ps σ (drainWaiting  ls s) := by
  intro ls
  induction ls with
  | zero => intro σ s h; exact h
  | succ a ih =>
    intro σ s h0
    refine only_trans h0 ?_; clear h0; unfold drainWaiting
    repeat' (first
      | with_reducible exact only_refl _ _ | with_reducible apply ih | assumption
      | with_reducible apply drainSource_only (within_trans rfl hp) | with_reducible apply only_ite
      | (split <;> try dsimp only))

theorem drainArrival_only {σ : State} {ps : List Part} (hp : within [.evt, .stations, .hz, .ctxs, .sync, .tab,
    .trace, .out] ps = true) (p : Word) (s : State) (h0 : onlyChanges ps σ s) : onlyChanges ps σ (drainArrival
    p s) := by
  refine only_trans h0 ?_; clear h0; unfold drainArrival
  (try dsimp only)
  repeat' (first
    | with_reducible exact only_refl _ _ | assumption | with_reducible apply drainSource_only (within_trans rfl hp)
    | with_reducible apply drainWaiting_only (within_trans rfl hp))

theorem joinQueue_only {σ : State} {ps : List Part} (hp : within [.evt, .stations, .hz, .ctxs, .sync, .tab,
    .trace, .out] ps = true) (type port : Nat) (m : SyncMsg) (s : State) (h0 : onlyChanges ps σ s) :
    onlyChanges ps σ (joinQueue type port m s) := by
  refine only_trans h0 ?_; clear h0; unfold joinQueue
  (try dsimp only)
  repeat' (first
    | with_reducible exact only_refl _ _ | assumption | with_reducible apply drainArrival_only (within_trans rfl hp)
    | with_reducible apply updArrival_only (within_trans rfl hp))

theorem applyRelease_only {σ : State} {ps : List Part} (hp : within [.stations, .sync, .mem, .memPoison, .out]
    ps = true) (m : SyncMsg) (s : State) (h0 : onlyChanges ps σ s) : onlyChanges ps σ (applyRelease m s) := by
  refine only_trans h0 ?_; clear h0; unfold applyRelease
  (try dsimp only)
  repeat' (first
    | with_reducible exact only_refl _ _ | assumption | with_reducible apply updStation_only (within_trans rfl hp)
    | with_reducible apply deliverRelease_only (within_trans rfl hp)
    | with_reducible apply updSync_only (within_trans rfl hp) | with_reducible apply only_ite)

theorem barrierStray_only {σ : State} {ps : List Part} (hp : within [.evt, .tab] ps = true) (m : SyncMsg) (s :
    State) (h0 : onlyChanges ps σ s) : onlyChanges ps σ (barrierStray m s) := by
  refine only_trans h0 ?_; clear h0; unfold barrierStray
  repeat' (first
    | with_reducible exact only_refl _ _ | assumption | with_reducible apply occur_only (within_trans rfl hp))

theorem applyArrive_only {σ : State} {ps : List Part} (hp : within [.evt, .stations, .hz, .ctxs, .sync, .tab,
    .trace, .out] ps = true) (m : SyncMsg) (s : State) (h0 : onlyChanges ps σ s) : onlyChanges ps σ
    (applyArrive m s) := by
  refine only_trans h0 ?_; clear h0; unfold applyArrive
  (try dsimp only)
  repeat' (first
    | with_reducible exact only_refl _ _ | assumption | with_reducible apply advance_only (within_trans rfl hp)
    | with_reducible apply updBarrier_only (within_trans rfl hp)
    | with_reducible apply barrierStray_only (within_trans rfl hp) | with_reducible apply only_ite)

theorem applyBrelease_only {σ : State} {ps : List Part} (hp : within [.evt, .stations, .hz, .ctxs, .sync,
    .tab, .trace, .out] ps = true) (m : SyncMsg) (s : State) (h0 : onlyChanges ps σ s) : onlyChanges ps σ
    (applyBrelease m s) := by
  refine only_trans h0 ?_; clear h0; unfold applyBrelease
  (try dsimp only)
  repeat' (first
    | with_reducible exact only_refl _ _ | assumption | with_reducible apply advance_only (within_trans rfl hp)
    | with_reducible apply completeGen_only (within_trans rfl hp)
    | with_reducible apply barrierStray_only (within_trans rfl hp) | with_reducible apply only_ite)

theorem refuseSector_only {σ : State} {ps : List Part} (hp : within [.evt, .sync, .tab, .out] ps = true) (port
    : Nat) (p : Word) (s : State) (h0 : onlyChanges ps σ s) : onlyChanges ps σ (refuseSector port p s) := by
  refine only_trans h0 ?_; clear h0; unfold refuseSector
  (try dsimp only)
  repeat' (first
    | with_reducible exact only_refl _ _ | assumption | with_reducible apply updOut_only (within_trans rfl hp)
    | with_reducible apply occur_only (within_trans rfl hp) | with_reducible apply updSync_only (within_trans rfl hp)
    | with_reducible apply only_ite)

theorem sectorCommits_only {σ : State} {ps : List Part} (hp : within [.evt, .stations, .hz, .ctxs, .sync,
    .tab, .trace, .mem, .memPoison, .out] ps = true) (port : Nat) (p : Word) (scratchpad : Bool) (addr :
    DWord) (data : Sector) (poison : Bool) (s : State) (h0 : onlyChanges ps σ s) : onlyChanges ps σ
    (sectorCommits port p scratchpad addr data poison s) := by
  refine only_trans h0 ?_; clear h0; unfold sectorCommits
  repeat' (first
    | with_reducible exact only_refl _ _ | assumption | with_reducible apply sendNak_only (within_trans rfl hp)
    | with_reducible apply refuseSector_only (within_trans rfl hp)
    | with_reducible apply drainArrival_only (within_trans rfl hp)
    | with_reducible apply updArrival_only (within_trans rfl hp)
    | with_reducible apply memStore_only (within_trans rfl hp) | with_reducible apply only_ite)

theorem tallyStalls_only {σ : State} {ps : List Part} (hp : within [.evt, .sync, .tab] ps = true) (p : Word)
    (s : State) (h0 : onlyChanges ps σ s) : onlyChanges ps σ (tallyStalls p s) := by
  refine only_trans h0 ?_; clear h0; unfold tallyStalls
  (try dsimp only)
  repeat' (first
    | with_reducible exact only_refl _ _ | assumption | with_reducible apply occur_only (within_trans rfl hp)
    | with_reducible apply updSync_only (within_trans rfl hp)
    | with_reducible apply updArrival_only (within_trans rfl hp) | with_reducible apply only_ite
    | (split <;> try dsimp only))

theorem monAct_only {σ : State} {ps : List Part} (hp : within [.evt, .stations, .hz, .ctxs, .sync, .tab,
    .trace, .out] ps = true) (e : MonEntry) (v : Word) (s : State) (h0 : onlyChanges ps σ s) : onlyChanges ps
    σ (monAct e v s) := by
  refine only_trans h0 ?_; clear h0; unfold monAct
  (try dsimp only)
  repeat' (first
    | with_reducible exact only_refl _ _ | assumption | with_reducible apply actOn_only (within_trans rfl hp)
    | with_reducible apply syncError_only (within_trans rfl hp) | with_reducible apply only_ite
    | (split <;> try dsimp only))

theorem monEntryAct_only {σ : State} {ps : List Part} (hp : within [.evt, .stations, .hz, .ctxs, .sync, .tab,
    .trace, .out] ps = true) (i : Nat) (base : Nat) (data : List Byte) (s : State) (h0 : onlyChanges ps σ s) :
    onlyChanges ps σ (monEntryAct i base data s) := by
  refine only_trans h0 ?_; clear h0; unfold monEntryAct
  (try dsimp only)
  repeat' (first
    | with_reducible exact only_refl _ _ | assumption | with_reducible apply updSync_only (within_trans rfl hp)
    | with_reducible apply sealChanged_only (within_trans rfl hp)
    | with_reducible apply monAct_only (within_trans rfl hp) | with_reducible apply only_ite
    | (split <;> try dsimp only))

theorem monEntriesAct_only {ps : List Part} (hp : within [.evt, .stations, .hz, .ctxs, .sync, .tab, .trace,
    .out] ps = true) (base : Nat) (data : List Byte) : ∀ ls {σ s : State}, onlyChanges ps σ s → onlyChanges ps
    σ (monEntriesAct base data ls s) := by
  intro ls
  induction ls with
  | nil => intro σ s h; exact h
  | cons a l ih =>
    intro σ s h0
    refine only_trans h0 ?_; clear h0; unfold monEntriesAct
    repeat' (first
      | with_reducible exact only_refl _ _ | with_reducible apply ih | assumption
      | with_reducible apply monEntryAct_only (within_trans rfl hp))

theorem noteHolds_only {σ : State} {ps : List Part} (hp : within [.sync] ps = true) (n : Nat) (s : State) (h0
    : onlyChanges ps σ s) : onlyChanges ps σ (noteHolds n s) := by
  refine only_trans h0 ?_; clear h0; unfold noteHolds
  repeat' (first
    | with_reducible exact only_refl _ _ | assumption | with_reducible apply updSync_only (within_trans rfl hp)
    | with_reducible apply only_ite)

theorem writeNotified_only {σ : State} {ps : List Part} (hp : within [.evt, .stations, .hz, .ctxs, .sync,
    .tab, .trace, .mem, .memPoison, .out] ps = true) (addr : DWord) (data : Sector) (poison : Bool) (s :
    State) (h0 : onlyChanges ps σ s) : onlyChanges ps σ (writeNotified addr data poison s) := by
  refine only_trans h0 ?_; clear h0; unfold writeNotified
  (try dsimp only)
  repeat' (first
    | with_reducible exact only_refl _ _ | assumption | with_reducible apply memStore_only (within_trans rfl hp)
    | with_reducible apply monEntriesAct_only (within_trans rfl hp) | with_reducible apply only_ite)

theorem acknowledge_only {σ : State} {ps : List Part} (hp : within [.free, .evt, .stations, .hz, .sync, .tab,
    .trace, .out] ps = true) (core : Core) (queue : Queue) (chip : ChipId) (n : Nat) (s : State) (h0 :
    onlyChanges ps σ s) : onlyChanges ps σ (acknowledge core queue chip n s) := by
  refine only_trans h0 ?_; clear h0; unfold acknowledge
  (try dsimp only)
  repeat' (first
    | with_reducible exact only_refl _ _ | assumption | with_reducible apply updUnacked_only (within_trans rfl hp)
    | with_reducible apply releaseItems_only (within_trans rfl hp)
    | with_reducible apply updGate_only (within_trans rfl hp))

theorem holdForRetry_only {σ : State} {ps : List Part} (hp : within [.sync] ps = true) (port : Nat) (chip :
    ChipId) (request : Nat) (sync : Bool) (at_ : Nat) (s : State) (h0 : onlyChanges ps σ s) : onlyChanges ps σ
    (holdForRetry port chip request sync at_ s) := by
  refine only_trans h0 ?_; clear h0; unfold holdForRetry
  repeat' (first
    | with_reducible exact only_refl _ _ | assumption | with_reducible apply updFPort_only (within_trans rfl hp)
    | with_reducible apply only_ite)

theorem sendBehind_only {σ : State} {ps : List Part} (hp : within [.free, .evt, .stations, .hz, .sync, .tab,
    .trace, .out] ps = true) (port : Nat) (s : State) (h0 : onlyChanges ps σ s) : onlyChanges ps σ (sendBehind
    port s) := by
  refine only_trans h0 ?_; clear h0; unfold sendBehind
  repeat' (first
    | with_reducible exact only_refl _ _ | assumption | with_reducible apply releaseItems_only (within_trans rfl hp)
    | with_reducible apply sendWaiting_only (within_trans rfl hp)
    | with_reducible apply updFPort_only (within_trans rfl hp))

theorem retryNow_only {σ : State} {ps : List Part} (hp : within [.free, .evt, .stations, .hz, .sync, .tab,
    .trace, .out] ps = true) (port request : Nat) (s : State) (h0 : onlyChanges ps σ s) : onlyChanges ps σ
    (retryNow port request s) := by
  refine only_trans h0 ?_; clear h0; unfold retryNow
  repeat' (first
    | with_reducible exact only_refl _ _ | assumption | with_reducible apply sendBehind_only (within_trans rfl hp)
    | with_reducible apply updOut_only (within_trans rfl hp)
    | with_reducible apply updFPort_only (within_trans rfl hp) | with_reducible apply only_ite
    | (split <;> try dsimp only))

theorem removeSubsOf_only {σ : State} {ps : List Part} (hp : within [.sync] ps = true) (chip : ChipId) (s :
    State) (h0 : onlyChanges ps σ s) : onlyChanges ps σ (removeSubsOf chip s) := by
  refine only_trans h0 ?_; clear h0; unfold removeSubsOf
  (try dsimp only)
  repeat' (first
    | with_reducible exact only_refl _ _ | assumption | with_reducible apply updSync_only (within_trans rfl hp))

theorem dropArrivalsOf_only {ps : List Part} (hp : within [.evt, .stations, .hz, .sync, .tab, .trace, .out] ps
    = true)  : ∀ ls {σ s : State}, onlyChanges ps σ s → onlyChanges ps σ (dropArrivalsOf  ls s) := by
  intro ls
  induction ls with
  | nil => intro σ s h; exact h
  | cons a l ih =>
    intro σ s h0
    refine only_trans h0 ?_; clear h0; unfold dropArrivalsOf
    (try dsimp only)
    repeat' (first
      | with_reducible exact only_refl _ _ | with_reducible apply ih | assumption
      | with_reducible apply releaseObjectSubs_only (within_trans rfl hp)
      | with_reducible apply updSync_only (within_trans rfl hp))

theorem dropPortHeld_only {ps : List Part} (hp : within [.sync] ps = true) (chip : ChipId) : ∀ ls {σ s :
    State}, onlyChanges ps σ s → onlyChanges ps σ (dropPortHeld chip ls s) := by
  intro ls
  induction ls with
  | nil => intro σ s h; exact h
  | cons a l ih =>
    intro σ s h0
    refine only_trans h0 ?_; clear h0; unfold dropPortHeld
    repeat' (first
      | with_reducible exact only_refl _ _ | with_reducible apply ih | assumption
      | with_reducible apply updFPort_only (within_trans rfl hp))

theorem forgetCancels_only {σ : State} {ps : List Part} (hp : within [.stations] ps = true) (chip : ChipId) (s
    : State) (h0 : onlyChanges ps σ s) : onlyChanges ps σ (forgetCancels chip s) := by
  refine only_trans h0 ?_; clear h0; unfold forgetCancels
  (try dsimp only)
  repeat' (first
    | with_reducible exact only_refl _ _ | assumption | with_reducible apply only_ite | (intro _; try dsimp only)
    | dsimp only
    | exact ⟨rfl, fun p h => by cases p <;> first | (with_reducible rfl) | exact absurd (within_mem hp rfl) h⟩)

theorem applyDown_only {σ : State} {ps : List Part} (hp : within [.free, .evt, .stations, .hz, .sync, .tab,
    .trace, .out] ps = true) (chip : ChipId) (s : State) (h0 : onlyChanges ps σ s) : onlyChanges ps σ
    (applyDown chip s) := by
  refine only_trans h0 ?_; clear h0; unfold applyDown
  (try dsimp only)
  repeat' (first
    | with_reducible exact only_refl _ _ | assumption | with_reducible apply removeSubsOf_only (within_trans rfl hp)
    | with_reducible apply forgetCancels_only (within_trans rfl hp)
    | with_reducible apply releaseWatches_only (within_trans rfl hp)
    | with_reducible apply dropArrivalsOf_only (within_trans rfl hp)
    | with_reducible apply dropPortHeld_only (within_trans rfl hp)
    | with_reducible apply breakBarriers_only (within_trans rfl hp)
    | with_reducible apply updSync_only (within_trans rfl hp) | with_reducible apply occur_only (within_trans rfl hp)
    | with_reducible apply releaseItems_only (within_trans rfl hp))

theorem advise_only {σ : State} {ps : List Part} (hp : within [.free, .evt, .cfg, .stations, .hz, .sync, .tab,
    .trace, .out] ps = true) (r : Requester) (down : Bool) (chip : ChipId) (seq : BitVec 16) (s : State) (h0 :
    onlyChanges ps σ s) : onlyChanges ps σ (advise r down chip seq s) := by
  refine only_trans h0 ?_; clear h0; unfold advise
  (try dsimp only)
  repeat' (first
    | with_reducible exact only_refl _ _ | assumption | with_reducible apply updCfg_only (within_trans rfl hp)
    | with_reducible apply setResult_only (within_trans rfl hp)
    | with_reducible apply updSync_only (within_trans rfl hp)
    | with_reducible apply applyDown_only (within_trans rfl hp) | with_reducible apply only_ite)

theorem execSignalMessage_only (t : Nat) (port : Port) (msg : SyncMsg) (s : State) : ∃ s', execSignalMessage t
    port msg s = .next s' ∧ onlyChanges [.now, .evt, .stations, .hz, .ctxs, .sync, .tab, .trace, .out] s s' := by
  refine ⟨_, rfl, ?_⟩
  have hp : within [.now, .evt, .stations, .hz, .ctxs, .sync, .tab, .trace, .out] [.now, .evt, .stations, .hz, .ctxs, .sync, .tab, .trace, .out] = true := rfl
  repeat' (first
    | with_reducible exact only_refl _ _ | assumption | with_reducible apply receive_only (within_trans rfl hp)
    | with_reducible apply joinQueue_only (within_trans rfl hp)
    | with_reducible apply atTime_only (within_trans rfl hp) | with_reducible apply only_ite
    | (intro _; try dsimp only))

theorem execSubscribeMessage_only (t : Nat) (port : Port) (msg : SyncMsg) (s : State) : ∃ s',
    execSubscribeMessage t port msg s = .next s' ∧ onlyChanges [.now, .evt, .stations, .hz, .ctxs, .sync,
    .tab, .trace, .out] s s' := by
  refine ⟨_, rfl, ?_⟩
  have hp : within [.now, .evt, .stations, .hz, .ctxs, .sync, .tab, .trace, .out] [.now, .evt, .stations, .hz, .ctxs, .sync, .tab, .trace, .out] = true := rfl
  repeat' (first
    | with_reducible exact only_refl _ _ | assumption | with_reducible apply receive_only (within_trans rfl hp)
    | with_reducible apply joinQueue_only (within_trans rfl hp)
    | with_reducible apply atTime_only (within_trans rfl hp) | with_reducible apply only_ite
    | (intro _; try dsimp only))

theorem execCancelMessage_only (t : Nat) (port : Port) (msg : SyncMsg) (s : State) : ∃ s', execCancelMessage t
    port msg s = .next s' ∧ onlyChanges [.now, .evt, .stations, .hz, .ctxs, .sync, .tab, .trace, .out] s s' := by
  refine ⟨_, rfl, ?_⟩
  have hp : within [.now, .evt, .stations, .hz, .ctxs, .sync, .tab, .trace, .out] [.now, .evt, .stations, .hz, .ctxs, .sync, .tab, .trace, .out] = true := rfl
  repeat' (first
    | with_reducible exact only_refl _ _ | assumption | with_reducible apply receive_only (within_trans rfl hp)
    | with_reducible apply joinQueue_only (within_trans rfl hp)
    | with_reducible apply atTime_only (within_trans rfl hp) | with_reducible apply only_ite
    | (intro _; try dsimp only))

theorem execReleaseMessage_only (t : Nat) (port : Port) (msg : SyncMsg) (s : State) : ∃ s', execReleaseMessage
    t port msg s = .next s' ∧ onlyChanges [.now, .evt, .stations, .sync, .tab, .trace, .mem, .memPoison, .out]
    s s' := by
  refine ⟨_, rfl, ?_⟩
  have hp : within [.now, .evt, .stations, .sync, .tab, .trace, .mem, .memPoison, .out] [.now, .evt, .stations, .sync, .tab, .trace, .mem, .memPoison, .out] = true := rfl
  repeat' (first
    | with_reducible exact only_refl _ _ | assumption | with_reducible apply receive_only (within_trans rfl hp)
    | with_reducible apply applyRelease_only (within_trans rfl hp)
    | with_reducible apply atTime_only (within_trans rfl hp) | with_reducible apply only_ite
    | (intro _; try dsimp only))

theorem execArriveMessage_only (t : Nat) (port : Port) (msg : SyncMsg) (s : State) : ∃ s', execArriveMessage t
    port msg s = .next s' ∧ onlyChanges [.now, .evt, .stations, .hz, .ctxs, .sync, .tab, .trace, .out] s s' := by
  refine ⟨_, rfl, ?_⟩
  have hp : within [.now, .evt, .stations, .hz, .ctxs, .sync, .tab, .trace, .out] [.now, .evt, .stations, .hz, .ctxs, .sync, .tab, .trace, .out] = true := rfl
  repeat' (first
    | with_reducible exact only_refl _ _ | assumption | with_reducible apply receive_only (within_trans rfl hp)
    | with_reducible apply applyArrive_only (within_trans rfl hp)
    | with_reducible apply atTime_only (within_trans rfl hp) | with_reducible apply only_ite
    | (intro _; try dsimp only))

theorem execBreleaseMessage_only (t : Nat) (port : Port) (msg : SyncMsg) (s : State) : ∃ s',
    execBreleaseMessage t port msg s = .next s' ∧ onlyChanges [.now, .evt, .stations, .hz, .ctxs, .sync, .tab,
    .trace, .out] s s' := by
  refine ⟨_, rfl, ?_⟩
  have hp : within [.now, .evt, .stations, .hz, .ctxs, .sync, .tab, .trace, .out] [.now, .evt, .stations, .hz, .ctxs, .sync, .tab, .trace, .out] = true := rfl
  repeat' (first
    | with_reducible exact only_refl _ _ | assumption | with_reducible apply receive_only (within_trans rfl hp)
    | with_reducible apply applyBrelease_only (within_trans rfl hp)
    | with_reducible apply atTime_only (within_trans rfl hp) | with_reducible apply only_ite
    | (intro _; try dsimp only))

theorem execCarryMessage_only (t : Nat) (port : Port) (msg : SyncMsg) (s : State) : ∃ s', execCarryMessage t
    port msg s = .next s' ∧ onlyChanges [.now, .evt, .stations, .hz, .ctxs, .sync, .tab, .trace, .out] s s' := by
  refine ⟨_, rfl, ?_⟩
  have hp : within [.now, .evt, .stations, .hz, .ctxs, .sync, .tab, .trace, .out] [.now, .evt, .stations, .hz, .ctxs, .sync, .tab, .trace, .out] = true := rfl
  repeat' (first
    | with_reducible exact only_refl _ _ | assumption | with_reducible apply receive_only (within_trans rfl hp)
    | with_reducible apply joinQueue_only (within_trans rfl hp)
    | with_reducible apply atTime_only (within_trans rfl hp) | with_reducible apply only_ite
    | (intro _; try dsimp only))

theorem execFabricSectorCommit_only (t : Nat) (port : Port) (party : Word) (addr : SectorAddr) (data :
    MarkedSector) (s : State) : ∃ s', execFabricSectorCommit t port party addr data s = .next s' ∧ onlyChanges
    [.now, .evt, .stations, .hz, .ctxs, .sync, .tab, .trace, .mem, .memPoison, .out] s s' := by
  refine ⟨_, rfl, ?_⟩
  have hp : within [.now, .evt, .stations, .hz, .ctxs, .sync, .tab, .trace, .mem, .memPoison, .out] [.now, .evt, .stations, .hz, .ctxs, .sync, .tab, .trace, .mem, .memPoison, .out] = true := rfl
  repeat' (first
    | with_reducible exact only_refl _ _ | assumption | with_reducible apply sectorCommits_only (within_trans rfl hp)
    | with_reducible apply atTime_only (within_trans rfl hp))

theorem execTallyStall_only (t : Nat) (party : Word) (s : State) : ∃ s', execTallyStall t party s = .next s' ∧
    onlyChanges [.now, .evt, .sync, .tab] s s' := by
  refine ⟨_, rfl, ?_⟩
  have hp : within [.now, .evt, .sync, .tab] [.now, .evt, .sync, .tab] = true := rfl
  repeat' (first
    | with_reducible exact only_refl _ _ | assumption | with_reducible apply tallyStalls_only (within_trans rfl hp)
    | with_reducible apply atTime_only (within_trans rfl hp))

theorem execWriteNotify_only (t : Nat) (addr : DWord) (data : MarkedSector) (holds : Nat) (s : State) : ∃ s',
    execWriteNotify t addr data holds s = .next s' ∧ onlyChanges [.now, .evt, .stations, .hz, .ctxs, .sync,
    .tab, .trace, .mem, .memPoison, .out] s s' := by
  refine ⟨_, rfl, ?_⟩
  have hp : within [.now, .evt, .stations, .hz, .ctxs, .sync, .tab, .trace, .mem, .memPoison, .out] [.now, .evt, .stations, .hz, .ctxs, .sync, .tab, .trace, .mem, .memPoison, .out] = true := rfl
  repeat' (first
    | with_reducible exact only_refl _ _ | assumption | with_reducible apply writeNotified_only (within_trans rfl hp)
    | with_reducible apply noteHolds_only (within_trans rfl hp)
    | with_reducible apply atTime_only (within_trans rfl hp))

theorem execEndToEndAcknowledgement_only (t : Nat) (core : Core) (queue : Queue) (chip : ChipId) (sectors :
    Nat) (s : State) : ∃ s', execEndToEndAcknowledgement t core queue chip sectors s = .next s' ∧ onlyChanges
    [.now, .free, .evt, .stations, .hz, .sync, .tab, .trace, .out] s s' := by
  refine ⟨_, rfl, ?_⟩
  have hp : within [.now, .free, .evt, .stations, .hz, .sync, .tab, .trace, .out] [.now, .free, .evt, .stations, .hz, .sync, .tab, .trace, .out] = true := rfl
  repeat' (first
    | with_reducible exact only_refl _ _ | assumption | with_reducible apply acknowledge_only (within_trans rfl hp)
    | with_reducible apply atTime_only (within_trans rfl hp))

theorem execResponderResettingNak_only (t : Nat) (port : Port) (chip : ChipId) (request : BitVec 16) (sync :
    Bool) (retryAfter : Nat) (s : State) : ∃ s', execResponderResettingNak t port chip request sync retryAfter
    s = .next s' ∧ onlyChanges [.now, .sync] s s' := by
  refine ⟨_, rfl, ?_⟩
  have hp : within [.now, .sync] [.now, .sync] = true := rfl
  repeat' (first
    | with_reducible exact only_refl _ _ | assumption | with_reducible apply atTime_only (within_trans rfl hp)
    | with_reducible apply holdForRetry_only (within_trans rfl hp))

theorem execResponderNotReadyNak_only (t : Nat) (port : Port) (chip : ChipId) (request : BitVec 16) (s :
    State) : ∃ s', execResponderNotReadyNak t port chip request s = .next s' ∧ onlyChanges [.now, .sync] s s' := by
  refine ⟨_, rfl, ?_⟩
  have hp : within [.now, .sync] [.now, .sync] = true := rfl
  repeat' (first
    | with_reducible exact only_refl _ _ | assumption | with_reducible apply atTime_only (within_trans rfl hp)
    | with_reducible apply holdForRetry_only (within_trans rfl hp))

theorem execNakRetry_only (t : Nat) (port : Port) (request : BitVec 16) (s : State) : ∃ s', execNakRetry t
    port request s = .next s' ∧ onlyChanges [.now, .free, .evt, .stations, .hz, .sync, .tab, .trace, .out] s
    s' := by
  refine ⟨_, rfl, ?_⟩
  have hp : within [.now, .free, .evt, .stations, .hz, .sync, .tab, .trace, .out] [.now, .free, .evt, .stations, .hz, .sync, .tab, .trace, .out] = true := rfl
  repeat' (first
    | with_reducible exact only_refl _ _ | assumption | with_reducible apply retryNow_only (within_trans rfl hp)
    | with_reducible apply atTime_only (within_trans rfl hp))

theorem execPeerDown_only (t : Nat) (r : Requester) (chip : ChipId) (seq : BitVec 16) (s : State) : ∃ s',
    execPeerDown t r chip seq s = .next s' ∧ onlyChanges [.now, .free, .evt, .cfg, .stations, .hz, .sync,
    .tab, .trace, .out] s s' := by
  refine ⟨_, rfl, ?_⟩
  have hp : within [.now, .free, .evt, .cfg, .stations, .hz, .sync, .tab, .trace, .out] [.now, .free, .evt, .cfg, .stations, .hz, .sync, .tab, .trace, .out] = true := rfl
  repeat' (first
    | with_reducible exact only_refl _ _ | assumption | with_reducible apply atTime_only (within_trans rfl hp)
    | with_reducible apply advise_only (within_trans rfl hp) | with_reducible apply only_ite)

theorem execPeerUp_only (t : Nat) (r : Requester) (chip : ChipId) (seq : BitVec 16) (s : State) : ∃ s',
    execPeerUp t r chip seq s = .next s' ∧ onlyChanges [.now, .free, .evt, .cfg, .stations, .hz, .sync, .tab,
    .trace, .out] s s' := by
  refine ⟨_, rfl, ?_⟩
  have hp : within [.now, .free, .evt, .cfg, .stations, .hz, .sync, .tab, .trace, .out] [.now, .free, .evt, .cfg, .stations, .hz, .sync, .tab, .trace, .out] = true := rfl
  repeat' (first
    | with_reducible exact only_refl _ _ | assumption | with_reducible apply atTime_only (within_trans rfl hp)
    | with_reducible apply advise_only (within_trans rfl hp) | with_reducible apply only_ite)

theorem preload_only {σ : State} {ps : List Part} (hp : within [.stations] ps = true) (c : Nat) (figs : List
    Figure) (s : State) (h0 : onlyChanges ps σ s) : onlyChanges ps σ (preload c figs s) := by
  refine only_trans h0 ?_; clear h0; unfold preload
  repeat' (first
    | with_reducible exact only_refl _ _ | assumption | with_reducible apply updStation_only (within_trans rfl hp)
    | with_reducible apply only_ite | (split <;> try dsimp only))

theorem takeEpoch_only {σ : State} {ps : List Part} (hp : within [.stations] ps = true) (c : Nat) (s : State)
    (h0 : onlyChanges ps σ s) : onlyChanges ps σ (takeEpoch c s) := by
  refine only_trans h0 ?_; clear h0; unfold takeEpoch
  (try dsimp only)
  repeat' (first
    | with_reducible exact only_refl _ _ | assumption | with_reducible apply updStation_only (within_trans rfl hp))

theorem epochTaken_only {σ : State} {ps : List Part} (hp : within [.stations] ps = true) (c : Nat) (s : State)
    (h0 : onlyChanges ps σ s) : onlyChanges ps σ (epochTaken c s) := by
  refine only_trans h0 ?_; clear h0; unfold epochTaken
  repeat' (first
    | with_reducible exact only_refl _ _ | assumption | with_reducible apply takeEpoch_only (within_trans rfl hp)
    | with_reducible apply only_ite)

theorem execStationEpochTake_only (t : Nat) (core : Core) (s : State) : ∃ s', execStationEpochTake t core s =
    .next s' ∧ onlyChanges [.now, .stations] s s' := by
  refine ⟨_, rfl, ?_⟩
  have hp : within [.now, .stations] [.now, .stations] = true := rfl
  repeat' (first
    | with_reducible exact only_refl _ _ | assumption | with_reducible apply epochTaken_only (within_trans rfl hp)
    | with_reducible apply atTime_only (within_trans rfl hp))

theorem runFigs_only {σ : State} {ps : List Part} (hp : within [.free, .stations] ps = true) (c : Nat) (u :
    Cu) (f : Feed) (s : State) (h0 : onlyChanges ps σ s) : onlyChanges ps σ (runFigs c u f s) := by
  refine only_trans h0 ?_; clear h0; unfold runFigs
  (try dsimp only)
  repeat' (first
    | with_reducible exact only_refl _ _ | assumption | with_reducible apply fresh_only (within_trans rfl hp)
    | with_reducible apply updStation_only (within_trans rfl hp) | with_reducible apply only_ite
    | (split <;> try dsimp only))

theorem recordVerdict_only {σ : State} {ps : List Part} (hp : within [.evt, .stations, .tab, .trace, .out] ps
    = true) (c : Nat) (u : Cu) (k : Nat × Nat) (outs : List (Nat × Nat)) (cycles : Nat) (s : State) (h0 :
    onlyChanges ps σ s) : onlyChanges ps σ (recordVerdict c u k outs cycles s) := by
  refine only_trans h0 ?_; clear h0; unfold recordVerdict
  (try dsimp only)
  repeat' (first
    | with_reducible exact only_refl _ _ | assumption | with_reducible apply updStation_only (within_trans rfl hp)
    | with_reducible apply traceRec_only (within_trans rfl hp) | with_reducible apply only_ite)

theorem signalNumerics_only {σ : State} {ps : List Part} (hp : within [.evt, .stations, .hz, .ctxs, .sync,
    .tab, .trace, .out] ps = true) (ctx : Nat) (s : State) (h0 : onlyChanges ps σ s) : onlyChanges ps σ
    (signalNumerics ctx s) := by
  refine only_trans h0 ?_; clear h0; unfold signalNumerics
  repeat' (first
    | with_reducible exact only_refl _ _ | assumption | with_reducible apply actOn_only (within_trans rfl hp)
    | with_reducible apply only_ite | (split <;> try dsimp only))

theorem takeCensus_only {σ : State} {ps : List Part} (hp : within [.evt, .stations, .hz, .ctxs, .sync, .tab,
    .trace, .out] ps = true) (c : Nat) (u : Cu) (s : State) (h0 : onlyChanges ps σ s) : onlyChanges ps σ
    (takeCensus c u s) := by
  refine only_trans h0 ?_; clear h0; unfold takeCensus
  (try dsimp only)
  repeat' (first
    | with_reducible exact only_refl _ _ | assumption | with_reducible apply updStation_only (within_trans rfl hp)
    | with_reducible apply signalNumerics_only (within_trans rfl hp)
    | with_reducible apply occur_only (within_trans rfl hp) | with_reducible apply only_ite
    | (split <;> try dsimp only))

theorem countChecked_only {σ : State} {ps : List Part} (hp : within [.stations, .led] ps = true) (c : Nat) (u
    : Cu) (s : State) (h0 : onlyChanges ps σ s) : onlyChanges ps σ (countChecked c u s) := by
  refine only_trans h0 ?_; clear h0; unfold countChecked
  (try dsimp only)
  repeat' (first
    | with_reducible exact only_refl _ _ | assumption | with_reducible apply updLed_only (within_trans rfl hp)
    | with_reducible apply updCapsule_only (within_trans rfl hp) | with_reducible apply only_ite
    | (split <;> try dsimp only))

theorem checkFail_only {σ : State} {ps : List Part} (hp : within [.evt, .tab] ps = true) (c : Nat) (u : Cu)
    (slot : Nat) (s : State) (h0 : onlyChanges ps σ s) : onlyChanges ps σ (checkFail c u slot s) := by
  refine only_trans h0 ?_; clear h0; unfold checkFail
  (try dsimp only)
  repeat' (first
    | with_reducible exact only_refl _ _ | assumption | with_reducible apply occur_only (within_trans rfl hp)
    | with_reducible apply only_ite | (split <;> try dsimp only))

theorem checkFails_only {ps : List Part} (hp : within [.evt, .tab] ps = true) (c : Nat) (u : Cu) : ∀ ls {σ s :
    State}, onlyChanges ps σ s → onlyChanges ps σ (checkFails c u ls s) := by
  intro ls
  induction ls with
  | nil => intro σ s h; exact h
  | cons a l ih =>
    intro σ s h0
    refine only_trans h0 ?_; clear h0; unfold checkFails
    repeat' (first
      | with_reducible exact only_refl _ _ | with_reducible apply ih | assumption
      | with_reducible apply checkFail_only (within_trans rfl hp))

theorem checkForced_only {σ : State} {ps : List Part} (hp : within [.evt, .tab] ps = true) (c : Nat) (u : Cu)
    (s : State) (h0 : onlyChanges ps σ s) : onlyChanges ps σ (checkForced c u s) := by
  refine only_trans h0 ?_; clear h0; unfold checkForced
  repeat' (first
    | with_reducible exact only_refl _ _ | assumption | with_reducible apply occur_only (within_trans rfl hp))

theorem checkPoisoned_only {ps : List Part} (hp : within [.evt, .tab] ps = true) (c : Nat) (u : Cu) : ∀ ls {σ
    s : State}, onlyChanges ps σ s → onlyChanges ps σ (checkPoisoned c u ls s) := by
  intro ls
  induction ls with
  | nil => intro σ s h; exact h
  | cons a l ih =>
    intro σ s h0
    refine only_trans h0 ?_; clear h0; unfold checkPoisoned
    repeat' (first
      | with_reducible exact only_refl _ _ | with_reducible apply ih | assumption
      | with_reducible apply occur_only (within_trans rfl hp))

theorem afterPass_only {σ : State} {ps : List Part} (hp : within [.stations, .led, .tempo] ps = true) (c :
    Nat) (u : Cu) (s : State) (h0 : onlyChanges ps σ s) : onlyChanges ps σ (afterPass c u s) := by
  refine only_trans h0 ?_; clear h0; unfold afterPass
  repeat' (first
    | with_reducible exact only_refl _ _ | assumption | with_reducible apply countChecked_only (within_trans rfl hp)
    | with_reducible apply updDomain_only (within_trans rfl hp))

theorem afterFail_only {σ : State} {ps : List Part} (hp : within [.evt, .stations, .hz, .ctxs, .adj, .led,
    .tempo, .sync, .tab, .trace, .i3c, .mem, .memPoison, .out] ps = true) (c : Nat) (u : Cu) (outs : List (Nat
    × Nat)) (s : State) (h0 : onlyChanges ps σ s) : onlyChanges ps σ (afterFail c u outs s) := by
  refine only_trans h0 ?_; clear h0; unfold afterFail
  (try dsimp only)
  repeat' (first
    | with_reducible exact only_refl _ _ | assumption | with_reducible apply checkForced_only (within_trans rfl hp)
    | with_reducible apply checkFails_only (within_trans rfl hp)
    | with_reducible apply countChecked_only (within_trans rfl hp)
    | with_reducible apply loadPin_only (within_trans rfl hp)
    | with_reducible apply updDomain_only (within_trans rfl hp)
    | with_reducible apply openAdj_only (within_trans rfl hp) | with_reducible apply only_ite)

theorem afterPoison_only {σ : State} {ps : List Part} (hp : within [.evt, .stations, .ctxs, .tab, .mem,
    .memPoison] ps = true) (c : Nat) (u : Cu) (outs : List (Nat × Nat)) (s : State) (h0 : onlyChanges ps σ s)
    : onlyChanges ps σ (afterPoison c u outs s) := by
  refine only_trans h0 ?_; clear h0; unfold afterPoison
  (try dsimp only)
  repeat' (first
    | with_reducible exact only_refl _ _ | assumption | with_reducible apply occur_only (within_trans rfl hp)
    | with_reducible apply checkPoisoned_only (within_trans rfl hp)
    | with_reducible apply openIncident_only (within_trans rfl hp)
    | with_reducible apply skipSample_only (within_trans rfl hp) | with_reducible apply only_ite)

theorem releaseBanks_only {σ : State} {ps : List Part} (hp : within [.stations] ps = true) (c : Nat) (u : Cu)
    (s : State) (h0 : onlyChanges ps σ s) : onlyChanges ps σ (releaseBanks c u s) := by
  refine only_trans h0 ?_; clear h0; unfold releaseBanks
  repeat' (first
    | with_reducible exact only_refl _ _ | assumption | with_reducible apply updStation_only (within_trans rfl hp))

theorem giveVerdict_only {σ : State} {ps : List Part} (hp : within [.evt, .stations, .hz, .ctxs, .adj, .led,
    .tempo, .sync, .tab, .trace, .i3c, .mem, .memPoison, .out] ps = true) (c : Nat) (u : Cu) (outs : List (Nat
    × Nat)) (cycles : Nat) (s : State) (h0 : onlyChanges ps σ s) : onlyChanges ps σ (giveVerdict c u outs
    cycles s) := by
  refine only_trans h0 ?_; clear h0; unfold giveVerdict
  (try dsimp only)
  repeat' (first
    | with_reducible exact only_refl _ _ | assumption | with_reducible apply updCus_only (within_trans rfl hp)
    | with_reducible apply updStation_only (within_trans rfl hp)
    | with_reducible apply takeCensus_only (within_trans rfl hp)
    | with_reducible apply recordVerdict_only (within_trans rfl hp)
    | with_reducible apply afterPass_only (within_trans rfl hp)
    | with_reducible apply afterFail_only (within_trans rfl hp)
    | with_reducible apply afterPoison_only (within_trans rfl hp)
    | with_reducible apply releaseBanks_only (within_trans rfl hp)
    | with_reducible apply settleCu_only (within_trans rfl hp) | with_reducible apply only_ite
    | (split <;> try dsimp only))

theorem noteLate_only {σ : State} {ps : List Part} (hp : within [.evt, .stations, .hz, .ctxs, .led, .tempo,
    .sync, .tab, .trace, .i3c, .out] ps = true) (c : Nat) (u : Cu) (s : State) (h0 : onlyChanges ps σ s) :
    onlyChanges ps σ (noteLate c u s) := by
  refine only_trans h0 ?_; clear h0; unfold noteLate
  (try dsimp only)
  repeat' (first
    | with_reducible exact only_refl _ _ | assumption | with_reducible apply occur_only (within_trans rfl hp)
    | with_reducible apply backoffCore_only (within_trans rfl hp)
    | with_reducible apply stationFault_only (within_trans rfl hp)
    | with_reducible apply updCus_only (within_trans rfl hp) | with_reducible apply only_ite)

theorem verdictArrives_only {σ : State} {ps : List Part} (hp : within [.evt, .stations, .hz, .ctxs, .adj,
    .led, .tempo, .sync, .tab, .trace, .i3c, .mem, .memPoison, .out] ps = true) (c : Nat) (tag : Word) (cycles
    : Nat) (s : State) (h0 : onlyChanges ps σ s) : onlyChanges ps σ (verdictArrives c tag cycles s) := by
  refine only_trans h0 ?_; clear h0; unfold verdictArrives
  (try dsimp only)
  repeat' (first
    | with_reducible exact only_refl _ _ | assumption | with_reducible apply noteLate_only (within_trans rfl hp)
    | with_reducible apply giveVerdict_only (within_trans rfl hp) | with_reducible apply only_ite
    | (split <;> try dsimp only))

theorem verdictIsLate_only {σ : State} {ps : List Part} (hp : within [.evt, .stations, .hz, .ctxs, .led,
    .tempo, .sync, .tab, .trace, .i3c, .out] ps = true) (c : Nat) (tag : Word) (cycles : Nat) (s : State) (h0
    : onlyChanges ps σ s) : onlyChanges ps σ (verdictIsLate c tag cycles s) := by
  refine only_trans h0 ?_; clear h0; unfold verdictIsLate
  repeat' (first
    | with_reducible exact only_refl _ _ | assumption | with_reducible apply noteLate_only (within_trans rfl hp)
    | with_reducible apply only_ite | (split <;> try dsimp only))

theorem forceVerdict_only {σ : State} {ps : List Part} (hp : within [.evt, .stations, .hz, .ctxs, .adj, .led,
    .tempo, .sync, .tab, .trace, .i3c, .mem, .memPoison, .out] ps = true) (c : Nat) (tag : Word) (cycles :
    Nat) (s : State) (h0 : onlyChanges ps σ s) : onlyChanges ps σ (forceVerdict c tag cycles s) := by
  refine only_trans h0 ?_; clear h0; unfold forceVerdict
  (try dsimp only)
  repeat' (first
    | with_reducible exact only_refl _ _ | assumption | with_reducible apply noteLate_only (within_trans rfl hp)
    | with_reducible apply giveVerdict_only (within_trans rfl hp) | with_reducible apply only_ite
    | (split <;> try dsimp only))

theorem selfCheckFails_only {σ : State} {ps : List Part} (hp : within [.evt, .stations, .hz, .ctxs, .led,
    .tempo, .sync, .tab, .trace, .i3c, .out] ps = true) (c : Nat) (cell : ResFault) (tag : Word) (s : State)
    (h0 : onlyChanges ps σ s) : onlyChanges ps σ (selfCheckFails c cell tag s) := by
  refine only_trans h0 ?_; clear h0; unfold selfCheckFails
  (try dsimp only)
  repeat' (first
    | with_reducible exact only_refl _ _ | assumption | with_reducible apply occur_only (within_trans rfl hp)
    | with_reducible apply updStation_only (within_trans rfl hp)
    | with_reducible apply backoffCore_only (within_trans rfl hp)
    | with_reducible apply stationFault_only (within_trans rfl hp))

theorem checkResidue_only {σ : State} {ps : List Part} (hp : within [.evt, .stations, .hz, .ctxs, .led,
    .tempo, .sync, .tab, .trace, .i3c, .out] ps = true) (c : Nat) (u : Cu) (fault : Option LaneFault) (s :
    State) (h0 : onlyChanges ps σ s) : onlyChanges ps σ (checkResidue c u fault s) := by
  refine only_trans h0 ?_; clear h0; unfold checkResidue
  repeat' (first
    | with_reducible exact only_refl _ _ | assumption | with_reducible apply selfCheckFails_only (within_trans rfl hp)
    | with_reducible apply only_ite | (split <;> try dsimp only))

theorem patternRun_only {σ : State} {ps : List Part} (hp : within [.evt, .stations, .hz, .ctxs, .led, .tempo,
    .sync, .tab, .trace, .i3c, .out] ps = true) (c : Nat) (cell : ResFault) (passed : Bool) (s : State) (h0 :
    onlyChanges ps σ s) : onlyChanges ps σ (patternRun c cell passed s) := by
  refine only_trans h0 ?_; clear h0; unfold patternRun
  repeat' (first
    | with_reducible exact only_refl _ _ | assumption | with_reducible apply selfCheckFails_only (within_trans rfl hp)
    | with_reducible apply only_ite)

theorem retestDone_only {σ : State} {ps : List Part} (hp : within [.evt, .stations, .hz, .ctxs, .led, .tempo,
    .sync, .tab, .trace, .i3c, .out] ps = true) (c passes : Nat) (s : State) (h0 : onlyChanges ps σ s) :
    onlyChanges ps σ (retestDone c passes s) := by
  refine only_trans h0 ?_; clear h0; unfold retestDone
  (try dsimp only)
  repeat' (first
    | with_reducible exact only_refl _ _ | assumption | with_reducible apply updStation_only (within_trans rfl hp)
    | with_reducible apply backoffCore_only (within_trans rfl hp)
    | with_reducible apply suspect_only (within_trans rfl hp) | with_reducible apply only_ite
    | (split <;> try dsimp only))

theorem coreStops_only {σ : State} {ps : List Part} (hp : within [.stations, .adj, .mem, .memPoison] ps =
    true) (c : Nat) (s : State) (h0 : onlyChanges ps σ s) : onlyChanges ps σ (coreStops c s) := by
  refine only_trans h0 ?_; clear h0; unfold coreStops
  repeat' (first
    | with_reducible exact only_refl _ _ | assumption | with_reducible apply startHomes_only (within_trans rfl hp)
    | with_reducible apply updStation_only (within_trans rfl hp) | with_reducible apply only_ite)

theorem execVerdictGiven_only (t : Nat) (core : Core) (tag : Word) (cycles : Nat) (s : State) : ∃ s',
    execVerdictGiven t core tag cycles s = .next s' ∧ onlyChanges [.now, .evt, .stations, .hz, .ctxs, .adj,
    .led, .tempo, .sync, .tab, .trace, .i3c, .mem, .memPoison, .out] s s' := by
  refine ⟨_, rfl, ?_⟩
  have hp : within [.now, .evt, .stations, .hz, .ctxs, .adj, .led, .tempo, .sync, .tab, .trace, .i3c, .mem, .memPoison, .out] [.now, .evt, .stations, .hz, .ctxs, .adj, .led, .tempo, .sync, .tab, .trace, .i3c, .mem, .memPoison, .out] = true := rfl
  repeat' (first
    | with_reducible exact only_refl _ _ | assumption | with_reducible apply verdictArrives_only (within_trans rfl hp)
    | with_reducible apply atTime_only (within_trans rfl hp))

theorem execVerdictLate_only (t : Nat) (core : Core) (tag : Word) (cycles : Nat) (s : State) : ∃ s',
    execVerdictLate t core tag cycles s = .next s' ∧ onlyChanges [.now, .evt, .stations, .hz, .ctxs, .led,
    .tempo, .sync, .tab, .trace, .i3c, .out] s s' := by
  refine ⟨_, rfl, ?_⟩
  have hp : within [.now, .evt, .stations, .hz, .ctxs, .led, .tempo, .sync, .tab, .trace, .i3c, .out] [.now, .evt, .stations, .hz, .ctxs, .led, .tempo, .sync, .tab, .trace, .i3c, .out] = true := rfl
  repeat' (first
    | with_reducible exact only_refl _ _ | assumption | with_reducible apply verdictIsLate_only (within_trans rfl hp)
    | with_reducible apply atTime_only (within_trans rfl hp))

theorem execVerdictForcedFail_only (t : Nat) (core : Core) (tag : Word) (cycles : Nat) (s : State) : ∃ s',
    execVerdictForcedFail t core tag cycles s = .next s' ∧ onlyChanges [.now, .evt, .stations, .hz, .ctxs,
    .adj, .led, .tempo, .sync, .tab, .trace, .i3c, .mem, .memPoison, .out] s s' := by
  refine ⟨_, rfl, ?_⟩
  have hp : within [.now, .evt, .stations, .hz, .ctxs, .adj, .led, .tempo, .sync, .tab, .trace, .i3c, .mem, .memPoison, .out] [.now, .evt, .stations, .hz, .ctxs, .adj, .led, .tempo, .sync, .tab, .trace, .i3c, .mem, .memPoison, .out] = true := rfl
  repeat' (first
    | with_reducible exact only_refl _ _ | assumption | with_reducible apply forceVerdict_only (within_trans rfl hp)
    | with_reducible apply atTime_only (within_trans rfl hp))

theorem execStationPatternRun_only (t : Nat) (core : Core) (cell : ResFault) (passed : Bool) (s : State) : ∃
    s', execStationPatternRun t core cell passed s = .next s' ∧ onlyChanges [.now, .evt, .stations, .hz,
    .ctxs, .led, .tempo, .sync, .tab, .trace, .i3c, .out] s s' := by
  refine ⟨_, rfl, ?_⟩
  have hp : within [.now, .evt, .stations, .hz, .ctxs, .led, .tempo, .sync, .tab, .trace, .i3c, .out] [.now, .evt, .stations, .hz, .ctxs, .led, .tempo, .sync, .tab, .trace, .i3c, .out] = true := rfl
  repeat' (first
    | with_reducible exact only_refl _ _ | assumption | with_reducible apply patternRun_only (within_trans rfl hp)
    | with_reducible apply atTime_only (within_trans rfl hp))

theorem execSelfcheckInjection_only (t : Nat) (core : Core) (cell : ResFault) (seen : Bool) (s : State) : ∃
    s', execSelfcheckInjection t core cell seen s = .next s' ∧ onlyChanges [.now, .evt, .stations, .hz, .ctxs,
    .led, .tempo, .sync, .tab, .trace, .i3c, .out] s s' := by
  refine ⟨_, rfl, ?_⟩
  have hp : within [.now, .evt, .stations, .hz, .ctxs, .led, .tempo, .sync, .tab, .trace, .i3c, .out] [.now, .evt, .stations, .hz, .ctxs, .led, .tempo, .sync, .tab, .trace, .i3c, .out] = true := rfl
  repeat' (first
    | with_reducible exact only_refl _ _ | assumption | with_reducible apply patternRun_only (within_trans rfl hp)
    | with_reducible apply atTime_only (within_trans rfl hp))

theorem execSelfcheckRetestDone_only (t : Nat) (core : Core) (passes : Fin 4) (s : State) : ∃ s',
    execSelfcheckRetestDone t core passes s = .next s' ∧ onlyChanges [.now, .evt, .stations, .hz, .ctxs, .led,
    .tempo, .sync, .tab, .trace, .i3c, .out] s s' := by
  refine ⟨_, rfl, ?_⟩
  have hp : within [.now, .evt, .stations, .hz, .ctxs, .led, .tempo, .sync, .tab, .trace, .i3c, .out] [.now, .evt, .stations, .hz, .ctxs, .led, .tempo, .sync, .tab, .trace, .i3c, .out] = true := rfl
  repeat' (first
    | with_reducible exact only_refl _ _ | assumption | with_reducible apply retestDone_only (within_trans rfl hp)
    | with_reducible apply atTime_only (within_trans rfl hp))

theorem execCoreStopped_only (t : Nat) (core : Core) (s : State) : ∃ s', execCoreStopped t core s = .next s' ∧
    onlyChanges [.now, .stations, .adj, .mem, .memPoison] s s' := by
  refine ⟨_, rfl, ?_⟩
  have hp : within [.now, .stations, .adj, .mem, .memPoison] [.now, .stations, .adj, .mem, .memPoison] = true := rfl
  repeat' (first
    | with_reducible exact only_refl _ _ | assumption | with_reducible apply coreStops_only (within_trans rfl hp)
    | with_reducible apply atTime_only (within_trans rfl hp))

theorem beginSegment_only {σ : State} {ps : List Part} (hp : within [.stations] ps = true) (c : Nat) (k : Kit)
    (seg : Nat) (s : State) (h0 : onlyChanges ps σ s) : onlyChanges ps σ (beginSegment c k seg s) := by
  refine only_trans h0 ?_; clear h0; unfold beginSegment
  repeat' (first
    | with_reducible exact only_refl _ _ | assumption | with_reducible apply updReh_only (within_trans rfl hp))

theorem beginRun_only {σ : State} {ps : List Part} (hp : within [.stations] ps = true) (c : Nat) (k : Kit)
    (for_ : Option Core) (s : State) (h0 : onlyChanges ps σ s) : onlyChanges ps σ (beginRun c k for_ s) := by
  refine only_trans h0 ?_; clear h0; unfold beginRun
  (try dsimp only)
  repeat' (first
    | with_reducible exact only_refl _ _ | assumption | with_reducible apply beginSegment_only (within_trans rfl hp)
    | with_reducible apply spadPut_only (within_trans rfl hp)
    | with_reducible apply updReh_only (within_trans rfl hp))

theorem resumeRun_only {σ : State} {ps : List Part} (hp : within [.stations] ps = true) (c : Nat) (k : Kit) (s
    : State) (h0 : onlyChanges ps σ s) : onlyChanges ps σ (resumeRun c k s) := by
  refine only_trans h0 ?_; clear h0; unfold resumeRun
  (try dsimp only)
  repeat' (first
    | with_reducible exact only_refl _ _ | assumption | with_reducible apply beginRun_only (within_trans rfl hp)
    | with_reducible apply updReh_only (within_trans rfl hp)
    | with_reducible apply beginSegment_only (within_trans rfl hp) | with_reducible apply only_ite)

theorem gapStarts_only {σ : State} {ps : List Part} (hp : within [.stations] ps = true) (c : Nat) (s : State)
    (h0 : onlyChanges ps σ s) : onlyChanges ps σ (gapStarts c s) := by
  refine only_trans h0 ?_; clear h0; unfold gapStarts
  (try dsimp only)
  repeat' (first
    | with_reducible exact only_refl _ _ | assumption | with_reducible apply resumeRun_only (within_trans rfl hp)
    | with_reducible apply updReh_only (within_trans rfl hp)
    | with_reducible apply beginRun_only (within_trans rfl hp) | with_reducible apply only_ite
    | (split <;> try dsimp only))

theorem kitDone_only {σ : State} {ps : List Part} (hp : within [.stations, .led] ps = true) (c : Nat) (k :
    Kit) (sig : Nat) (s : State) (h0 : onlyChanges ps σ s) : onlyChanges ps σ (kitDone c k sig s) := by
  refine only_trans h0 ?_; clear h0; unfold kitDone
  repeat' (first
    | with_reducible exact only_refl _ _ | assumption | with_reducible apply countDet_only (within_trans rfl hp)
    | with_reducible apply updReh_only (within_trans rfl hp) | with_reducible apply only_ite)

theorem budgetOverrun_only {σ : State} {ps : List Part} (hp : within [.evt, .stations, .led, .tab] ps = true)
    (c : Nat) (s : State) (h0 : onlyChanges ps σ s) : onlyChanges ps σ (budgetOverrun c s) := by
  refine only_trans h0 ?_; clear h0; unfold budgetOverrun
  repeat' (first
    | with_reducible exact only_refl _ _ | assumption | with_reducible apply kitInvalid_only (within_trans rfl hp)
    | with_reducible apply only_ite)

theorem runEnds_only {σ : State} {ps : List Part} (hp : within [.stations, .led] ps = true) (c : Nat) (k :
    Kit) (s : State) (h0 : onlyChanges ps σ s) : onlyChanges ps σ (runEnds c k s) := by
  refine only_trans h0 ?_; clear h0; unfold runEnds
  (try dsimp only)
  repeat' (first
    | with_reducible exact only_refl _ _ | assumption | with_reducible apply kitDone_only (within_trans rfl hp)
    | with_reducible apply updReh_only (within_trans rfl hp) | with_reducible apply only_ite
    | (split <;> try dsimp only))

theorem segmentEnds_only {σ : State} {ps : List Part} (hp : within [.evt, .stations, .led, .tab] ps = true) (c
    : Nat) (jobWaits : Bool) (s : State) (h0 : onlyChanges ps σ s) : onlyChanges ps σ (segmentEnds c jobWaits
    s) := by
  refine only_trans h0 ?_; clear h0; unfold segmentEnds
  (try dsimp only)
  repeat' (first
    | with_reducible exact only_refl _ _ | assumption | with_reducible apply budgetOverrun_only (within_trans rfl hp)
    | with_reducible apply updReh_only (within_trans rfl hp) | with_reducible apply runEnds_only (within_trans rfl hp)
    | with_reducible apply only_ite | (split <;> try dsimp only))

theorem rehearsalIsLate_only {σ : State} {ps : List Part} (hp : within [.evt, .stations, .tab] ps = true) (c :
    Nat) (s : State) (h0 : onlyChanges ps σ s) : onlyChanges ps σ (rehearsalIsLate c s) := by
  refine only_trans h0 ?_; clear h0; unfold rehearsalIsLate
  (try dsimp only)
  repeat' (first
    | with_reducible exact only_refl _ _ | assumption | with_reducible apply updReh_only (within_trans rfl hp)
    | with_reducible apply occur_only (within_trans rfl hp) | with_reducible apply only_ite)

theorem chargeAll_only {ps : List Part} (hp : within [.evt, .stations, .hz, .ctxs, .led, .tempo, .sync, .tab,
    .trace, .i3c, .out] ps = true) (c : Nat) (tag : Word) : ∀ ls {σ s : State}, onlyChanges ps σ s →
    onlyChanges ps σ (chargeAll c tag ls s) := by
  intro ls
  induction ls with
  | nil => intro σ s h; exact h
  | cons a l ih =>
    intro σ s h0
    refine only_trans h0 ?_; clear h0; unfold chargeAll
    repeat' (first
      | with_reducible exact only_refl _ _ | with_reducible apply ih | assumption
      | with_reducible apply chargeEngine_only (within_trans rfl hp))

theorem endCheck_only {σ : State} {ps : List Part} (hp : within [.stations] ps = true) (c : Nat) (s : State)
    (h0 : onlyChanges ps σ s) : onlyChanges ps σ (endCheck c s) := by
  refine only_trans h0 ?_; clear h0; unfold endCheck
  (try dsimp only)
  repeat' (first
    | with_reducible exact only_refl _ _ | assumption | with_reducible apply only_ite | (intro _; try dsimp only)
    | dsimp only
    | exact ⟨rfl, fun p h => by cases p <;> first | (with_reducible rfl) | exact absurd (within_mem hp rfl) h⟩)

theorem rehearsalFails_only {σ : State} {ps : List Part} (hp : within [.evt, .stations, .hz, .ctxs, .led,
    .tempo, .sync, .tab, .trace, .i3c, .out] ps = true) (c : Nat) (k : Kit) (transient : Bool) (s : State) (h0
    : onlyChanges ps σ s) : onlyChanges ps σ (rehearsalFails c k transient s) := by
  refine only_trans h0 ?_; clear h0; unfold rehearsalFails
  (try dsimp only)
  repeat' (first
    | with_reducible exact only_refl _ _ | assumption | with_reducible apply updReh_only (within_trans rfl hp)
    | with_reducible apply endCheck_only (within_trans rfl hp) | with_reducible apply occur_only (within_trans rfl hp)
    | with_reducible apply countConfirmed_only (within_trans rfl hp)
    | with_reducible apply countDet_only (within_trans rfl hp)
    | with_reducible apply backoffCore_only (within_trans rfl hp)
    | with_reducible apply chargeAll_only (within_trans rfl hp)
    | with_reducible apply suspect_only (within_trans rfl hp) | with_reducible apply only_ite)

theorem settleRecheck_only {σ : State} {ps : List Part} (hp : within [.evt, .stations, .hz, .ctxs, .led,
    .tempo, .sync, .tab, .trace, .i3c, .out] ps = true) (c : Nat) (k : Kit) (s : State) (h0 : onlyChanges ps σ
    s) : onlyChanges ps σ (settleRecheck c k s) := by
  refine only_trans h0 ?_; clear h0; unfold settleRecheck
  (try dsimp only)
  repeat' (first
    | with_reducible exact only_refl _ _ | assumption | with_reducible apply rehearsalFails_only (within_trans rfl hp)
    | with_reducible apply kitInvalid_only (within_trans rfl hp)
    | with_reducible apply endCheck_only (within_trans rfl hp) | with_reducible apply only_ite
    | (split <;> try dsimp only))

theorem takeRun_only {σ : State} {ps : List Part} (hp : within [.stations] ps = true) (runner : Nat) (s :
    State) (h0 : onlyChanges ps σ s) : onlyChanges ps σ (takeRun runner s) := by
  refine only_trans h0 ?_; clear h0; unfold takeRun
  repeat' (first
    | with_reducible exact only_refl _ _ | assumption | with_reducible apply updReh_only (within_trans rfl hp))

theorem recheckDone_only {σ : State} {ps : List Part} (hp : within [.evt, .stations, .hz, .ctxs, .led, .tempo,
    .sync, .tab, .trace, .i3c, .out] ps = true) (c runner : Nat) (s : State) (h0 : onlyChanges ps σ s) :
    onlyChanges ps σ (recheckDone c runner s) := by
  refine only_trans h0 ?_; clear h0; unfold recheckDone
  (try dsimp only)
  repeat' (first
    | with_reducible exact only_refl _ _ | assumption | with_reducible apply settleRecheck_only (within_trans rfl hp)
    | with_reducible apply updReh_only (within_trans rfl hp) | with_reducible apply takeRun_only (within_trans rfl hp)
    | with_reducible apply only_ite | (split <;> try dsimp only))

theorem recheckTimeout_only {σ : State} {ps : List Part} (hp : within [.evt, .stations, .hz, .ctxs, .led,
    .tempo, .sync, .tab, .trace, .i3c, .out] ps = true) (c : Nat) (s : State) (h0 : onlyChanges ps σ s) :
    onlyChanges ps σ (recheckTimeout c s) := by
  refine only_trans h0 ?_; clear h0; unfold recheckTimeout
  (try dsimp only)
  repeat' (first
    | with_reducible exact only_refl _ _ | assumption | with_reducible apply rehearsalFails_only (within_trans rfl hp)
    | with_reducible apply only_ite | (split <;> try dsimp only))

theorem execRehearsalGapStart_only (t : Nat) (core : Core) (s : State) : ∃ s', execRehearsalGapStart t core s
    = .next s' ∧ onlyChanges [.now, .stations] s s' := by
  refine ⟨_, rfl, ?_⟩
  have hp : within [.now, .stations] [.now, .stations] = true := rfl
  repeat' (first
    | with_reducible exact only_refl _ _ | assumption | with_reducible apply gapStarts_only (within_trans rfl hp)
    | with_reducible apply atTime_only (within_trans rfl hp))

theorem execRehearsalSegmentEnd_only (t : Nat) (core : Core) (jobWaits : Bool) (result : List Byte) (s :
    State) : ∃ s', execRehearsalSegmentEnd t core jobWaits result s = .next s' ∧ onlyChanges [.now, .evt,
    .stations, .led, .tab] s s' := by
  refine ⟨_, rfl, ?_⟩
  have hp : within [.now, .evt, .stations, .led, .tab] [.now, .evt, .stations, .led, .tab] = true := rfl
  repeat' (first
    | with_reducible exact only_refl _ _ | assumption | with_reducible apply segmentEnds_only (within_trans rfl hp)
    | with_reducible apply atTime_only (within_trans rfl hp))

theorem execRehearsalBudgetOverrun_only (t : Nat) (core : Core) (s : State) : ∃ s', execRehearsalBudgetOverrun
    t core s = .next s' ∧ onlyChanges [.now, .evt, .stations, .led, .tab] s s' := by
  refine ⟨_, rfl, ?_⟩
  have hp : within [.now, .evt, .stations, .led, .tab] [.now, .evt, .stations, .led, .tab] = true := rfl
  repeat' (first
    | with_reducible exact only_refl _ _ | assumption | with_reducible apply budgetOverrun_only (within_trans rfl hp)
    | with_reducible apply atTime_only (within_trans rfl hp))

theorem execRehearsalLate_only (t : Nat) (core : Core) (s : State) : ∃ s', execRehearsalLate t core s = .next
    s' ∧ onlyChanges [.now, .evt, .stations, .tab] s s' := by
  refine ⟨_, rfl, ?_⟩
  have hp : within [.now, .evt, .stations, .tab] [.now, .evt, .stations, .tab] = true := rfl
  repeat' (first
    | with_reducible exact only_refl _ _ | assumption
    | with_reducible apply rehearsalIsLate_only (within_trans rfl hp)
    | with_reducible apply atTime_only (within_trans rfl hp))

theorem execRehearsalRecheckDone_only (t : Nat) (core runner : Core) (signature : DWord) (s : State) : ∃ s',
    execRehearsalRecheckDone t core runner signature s = .next s' ∧ onlyChanges [.now, .evt, .stations, .hz,
    .ctxs, .led, .tempo, .sync, .tab, .trace, .i3c, .out] s s' := by
  refine ⟨_, rfl, ?_⟩
  have hp : within [.now, .evt, .stations, .hz, .ctxs, .led, .tempo, .sync, .tab, .trace, .i3c, .out] [.now, .evt, .stations, .hz, .ctxs, .led, .tempo, .sync, .tab, .trace, .i3c, .out] = true := rfl
  repeat' (first
    | with_reducible exact only_refl _ _ | assumption | with_reducible apply recheckDone_only (within_trans rfl hp)
    | with_reducible apply atTime_only (within_trans rfl hp))

theorem execRehearsalRecheckTimeout_only (t : Nat) (core : Core) (s : State) : ∃ s',
    execRehearsalRecheckTimeout t core s = .next s' ∧ onlyChanges [.now, .evt, .stations, .hz, .ctxs, .led,
    .tempo, .sync, .tab, .trace, .i3c, .out] s s' := by
  refine ⟨_, rfl, ?_⟩
  have hp : within [.now, .evt, .stations, .hz, .ctxs, .led, .tempo, .sync, .tab, .trace, .i3c, .out] [.now, .evt, .stations, .hz, .ctxs, .led, .tempo, .sync, .tab, .trace, .i3c, .out] = true := rfl
  repeat' (first
    | with_reducible exact only_refl _ _ | assumption | with_reducible apply recheckTimeout_only (within_trans rfl hp)
    | with_reducible apply atTime_only (within_trans rfl hp))

theorem capsuleDone_only {σ : State} {ps : List Part} (hp : within [.stations, .mem, .memPoison] ps = true) (c
    : Nat) (tag : Word) (s : State) (h0 : onlyChanges ps σ s) : onlyChanges ps σ (capsuleDone c tag s) := by
  refine only_trans h0 ?_; clear h0; unfold capsuleDone
  repeat' (first
    | with_reducible exact only_refl _ _ | assumption
    | with_reducible apply writeCapsuleHead_only (within_trans rfl hp)
    | with_reducible apply updCapsule_only (within_trans rfl hp) | with_reducible apply only_ite
    | (split <;> try dsimp only))

theorem beginReplay_only {σ : State} {ps : List Part} (hp : within [.stations, .adj] ps = true) (c : Nat) (k :
    Capsule) (d : Nat) (s : State) (h0 : onlyChanges ps σ s) : onlyChanges ps σ (beginReplay c k d s) := by
  refine only_trans h0 ?_; clear h0; unfold beginReplay
  (try dsimp only)
  repeat' (first
    | with_reducible exact only_refl _ _ | assumption | with_reducible apply updAdj_only (within_trans rfl hp)
    | with_reducible apply notify_only (within_trans rfl hp))

theorem takeCapsule_only {σ : State} {ps : List Part} (hp : within [.evt, .stations, .adj, .led, .tab] ps =
    true) (c : Nat) (tag : Word) (forced : Bool) (empty : Nat → Bool) (s : State) (h0 : onlyChanges ps σ s) :
    onlyChanges ps σ (takeCapsule c tag forced empty s) := by
  refine only_trans h0 ?_; clear h0; unfold takeCapsule
  (try dsimp only)
  repeat' (first
    | with_reducible exact only_refl _ _ | assumption | with_reducible apply abandonReprise_only (within_trans rfl hp)
    | with_reducible apply beginReplay_only (within_trans rfl hp) | with_reducible apply only_ite
    | (split <;> try dsimp only))

theorem repriseGivesUp_only {σ : State} {ps : List Part} (hp : within [.evt, .stations, .adj, .led, .tab] ps =
    true) (c : Nat) (tag : Word) (cause : Nat) (s : State) (h0 : onlyChanges ps σ s) : onlyChanges ps σ
    (repriseGivesUp c tag cause s) := by
  refine only_trans h0 ?_; clear h0; unfold repriseGivesUp
  (try dsimp only)
  repeat' (first
    | with_reducible exact only_refl _ _ | assumption | with_reducible apply abandonReprise_only (within_trans rfl hp)
    | with_reducible apply only_ite | (split <;> try dsimp only))

theorem replayLost_only {σ : State} {ps : List Part} (hp : within [.evt, .stations, .adj, .led, .tab] ps =
    true) (r : Replay) (s : State) (h0 : onlyChanges ps σ s) : onlyChanges ps σ (replayLost r s) := by
  refine only_trans h0 ?_; clear h0; unfold replayLost
  (try dsimp only)
  repeat' (first
    | with_reducible exact only_refl _ _ | assumption | with_reducible apply updAdj_only (within_trans rfl hp)
    | with_reducible apply updCapsule_only (within_trans rfl hp)
    | with_reducible apply abandonReprise_only (within_trans rfl hp) | with_reducible apply only_ite
    | (split <;> try dsimp only))

theorem insertedLost_only {σ : State} {ps : List Part} (hp : within [.evt, .stations, .hz, .ctxs, .adj, .led,
    .tempo, .sync, .tab, .trace, .i3c, .mem, .memPoison, .out] ps = true) (u : Cu) (s : State) (h0 :
    onlyChanges ps σ s) : onlyChanges ps σ (insertedLost u s) := by
  refine only_trans h0 ?_; clear h0; unfold insertedLost
  repeat' (first
    | with_reducible exact only_refl _ _ | assumption | with_reducible apply replayLost_only (within_trans rfl hp)
    | with_reducible apply takeOutcome_only (within_trans rfl hp) | with_reducible apply only_ite
    | (split <;> try dsimp only))

theorem insertedAllLost_only {ps : List Part} (hp : within [.evt, .stations, .hz, .ctxs, .adj, .led, .tempo,
    .sync, .tab, .trace, .i3c, .mem, .memPoison, .out] ps = true)  : ∀ ls {σ s : State}, onlyChanges ps σ s →
    onlyChanges ps σ (insertedAllLost  ls s) := by
  intro ls
  induction ls with
  | nil => intro σ s h; exact h
  | cons a l ih =>
    intro σ s h0
    refine only_trans h0 ?_; clear h0; unfold insertedAllLost
    repeat' (first
      | with_reducible exact only_refl _ _ | with_reducible apply ih | assumption
      | with_reducible apply insertedLost_only (within_trans rfl hp) | with_reducible apply only_ite)

theorem straddle_only {σ : State} {ps : List Part} (hp : within [.evt, .stations, .led, .tab] ps = true) (c :
    Nat) (k : Capsule) (r : Replay) (s : State) (h0 : onlyChanges ps σ s) : onlyChanges ps σ (straddle c k r
    s) := by
  refine only_trans h0 ?_; clear h0; unfold straddle
  repeat' (first
    | with_reducible exact only_refl _ _ | assumption | with_reducible apply giveReprise_only (within_trans rfl hp)
    | with_reducible apply occur_only (within_trans rfl hp))

theorem mismatch_only {σ : State} {ps : List Part} (hp : within [.evt, .stations, .hz, .ctxs, .adj, .led,
    .tempo, .sync, .tab, .trace, .i3c, .mem, .memPoison, .out] ps = true) (c : Nat) (k : Capsule) (r : Replay)
    (results : List Byte) (bad : List Nat) (s : State) (h0 : onlyChanges ps σ s) : onlyChanges ps σ (mismatch
    c k r results bad s) := by
  refine only_trans h0 ?_; clear h0; unfold mismatch
  (try dsimp only)
  repeat' (first
    | with_reducible exact only_refl _ _ | assumption | with_reducible apply occur_only (within_trans rfl hp)
    | with_reducible apply giveReprise_only (within_trans rfl hp)
    | with_reducible apply openAdj_only (within_trans rfl hp)
    | with_reducible apply holdCapsuleOf_only (within_trans rfl hp))

theorem dropReplay_only {σ : State} {ps : List Part} (hp : within [.adj] ps = true) (r : Replay) (s : State)
    (h0 : onlyChanges ps σ s) : onlyChanges ps σ (dropReplay r s) := by
  refine only_trans h0 ?_; clear h0; unfold dropReplay
  repeat' (first
    | with_reducible exact only_refl _ _ | assumption | with_reducible apply updAdj_only (within_trans rfl hp))

theorem compareReplay_only {σ : State} {ps : List Part} (hp : within [.evt, .stations, .hz, .ctxs, .adj, .led,
    .tempo, .sync, .tab, .trace, .i3c, .mem, .memPoison, .out] ps = true) (c : Nat) (r : Replay) (results :
    List Byte) (s : State) (h0 : onlyChanges ps σ s) : onlyChanges ps σ (compareReplay c r results s) := by
  refine only_trans h0 ?_; clear h0; unfold compareReplay
  (try dsimp only)
  repeat' (first
    | with_reducible exact only_refl _ _ | assumption | with_reducible apply straddle_only (within_trans rfl hp)
    | with_reducible apply giveReprise_only (within_trans rfl hp)
    | with_reducible apply mismatch_only (within_trans rfl hp) | with_reducible apply only_ite
    | (split <;> try dsimp only))

theorem compareDone_only {σ : State} {ps : List Part} (hp : within [.evt, .stations, .hz, .ctxs, .adj, .led,
    .tempo, .sync, .tab, .trace, .i3c, .mem, .memPoison, .out] ps = true) (c : Nat) (tag : Word) (s : State)
    (h0 : onlyChanges ps σ s) : onlyChanges ps σ (compareDone c tag s) := by
  refine only_trans h0 ?_; clear h0; unfold compareDone
  repeat' (first
    | with_reducible exact only_refl _ _ | assumption | with_reducible apply compareReplay_only (within_trans rfl hp)
    | with_reducible apply dropReplay_only (within_trans rfl hp) | with_reducible apply only_ite
    | (split <;> try dsimp only))

theorem execCapsuleComplete_only (t : Nat) (core : Core) (tag : Word) (s : State) : ∃ s', execCapsuleComplete
    t core tag s = .next s' ∧ onlyChanges [.now, .stations, .mem, .memPoison] s s' := by
  refine ⟨_, rfl, ?_⟩
  have hp : within [.now, .stations, .mem, .memPoison] [.now, .stations, .mem, .memPoison] = true := rfl
  repeat' (first
    | with_reducible exact only_refl _ _ | assumption | with_reducible apply capsuleDone_only (within_trans rfl hp)
    | with_reducible apply atTime_only (within_trans rfl hp))

theorem execReplayStart_only (t : Nat) (core : Core) (tag : Word) (emptyQueues : BitVec 256) (s : State) : ∃
    s', execReplayStart t core tag emptyQueues s = .next s' ∧ onlyChanges [.now, .evt, .stations, .adj, .led,
    .tab] s s' := by
  refine ⟨_, rfl, ?_⟩
  have hp : within [.now, .evt, .stations, .adj, .led, .tab] [.now, .evt, .stations, .adj, .led, .tab] = true := rfl
  repeat' (first
    | with_reducible exact only_refl _ _ | assumption | with_reducible apply takeCapsule_only (within_trans rfl hp)
    | with_reducible apply atTime_only (within_trans rfl hp))

theorem execRepriseForce_only (t : Nat) (core : Core) (tag : Word) (emptyQueues : BitVec 256) (s : State) : ∃
    s', execRepriseForce t core tag emptyQueues s = .next s' ∧ onlyChanges [.now, .evt, .stations, .adj, .led,
    .tab] s s' := by
  refine ⟨_, rfl, ?_⟩
  have hp : within [.now, .evt, .stations, .adj, .led, .tab] [.now, .evt, .stations, .adj, .led, .tab] = true := rfl
  repeat' (first
    | with_reducible exact only_refl _ _ | assumption | with_reducible apply takeCapsule_only (within_trans rfl hp)
    | with_reducible apply atTime_only (within_trans rfl hp))

theorem execRepriseAbandon_only (t : Nat) (core : Core) (tag : Word) (cause : BitVec 4) (s : State) : ∃ s',
    execRepriseAbandon t core tag cause s = .next s' ∧ onlyChanges [.now, .evt, .stations, .adj, .led, .tab] s
    s' := by
  refine ⟨_, rfl, ?_⟩
  have hp : within [.now, .evt, .stations, .adj, .led, .tab] [.now, .evt, .stations, .adj, .led, .tab] = true := rfl
  repeat' (first
    | with_reducible exact only_refl _ _ | assumption | with_reducible apply repriseGivesUp_only (within_trans rfl hp)
    | with_reducible apply atTime_only (within_trans rfl hp))

theorem execRepriseCompareDone_only (t : Nat) (core : Core) (tag : Word) (results : List Byte) (redLen : Nat)
    (sums : List Dy) (s : State) : ∃ s', execRepriseCompareDone t core tag results redLen sums s = .next s' ∧
    onlyChanges [.now, .evt, .stations, .hz, .ctxs, .adj, .led, .tempo, .sync, .tab, .trace, .i3c, .mem,
    .memPoison, .out] s s' := by
  refine ⟨_, rfl, ?_⟩
  have hp : within [.now, .evt, .stations, .hz, .ctxs, .adj, .led, .tempo, .sync, .tab, .trace, .i3c, .mem, .memPoison, .out] [.now, .evt, .stations, .hz, .ctxs, .adj, .led, .tempo, .sync, .tab, .trace, .i3c, .mem, .memPoison, .out] = true := rfl
  repeat' (first
    | with_reducible exact only_refl _ _ | assumption | with_reducible apply compareDone_only (within_trans rfl hp)
    | with_reducible apply atTime_only (within_trans rfl hp))

theorem holdAll_only {σ : State} {ps : List Part} (hp : within [.evt, .stations, .hz, .ctxs, .adj, .led,
    .tempo, .sync, .tab, .trace, .out] ps = true) (now tt : Nat) (s : State) (h0 : onlyChanges ps σ s) :
    onlyChanges ps σ (holdAll now tt s) := by
  refine only_trans h0 ?_; clear h0; unfold holdAll
  (try dsimp only)
  repeat' (first
    | with_reducible exact only_refl _ _ | assumption | with_reducible apply updAdj_only (within_trans rfl hp)
    | with_reducible apply updLed_only (within_trans rfl hp)
    | with_reducible apply drainHeld_only (within_trans rfl hp)
    | with_reducible apply updTempo_only (within_trans rfl hp) | with_reducible apply only_ite
    | (intro _; try dsimp only) | dsimp only
    | exact ⟨rfl, fun p h => by cases p <;> first | (with_reducible rfl) | exact absurd (within_mem hp rfl) h⟩)

theorem endHold_only {σ : State} {ps : List Part} (hp : within [.evt, .stations, .hz, .ctxs, .adj, .led,
    .tempo, .sync, .tab, .trace, .out] ps = true) (s : State) (h0 : onlyChanges ps σ s) : onlyChanges ps σ
    (endHold s) := by
  refine only_trans h0 ?_; clear h0; unfold endHold
  repeat' (first
    | with_reducible exact only_refl _ _ | assumption | with_reducible apply updTab_only (within_trans rfl hp)
    | with_reducible apply holdAll_only (within_trans rfl hp))

theorem touchGap_only {σ : State} {ps : List Part} (hp : within [.evt, .stations, .hz, .ctxs, .adj, .led,
    .tempo, .sync, .tab, .trace, .i3c, .mem, .memPoison, .out] ps = true) (c cause : Nat) (u : Cu) (s : State)
    (h0 : onlyChanges ps σ s) : onlyChanges ps σ (touchGap c cause u s) := by
  refine only_trans h0 ?_; clear h0; unfold touchGap
  (try dsimp only)
  repeat' (first
    | with_reducible exact only_refl _ _ | assumption | with_reducible apply updCus_only (within_trans rfl hp)
    | with_reducible apply skipSample_only (within_trans rfl hp)
    | with_reducible apply giveVerdict_only (within_trans rfl hp) | with_reducible apply only_ite)

theorem touchAll_only {ps : List Part} (hp : within [.evt, .stations, .hz, .ctxs, .adj, .led, .tempo, .sync,
    .tab, .trace, .i3c, .mem, .memPoison, .out] ps = true) (c cause : Nat) : ∀ ls {σ s : State}, onlyChanges
    ps σ s → onlyChanges ps σ (touchAll c cause ls s) := by
  intro ls
  induction ls with
  | nil => intro σ s h; exact h
  | cons a l ih =>
    intro σ s h0
    refine only_trans h0 ?_; clear h0; unfold touchAll
    repeat' (first
      | with_reducible exact only_refl _ _ | with_reducible apply ih | assumption
      | with_reducible apply touchGap_only (within_trans rfl hp))

theorem recordGap_only {σ : State} {ps : List Part} (hp : within [.evt, .tab] ps = true) (c port cause : Nat)
    (tag : Word) (type opid lost : Nat) (s : State) (h0 : onlyChanges ps σ s) : onlyChanges ps σ (recordGap c
    port cause tag type opid lost s) := by
  refine only_trans h0 ?_; clear h0; unfold recordGap
  repeat' (first
    | with_reducible exact only_refl _ _ | assumption | with_reducible apply occur_only (within_trans rfl hp))

theorem gapOf_only {σ : State} {ps : List Part} (hp : within [.evt, .stations, .hz, .ctxs, .adj, .led, .tempo,
    .sync, .tab, .trace, .i3c, .mem, .memPoison, .out] ps = true) (c port cause type lost : Nat) (u : Cu) (s :
    State) (h0 : onlyChanges ps σ s) : onlyChanges ps σ (gapOf c port cause type lost u s) := by
  refine only_trans h0 ?_; clear h0; unfold gapOf
  repeat' (first
    | with_reducible exact only_refl _ _ | assumption | with_reducible apply touchGap_only (within_trans rfl hp)
    | with_reducible apply recordGap_only (within_trans rfl hp))

theorem gapUntied_only {σ : State} {ps : List Part} (hp : within [.evt, .stations, .hz, .ctxs, .adj, .led,
    .tempo, .sync, .tab, .trace, .i3c, .mem, .memPoison, .out] ps = true) (c port cause q type opid lost :
    Nat) (s : State) (h0 : onlyChanges ps σ s) : onlyChanges ps σ (gapUntied c port cause q type opid lost s) := by
  refine only_trans h0 ?_; clear h0; unfold gapUntied
  (try dsimp only)
  repeat' (first
    | with_reducible exact only_refl _ _ | assumption | with_reducible apply recordGap_only (within_trans rfl hp)
    | with_reducible apply touchAll_only (within_trans rfl hp)
    | with_reducible apply updQueue_only (within_trans rfl hp))

theorem overflowFault_only {σ : State} {ps : List Part} (hp : within [.evt, .stations, .hz, .ctxs, .led,
    .tempo, .sync, .tab, .trace, .i3c, .out] ps = true) (c : Nat) (tag : Word) (s : State) (h0 : onlyChanges
    ps σ s) : onlyChanges ps σ (overflowFault c tag s) := by
  refine only_trans h0 ?_; clear h0; unfold overflowFault
  repeat' (first
    | with_reducible exact only_refl _ _ | assumption | with_reducible apply stationFault_only (within_trans rfl hp)
    | with_reducible apply only_ite)

theorem recordFails_only {σ : State} {ps : List Part} (hp : within [.evt, .stations, .hz, .ctxs, .adj, .led,
    .tempo, .sync, .tab, .trace, .i3c, .mem, .memPoison, .out] ps = true) (c port cause q type opid : Nat) (s
    : State) (h0 : onlyChanges ps σ s) : onlyChanges ps σ (recordFails c port cause q type opid s) := by
  refine only_trans h0 ?_; clear h0; unfold recordFails
  repeat' (first
    | with_reducible exact only_refl _ _ | assumption | with_reducible apply gapOf_only (within_trans rfl hp)
    | with_reducible apply gapUntied_only (within_trans rfl hp) | with_reducible apply only_ite
    | (split <;> try dsimp only))

theorem recordError_only {σ : State} {ps : List Part} (hp : within [.evt, .stations, .hz, .ctxs, .adj, .led,
    .tempo, .sync, .tab, .trace, .i3c, .mem, .memPoison, .out] ps = true) (c port q type opid : Nat) (s :
    State) (h0 : onlyChanges ps σ s) : onlyChanges ps σ (recordError c port q type opid s) := by
  refine only_trans h0 ?_; clear h0; unfold recordError
  repeat' (first
    | with_reducible exact only_refl _ _ | assumption | with_reducible apply recordFails_only (within_trans rfl hp))

theorem withRoom_only {σ : State} {ps : List Part} (hp : within [.evt, .stations, .hz, .ctxs, .adj, .led,
    .tempo, .sync, .tab, .trace, .i3c, .mem, .memPoison, .out] ps = true) (c port q type opid fill : Nat) (act
    : State → State) (s : State) (hact : ∀  {σ s : State}, onlyChanges ps σ s → onlyChanges ps σ (act  s)) (h0
    : onlyChanges ps σ s) : onlyChanges ps σ (withRoom c port q type opid fill act s) := by
  refine only_trans h0 ?_; clear h0; unfold withRoom
  (try dsimp only)
  repeat' (first
    | with_reducible exact only_refl _ _ | assumption | with_reducible apply overflowFault_only (within_trans rfl hp)
    | with_reducible apply recordFails_only (within_trans rfl hp) | with_reducible apply hact
    | with_reducible apply only_ite)

theorem traceOp_only {σ : State} {ps : List Part} (hp : within [.evt, .tab, .trace, .out] ps = true) (c dir
    time : Nat) (u : Cu) (s : State) (h0 : onlyChanges ps σ s) : onlyChanges ps σ (traceOp c dir time u s) := by
  refine only_trans h0 ?_; clear h0; unfold traceOp
  (try dsimp only)
  repeat' (first
    | with_reducible exact only_refl _ _ | assumption | with_reducible apply traceRec_only (within_trans rfl hp)
    | with_reducible apply only_ite)

theorem claimFor_only {σ : State} {ps : List Part} (hp : within [.evt, .stations, .tab, .mem, .memPoison] ps =
    true) (c : Nat) (u : Cu) (sects : List Nat) (s : State) (h0 : onlyChanges ps σ s) : onlyChanges ps σ
    (claimFor c u sects s) := by
  refine only_trans h0 ?_; clear h0; unfold claimFor
  split
  · exact skipSample_only (within_trans rfl hp) _ _ _ _ (only_refl _ s)
  · split
    · exact updCus_only (within_trans rfl hp) _ _ _ _ (claimCapsule_only (within_trans rfl hp) _ _ _ _ ‹_›)
    · exact skipSample_only (within_trans rfl hp) _ _ _ _ (only_refl _ s)

theorem teeBegins_only {σ : State} {ps : List Part} (hp : within [.evt, .stations, .tab, .mem, .memPoison] ps
    = true) (c : Nat) (u : Cu) (s : State) (h0 : onlyChanges ps σ s) : onlyChanges ps σ (teeBegins c u s) := by
  refine only_trans h0 ?_; clear h0; unfold teeBegins
  repeat' (first
    | with_reducible exact only_refl _ _ | assumption | with_reducible apply claimFor_only (within_trans rfl hp)
    | with_reducible apply only_ite)

theorem growT1_only {σ : State} {ps : List Part} (hp : within [.evt, .stations, .tab, .mem, .memPoison] ps =
    true) (c : Nat) (k : Capsule) (off : Nat) (s : State) (h0 : onlyChanges ps σ s) : onlyChanges ps σ (growT1
    c k off s) := by
  refine only_trans h0 ?_; clear h0; unfold growT1
  (try dsimp only)
  repeat' (first
    | with_reducible exact only_refl _ _ | assumption | with_reducible apply skipSample_only (within_trans rfl hp)
    | with_reducible apply updStation_only (within_trans rfl hp)
    | with_reducible apply updCapsule_only (within_trans rfl hp) | with_reducible apply only_ite)

theorem teeSector_only {σ : State} {ps : List Part} (hp : within [.evt, .stations, .tab, .mem, .memPoison] ps
    = true) (c : Nat) (tag : Word) (part off : Nat) (bytes : List Byte) (s : State) (h0 : onlyChanges ps σ s)
    : onlyChanges ps σ (teeSector c tag part off bytes s) := by
  refine only_trans h0 ?_; clear h0; unfold teeSector
  (try dsimp only)
  repeat' (first
    | with_reducible exact only_refl _ _ | assumption | with_reducible apply growT1_only (within_trans rfl hp)
    | with_reducible apply memWrite_only (within_trans rfl hp) | with_reducible apply only_ite
    | (split <;> try dsimp only))

theorem teeSectors_only {ps : List Part} (hp : within [.evt, .stations, .tab, .mem, .memPoison] ps = true) (c
    : Nat) (tag : Word) : ∀ ls {σ s : State}, onlyChanges ps σ s → onlyChanges ps σ (teeSectors c tag ls s) := by
  intro ls
  induction ls with
  | nil => intro σ s h; exact h
  | cons a l ih =>
    intro σ s h0
    refine only_trans h0 ?_; clear h0; unfold teeSectors
    repeat' (first
      | with_reducible exact only_refl _ _ | with_reducible apply ih | assumption
      | with_reducible apply teeSector_only (within_trans rfl hp))

theorem landOutput_only {σ : State} {ps : List Part} (hp : within [.stations, .mem, .memPoison] ps = true) (c
    : Nat) (u : Cu) (off : Nat) (poison : Bool) (bs : List Byte) (s : State) (h0 : onlyChanges ps σ s) :
    onlyChanges ps σ (landOutput c u off poison bs s) := by
  refine only_trans h0 ?_; clear h0; unfold landOutput
  (try dsimp only)
  repeat' (first
    | with_reducible exact only_refl _ _ | assumption | with_reducible apply memStore_only (within_trans rfl hp)
    | with_reducible apply updStation_only (within_trans rfl hp)
    | with_reducible apply spadPut_only (within_trans rfl hp) | with_reducible apply only_ite
    | (split <;> try dsimp only))

theorem landSectors_only {ps : List Part} (hp : within [.stations, .mem, .memPoison] ps = true) (c : Nat) (u :
    Cu) : ∀ ls {σ s : State}, onlyChanges ps σ s → onlyChanges ps σ (landSectors c u ls s) := by
  intro ls
  induction ls with
  | nil => intro σ s h; exact h
  | cons a l ih =>
    intro σ s h0
    refine only_trans h0 ?_; clear h0; unfold landSectors
    repeat' (first
      | with_reducible exact only_refl _ _ | with_reducible apply ih | assumption
      | with_reducible apply landOutput_only (within_trans rfl hp))

theorem markC0_only {σ : State} {ps : List Part} (hp : within [.stations] ps = true) (c : Nat) (u : Cu) (b :
    Beat) (s : State) (h0 : onlyChanges ps σ s) : onlyChanges ps σ (markC0 c u b s) := by
  refine only_trans h0 ?_; clear h0; unfold markC0
  repeat' (first
    | with_reducible exact only_refl _ _ | assumption | with_reducible apply updStation_only (within_trans rfl hp))

theorem putCu_only {σ : State} {ps : List Part} (hp : within [.stations] ps = true) (c : Nat) (old new : Cu)
    (s : State) (h0 : onlyChanges ps σ s) : onlyChanges ps σ (putCu c old new s) := by
  refine only_trans h0 ?_; clear h0; unfold putCu
  repeat' (first
    | with_reducible exact only_refl _ _ | assumption | with_reducible apply updCus_only (within_trans rfl hp))

theorem runFeeds_only {ps : List Part} (hp : within [.free, .stations] ps = true) (c : Nat) (u : Cu) : ∀ ls {σ
    s : State}, onlyChanges ps σ s → onlyChanges ps σ (runFeeds c u ls s) := by
  intro ls
  induction ls with
  | nil => intro σ s h; exact h
  | cons a l ih =>
    intro σ s h0
    refine only_trans h0 ?_; clear h0; unfold runFeeds
    repeat' (first
      | with_reducible exact only_refl _ _ | with_reducible apply ih | assumption
      | with_reducible apply runFigs_only (within_trans rfl hp) | with_reducible apply only_ite)

theorem teeBeat_only {σ : State} {ps : List Part} (hp : within [.evt, .stations, .tab, .mem, .memPoison] ps =
    true) (c : Nat) (u : Cu) (l : List (Nat × Nat × List Byte)) (s : State) (h0 : onlyChanges ps σ s) :
    onlyChanges ps σ (teeBeat c u l s) := by
  refine only_trans h0 ?_; clear h0; unfold teeBeat
  repeat' (first
    | with_reducible exact only_refl _ _ | assumption | with_reducible apply teeSectors_only (within_trans rfl hp)
    | with_reducible apply only_ite)

theorem mxOpBeat_only {σ : State} {ps : List Part} (hp : within [.free, .stations] ps = true) (c : Nat) (b :
    Beat) (u v : Cu) (s : State) (h0 : onlyChanges ps σ s) : onlyChanges ps σ (mxOpBeat c b u v s) := by
  refine only_trans h0 ?_; clear h0; unfold mxOpBeat
  (try dsimp only)
  repeat' (first
    | with_reducible exact only_refl _ _ | assumption | with_reducible apply runFeeds_only (within_trans rfl hp)
    | with_reducible apply putCu_only (within_trans rfl hp))

theorem mxResBeat_only {σ : State} {ps : List Part} (hp : within [.free, .stations, .mem, .memPoison] ps =
    true) (c : Nat) (b : Beat) (u v : Cu) (s : State) (h0 : onlyChanges ps σ s) : onlyChanges ps σ (mxResBeat
    c b u v s) := by
  refine only_trans h0 ?_; clear h0; unfold mxResBeat
  (try dsimp only)
  repeat' (first
    | with_reducible exact only_refl _ _ | assumption | with_reducible apply runFeeds_only (within_trans rfl hp)
    | with_reducible apply putCu_only (within_trans rfl hp) | with_reducible apply markC0_only (within_trans rfl hp)
    | with_reducible apply landSectors_only (within_trans rfl hp) | with_reducible apply only_ite)

theorem vxOpBeat_only {σ : State} {ps : List Part} (hp : within [.free, .evt, .stations, .tab, .mem,
    .memPoison] ps = true) (c : Nat) (b : Beat) (u v : Cu) (s : State) (h0 : onlyChanges ps σ s) : onlyChanges
    ps σ (vxOpBeat c b u v s) := by
  refine only_trans h0 ?_; clear h0; unfold vxOpBeat
  (try dsimp only)
  repeat' (first
    | with_reducible exact only_refl _ _ | assumption | with_reducible apply teeBeat_only (within_trans rfl hp)
    | with_reducible apply putCu_only (within_trans rfl hp)
    | with_reducible apply runFeeds_only (within_trans rfl hp))

theorem vxResBeat_only {σ : State} {ps : List Part} (hp : within [.free, .evt, .stations, .tab, .mem,
    .memPoison] ps = true) (c : Nat) (b : Beat) (u v : Cu) (s : State) (h0 : onlyChanges ps σ s) : onlyChanges
    ps σ (vxResBeat c b u v s) := by
  refine only_trans h0 ?_; clear h0; unfold vxResBeat
  (try dsimp only)
  repeat' (first
    | with_reducible exact only_refl _ _ | assumption | with_reducible apply teeBeat_only (within_trans rfl hp)
    | with_reducible apply putCu_only (within_trans rfl hp) | with_reducible apply runFeeds_only (within_trans rfl hp)
    | with_reducible apply landSectors_only (within_trans rfl hp))

theorem mvBeat_only {σ : State} {ps : List Part} (hp : within [.free, .stations, .mem, .memPoison] ps = true)
    (c : Nat) (b : Beat) (u v : Cu) (s : State) (h0 : onlyChanges ps σ s) : onlyChanges ps σ (mvBeat c b u v
    s) := by
  refine only_trans h0 ?_; clear h0; unfold mvBeat
  (try dsimp only)
  repeat' (first
    | with_reducible exact only_refl _ _ | assumption | with_reducible apply landSectors_only (within_trans rfl hp)
    | with_reducible apply putCu_only (within_trans rfl hp)
    | with_reducible apply runFeeds_only (within_trans rfl hp))

theorem beatActs_only {σ : State} {ps : List Part} (hp : within [.free, .evt, .stations, .tab, .mem,
    .memPoison] ps = true) (c port : Nat) (b : Beat) (u : Cu) (s : State) (h0 : onlyChanges ps σ s) :
    onlyChanges ps σ (beatActs c port b u s) := by
  refine only_trans h0 ?_; clear h0; unfold beatActs
  (try dsimp only)
  repeat' (first
    | with_reducible exact only_refl _ _ | assumption | with_reducible apply mxOpBeat_only (within_trans rfl hp)
    | with_reducible apply mxResBeat_only (within_trans rfl hp)
    | with_reducible apply vxOpBeat_only (within_trans rfl hp)
    | with_reducible apply vxResBeat_only (within_trans rfl hp)
    | with_reducible apply mvBeat_only (within_trans rfl hp) | with_reducible apply only_ite
    | (split <;> try dsimp only))

theorem notePeak_only {σ : State} {ps : List Part} (hp : within [.stations] ps = true) (c fill : Nat) (s :
    State) (h0 : onlyChanges ps σ s) : onlyChanges ps σ (notePeak c fill s) := by
  refine only_trans h0 ?_; clear h0; unfold notePeak
  repeat' (first
    | with_reducible exact only_refl _ _ | assumption | with_reducible apply updStation_only (within_trans rfl hp))

theorem teeLoss_only {σ : State} {ps : List Part} (hp : within [.evt, .stations, .tab, .mem, .memPoison] ps =
    true) (c port : Nat) (u : Cu) (s : State) (h0 : onlyChanges ps σ s) : onlyChanges ps σ (teeLoss c port u
    s) := by
  refine only_trans h0 ?_; clear h0; unfold teeLoss
  repeat' (first
    | with_reducible exact only_refl _ _ | assumption | with_reducible apply skipSample_only (within_trans rfl hp)
    | with_reducible apply only_ite)

theorem beatTaken_only {σ : State} {ps : List Part} (hp : within [.free, .evt, .stations, .hz, .ctxs, .adj,
    .led, .tempo, .sync, .tab, .trace, .i3c, .mem, .memPoison, .out] ps = true) (c port : Nat) (b : Beat)
    (lost : Bool) (u : Cu) (s : State) (h0 : onlyChanges ps σ s) : onlyChanges ps σ (beatTaken c port b lost u
    s) := by
  refine only_trans h0 ?_; clear h0; unfold beatTaken
  (try dsimp only)
  repeat' (first
    | with_reducible exact only_refl _ _ | assumption | with_reducible apply gapOf_only (within_trans rfl hp)
    | with_reducible apply updCus_only (within_trans rfl hp)
    | with_reducible apply teeBegins_only (within_trans rfl hp)
    | with_reducible apply beatActs_only (within_trans rfl hp)
    | with_reducible apply teeLoss_only (within_trans rfl hp) | with_reducible apply only_ite
    | (split <;> try dsimp only))

theorem beatArrives_only {σ : State} {ps : List Part} (hp : within [.free, .evt, .stations, .hz, .ctxs, .adj,
    .led, .tempo, .sync, .tab, .trace, .i3c, .mem, .memPoison, .out] ps = true) (c port : Nat) (b : Beat)
    (fill : Nat) (lost : Bool) (s : State) (h0 : onlyChanges ps σ s) : onlyChanges ps σ (beatArrives c port b
    fill lost s) := by
  refine only_trans h0 ?_; clear h0; unfold beatArrives
  (try dsimp only)
  repeat' (first
    | with_reducible exact only_refl _ _ | assumption | with_reducible apply gapOf_only (within_trans rfl hp)
    | with_reducible apply gapUntied_only (within_trans rfl hp)
    | with_reducible apply overflowFault_only (within_trans rfl hp)
    | with_reducible apply notePeak_only (within_trans rfl hp)
    | with_reducible apply beatTaken_only (within_trans rfl hp) | with_reducible apply only_ite
    | (split <;> try dsimp only))

theorem tapBeat_only {σ : State} {ps : List Part} (hp : within [.free, .evt, .stations, .hz, .ctxs, .adj,
    .led, .tempo, .sync, .tab, .trace, .i3c, .mem, .memPoison, .out] ps = true) (c port : Nat) (arrival :
    TapIn) (fill : Nat) (fault : Option LaneFault) (lost : Bool) (s : State) (h0 : onlyChanges ps σ s) :
    onlyChanges ps σ (tapBeat c port arrival fill fault lost s) := by
  refine only_trans h0 ?_; clear h0; unfold tapBeat
  (try dsimp only)
  repeat' (first
    | with_reducible exact only_refl _ _ | assumption | with_reducible apply beatArrives_only (within_trans rfl hp)
    | with_reducible apply checkResidue_only (within_trans rfl hp)
    | with_reducible apply withRoom_only (within_trans rfl hp)
    | with_reducible apply recordError_only (within_trans rfl hp) | with_reducible apply only_ite
    | (split <;> try dsimp only) | (intro _; try dsimp only))

theorem takeBank_only {σ : State} {ps : List Part} (hp : within [.evt, .stations, .tab] ps = true) (c : Nat)
    (u : Cu) (slot : Nat) (s : State) (h0 : onlyChanges ps σ s) : onlyChanges ps σ (takeBank c u slot s) := by
  refine only_trans h0 ?_; clear h0; unfold takeBank
  (try dsimp only)
  repeat' (first
    | with_reducible exact only_refl _ _ | assumption | with_reducible apply occur_only (within_trans rfl hp)
    | with_reducible apply updCus_only (within_trans rfl hp)
    | with_reducible apply updStation_only (within_trans rfl hp) | with_reducible apply only_ite
    | (split <;> try dsimp only))

theorem takeBanks_only {ps : List Part} (hp : within [.evt, .stations, .tab] ps = true) (c : Nat) (u : Cu) : ∀
    ls {σ s : State}, onlyChanges ps σ s → onlyChanges ps σ (takeBanks c u ls s) := by
  intro ls
  induction ls with
  | nil => intro σ s h; exact h
  | cons a l ih =>
    intro σ s h0
    refine only_trans h0 ?_; clear h0; unfold takeBanks
    repeat' (first
      | with_reducible exact only_refl _ _ | with_reducible apply ih | assumption
      | with_reducible apply takeBank_only (within_trans rfl hp))

theorem startFigs_only {σ : State} {ps : List Part} (hp : within [.free, .evt, .stations, .hz, .ctxs, .led,
    .tempo, .sync, .tab, .trace, .i3c, .out] ps = true) (c : Nat) (u : Cu) (fault : Option LaneFault) (s :
    State) (h0 : onlyChanges ps σ s) : onlyChanges ps σ (startFigs c u fault s) := by
  refine only_trans h0 ?_; clear h0; unfold startFigs
  (try dsimp only)
  repeat' (first
    | with_reducible exact only_refl _ _ | assumption | with_reducible apply takeBanks_only (within_trans rfl hp)
    | with_reducible apply checkResidue_only (within_trans rfl hp)
    | with_reducible apply runFigs_only (within_trans rfl hp) | with_reducible apply only_ite
    | (split <;> try dsimp only))

theorem startGap_only {σ : State} {ps : List Part} (hp : within [.evt, .stations, .hz, .ctxs, .adj, .led,
    .tempo, .sync, .tab, .trace, .i3c, .mem, .memPoison, .out] ps = true) (c : Nat) (u : Cu) (bad : Bool) (s :
    State) (h0 : onlyChanges ps σ s) : onlyChanges ps σ (startGap c u bad s) := by
  refine only_trans h0 ?_; clear h0; unfold startGap
  repeat' (first
    | with_reducible exact only_refl _ _ | assumption | with_reducible apply gapOf_only (within_trans rfl hp)
    | with_reducible apply only_ite | (split <;> try dsimp only))

theorem waivedStart_only {σ : State} {ps : List Part} (hp : within [.evt, .stations, .hz, .ctxs, .adj, .led,
    .tempo, .sync, .tab, .trace, .i3c, .mem, .memPoison, .out] ps = true) (c : Nat) (u : Cu) (gapOpen : Bool)
    (s : State) (h0 : onlyChanges ps σ s) : onlyChanges ps σ (waivedStart c u gapOpen s) := by
  refine only_trans h0 ?_; clear h0; unfold waivedStart
  repeat' (first
    | with_reducible exact only_refl _ _ | assumption | with_reducible apply touchAll_only (within_trans rfl hp)
    | with_reducible apply only_ite)

theorem cuStarts_only {σ : State} {ps : List Part} (hp : within [.free, .evt, .stations, .hz, .ctxs, .adj,
    .led, .tempo, .sync, .tab, .trace, .i3c, .mem, .memPoison, .out] ps = true) (c start : Nat) (together :
    BitVec 4) (o : OpStart) (fault : Option LaneFault) (s : State) (h0 : onlyChanges ps σ s) : onlyChanges ps
    σ (cuStarts c start together o fault s) := by
  refine only_trans h0 ?_; clear h0; unfold cuStarts
  (try dsimp only)
  repeat' (first
    | with_reducible exact only_refl _ _ | assumption | with_reducible apply fresh_only (within_trans rfl hp)
    | with_reducible apply updStation_only (within_trans rfl hp)
    | with_reducible apply updQueue_only (within_trans rfl hp)
    | with_reducible apply startFigs_only (within_trans rfl hp)
    | with_reducible apply traceOp_only (within_trans rfl hp)
    | with_reducible apply claimFor_only (within_trans rfl hp)
    | with_reducible apply waivedStart_only (within_trans rfl hp)
    | with_reducible apply startGap_only (within_trans rfl hp) | with_reducible apply only_ite
    | (split <;> try dsimp only))

theorem copyInputs_only {σ : State} {ps : List Part} (hp : within [.stations] ps = true) (d : Nat) (use : Use)
    (s : State) (h0 : onlyChanges ps σ s) : onlyChanges ps σ (copyInputs d use s) := by
  refine only_trans h0 ?_; clear h0; unfold copyInputs
  repeat' (first
    | with_reducible exact only_refl _ _ | assumption | with_reducible apply copySources_only (within_trans rfl hp)
    | with_reducible apply only_ite | (split <;> try dsimp only))

theorem replayStarts_only {σ : State} {ps : List Part} (hp : within [.adj] ps = true) (c : Nat) (use : Use) (s
    : State) (h0 : onlyChanges ps σ s) : onlyChanges ps σ (replayStarts c use s) := by
  refine only_trans h0 ?_; clear h0; unfold replayStarts
  (try dsimp only)
  repeat' (first
    | with_reducible exact only_refl _ _ | assumption | with_reducible apply updAdj_only (within_trans rfl hp)
    | with_reducible apply only_ite | (split <;> try dsimp only))

theorem insertedStarts_only {σ : State} {ps : List Part} (hp : within [.free, .evt, .stations, .hz, .ctxs,
    .adj, .led, .tempo, .sync, .tab, .trace, .i3c, .mem, .memPoison, .out] ps = true) (c start : Nat) (o :
    OpStart) (fault : Option LaneFault) (s : State) (h0 : onlyChanges ps σ s) : onlyChanges ps σ
    (insertedStarts c start o fault s) := by
  refine only_trans h0 ?_; clear h0; unfold insertedStarts
  (try dsimp only)
  repeat' (first
    | with_reducible exact only_refl _ _ | assumption | with_reducible apply copyInputs_only (within_trans rfl hp)
    | with_reducible apply updStation_only (within_trans rfl hp)
    | with_reducible apply replayStarts_only (within_trans rfl hp)
    | with_reducible apply updQueue_only (within_trans rfl hp)
    | with_reducible apply startGap_only (within_trans rfl hp)
    | with_reducible apply startFigs_only (within_trans rfl hp)
    | with_reducible apply traceOp_only (within_trans rfl hp))

theorem opStarts_only {σ : State} {ps : List Part} (hp : within [.free, .evt, .stations, .hz, .ctxs, .adj,
    .led, .tempo, .sync, .tab, .trace, .i3c, .mem, .memPoison, .out] ps = true) (c : Nat) (stamp : Stamp) (o :
    OpStart) (fault : Option LaneFault) (s : State) (h0 : onlyChanges ps σ s) : onlyChanges ps σ (opStarts c
    stamp o fault s) := by
  refine only_trans h0 ?_; clear h0; unfold opStarts
  (try dsimp only)
  repeat' (first
    | with_reducible exact only_refl _ _ | assumption | with_reducible apply insertedStarts_only (within_trans rfl hp)
    | with_reducible apply cuStarts_only (within_trans rfl hp) | with_reducible apply only_ite)

theorem issueFails_only {σ : State} {ps : List Part} (hp : within [.evt, .stations, .tab] ps = true) (c q opid
    cause : Nat) (s : State) (h0 : onlyChanges ps σ s) : onlyChanges ps σ (issueFails c q opid cause s) := by
  refine only_trans h0 ?_; clear h0; unfold issueFails
  repeat' (first
    | with_reducible exact only_refl _ _ | assumption | with_reducible apply occur_only (within_trans rfl hp)
    | with_reducible apply updQueue_only (within_trans rfl hp) | with_reducible apply only_ite)

theorem descArrives_only {σ : State} {ps : List Part} (hp : within [.evt, .stations, .hz, .ctxs, .adj, .led,
    .tempo, .sync, .tab, .trace, .i3c, .mem, .memPoison, .out] ps = true) (c : Nat) (q : Queue) (opid : BitVec
    16) (d : OpDesc) (s : State) (h0 : onlyChanges ps σ s) : onlyChanges ps σ (descArrives c q opid d s) := by
  refine only_trans h0 ?_; clear h0; unfold descArrives
  (try dsimp only)
  repeat' (first
    | with_reducible exact only_refl _ _ | assumption | with_reducible apply gapUntied_only (within_trans rfl hp)
    | with_reducible apply gapOf_only (within_trans rfl hp)
    | with_reducible apply updStation_only (within_trans rfl hp)
    | with_reducible apply updCus_only (within_trans rfl hp)
    | with_reducible apply kitInvalid_only (within_trans rfl hp) | with_reducible apply only_ite
    | (split <;> try dsimp only))

theorem writeIsDone_only {σ : State} {ps : List Part} (hp : within [.free, .evt, .stations, .hz, .ctxs, .adj,
    .led, .tempo, .sync, .tab, .trace, .i3c, .mem, .memPoison, .out] ps = true) (c : Nat) (q : Queue) (opid :
    BitVec 16) (crc : Word) (valid : Bool) (bytes : Word) (fault : Option LaneFault) (s : State) (h0 :
    onlyChanges ps σ s) : onlyChanges ps σ (writeIsDone c q opid crc valid bytes fault s) := by
  refine only_trans h0 ?_; clear h0; unfold writeIsDone
  (try dsimp only)
  repeat' (first
    | with_reducible exact only_refl _ _ | assumption | with_reducible apply recordError_only (within_trans rfl hp)
    | with_reducible apply gapUntied_only (within_trans rfl hp)
    | with_reducible apply checkResidue_only (within_trans rfl hp)
    | with_reducible apply runFeeds_only (within_trans rfl hp) | with_reducible apply putCu_only (within_trans rfl hp)
    | with_reducible apply only_ite | (split <;> try dsimp only))

theorem feedArrives_only {σ : State} {ps : List Part} (hp : within [.evt, .stations, .hz, .ctxs, .adj, .led,
    .tempo, .sync, .tab, .trace, .i3c, .mem, .memPoison, .out] ps = true) (c : Nat) (q : Queue) (opid fed :
    BitVec 16) (role : Nat) (s : State) (h0 : onlyChanges ps σ s) : onlyChanges ps σ (feedArrives c q opid fed
    role s) := by
  refine only_trans h0 ?_; clear h0; unfold feedArrives
  (try dsimp only)
  repeat' (first
    | with_reducible exact only_refl _ _ | assumption | with_reducible apply recordError_only (within_trans rfl hp)
    | with_reducible apply gapUntied_only (within_trans rfl hp)
    | with_reducible apply updStation_only (within_trans rfl hp) | with_reducible apply only_ite
    | (split <;> try dsimp only))

theorem undefineOutput_only {σ : State} {ps : List Part} (hp : within [.free, .stations] ps = true) (c : Nat)
    (d : OpDesc) (s : State) (h0 : onlyChanges ps σ s) : onlyChanges ps σ (undefineOutput c d s) := by
  refine only_trans h0 ?_; clear h0; unfold undefineOutput
  (try dsimp only)
  repeat' (first
    | with_reducible exact only_refl _ _ | assumption | with_reducible apply fresh_only (within_trans rfl hp)
    | with_reducible apply updStation_only (within_trans rfl hp) | with_reducible apply only_ite)

theorem undefineRanges_only {ps : List Part} (hp : within [.stations] ps = true) (c n : Nat) : ∀ ls {σ s :
    State}, onlyChanges ps σ s → onlyChanges ps σ (undefineRanges c n ls s) := by
  intro ls
  induction ls with
  | nil => intro σ s h; exact h
  | cons a l ih =>
    intro σ s h0
    refine only_trans h0 ?_; clear h0; unfold undefineRanges
    repeat' (first
      | with_reducible exact only_refl _ _ | with_reducible apply ih | assumption
      | with_reducible apply updStation_only (within_trans rfl hp))

theorem undefineOutputs_only {ps : List Part} (hp : within [.free, .stations] ps = true) (c : Nat) : ∀ ls {σ s
    : State}, onlyChanges ps σ s → onlyChanges ps σ (undefineOutputs c ls s) := by
  intro ls
  induction ls with
  | nil => intro σ s h; exact h
  | cons a l ih =>
    intro σ s h0
    refine only_trans h0 ?_; clear h0; unfold undefineOutputs
    repeat' (first
      | with_reducible exact only_refl _ _ | with_reducible apply ih | assumption
      | with_reducible apply undefineOutput_only (within_trans rfl hp))

theorem undefineWritten_only {σ : State} {ps : List Part} (hp : within [.free, .stations] ps = true) (c : Nat)
    (u : Cu) (s : State) (h0 : onlyChanges ps σ s) : onlyChanges ps σ (undefineWritten c u s) := by
  refine only_trans h0 ?_; clear h0; unfold undefineWritten
  (try dsimp only)
  repeat' (first
    | with_reducible exact only_refl _ _ | assumption
    | with_reducible apply undefineOutputs_only (within_trans rfl hp)
    | with_reducible apply fresh_only (within_trans rfl hp)
    | with_reducible apply undefineRanges_only (within_trans rfl hp) | with_reducible apply only_ite
    | (split <;> try dsimp only))

theorem undefineSectors_only {ps : List Part} (hp : within [.free, .stations] ps = true)  : ∀ ls {σ s :
    State}, onlyChanges ps σ s → onlyChanges ps σ (undefineSectors  ls s) := by
  intro ls
  induction ls with
  | nil => intro σ s h; exact h
  | cons a l ih =>
    intro σ s h0
    refine only_trans h0 ?_; clear h0; unfold undefineSectors
    (try dsimp only)
    repeat' (first
      | with_reducible exact only_refl _ _ | with_reducible apply ih | assumption
      | with_reducible apply fresh_only (within_trans rfl hp)
      | with_reducible apply spadPut_only (within_trans rfl hp))

theorem abandonOp_only {σ : State} {ps : List Part} (hp : within [.free, .evt, .stations, .ctxs, .tab, .trace,
    .mem, .memPoison, .out] ps = true) (c : Nat) (u : Cu) (s : State) (h0 : onlyChanges ps σ s) : onlyChanges
    ps σ (abandonOp c u s) := by
  refine only_trans h0 ?_; clear h0; unfold abandonOp
  (try dsimp only)
  repeat' (first
    | with_reducible exact only_refl _ _ | assumption | with_reducible apply traceOp_only (within_trans rfl hp)
    | with_reducible apply skipSample_only (within_trans rfl hp)
    | with_reducible apply releaseBanks_only (within_trans rfl hp)
    | with_reducible apply updStation_only (within_trans rfl hp)
    | with_reducible apply observeStep_only (within_trans rfl hp)
    | with_reducible apply undefineSectors_only (within_trans rfl hp)
    | with_reducible apply undefineWritten_only (within_trans rfl hp) | with_reducible apply only_ite)

theorem abandonOps_only {ps : List Part} (hp : within [.free, .evt, .stations, .ctxs, .tab, .trace, .mem,
    .memPoison, .out] ps = true) (c : Nat) : ∀ ls {σ s : State}, onlyChanges ps σ s → onlyChanges ps σ
    (abandonOps c ls s) := by
  intro ls
  induction ls with
  | nil => intro σ s h; exact h
  | cons a l ih =>
    intro σ s h0
    refine only_trans h0 ?_; clear h0; unfold abandonOps
    repeat' (first
      | with_reducible exact only_refl _ _ | with_reducible apply ih | assumption
      | with_reducible apply abandonOp_only (within_trans rfl hp))

theorem abandonsDue_only {σ : State} {ps : List Part} (hp : within [.stations] ps = true) (c : Nat) (us : List
    Cu) (s : State) (h0 : onlyChanges ps σ s) : onlyChanges ps σ (abandonsDue c us s) := by
  refine only_trans h0 ?_; clear h0; unfold abandonsDue
  repeat' (first
    | with_reducible exact only_refl _ _ | assumption | with_reducible apply updStation_only (within_trans rfl hp))

theorem opAbandoned_only {σ : State} {ps : List Part} (hp : within [.free, .evt, .stations, .hz, .ctxs, .adj,
    .led, .tempo, .sync, .tab, .trace, .i3c, .mem, .memPoison, .out] ps = true) (c : Nat) (q : Queue) (opid :
    BitVec 16) (s : State) (h0 : onlyChanges ps σ s) : onlyChanges ps σ (opAbandoned c q opid s) := by
  refine only_trans h0 ?_; clear h0; unfold opAbandoned
  (try dsimp only)
  repeat' (first
    | with_reducible exact only_refl _ _ | assumption
    | with_reducible apply insertedAllLost_only (within_trans rfl hp)
    | with_reducible apply abandonOp_only (within_trans rfl hp)
    | with_reducible apply updStation_only (within_trans rfl hp)
    | with_reducible apply gapUntied_only (within_trans rfl hp) | with_reducible apply only_ite
    | (split <;> try dsimp only))

theorem countOp_only {σ : State} {ps : List Part} (hp : within [.stations] ps = true) (c retire : Nat) (o :
    OpStart) (s : State) (h0 : onlyChanges ps σ s) : onlyChanges ps σ (countOp c retire o s) := by
  refine only_trans h0 ?_; clear h0; unfold countOp
  (try dsimp only)
  repeat' (first
    | with_reducible exact only_refl _ _ | assumption | with_reducible apply updStation_only (within_trans rfl hp)
    | with_reducible apply only_ite)

theorem countExecuted_only {σ : State} {ps : List Part} (hp : within [.led] ps = true) (o : OpStart) (s :
    State) (h0 : onlyChanges ps σ s) : onlyChanges ps σ (countExecuted o s) := by
  refine only_trans h0 ?_; clear h0; unfold countExecuted
  repeat' (first
    | with_reducible exact only_refl _ _ | assumption | with_reducible apply updLed_only (within_trans rfl hp))

theorem noteStepRetire_only {σ : State} {ps : List Part} (hp : within [.ctxs] ps = true) (u : Cu) (retire :
    Nat) (s : State) (h0 : onlyChanges ps σ s) : onlyChanges ps σ (noteStepRetire u retire s) := by
  refine only_trans h0 ?_; clear h0; unfold noteStepRetire
  repeat' (first
    | with_reducible exact only_refl _ _ | assumption | with_reducible apply updCtx_only (within_trans rfl hp))

theorem capsuleRetires_only {σ : State} {ps : List Part} (hp : within [.evt, .stations, .tab, .mem,
    .memPoison] ps = true) (c : Nat) (u : Cu) (retire : Nat) (s : State) (h0 : onlyChanges ps σ s) :
    onlyChanges ps σ (capsuleRetires c u retire s) := by
  refine only_trans h0 ?_; clear h0; unfold capsuleRetires
  (try dsimp only)
  repeat' (first
    | with_reducible exact only_refl _ _ | assumption | with_reducible apply teeBegins_only (within_trans rfl hp)
    | with_reducible apply updCapsule_only (within_trans rfl hp) | with_reducible apply only_ite)

theorem enterPending_only {σ : State} {ps : List Part} (hp : within [.evt, .stations, .hz, .ctxs, .adj, .led,
    .tempo, .sync, .tab, .trace, .i3c, .mem, .memPoison, .out] ps = true) (c : Nat) (u : Cu) (s : State) (h0 :
    onlyChanges ps σ s) : onlyChanges ps σ (enterPending c u s) := by
  refine only_trans h0 ?_; clear h0; unfold enterPending
  (try dsimp only)
  repeat' (first
    | with_reducible exact only_refl _ _ | assumption | with_reducible apply updCus_only (within_trans rfl hp)
    | with_reducible apply giveVerdict_only (within_trans rfl hp) | with_reducible apply only_ite)

theorem insertedRetires_only {σ : State} {ps : List Part} (hp : within [.evt, .stations, .adj, .tab, .trace,
    .out] ps = true) (c : Nat) (u : Cu) (retire : Nat) (s : State) (h0 : onlyChanges ps σ s) : onlyChanges ps
    σ (insertedRetires c u retire s) := by
  refine only_trans h0 ?_; clear h0; unfold insertedRetires
  (try dsimp only)
  repeat' (first
    | with_reducible exact only_refl _ _ | assumption | with_reducible apply updQueue_only (within_trans rfl hp)
    | with_reducible apply releaseBanks_only (within_trans rfl hp)
    | with_reducible apply traceOp_only (within_trans rfl hp)
    | with_reducible apply updStation_only (within_trans rfl hp)
    | with_reducible apply replayEnds_only (within_trans rfl hp)
    | with_reducible apply execEnds_only (within_trans rfl hp) | with_reducible apply only_ite
    | (split <;> try dsimp only))

theorem cuRetires_only {σ : State} {ps : List Part} (hp : within [.evt, .stations, .hz, .ctxs, .adj, .led,
    .tempo, .sync, .tab, .trace, .i3c, .mem, .memPoison, .out] ps = true) (c : Nat) (u : Cu) (retire : Nat) (s
    : State) (h0 : onlyChanges ps σ s) : onlyChanges ps σ (cuRetires c u retire s) := by
  refine only_trans h0 ?_; clear h0; unfold cuRetires
  (try dsimp only)
  repeat' (first
    | with_reducible exact only_refl _ _ | assumption | with_reducible apply countExecuted_only (within_trans rfl hp)
    | with_reducible apply countOp_only (within_trans rfl hp)
    | with_reducible apply noteStepRetire_only (within_trans rfl hp)
    | with_reducible apply capsuleRetires_only (within_trans rfl hp)
    | with_reducible apply updCus_only (within_trans rfl hp)
    | with_reducible apply updQueue_only (within_trans rfl hp)
    | with_reducible apply observeStep_only (within_trans rfl hp)
    | with_reducible apply traceOp_only (within_trans rfl hp)
    | with_reducible apply enterPending_only (within_trans rfl hp) | with_reducible apply only_ite
    | (split <;> try dsimp only))

theorem opRetires_only {σ : State} {ps : List Part} (hp : within [.free, .evt, .stations, .hz, .ctxs, .adj,
    .led, .tempo, .sync, .tab, .trace, .i3c, .mem, .memPoison, .out] ps = true) (c : Nat) (q : Queue) (opid :
    BitVec 16) (retire sectors : Nat) (fault : Option LaneFault) (s : State) (h0 : onlyChanges ps σ s) :
    onlyChanges ps σ (opRetires c q opid retire sectors fault s) := by
  refine only_trans h0 ?_; clear h0; unfold opRetires
  (try dsimp only)
  repeat' (first
    | with_reducible exact only_refl _ _ | assumption | with_reducible apply gapUntied_only (within_trans rfl hp)
    | with_reducible apply gapOf_only (within_trans rfl hp)
    | with_reducible apply checkResidue_only (within_trans rfl hp)
    | with_reducible apply runFigs_only (within_trans rfl hp)
    | with_reducible apply insertedRetires_only (within_trans rfl hp)
    | with_reducible apply cuRetires_only (within_trans rfl hp) | with_reducible apply only_ite
    | (split <;> try dsimp only))

theorem abandonWriter_only {σ : State} {ps : List Part} (hp : within [.free, .evt, .stations, .hz, .ctxs,
    .adj, .led, .tempo, .sync, .tab, .trace, .i3c, .mem, .memPoison, .out] ps = true) (srcChip : ChipId) (src
    : Nat) (opid : BitVec 16) (s : State) (h0 : onlyChanges ps σ s) : onlyChanges ps σ (abandonWriter srcChip
    src opid s) := by
  refine only_trans h0 ?_; clear h0; unfold abandonWriter
  repeat' (first
    | with_reducible exact only_refl _ _ | assumption | with_reducible apply abandonsDue_only (within_trans rfl hp)
    | with_reducible apply insertedAllLost_only (within_trans rfl hp)
    | with_reducible apply abandonOp_only (within_trans rfl hp) | with_reducible apply only_ite
    | (split <;> try dsimp only))

theorem noteWrote_only {σ : State} {ps : List Part} (hp : within [.stations] ps = true) (c : Nat) (w :
    InbWrite) (s : State) (h0 : onlyChanges ps σ s) : onlyChanges ps σ (noteWrote c w s) := by
  refine only_trans h0 ?_; clear h0; unfold noteWrote
  repeat' (first
    | with_reducible exact only_refl _ _ | assumption | with_reducible apply updCus_only (within_trans rfl hp)
    | with_reducible apply only_ite)

theorem inbSector_only {σ : State} {ps : List Part} (hp : within [.free, .evt, .stations, .hz, .ctxs, .adj,
    .led, .tempo, .sync, .tab, .trace, .i3c, .mem, .memPoison, .out] ps = true) (c : Nat) (callerMover : Bool)
    (w : InbWrite) (s : State) (h0 : onlyChanges ps σ s) : onlyChanges ps σ (inbSector c callerMover w s) := by
  refine only_trans h0 ?_; clear h0; unfold inbSector
  (try dsimp only)
  repeat' (first
    | with_reducible exact only_refl _ _ | assumption | with_reducible apply abandonWriter_only (within_trans rfl hp)
    | with_reducible apply updOut_only (within_trans rfl hp)
    | with_reducible apply noteWrote_only (within_trans rfl hp)
    | with_reducible apply updStation_only (within_trans rfl hp)
    | with_reducible apply landSector_only (within_trans rfl hp)
    | with_reducible apply updReh_only (within_trans rfl hp) | with_reducible apply only_ite
    | (split <;> try dsimp only))

theorem inbSectors_only {ps : List Part} (hp : within [.free, .evt, .stations, .hz, .ctxs, .adj, .led, .tempo,
    .sync, .tab, .trace, .i3c, .mem, .memPoison, .out] ps = true) (c : Nat) (callerMover : Bool) : ∀ ls {σ s :
    State}, onlyChanges ps σ s → onlyChanges ps σ (inbSectors c callerMover ls s) := by
  intro ls
  induction ls with
  | nil => intro σ s h; exact h
  | cons a l ih =>
    intro σ s h0
    refine only_trans h0 ?_; clear h0; unfold inbSectors
    repeat' (first
      | with_reducible exact only_refl _ _ | with_reducible apply ih | assumption
      | with_reducible apply inbSector_only (within_trans rfl hp))

theorem inbMirror_only {σ : State} {ps : List Part} (hp : within [.evt, .stations, .hz, .ctxs, .led, .tempo,
    .sync, .tab, .trace, .i3c, .out] ps = true) (c : Nat) (lanes : List Lane) (fill : Nat) (s : State) (h0 :
    onlyChanges ps σ s) : onlyChanges ps σ (inbMirror c lanes fill s) := by
  refine only_trans h0 ?_; clear h0; unfold inbMirror
  (try dsimp only)
  repeat' (first
    | with_reducible exact only_refl _ _ | assumption | with_reducible apply overflowFault_only (within_trans rfl hp)
    | with_reducible apply recordGap_only (within_trans rfl hp)
    | with_reducible apply notePeak_only (within_trans rfl hp) | with_reducible apply only_ite)

theorem inbArrives_only {σ : State} {ps : List Part} (hp : within [.free, .evt, .stations, .hz, .ctxs, .adj,
    .led, .tempo, .sync, .tab, .trace, .i3c, .mem, .memPoison, .out] ps = true) (c : Nat) (addr : BitVec 21)
    (srcChip : ChipId) (srcCore : Core) (srcOpid : BitVec 16) (lanes : List Lane) (fill : Nat) (callerMover :
    Bool) (s : State) (h0 : onlyChanges ps σ s) : onlyChanges ps σ (inbArrives c addr srcChip srcCore srcOpid
    lanes fill callerMover s) := by
  refine only_trans h0 ?_; clear h0; unfold inbArrives
  (try dsimp only)
  repeat' (first
    | with_reducible exact only_refl _ _ | assumption | with_reducible apply inbSectors_only (within_trans rfl hp)
    | with_reducible apply inbMirror_only (within_trans rfl hp))

theorem tapOffered_only {σ : State} {ps : List Part} (hp : within [.evt, .stations, .hz, .ctxs, .led, .tempo,
    .sync, .tab, .trace, .i3c, .out] ps = true) (c : Nat) (mask : Byte) (s : State) (h0 : onlyChanges ps σ s)
    : onlyChanges ps σ (tapOffered c mask s) := by
  refine only_trans h0 ?_; clear h0; unfold tapOffered
  (try dsimp only)
  repeat' (first
    | with_reducible exact only_refl _ _ | assumption | with_reducible apply updStation_only (within_trans rfl hp)
    | with_reducible apply occur_only (within_trans rfl hp)
    | with_reducible apply epochTaken_only (within_trans rfl hp)
    | with_reducible apply suspect_only (within_trans rfl hp) | with_reducible apply only_ite)

theorem tapIsReady_only {σ : State} {ps : List Part} (hp : within [.stations] ps = true) (c : Nat) (s : State)
    (h0 : onlyChanges ps σ s) : onlyChanges ps σ (tapIsReady c s) := by
  refine only_trans h0 ?_; clear h0; unfold tapIsReady
  repeat' (first
    | with_reducible exact only_refl _ _ | assumption | with_reducible apply updStation_only (within_trans rfl hp)
    | with_reducible apply only_ite)

theorem execTapOffer_only (t : Nat) (core : Core) (mask : Byte) (s : State) : ∃ s', execTapOffer t core mask s
    = .next s' ∧ onlyChanges [.now, .evt, .stations, .hz, .ctxs, .led, .tempo, .sync, .tab, .trace, .i3c,
    .out] s s' := by
  refine ⟨_, rfl, ?_⟩
  have hp : within [.now, .evt, .stations, .hz, .ctxs, .led, .tempo, .sync, .tab, .trace, .i3c, .out] [.now, .evt, .stations, .hz, .ctxs, .led, .tempo, .sync, .tab, .trace, .i3c, .out] = true := rfl
  repeat' (first
    | with_reducible exact only_refl _ _ | assumption | with_reducible apply tapOffered_only (within_trans rfl hp)
    | with_reducible apply atTime_only (within_trans rfl hp))

theorem execTapReady_only (t : Nat) (core : Core) (s : State) : ∃ s', execTapReady t core s = .next s' ∧
    onlyChanges [.now, .stations] s s' := by
  refine ⟨_, rfl, ?_⟩
  have hp : within [.now, .stations] [.now, .stations] = true := rfl
  repeat' (first
    | with_reducible exact only_refl _ _ | assumption | with_reducible apply tapIsReady_only (within_trans rfl hp)
    | with_reducible apply atTime_only (within_trans rfl hp))

theorem execIssueFail_only (t : Nat) (core : Core) (queue : Queue) (opid : BitVec 16) (cause : BitVec 4) (s :
    State) : ∃ s', execIssueFail t core queue opid cause s = .next s' ∧ onlyChanges [.now, .evt, .stations,
    .tab] s s' := by
  refine ⟨_, rfl, ?_⟩
  have hp : within [.now, .evt, .stations, .tab] [.now, .evt, .stations, .tab] = true := rfl
  repeat' (first
    | with_reducible exact only_refl _ _ | assumption | with_reducible apply issueFails_only (within_trans rfl hp)
    | with_reducible apply atTime_only (within_trans rfl hp))

theorem execOpStart_only (t : Nat) (tap : FaultIntake) (start : Stamp) (rec : OpStart) (s : State) : ∃ s',
    execOpStart t tap start rec s = .next s' ∧ onlyChanges [.now, .free, .evt, .stations, .hz, .ctxs, .adj,
    .led, .tempo, .sync, .tab, .trace, .i3c, .mem, .memPoison, .out] s s' := by
  refine ⟨_, rfl, ?_⟩
  have hp : within [.now, .free, .evt, .stations, .hz, .ctxs, .adj, .led, .tempo, .sync, .tab, .trace, .i3c, .mem, .memPoison, .out] [.now, .free, .evt, .stations, .hz, .ctxs, .adj, .led, .tempo, .sync, .tab, .trace, .i3c, .mem, .memPoison, .out] = true := rfl
  repeat' (first
    | with_reducible exact only_refl _ _ | assumption | with_reducible apply withRoom_only (within_trans rfl hp)
    | with_reducible apply opStarts_only (within_trans rfl hp)
    | with_reducible apply atTime_only (within_trans rfl hp) | with_reducible apply only_ite
    | (intro _; try dsimp only))

theorem execOpdesc_only (t : Nat) (tap : Intake) (queue : Queue) (opid : BitVec 16) (d : OpDesc) (s : State) :
    ∃ s', execOpdesc t tap queue opid d s = .next s' ∧ onlyChanges [.now, .evt, .stations, .hz, .ctxs, .adj,
    .led, .tempo, .sync, .tab, .trace, .i3c, .mem, .memPoison, .out] s s' := by
  refine ⟨_, rfl, ?_⟩
  have hp : within [.now, .evt, .stations, .hz, .ctxs, .adj, .led, .tempo, .sync, .tab, .trace, .i3c, .mem, .memPoison, .out] [.now, .evt, .stations, .hz, .ctxs, .adj, .led, .tempo, .sync, .tab, .trace, .i3c, .mem, .memPoison, .out] = true := rfl
  repeat' (first
    | with_reducible exact only_refl _ _ | assumption | with_reducible apply withRoom_only (within_trans rfl hp)
    | with_reducible apply descArrives_only (within_trans rfl hp)
    | with_reducible apply atTime_only (within_trans rfl hp) | with_reducible apply only_ite
    | (intro _; try dsimp only))

theorem execTapDataBeat_only (t : Nat) (core : Core) (port : Fin 6) (arrival : TapIn) (fill : Nat) (fault :
    Option LaneFault) (teeLost : Bool) (s : State) : ∃ s', execTapDataBeat t core port arrival fill fault
    teeLost s = .next s' ∧ onlyChanges [.now, .free, .evt, .stations, .hz, .ctxs, .adj, .led, .tempo, .sync,
    .tab, .trace, .i3c, .mem, .memPoison, .out] s s' := by
  refine ⟨_, rfl, ?_⟩
  have hp : within [.now, .free, .evt, .stations, .hz, .ctxs, .adj, .led, .tempo, .sync, .tab, .trace, .i3c, .mem, .memPoison, .out] [.now, .free, .evt, .stations, .hz, .ctxs, .adj, .led, .tempo, .sync, .tab, .trace, .i3c, .mem, .memPoison, .out] = true := rfl
  repeat' (first
    | with_reducible exact only_refl _ _ | assumption | with_reducible apply tapBeat_only (within_trans rfl hp)
    | with_reducible apply atTime_only (within_trans rfl hp))

theorem execInbBeat_only (t : Nat) (tap : Intake) (addr : BitVec 21) (srcChip : ChipId) (srcCore : Core)
    (srcOpid : BitVec 16) (lanes : List Lane) (callerMover : Bool) (s : State) : ∃ s', execInbBeat t tap addr
    srcChip srcCore srcOpid lanes callerMover s = .next s' ∧ onlyChanges [.now, .free, .evt, .stations, .hz,
    .ctxs, .adj, .led, .tempo, .sync, .tab, .trace, .i3c, .mem, .memPoison, .out] s s' := by
  refine ⟨_, rfl, ?_⟩
  have hp : within [.now, .free, .evt, .stations, .hz, .ctxs, .adj, .led, .tempo, .sync, .tab, .trace, .i3c, .mem, .memPoison, .out] [.now, .free, .evt, .stations, .hz, .ctxs, .adj, .led, .tempo, .sync, .tab, .trace, .i3c, .mem, .memPoison, .out] = true := rfl
  repeat' (first
    | with_reducible exact only_refl _ _ | assumption | with_reducible apply inbArrives_only (within_trans rfl hp)
    | with_reducible apply atTime_only (within_trans rfl hp))

theorem execOpRetire_only (t : Nat) (tap : FaultIntake) (queue : Queue) (opid : BitVec 16) (retire : Nat)
    (sectors : Word) (poisoned : BitVec 16) (s : State) : ∃ s', execOpRetire t tap queue opid retire sectors
    poisoned s = .next s' ∧ onlyChanges [.now, .free, .evt, .stations, .hz, .ctxs, .adj, .led, .tempo, .sync,
    .tab, .trace, .i3c, .mem, .memPoison, .out] s s' := by
  refine ⟨_, rfl, ?_⟩
  have hp : within [.now, .free, .evt, .stations, .hz, .ctxs, .adj, .led, .tempo, .sync, .tab, .trace, .i3c, .mem, .memPoison, .out] [.now, .free, .evt, .stations, .hz, .ctxs, .adj, .led, .tempo, .sync, .tab, .trace, .i3c, .mem, .memPoison, .out] = true := rfl
  repeat' (first
    | with_reducible exact only_refl _ _ | assumption | with_reducible apply withRoom_only (within_trans rfl hp)
    | with_reducible apply opRetires_only (within_trans rfl hp)
    | with_reducible apply atTime_only (within_trans rfl hp) | with_reducible apply only_ite
    | (intro _; try dsimp only))

theorem execOpAbandon_only (t : Nat) (tap : Intake) (queue : Queue) (opid : BitVec 16) (cause : Byte) (s :
    State) : ∃ s', execOpAbandon t tap queue opid cause s = .next s' ∧ onlyChanges [.now, .free, .evt,
    .stations, .hz, .ctxs, .adj, .led, .tempo, .sync, .tab, .trace, .i3c, .mem, .memPoison, .out] s s' := by
  refine ⟨_, rfl, ?_⟩
  have hp : within [.now, .free, .evt, .stations, .hz, .ctxs, .adj, .led, .tempo, .sync, .tab, .trace, .i3c, .mem, .memPoison, .out] [.now, .free, .evt, .stations, .hz, .ctxs, .adj, .led, .tempo, .sync, .tab, .trace, .i3c, .mem, .memPoison, .out] = true := rfl
  repeat' (first
    | with_reducible exact only_refl _ _ | assumption | with_reducible apply withRoom_only (within_trans rfl hp)
    | with_reducible apply opAbandoned_only (within_trans rfl hp)
    | with_reducible apply atTime_only (within_trans rfl hp) | with_reducible apply only_ite
    | (intro _; try dsimp only))

theorem execWriteDone_only (t : Nat) (tap : FaultIntake) (queue : Queue) (opid : BitVec 16) (crc : Word)
    (valid : Bool) (bytes : Word) (s : State) : ∃ s', execWriteDone t tap queue opid crc valid bytes s = .next
    s' ∧ onlyChanges [.now, .free, .evt, .stations, .hz, .ctxs, .adj, .led, .tempo, .sync, .tab, .trace, .i3c,
    .mem, .memPoison, .out] s s' := by
  refine ⟨_, rfl, ?_⟩
  have hp : within [.now, .free, .evt, .stations, .hz, .ctxs, .adj, .led, .tempo, .sync, .tab, .trace, .i3c, .mem, .memPoison, .out] [.now, .free, .evt, .stations, .hz, .ctxs, .adj, .led, .tempo, .sync, .tab, .trace, .i3c, .mem, .memPoison, .out] = true := rfl
  repeat' (first
    | with_reducible exact only_refl _ _ | assumption | with_reducible apply withRoom_only (within_trans rfl hp)
    | with_reducible apply writeIsDone_only (within_trans rfl hp)
    | with_reducible apply atTime_only (within_trans rfl hp) | with_reducible apply only_ite
    | (intro _; try dsimp only))

theorem execFeed_only (t : Nat) (tap : Intake) (queue : Queue) (opid fed : BitVec 16) (role : Byte) (s :
    State) : ∃ s', execFeed t tap queue opid fed role s = .next s' ∧ onlyChanges [.now, .evt, .stations, .hz,
    .ctxs, .adj, .led, .tempo, .sync, .tab, .trace, .i3c, .mem, .memPoison, .out] s s' := by
  refine ⟨_, rfl, ?_⟩
  have hp : within [.now, .evt, .stations, .hz, .ctxs, .adj, .led, .tempo, .sync, .tab, .trace, .i3c, .mem, .memPoison, .out] [.now, .evt, .stations, .hz, .ctxs, .adj, .led, .tempo, .sync, .tab, .trace, .i3c, .mem, .memPoison, .out] = true := rfl
  repeat' (first
    | with_reducible exact only_refl _ _ | assumption | with_reducible apply withRoom_only (within_trans rfl hp)
    | with_reducible apply feedArrives_only (within_trans rfl hp)
    | with_reducible apply atTime_only (within_trans rfl hp) | with_reducible apply only_ite
    | (intro _; try dsimp only))

end Sys2Proof.Laws
end

