-- ==== Sys2Proof/Laws/FrameLadder.lean ====
section
/-! SUPPORT. The frame of every operation and meaning of the ladder, charters, the fabric, bring-up and egress: one lemma each, from those of the operations it calls. -/

namespace Sys2Proof.Laws

open Sys2Proof Sys2Proof.Machine Sys2Proof.Safety

theorem updLevel_only {σ : State} {ps : List Part} (hp : within [.rst] ps = true) (seq : Word) (f : Level →
    Level) (s : State) (h0 : onlyChanges ps σ s) : onlyChanges ps σ (updLevel seq f s) := by
  refine only_trans h0 ?_; clear h0; unfold updLevel
  repeat' (first
    | with_reducible exact only_refl _ _ | assumption | with_reducible apply updRst_only (within_trans rfl hp))

theorem endLevel_only {σ : State} {ps : List Part} (hp : within [.rst] ps = true) (seq : Word) (phase : Nat)
    (s : State) (h0 : onlyChanges ps σ s) : onlyChanges ps σ (endLevel seq phase s) := by
  refine only_trans h0 ?_; clear h0; unfold endLevel
  (try dsimp only)
  repeat' (first
    | with_reducible exact only_refl _ _ | assumption | with_reducible apply updLevel_only (within_trans rfl hp)
    | with_reducible apply updRst_only (within_trans rfl hp))

theorem sendNotice_only {σ : State} {ps : List Part} (hp : within [.i3c, .out] ps = true) (bytes : List Byte)
    (s : State) (h0 : onlyChanges ps σ s) : onlyChanges ps σ (sendNotice bytes s) := by
  refine only_trans h0 ?_; clear h0; unfold sendNotice
  repeat' (first
    | with_reducible exact only_refl _ _ | assumption | with_reducible apply oobAdd_only (within_trans rfl hp)
    | with_reducible apply sendMgmt_only (within_trans rfl hp))

theorem sendWithdraw_only {σ : State} {ps : List Part} (hp : within [.rst, .i3c, .out] ps = true) (late :
    Bool) (l : Level) (s : State) (h0 : onlyChanges ps σ s) : onlyChanges ps σ (sendWithdraw late l s) := by
  refine only_trans h0 ?_; clear h0; unfold sendWithdraw
  repeat' (first
    | with_reducible exact only_refl _ _ | assumption | with_reducible apply updRst_only (within_trans rfl hp)
    | with_reducible apply sendNotice_only (within_trans rfl hp))

theorem containFor_only {ps : List Part} (hp : within [.evt, .hz, .ctxs, .tab] ps = true) (seq : Word) (tc :
    Nat) : ∀ ls {σ s : State}, onlyChanges ps σ s → onlyChanges ps σ (containFor seq tc ls s) := by
  intro ls
  induction ls with
  | nil => intro σ s h; exact h
  | cons a l ih =>
    intro σ s h0
    refine only_trans h0 ?_; clear h0; unfold containFor
    repeat' (first
      | with_reducible exact only_refl _ _ | with_reducible apply ih | assumption
      | with_reducible apply openAtUnsealed_only (within_trans rfl hp)
      | with_reducible apply contain_only (within_trans rfl hp))

theorem countStart_only {σ : State} {ps : List Part} (hp : within [.rst] ps = true) (l : Level) (s : State)
    (h0 : onlyChanges ps σ s) : onlyChanges ps σ (countStart l s) := by
  refine only_trans h0 ?_; clear h0; unfold countStart
  (try dsimp only)
  repeat' (first
    | with_reducible exact only_refl _ _ | assumption | with_reducible apply updRst_only (within_trans rfl hp)
    | with_reducible apply updLevel_only (within_trans rfl hp) | with_reducible apply only_ite)

theorem absorb_only {σ : State} {ps : List Part} (hp : within [.rst] ps = true) (cause : Nat) (s : State) (h0
    : onlyChanges ps σ s) : onlyChanges ps σ (absorb cause s) := by
  refine only_trans h0 ?_; clear h0; unfold absorb
  repeat' (first
    | with_reducible exact only_refl _ _ | assumption | with_reducible apply updRst_only (within_trans rfl hp))

theorem startLevel_only {σ : State} {ps : List Part} (hp : within [.evt, .crash, .hz, .ctxs, .rst, .tab, .i3c,
    .out] ps = true) (x : Scope) (counted : Bool) (s : State) (h0 : onlyChanges ps σ s) : onlyChanges ps σ
    (startLevel x counted s) := by
  refine only_trans h0 ?_; clear h0; unfold startLevel
  (try dsimp only)
  repeat' (first
    | with_reducible exact only_refl _ _ | assumption | with_reducible apply updRst_only (within_trans rfl hp)
    | with_reducible apply countStart_only (within_trans rfl hp)
    | with_reducible apply msix_only (within_trans rfl hp) | with_reducible apply occurEv_only (within_trans rfl hp)
    | with_reducible apply capture_only (within_trans rfl hp)
    | with_reducible apply sendWithdraw_only (within_trans rfl hp)
    | with_reducible apply containFor_only (within_trans rfl hp) | with_reducible apply only_ite)

theorem startReset_only {σ : State} {ps : List Part} (hp : within [.evt, .crash, .hz, .ctxs, .rst, .tab, .i3c,
    .out] ps = true) (x : Scope) (s : State) (h0 : onlyChanges ps σ s) : onlyChanges ps σ (startReset x s) := by
  refine only_trans h0 ?_; clear h0; unfold startReset
  repeat' (first
    | with_reducible exact only_refl _ _ | assumption | with_reducible apply updRst_only (within_trans rfl hp)
    | with_reducible apply absorb_only (within_trans rfl hp)
    | with_reducible apply startLevel_only (within_trans rfl hp) | with_reducible apply only_ite)

theorem startFault_only {σ : State} {ps : List Part} (hp : within [.evt, .crash, .hz, .ctxs, .rst, .tab, .i3c,
    .out] ps = true) (x : Scope) (s : State) (h0 : onlyChanges ps σ s) : onlyChanges ps σ (startFault x s) := by
  refine only_trans h0 ?_; clear h0; unfold startFault
  repeat' (first
    | with_reducible exact only_refl _ _ | assumption | with_reducible apply startReset_only (within_trans rfl hp))

theorem startWaiting_only {ps : List Part} (hp : within [.evt, .crash, .hz, .ctxs, .rst, .tab, .i3c, .out] ps
    = true)  : ∀ ls {σ s : State}, onlyChanges ps σ s → onlyChanges ps σ (startWaiting  ls s) := by
  intro ls
  induction ls with
  | nil => intro σ s h; exact h
  | cons a l ih =>
    intro σ s h0
    refine only_trans h0 ?_; clear h0; unfold startWaiting
    repeat' (first
      | with_reducible exact only_refl _ _ | with_reducible apply ih | assumption
      | with_reducible apply startReset_only (within_trans rfl hp))

theorem markMissed_only {σ : State} {ps : List Part} (hp : within [.stations] ps = true) (c q : Nat) (opid :
    BitVec 16) (s : State) (h0 : onlyChanges ps σ s) : onlyChanges ps σ (markMissed c q opid s) := by
  refine only_trans h0 ?_; clear h0; unfold markMissed
  repeat' (first
    | with_reducible exact only_refl _ _ | assumption | with_reducible apply updQueue_only (within_trans rfl hp)
    | with_reducible apply updCus_only (within_trans rfl hp))

theorem deadlineMissed_only {σ : State} {ps : List Part} (hp : within [.evt, .crash, .stations, .hz, .ctxs,
    .rst, .tab, .i3c, .out] ps = true) (c q : Nat) (s : State) (h0 : onlyChanges ps σ s) : onlyChanges ps σ
    (deadlineMissed c q s) := by
  refine only_trans h0 ?_; clear h0; unfold deadlineMissed
  (try dsimp only)
  repeat' (first
    | with_reducible exact only_refl _ _ | assumption | with_reducible apply markMissed_only (within_trans rfl hp)
    | with_reducible apply occurEv_only (within_trans rfl hp)
    | with_reducible apply startReset_only (within_trans rfl hp)
    | with_reducible apply capture_only (within_trans rfl hp) | with_reducible apply only_ite
    | (split <;> try dsimp only))

theorem cancelSlot_only {σ : State} {ps : List Part} (hp : within [.evt, .stations, .sync, .tab, .trace, .out]
    ps = true) (c w : Nat) (s : State) (h0 : onlyChanges ps σ s) : onlyChanges ps σ (cancelSlot c w s) := by
  refine only_trans h0 ?_; clear h0; unfold cancelSlot
  (try dsimp only)
  repeat' (first
    | with_reducible exact only_refl _ _ | assumption | with_reducible apply freeWatch_only (within_trans rfl hp)
    | with_reducible apply updQueue_only (within_trans rfl hp)
    | with_reducible apply updBarrier_only (within_trans rfl hp)
    | with_reducible apply sendCancel_only (within_trans rfl hp) | with_reducible apply only_ite
    | (split <;> try dsimp only))

theorem cancelSlots_only {ps : List Part} (hp : within [.evt, .stations, .sync, .tab, .trace, .out] ps = true)
    (c : Nat) : ∀ ls {σ s : State}, onlyChanges ps σ s → onlyChanges ps σ (cancelSlots c ls s) := by
  intro ls
  induction ls with
  | nil => intro σ s h; exact h
  | cons a l ih =>
    intro σ s h0
    refine only_trans h0 ?_; clear h0; unfold cancelSlots
    repeat' (first
      | with_reducible exact only_refl _ _ | with_reducible apply ih | assumption
      | with_reducible apply cancelSlot_only (within_trans rfl hp))

theorem dropSubs_only {σ : State} {ps : List Part} (hp : within [.evt, .stations, .hz, .sync, .tab, .trace,
    .out] ps = true) (level o : Nat) (s : State) (h0 : onlyChanges ps σ s) : onlyChanges ps σ (dropSubs level
    o s) := by
  refine only_trans h0 ?_; clear h0; unfold dropSubs
  (try dsimp only)
  repeat' (first
    | with_reducible exact only_refl _ _ | assumption | with_reducible apply sendReleases_only (within_trans rfl hp)
    | with_reducible apply updObject_only (within_trans rfl hp))

theorem dropAllSubs_only {ps : List Part} (hp : within [.evt, .stations, .hz, .sync, .tab, .trace, .out] ps =
    true) (level : Nat) : ∀ ls {σ s : State}, onlyChanges ps σ s → onlyChanges ps σ (dropAllSubs level ls s) := by
  intro ls
  induction ls with
  | nil => intro σ s h; exact h
  | cons a l ih =>
    intro σ s h0
    refine only_trans h0 ?_; clear h0; unfold dropAllSubs
    repeat' (first
      | with_reducible exact only_refl _ _ | with_reducible apply ih | assumption
      | with_reducible apply dropSubs_only (within_trans rfl hp))

theorem drainSources_only {ps : List Part} (hp : within [.evt, .stations, .hz, .ctxs, .sync, .tab, .trace,
    .out] ps = true)  : ∀ ls {σ s : State}, onlyChanges ps σ s → onlyChanges ps σ (drainSources  ls s) := by
  intro ls
  induction ls with
  | nil => intro σ s h; exact h
  | cons a l ih =>
    intro σ s h0
    refine only_trans h0 ?_; clear h0; unfold drainSources
    repeat' (first
      | with_reducible exact only_refl _ _ | with_reducible apply ih | assumption
      | with_reducible apply drainArrival_only (within_trans rfl hp))

theorem dropHeld_only {σ : State} {ps : List Part} (hp : within [.evt, .stations, .hz, .ctxs, .sync, .tab,
    .trace, .out] ps = true) (os : List Nat) (s : State) (h0 : onlyChanges ps σ s) : onlyChanges ps σ
    (dropHeld os s) := by
  refine only_trans h0 ?_; clear h0; unfold dropHeld
  (try dsimp only)
  repeat' (first
    | with_reducible exact only_refl _ _ | assumption | with_reducible apply drainSources_only (within_trans rfl hp)
    | with_reducible apply updArrival_only (within_trans rfl hp) | with_reducible apply only_ite
    | (with_reducible apply only_foldl; (intro _ _; try dsimp only)))

theorem dropBank_only {σ : State} {ps : List Part} (hp : within [.evt, .stations, .hz, .ctxs, .sync, .tab,
    .trace, .out] ps = true) (l : Level) (c : Nat) (mid : State → State) (s : State) (hmid : ∀  {σ s : State},
    onlyChanges ps σ s → onlyChanges ps σ (mid  s)) (h0 : onlyChanges ps σ s) : onlyChanges ps σ (dropBank l c
    mid s) := by
  refine only_trans h0 ?_; clear h0; unfold dropBank
  (try dsimp only)
  repeat' (first
    | with_reducible exact only_refl _ _ | assumption | with_reducible apply dropHeld_only (within_trans rfl hp)
    | with_reducible apply dropAllSubs_only (within_trans rfl hp)
    | with_reducible apply occur_only (within_trans rfl hp) | with_reducible apply hmid
    | with_reducible apply only_ite)

theorem quiesceCore_only {σ : State} {ps : List Part} (hp : within [.evt, .stations, .hz, .ctxs, .sync, .tab,
    .trace, .out] ps = true) (l : Level) (c : Nat) (s : State) (h0 : onlyChanges ps σ s) : onlyChanges ps σ
    (quiesceCore l c s) := by
  refine only_trans h0 ?_; clear h0; unfold quiesceCore
  repeat' (first
    | with_reducible exact only_refl _ _ | assumption | with_reducible apply dropBank_only (within_trans rfl hp)
    | with_reducible apply cancelSlots_only (within_trans rfl hp) | with_reducible apply only_ite
    | (intro _; try dsimp only))

theorem quiesceCores_only {ps : List Part} (hp : within [.evt, .stations, .hz, .ctxs, .sync, .tab, .trace,
    .out] ps = true) (l : Level) : ∀ ls {σ s : State}, onlyChanges ps σ s → onlyChanges ps σ (quiesceCores l
    ls s) := by
  intro ls
  induction ls with
  | nil => intro σ s h; exact h
  | cons a l ih =>
    intro σ s h0
    refine only_trans h0 ?_; clear h0; unfold quiesceCores
    repeat' (first
      | with_reducible exact only_refl _ _ | with_reducible apply ih | assumption
      | with_reducible apply quiesceCore_only (within_trans rfl hp))

theorem recordContained_only {ps : List Part} (hp : within [.evt, .hz, .tab] ps = true) (seq : Word) : ∀ ls {σ
    s : State}, onlyChanges ps σ s → onlyChanges ps σ (recordContained seq ls s) := by
  intro ls
  induction ls with
  | nil => intro σ s h; exact h
  | cons a l ih =>
    intro σ s h0
    refine only_trans h0 ?_; clear h0; unfold recordContained
    (try dsimp only)
    repeat' (first
      | with_reducible exact only_refl _ _ | with_reducible apply ih | assumption
      | with_reducible apply updContainment_only (within_trans rfl hp)
      | with_reducible apply occur_only (within_trans rfl hp))

theorem containAcked_only {σ : State} {ps : List Part} (hp : within [.evt, .stations, .hz, .ctxs, .sync, .rst,
    .tab, .trace, .out] ps = true) (seq : Word) (s : State) (h0 : onlyChanges ps σ s) : onlyChanges ps σ
    (containAcked seq s) := by
  refine only_trans h0 ?_; clear h0; unfold containAcked
  (try dsimp only)
  repeat' (first
    | with_reducible exact only_refl _ _ | assumption
    | with_reducible apply recordContained_only (within_trans rfl hp)
    | with_reducible apply updRst_only (within_trans rfl hp)
    | with_reducible apply quiesceCores_only (within_trans rfl hp)
    | with_reducible apply breakBarriers_only (within_trans rfl hp)
    | with_reducible apply endAll_only (within_trans rfl hp)
    | with_reducible apply updLevel_only (within_trans rfl hp) | with_reducible apply only_ite
    | (split <;> try dsimp only))

theorem resetObjects_only {ps : List Part} (hp : within [.sync] ps = true)  : ∀ ls {σ s : State}, onlyChanges
    ps σ s → onlyChanges ps σ (resetObjects  ls s) := by
  intro ls
  induction ls with
  | nil => intro σ s h; exact h
  | cons a l ih =>
    intro σ s h0
    refine only_trans h0 ?_; clear h0; unfold resetObjects
    repeat' (first
      | with_reducible exact only_refl _ _ | with_reducible apply ih | assumption
      | with_reducible apply updObject_only (within_trans rfl hp))

theorem haltQueues_only {ps : List Part} (hp : within [.stations] ps = true) (c : Nat) : ∀ ls {σ s : State},
    onlyChanges ps σ s → onlyChanges ps σ (haltQueues c ls s) := by
  intro ls
  induction ls with
  | nil => intro σ s h; exact h
  | cons a l ih =>
    intro σ s h0
    refine only_trans h0 ?_; clear h0; unfold haltQueues
    repeat' (first
      | with_reducible exact only_refl _ _ | with_reducible apply ih | assumption
      | with_reducible apply updStation_only (within_trans rfl hp)
      | with_reducible apply updQueue_only (within_trans rfl hp))

theorem loseStop_only {σ : State} {ps : List Part} (hp : within [.stations, .adj] ps = true) (c : Nat) (s :
    State) (h0 : onlyChanges ps σ s) : onlyChanges ps σ (loseStop c s) := by
  refine only_trans h0 ?_; clear h0; unfold loseStop
  (try dsimp only)
  repeat' (first
    | with_reducible exact only_refl _ _ | assumption | with_reducible apply updStation_only (within_trans rfl hp)
    | with_reducible apply dropPins_only (within_trans rfl hp)
    | with_reducible apply mapAdjs_only (within_trans rfl hp)
    | with_reducible apply losePin_only (within_trans rfl hp) | with_reducible apply only_ite
    | (with_reducible apply only_foldl; (intro _ _; try dsimp only)))

theorem loseInserted_only {σ : State} {ps : List Part} (hp : within [.evt, .stations, .hz, .ctxs, .adj, .led,
    .tempo, .sync, .tab, .trace, .i3c, .mem, .memPoison, .out] ps = true) (l : Level) (us : List Cu) (s :
    State) (h0 : onlyChanges ps σ s) : onlyChanges ps σ (loseInserted l us s) := by
  refine only_trans h0 ?_; clear h0; unfold loseInserted
  repeat' (first
    | with_reducible exact only_refl _ _ | assumption
    | with_reducible apply insertedAllLost_only (within_trans rfl hp) | with_reducible apply only_ite)

theorem clearCauses_only {σ : State} {ps : List Part} (hp : within [.now] ps = true) (c : Nat) (s : State) (h0
    : onlyChanges ps σ s) : onlyChanges ps σ (clearCauses c s) := by
  refine only_trans h0 ?_; clear h0; unfold clearCauses
  repeat' (first
    | with_reducible exact only_refl _ _ | assumption | with_reducible apply only_ite | (intro _; try dsimp only)
    | dsimp only
    | exact ⟨rfl, fun p h => by cases p <;> first | (with_reducible rfl) | exact absurd (within_mem hp rfl) h⟩)

theorem assertCore_only {σ : State} {ps : List Part} (hp : within [.now, .free, .evt, .stations, .hz, .ctxs,
    .adj, .led, .tempo, .sync, .rst, .tab, .trace, .i3c, .mem, .memPoison, .out] ps = true) (l : Level) (c :
    Nat) (s : State) (h0 : onlyChanges ps σ s) : onlyChanges ps σ (assertCore l c s) := by
  refine only_trans h0 ?_; clear h0; unfold assertCore
  (try dsimp only)
  repeat' (first
    | with_reducible exact only_refl _ _ | assumption | with_reducible apply abandonsDue_only (within_trans rfl hp)
    | with_reducible apply loseInserted_only (within_trans rfl hp)
    | with_reducible apply abandonOps_only (within_trans rfl hp)
    | with_reducible apply haltQueues_only (within_trans rfl hp)
    | with_reducible apply loseStop_only (within_trans rfl hp)
    | with_reducible apply dropBank_only (within_trans rfl hp)
    | with_reducible apply resetObjects_only (within_trans rfl hp)
    | with_reducible apply updStation_only (within_trans rfl hp)
    | with_reducible apply updRst_only (within_trans rfl hp)
    | with_reducible apply clearCauses_only (within_trans rfl hp) | with_reducible apply only_ite
    | (intro _; try dsimp only))

theorem assertCores_only {ps : List Part} (hp : within [.now, .free, .evt, .stations, .hz, .ctxs, .adj, .led,
    .tempo, .sync, .rst, .tab, .trace, .i3c, .mem, .memPoison, .out] ps = true) (l : Level) : ∀ ls {σ s :
    State}, onlyChanges ps σ s → onlyChanges ps σ (assertCores l ls s) := by
  intro ls
  induction ls with
  | nil => intro σ s h; exact h
  | cons a l ih =>
    intro σ s h0
    refine only_trans h0 ?_; clear h0; unfold assertCores
    repeat' (first
      | with_reducible exact only_refl _ _ | with_reducible apply ih | assumption
      | with_reducible apply assertCore_only (within_trans rfl hp))

theorem loseReplays_only {ps : List Part} (hp : within [.evt, .stations, .adj, .led, .tab] ps = true)  : ∀ ls
    {σ s : State}, onlyChanges ps σ s → onlyChanges ps σ (loseReplays  ls s) := by
  intro ls
  induction ls with
  | nil => intro σ s h; exact h
  | cons a l ih =>
    intro σ s h0
    refine only_trans h0 ?_; clear h0; unfold loseReplays
    repeat' (first
      | with_reducible exact only_refl _ _ | with_reducible apply ih | assumption
      | with_reducible apply replayLost_only (within_trans rfl hp))

theorem onSlot_only {σ : State} {ps : List Part} (hp : within [] ps = true) (i : Nat) (p : Adj → Bool) (f :
    Adj → State → State) (s : State) (hf : ∀ x0 {σ s : State}, onlyChanges ps σ s → onlyChanges ps σ (f x0 s))
    (h0 : onlyChanges ps σ s) : onlyChanges ps σ (onSlot i p f s) := by
  refine only_trans h0 ?_; clear h0; unfold onSlot
  repeat' (first
    | with_reducible exact only_refl _ _ | assumption | with_reducible apply hf | with_reducible apply only_ite
    | (split <;> try dsimp only))

theorem loseExecutions_only {σ : State} {ps : List Part} (hp : within [.evt, .stations, .hz, .ctxs, .adj,
    .led, .tempo, .sync, .tab, .trace, .i3c, .mem, .memPoison, .out] ps = true) (l : Level) (i : Nat) (s :
    State) (h0 : onlyChanges ps σ s) : onlyChanges ps σ (loseExecutions l i s) := by
  refine only_trans h0 ?_; clear h0; unfold loseExecutions
  (try dsimp only)
  repeat' (first
    | with_reducible exact only_refl _ _ | assumption | with_reducible apply onSlot_only (within_trans rfl hp)
    | with_reducible apply understudyLost_only (within_trans rfl hp)
    | with_reducible apply takeOutcome_only (within_trans rfl hp)
    | with_reducible apply evaluate_only (within_trans rfl hp) | with_reducible apply only_ite
    | (intro _; try dsimp only))

theorem loseUnderstudies_only {ps : List Part} (hp : within [.evt, .stations, .hz, .ctxs, .adj, .led, .tempo,
    .sync, .tab, .trace, .i3c, .mem, .memPoison, .out] ps = true) (l : Level) : ∀ ls {σ s : State},
    onlyChanges ps σ s → onlyChanges ps σ (loseUnderstudies l ls s) := by
  intro ls
  induction ls with
  | nil => intro σ s h; exact h
  | cons a l ih =>
    intro σ s h0
    refine only_trans h0 ?_; clear h0; unfold loseUnderstudies
    repeat' (first
      | with_reducible exact only_refl _ _ | with_reducible apply ih | assumption
      | with_reducible apply loseExecutions_only (within_trans rfl hp))

theorem closeUnresolved_only {ps : List Part} (hp : within [.evt, .stations, .hz, .ctxs, .adj, .led, .tempo,
    .sync, .tab, .trace, .i3c, .mem, .memPoison, .out] ps = true) (deferred : Bool) : ∀ ls {σ s : State},
    onlyChanges ps σ s → onlyChanges ps σ (closeUnresolved deferred ls s) := by
  intro ls
  induction ls with
  | nil => intro σ s h; exact h
  | cons a l ih =>
    intro σ s h0
    refine only_trans h0 ?_; clear h0; unfold closeUnresolved
    repeat' (first
      | with_reducible exact only_refl _ _ | with_reducible apply ih | assumption
      | with_reducible apply updAdj_only (within_trans rfl hp)
      | with_reducible apply closeUnslotted_only (within_trans rfl hp) | with_reducible apply only_ite)

theorem closeAllAdjs_only {σ : State} {ps : List Part} (hp : within [.evt, .stations, .hz, .ctxs, .adj, .led,
    .tempo, .sync, .tab, .trace, .i3c, .mem, .memPoison, .out] ps = true) (deferred : Bool) (s : State) (h0 :
    onlyChanges ps σ s) : onlyChanges ps σ (closeAllAdjs deferred s) := by
  refine only_trans h0 ?_; clear h0; unfold closeAllAdjs
  (try dsimp only)
  repeat' (first
    | with_reducible exact only_refl _ _ | assumption
    | with_reducible apply closeUnresolved_only (within_trans rfl hp)
    | with_reducible apply updAdj_only (within_trans rfl hp))

theorem closeGates_only {ps : List Part} (hp : within [.hz] ps = true)  : ∀ ls {σ s : State}, onlyChanges ps σ
    s → onlyChanges ps σ (closeGates  ls s) := by
  intro ls
  induction ls with
  | nil => intro σ s h; exact h
  | cons a l ih =>
    intro σ s h0
    refine only_trans h0 ?_; clear h0; unfold closeGates
    repeat' (first
      | with_reducible exact only_refl _ _ | with_reducible apply ih | assumption
      | with_reducible apply updGate_only (within_trans rfl hp))

theorem callerDown_only {σ : State} {ps : List Part} (hp : within [.crash, .hz, .rst, .tab, .boot, .i3c, .out]
    ps = true) (s : State) (h0 : onlyChanges ps σ s) : onlyChanges ps σ (callerDown s) := by
  refine only_trans h0 ?_; clear h0; unfold callerDown
  (try dsimp only)
  repeat' (first
    | with_reducible exact only_refl _ _ | assumption | with_reducible apply closeGates_only (within_trans rfl hp)
    | with_reducible apply updHz_only (within_trans rfl hp) | with_reducible apply updTab_only (within_trans rfl hp)
    | with_reducible apply updCrash_only (within_trans rfl hp)
    | with_reducible apply updBoot_only (within_trans rfl hp)
    | with_reducible apply dropShutRecord_only (within_trans rfl hp)
    | with_reducible apply updI3c_only (within_trans rfl hp) | with_reducible apply updRst_only (within_trans rfl hp))

theorem portsDown_only {σ : State} {ps : List Part} (hp : within [.sync] ps = true) (s : State) (h0 :
    onlyChanges ps σ s) : onlyChanges ps σ (portsDown s) := by
  refine only_trans h0 ?_; clear h0; unfold portsDown
  (try dsimp only)
  repeat' (first
    | with_reducible exact only_refl _ _ | assumption | with_reducible apply updSync_only (within_trans rfl hp))

theorem assertReset_only {σ : State} {ps : List Part} (hp : within [.now, .free, .evt, .crash, .stations, .hz,
    .ctxs, .adj, .led, .tempo, .sync, .rst, .tab, .trace, .boot, .i3c, .mem, .memPoison, .out] ps = true) (seq
    : Word) (s : State) (h0 : onlyChanges ps σ s) : onlyChanges ps σ (assertReset seq s) := by
  refine only_trans h0 ?_; clear h0; unfold assertReset
  (try dsimp only)
  repeat' (first
    | with_reducible exact only_refl _ _ | assumption | with_reducible apply updRst_only (within_trans rfl hp)
    | with_reducible apply updHz_only (within_trans rfl hp)
    | with_reducible apply assertCores_only (within_trans rfl hp)
    | with_reducible apply loseReplays_only (within_trans rfl hp)
    | with_reducible apply loseUnderstudies_only (within_trans rfl hp)
    | with_reducible apply closeAllAdjs_only (within_trans rfl hp)
    | with_reducible apply portsDown_only (within_trans rfl hp)
    | with_reducible apply callerDown_only (within_trans rfl hp)
    | with_reducible apply updLevel_only (within_trans rfl hp) | with_reducible apply only_ite
    | (split <;> try dsimp only))

theorem restoreSeals_only {ps : List Part} (hp : within [.evt, .stations, .hz, .ctxs, .sync, .tab, .trace,
    .out] ps = true) (os : List Nat) : ∀ ls {σ s : State}, onlyChanges ps σ s → onlyChanges ps σ (restoreSeals
    os ls s) := by
  intro ls
  induction ls with
  | nil => intro σ s h; exact h
  | cons a l ih =>
    intro σ s h0
    refine only_trans h0 ?_; clear h0; unfold restoreSeals
    (try dsimp only)
    repeat' (first
      | with_reducible exact only_refl _ _ | with_reducible apply ih | assumption
      | with_reducible apply sealChanged_only (within_trans rfl hp)
      | with_reducible apply change_only (within_trans rfl hp) | with_reducible apply only_ite
      | (split <;> try dsimp only))

theorem reloadStation_only {σ : State} {ps : List Part} (hp : within [.stations] ps = true) (c : Nat) (s :
    State) (h0 : onlyChanges ps σ s) : onlyChanges ps σ (reloadStation c s) := by
  refine only_trans h0 ?_; clear h0; unfold reloadStation
  (try dsimp only)
  repeat' (first
    | with_reducible exact only_refl _ _ | assumption | with_reducible apply updStation_only (within_trans rfl hp)
    | with_reducible apply takeEpoch_only (within_trans rfl hp)
    | with_reducible apply preload_only (within_trans rfl hp) | with_reducible apply only_ite
    | (with_reducible apply only_foldl; (intro _ _; try dsimp only)))

theorem restoreCore_only {σ : State} {ps : List Part} (hp : within [.evt, .stations, .hz, .ctxs, .sync, .tab,
    .trace, .out] ps = true) (l : Level) (c : Nat) (s : State) (h0 : onlyChanges ps σ s) : onlyChanges ps σ
    (restoreCore l c s) := by
  refine only_trans h0 ?_; clear h0; unfold restoreCore
  (try dsimp only)
  repeat' (first
    | with_reducible exact only_refl _ _ | assumption | with_reducible apply restoreSeals_only (within_trans rfl hp)
    | with_reducible apply reloadStation_only (within_trans rfl hp) | with_reducible apply only_ite)

theorem restoreCores_only {ps : List Part} (hp : within [.evt, .stations, .hz, .ctxs, .sync, .tab, .trace,
    .out] ps = true) (l : Level) : ∀ ls {σ s : State}, onlyChanges ps σ s → onlyChanges ps σ (restoreCores l
    ls s) := by
  intro ls
  induction ls with
  | nil => intro σ s h; exact h
  | cons a l ih =>
    intro σ s h0
    refine only_trans h0 ?_; clear h0; unfold restoreCores
    repeat' (first
      | with_reducible exact only_refl _ _ | with_reducible apply ih | assumption
      | with_reducible apply restoreCore_only (within_trans rfl hp))

theorem discardItems_only {ps : List Part} (hp : within [.hz] ps = true)  : ∀ ls {σ s : State}, onlyChanges ps
    σ s → onlyChanges ps σ (discardItems  ls s) := by
  intro ls
  induction ls with
  | nil => intro σ s h; exact h
  | cons a l ih =>
    intro σ s h0
    refine only_trans h0 ?_; clear h0; unfold discardItems
    (try dsimp only)
    repeat' (first
      | with_reducible exact only_refl _ _ | with_reducible apply ih | assumption
      | with_reducible apply updHz_only (within_trans rfl hp)
      | with_reducible apply updGate_only (within_trans rfl hp))

theorem recordRollback_only {σ : State} {ps : List Part} (hp : within [.evt, .tab] ps = true) (deferred :
    Bool) (x : Txn) (reason : Nat) (s : State) (h0 : onlyChanges ps σ s) : onlyChanges ps σ (recordRollback
    deferred x reason s) := by
  refine only_trans h0 ?_; clear h0; unfold recordRollback
  (try dsimp only)
  repeat' (first
    | with_reducible exact only_refl _ _ | assumption | with_reducible apply occurDeferred_only (within_trans rfl hp)
    | with_reducible apply occur_only (within_trans rfl hp) | with_reducible apply only_ite)

theorem abandonCapsules_only {ps : List Part} (hp : within [.evt, .stations, .adj, .led, .tab] ps = true)  : ∀
    ls {σ s : State}, onlyChanges ps σ s → onlyChanges ps σ (abandonCapsules  ls s) := by
  intro ls
  induction ls with
  | nil => intro σ s h; exact h
  | cons a l ih =>
    intro σ s h0
    refine only_trans h0 ?_; clear h0; unfold abandonCapsules
    repeat' (first
      | with_reducible exact only_refl _ _ | with_reducible apply ih | assumption
      | with_reducible apply abandonReprise_only (within_trans rfl hp))

theorem wipeCaller_only {σ : State} {ps : List Part} (hp : within [.evt, .cfg, .stations, .hz, .ctxs, .adj,
    .led, .sync, .rst, .tab, .trace, .boot, .i3c, .out] ps = true) (s : State) (h0 : onlyChanges ps σ s) :
    onlyChanges ps σ (wipeCaller s) := by
  refine only_trans h0 ?_; clear h0; unfold wipeCaller
  have h := linesDown_only (ps := ps) (within_trans rfl hp) s (only_refl _ s)
  generalize linesDown s = x at h ⊢
  dsimp only
  exact only_trans h ⟨rfl, fun p h => by cases p <;> first | (with_reducible rfl) | exact absurd (within_mem hp rfl) h⟩

theorem recordOpenSteps_only {ps : List Part} (hp : within [.evt, .tab] ps = true)  : ∀ ls {σ s : State},
    onlyChanges ps σ s → onlyChanges ps σ (recordOpenSteps  ls s) := by
  intro ls
  induction ls with
  | nil => intro σ s h; exact h
  | cons a l ih =>
    intro σ s h0
    refine only_trans h0 ?_; clear h0; unfold recordOpenSteps
    repeat' (first
      | with_reducible exact only_refl _ _ | with_reducible apply ih | assumption
      | with_reducible apply recordBackoff_only (within_trans rfl hp)
      | with_reducible apply recordReplaced_only (within_trans rfl hp) | with_reducible apply only_ite
      | (split <;> try dsimp only))

theorem wipePolicy_only {σ : State} {ps : List Part} (hp : within [.evt, .cfg, .adj, .tempo, .tab] ps = true)
    (s : State) (h0 : onlyChanges ps σ s) : onlyChanges ps σ (wipePolicy s) := by
  refine only_trans h0 ?_; clear h0; unfold wipePolicy
  (try dsimp only)
  repeat' (first
    | with_reducible exact only_refl _ _ | assumption
    | with_reducible apply recordOpenSteps_only (within_trans rfl hp)
    | with_reducible apply updCfg_only (within_trans rfl hp) | with_reducible apply updAdj_only (within_trans rfl hp)
    | with_reducible apply updTempo_only (within_trans rfl hp))

theorem closeAtRestart_only {σ : State} {ps : List Part} (hp : within [.evt, .stations, .hz, .ctxs, .adj,
    .led, .tempo, .sync, .tab, .trace, .i3c, .mem, .memPoison, .out] ps = true) (s : State) (h0 : onlyChanges
    ps σ s) : onlyChanges ps σ (closeAtRestart s) := by
  refine only_trans h0 ?_; clear h0; unfold closeAtRestart
  (try dsimp only)
  repeat' (first
    | with_reducible exact only_refl _ _ | assumption | with_reducible apply closeAllAdjs_only (within_trans rfl hp)
    | with_reducible apply finishClose_only (within_trans rfl hp)
    | with_reducible apply updHz_only (within_trans rfl hp) | with_reducible apply updAdj_only (within_trans rfl hp)
    | with_reducible apply only_ite | (with_reducible apply only_foldl; (intro _ _; try dsimp only)))

theorem callerRestart_only {σ : State} {ps : List Part} (hp : within [.evt, .cfg, .stations, .hz, .ctxs, .adj,
    .led, .tempo, .sync, .rst, .tab, .trace, .boot, .i3c, .mem, .memPoison, .out] ps = true) (l : Level) (s :
    State) (h0 : onlyChanges ps σ s) : onlyChanges ps σ (callerRestart l s) := by
  refine only_trans h0 ?_; clear h0; unfold callerRestart
  (try dsimp only)
  repeat' (first
    | with_reducible exact only_refl _ _ | assumption | with_reducible apply updRst_only (within_trans rfl hp)
    | with_reducible apply discardItems_only (within_trans rfl hp)
    | with_reducible apply sendWithdraw_only (within_trans rfl hp)
    | with_reducible apply endAll_only (within_trans rfl hp)
    | with_reducible apply wipePolicy_only (within_trans rfl hp)
    | with_reducible apply closeAtRestart_only (within_trans rfl hp)
    | with_reducible apply wipeCaller_only (within_trans rfl hp)
    | with_reducible apply abandonCapsules_only (within_trans rfl hp)
    | with_reducible apply recordRollback_only (within_trans rfl hp)
    | with_reducible apply updBoot_only (within_trans rfl hp) | with_reducible apply only_ite
    | (split <;> try dsimp only))

theorem releaseReset_only {σ : State} {ps : List Part} (hp : within [.evt, .cfg, .stations, .hz, .ctxs, .adj,
    .led, .tempo, .sync, .rst, .tab, .trace, .boot, .i3c, .mem, .memPoison, .out] ps = true) (seq : Word) (s :
    State) (h0 : onlyChanges ps σ s) : onlyChanges ps σ (releaseReset seq s) := by
  refine only_trans h0 ?_; clear h0; unfold releaseReset
  (try dsimp only)
  repeat' (first
    | with_reducible exact only_refl _ _ | assumption | with_reducible apply callerRestart_only (within_trans rfl hp)
    | with_reducible apply restoreCores_only (within_trans rfl hp)
    | with_reducible apply updRst_only (within_trans rfl hp)
    | with_reducible apply updLevel_only (within_trans rfl hp) | with_reducible apply only_ite
    | (split <;> try dsimp only))

theorem checkCount_only {σ : State} {ps : List Part} (hp : within [.evt, .stations, .hz, .ctxs, .led, .tempo,
    .sync, .tab, .trace, .i3c, .out] ps = true) (p : ResetPolicy) (s : State) (h0 : onlyChanges ps σ s) :
    onlyChanges ps σ (checkCount p s) := by
  refine only_trans h0 ?_; clear h0; unfold checkCount
  (try dsimp only)
  repeat' (first
    | with_reducible exact only_refl _ _ | assumption | with_reducible apply outOfService_only (within_trans rfl hp)
    | with_reducible apply only_ite)

theorem levelComplete_only {σ : State} {ps : List Part} (hp : within [.evt, .stations, .hz, .ctxs, .led,
    .tempo, .sync, .rst, .tab, .trace, .i3c, .out] ps = true) (seq : Word) (s : State) (h0 : onlyChanges ps σ
    s) : onlyChanges ps σ (levelComplete seq s) := by
  refine only_trans h0 ?_; clear h0; unfold levelComplete
  (try dsimp only)
  repeat' (first
    | with_reducible exact only_refl _ _ | assumption | with_reducible apply endLevel_only (within_trans rfl hp)
    | with_reducible apply updRst_only (within_trans rfl hp)
    | with_reducible apply sendNotice_only (within_trans rfl hp)
    | with_reducible apply checkCount_only (within_trans rfl hp)
    | with_reducible apply msix_only (within_trans rfl hp) | with_reducible apply occur_only (within_trans rfl hp)
    | with_reducible apply only_ite | (split <;> try dsimp only))

theorem enterDead_only {σ : State} {ps : List Part} (hp : within [.evt, .crash, .hz, .led, .tempo, .sync,
    .rst, .tab, .boot, .i3c, .out] ps = true) (l : Level) (s : State) (h0 : onlyChanges ps σ s) : onlyChanges
    ps σ (enterDead l s) := by
  refine only_trans h0 ?_; clear h0; unfold enterDead
  (try dsimp only)
  repeat' (first
    | with_reducible exact only_refl _ _ | assumption | with_reducible apply sendNotice_only (within_trans rfl hp)
    | with_reducible apply unscheduledReport_only (within_trans rfl hp)
    | with_reducible apply setState_only (within_trans rfl hp)
    | with_reducible apply updRst_only (within_trans rfl hp)
    | with_reducible apply callerDown_only (within_trans rfl hp)
    | with_reducible apply portsDown_only (within_trans rfl hp) | with_reducible apply only_ite)

theorem escalate_only {σ : State} {ps : List Part} (hp : within [.evt, .crash, .hz, .ctxs, .led, .tempo,
    .sync, .rst, .tab, .boot, .i3c, .out] ps = true) (l : Level) (s : State) (h0 : onlyChanges ps σ s) :
    onlyChanges ps σ (escalate l s) := by
  refine only_trans h0 ?_; clear h0; unfold escalate
  (try dsimp only)
  repeat' (first
    | with_reducible exact only_refl _ _ | assumption | with_reducible apply occur_only (within_trans rfl hp)
    | with_reducible apply enterDead_only (within_trans rfl hp)
    | with_reducible apply endLevel_only (within_trans rfl hp)
    | with_reducible apply startLevel_only (within_trans rfl hp) | with_reducible apply only_ite)

theorem levelOverrun_only {σ : State} {ps : List Part} (hp : within [.evt, .crash, .hz, .ctxs, .led, .tempo,
    .sync, .rst, .tab, .boot, .i3c, .out] ps = true) (seq : Word) (s : State) (h0 : onlyChanges ps σ s) :
    onlyChanges ps σ (levelOverrun seq s) := by
  refine only_trans h0 ?_; clear h0; unfold levelOverrun
  repeat' (first
    | with_reducible exact only_refl _ _ | assumption | with_reducible apply escalate_only (within_trans rfl hp)
    | with_reducible apply only_ite | (split <;> try dsimp only))

theorem startRequested_only {σ : State} {ps : List Part} (hp : within [.evt, .crash, .stations, .hz, .ctxs,
    .adj, .led, .tempo, .sync, .rst, .tab, .trace, .i3c, .out] ps = true) (x : Scope) (s : State) (h0 :
    onlyChanges ps σ s) : onlyChanges ps σ (startRequested x s) := by
  refine only_trans h0 ?_; clear h0; unfold startRequested
  repeat' (first
    | with_reducible exact only_refl _ _ | assumption | with_reducible apply startWaiting_only (within_trans rfl hp)
    | with_reducible apply startReset_only (within_trans rfl hp)
    | with_reducible apply updRst_only (within_trans rfl hp) | with_reducible apply endHold_only (within_trans rfl hp)
    | with_reducible apply only_ite)

theorem requestReset_only {σ : State} {ps : List Part} (hp : within [.evt, .crash, .stations, .hz, .ctxs,
    .adj, .led, .tempo, .sync, .rst, .tab, .trace, .i3c, .out] ps = true) (cause level index queue : Nat) (s :
    State) (h0 : onlyChanges ps σ s) : onlyChanges ps σ (requestReset cause level index queue s).2 := by
  refine only_trans h0 ?_; clear h0; unfold requestReset
  (try dsimp only)
  repeat' (first
    | with_reducible exact only_refl _ _ | assumption | with_reducible apply absorb_only (within_trans rfl hp)
    | with_reducible apply startRequested_only (within_trans rfl hp) | with_reducible apply only_ite
    | (split <;> try dsimp only))

theorem writeRstCmd_only {σ : State} {ps : List Part} (hp : within [.evt, .crash, .cfg, .stations, .hz, .ctxs,
    .adj, .led, .tempo, .sync, .rst, .tab, .trace, .i3c, .out] ps = true) (r : Requester) (value : Word) (s :
    State) (h0 : onlyChanges ps σ s) : onlyChanges ps σ (writeRstCmd r value s) := by
  refine only_trans h0 ?_; clear h0; unfold writeRstCmd
  (try dsimp only)
  repeat' (first
    | with_reducible exact only_refl _ _ | assumption | with_reducible apply updCfg_only (within_trans rfl hp)
    | with_reducible apply requestReset_only (within_trans rfl hp)
    | with_reducible apply setResult_only (within_trans rfl hp) | with_reducible apply only_ite)

theorem watchdogExpires_only {σ : State} {ps : List Part} (hp : within [.evt, .crash, .hz, .ctxs, .rst, .tab,
    .boot, .i3c, .out] ps = true) (s : State) (h0 : onlyChanges ps σ s) : onlyChanges ps σ (watchdogExpires s) := by
  refine only_trans h0 ?_; clear h0; unfold watchdogExpires
  (try dsimp only)
  repeat' (first
    | with_reducible exact only_refl _ _ | assumption | with_reducible apply occur_only (within_trans rfl hp)
    | with_reducible apply updRst_only (within_trans rfl hp)
    | with_reducible apply callerDown_only (within_trans rfl hp)
    | with_reducible apply updLevel_only (within_trans rfl hp)
    | with_reducible apply absorb_only (within_trans rfl hp)
    | with_reducible apply updCrash_only (within_trans rfl hp)
    | with_reducible apply startLevel_only (within_trans rfl hp) | with_reducible apply only_ite
    | (split <;> try dsimp only))

theorem execDeadlineMiss_only (t : Nat) (core : Core) (queue : Queue) (s : State) : ∃ s', execDeadlineMiss t
    core queue s = .next s' ∧ onlyChanges [.now, .evt, .crash, .stations, .hz, .ctxs, .rst, .tab, .i3c, .out]
    s s' := by
  refine ⟨_, rfl, ?_⟩
  have hp : within [.now, .evt, .crash, .stations, .hz, .ctxs, .rst, .tab, .i3c, .out] [.now, .evt, .crash, .stations, .hz, .ctxs, .rst, .tab, .i3c, .out] = true := rfl
  repeat' (first
    | with_reducible exact only_refl _ _ | assumption | with_reducible apply deadlineMissed_only (within_trans rfl hp)
    | with_reducible apply atTime_only (within_trans rfl hp))

theorem execCallerWatchdogExpiry_only (t : Nat) (s : State) : ∃ s', execCallerWatchdogExpiry t s = .next s' ∧
    onlyChanges [.now, .evt, .crash, .hz, .ctxs, .rst, .tab, .boot, .i3c, .out] s s' := by
  refine ⟨_, rfl, ?_⟩
  have hp : within [.now, .evt, .crash, .hz, .ctxs, .rst, .tab, .boot, .i3c, .out] [.now, .evt, .crash, .hz, .ctxs, .rst, .tab, .boot, .i3c, .out] = true := rfl
  repeat' (first
    | with_reducible exact only_refl _ _ | assumption
    | with_reducible apply watchdogExpires_only (within_trans rfl hp)
    | with_reducible apply atTime_only (within_trans rfl hp))

theorem execResetContainAcked_only (t : Nat) (seq : Word) (s : State) : ∃ s', execResetContainAcked t seq s =
    .next s' ∧ onlyChanges [.now, .evt, .stations, .hz, .ctxs, .sync, .rst, .tab, .trace, .out] s s' := by
  refine ⟨_, rfl, ?_⟩
  have hp : within [.now, .evt, .stations, .hz, .ctxs, .sync, .rst, .tab, .trace, .out] [.now, .evt, .stations, .hz, .ctxs, .sync, .rst, .tab, .trace, .out] = true := rfl
  repeat' (first
    | with_reducible exact only_refl _ _ | assumption | with_reducible apply containAcked_only (within_trans rfl hp)
    | with_reducible apply atTime_only (within_trans rfl hp))

theorem execResetAssert_only (t : Nat) (seq : Word) (s : State) : ∃ s', execResetAssert t seq s = .next s' ∧
    onlyChanges [.now, .free, .evt, .crash, .stations, .hz, .ctxs, .adj, .led, .tempo, .sync, .rst, .tab,
    .trace, .boot, .i3c, .mem, .memPoison, .out] s s' := by
  refine ⟨_, rfl, ?_⟩
  have hp : within [.now, .free, .evt, .crash, .stations, .hz, .ctxs, .adj, .led, .tempo, .sync, .rst, .tab, .trace, .boot, .i3c, .mem, .memPoison, .out] [.now, .free, .evt, .crash, .stations, .hz, .ctxs, .adj, .led, .tempo, .sync, .rst, .tab, .trace, .boot, .i3c, .mem, .memPoison, .out] = true := rfl
  repeat' (first
    | with_reducible exact only_refl _ _ | assumption | with_reducible apply assertReset_only (within_trans rfl hp)
    | with_reducible apply atTime_only (within_trans rfl hp))

theorem execResetRelease_only (t : Nat) (seq : Word) (s : State) : ∃ s', execResetRelease t seq s = .next s' ∧
    onlyChanges [.now, .evt, .cfg, .stations, .hz, .ctxs, .adj, .led, .tempo, .sync, .rst, .tab, .trace,
    .boot, .i3c, .mem, .memPoison, .out] s s' := by
  refine ⟨_, rfl, ?_⟩
  have hp : within [.now, .evt, .cfg, .stations, .hz, .ctxs, .adj, .led, .tempo, .sync, .rst, .tab, .trace, .boot, .i3c, .mem, .memPoison, .out] [.now, .evt, .cfg, .stations, .hz, .ctxs, .adj, .led, .tempo, .sync, .rst, .tab, .trace, .boot, .i3c, .mem, .memPoison, .out] = true := rfl
  repeat' (first
    | with_reducible exact only_refl _ _ | assumption | with_reducible apply releaseReset_only (within_trans rfl hp)
    | with_reducible apply atTime_only (within_trans rfl hp))

theorem execResetLevelComplete_only (t : Nat) (seq : Word) (s : State) : ∃ s', execResetLevelComplete t seq s
    = .next s' ∧ onlyChanges [.now, .evt, .stations, .hz, .ctxs, .led, .tempo, .sync, .rst, .tab, .trace,
    .i3c, .out] s s' := by
  refine ⟨_, rfl, ?_⟩
  have hp : within [.now, .evt, .stations, .hz, .ctxs, .led, .tempo, .sync, .rst, .tab, .trace, .i3c, .out] [.now, .evt, .stations, .hz, .ctxs, .led, .tempo, .sync, .rst, .tab, .trace, .i3c, .out] = true := rfl
  repeat' (first
    | with_reducible exact only_refl _ _ | assumption | with_reducible apply levelComplete_only (within_trans rfl hp)
    | with_reducible apply atTime_only (within_trans rfl hp))

theorem execResetLevelOverrun_only (t : Nat) (seq : Word) (s : State) : ∃ s', execResetLevelOverrun t seq s =
    .next s' ∧ onlyChanges [.now, .evt, .crash, .hz, .ctxs, .led, .tempo, .sync, .rst, .tab, .boot, .i3c,
    .out] s s' := by
  refine ⟨_, rfl, ?_⟩
  have hp : within [.now, .evt, .crash, .hz, .ctxs, .led, .tempo, .sync, .rst, .tab, .boot, .i3c, .out] [.now, .evt, .crash, .hz, .ctxs, .led, .tempo, .sync, .rst, .tab, .boot, .i3c, .out] = true := rfl
  repeat' (first
    | with_reducible exact only_refl _ _ | assumption | with_reducible apply levelOverrun_only (within_trans rfl hp)
    | with_reducible apply atTime_only (within_trans rfl hp))

theorem execResetRequest_only (t : Nat) (r : Requester) (value : Word) (s : State) : ∃ s', execResetRequest t
    r value s = .next s' ∧ onlyChanges [.now, .evt, .crash, .cfg, .stations, .hz, .ctxs, .adj, .led, .tempo,
    .sync, .rst, .tab, .trace, .i3c, .out] s s' := by
  refine ⟨_, rfl, ?_⟩
  have hp : within [.now, .evt, .crash, .cfg, .stations, .hz, .ctxs, .adj, .led, .tempo, .sync, .rst, .tab, .trace, .i3c, .out] [.now, .evt, .crash, .cfg, .stations, .hz, .ctxs, .adj, .led, .tempo, .sync, .rst, .tab, .trace, .i3c, .out] = true := rfl
  repeat' (first
    | with_reducible exact only_refl _ _ | assumption | with_reducible apply atTime_only (within_trans rfl hp)
    | with_reducible apply writeRstCmd_only (within_trans rfl hp) | with_reducible apply only_ite)

theorem rejectCharter_only {σ : State} {ps : List Part} (hp : within [.evt, .cfg, .tab] ps = true) (e :
    Reject) (serial : Nat) (r : Requester) (s : State) (h0 : onlyChanges ps σ s) : onlyChanges ps σ
    (rejectCharter e serial r s) := by
  refine only_trans h0 ?_; clear h0; unfold rejectCharter
  (try dsimp only)
  repeat' (first
    | with_reducible exact only_refl _ _ | assumption | with_reducible apply updCfg_only (within_trans rfl hp)
    | with_reducible apply occur_only (within_trans rfl hp))

theorem acceptCharter_only {σ : State} {ps : List Part} (hp : within [.evt, .cfg, .tempo, .tab] ps = true) (ch
    : Charter) (img : List Byte) (s : State) (h0 : onlyChanges ps σ s) : onlyChanges ps σ (acceptCharter ch
    img s) := by
  refine only_trans h0 ?_; clear h0; unfold acceptCharter
  (try dsimp only)
  repeat' (first
    | with_reducible exact only_refl _ _ | assumption | with_reducible apply updCfg_only (within_trans rfl hp)
    | with_reducible apply updTempo_only (within_trans rfl hp)
    | with_reducible apply occur_only (within_trans rfl hp))

theorem dropTxn_only {σ : State} {ps : List Part} (hp : within [.cfg] ps = true) (x : Txn) (s : State) (h0 :
    onlyChanges ps σ s) : onlyChanges ps σ (dropTxn x s) := by
  refine only_trans h0 ?_; clear h0; unfold dropTxn
  (try dsimp only)
  repeat' (first
    | with_reducible exact only_refl _ _ | assumption | with_reducible apply updCfg_only (within_trans rfl hp))

theorem rollback_only {σ : State} {ps : List Part} (hp : within [.evt, .cfg, .tab] ps = true) (x : Txn)
    (reason : Nat) (s : State) (h0 : onlyChanges ps σ s) : onlyChanges ps σ (rollback x reason s) := by
  refine only_trans h0 ?_; clear h0; unfold rollback
  repeat' (first
    | with_reducible exact only_refl _ _ | assumption | with_reducible apply recordRollback_only (within_trans rfl hp)
    | with_reducible apply dropTxn_only (within_trans rfl hp))

theorem expireTxn_only {σ : State} {ps : List Part} (hp : within [.evt, .cfg, .tab] ps = true) (s : State) (h0
    : onlyChanges ps σ s) : onlyChanges ps σ (expireTxn s) := by
  refine only_trans h0 ?_; clear h0; unfold expireTxn
  repeat' (first
    | with_reducible exact only_refl _ _ | assumption | with_reducible apply setResult_only (within_trans rfl hp)
    | with_reducible apply rollback_only (within_trans rfl hp) | with_reducible apply only_ite
    | (split <;> try dsimp only))

theorem txnCommand_only {σ : State} {ps : List Part} (hp : within [.evt, .cfg, .tab] ps = true) (cmd : Nat) (r
    : Requester) (id : BitVec 16) (s : State) (h0 : onlyChanges ps σ s) : onlyChanges ps σ (txnCommand cmd r
    id s) := by
  refine only_trans h0 ?_; clear h0; unfold txnCommand
  repeat' (first
    | with_reducible exact only_refl _ _ | assumption | with_reducible apply setResult_only (within_trans rfl hp)
    | with_reducible apply updCfg_only (within_trans rfl hp)
    | with_reducible apply expireTxn_only (within_trans rfl hp)
    | with_reducible apply rollback_only (within_trans rfl hp) | with_reducible apply only_ite
    | (split <;> try dsimp only))

theorem shadowWrite_only {σ : State} {ps : List Part} (hp : within [.evt, .cfg, .tab] ps = true) (r :
    Requester) (off : Nat) (v : Word) (s : State) (h0 : onlyChanges ps σ s) : onlyChanges ps σ (shadowWrite r
    off v s) := by
  refine only_trans h0 ?_; clear h0; unfold shadowWrite
  (try dsimp only)
  repeat' (first
    | with_reducible exact only_refl _ _ | assumption | with_reducible apply expireTxn_only (within_trans rfl hp)
    | with_reducible apply setResult_only (within_trans rfl hp)
    | with_reducible apply updCfg_only (within_trans rfl hp) | with_reducible apply only_ite
    | (split <;> try dsimp only))

theorem beginLoad_only {σ : State} {ps : List Part} (hp : within [.cfg, .i3c, .out] ps = true) (r : Requester)
    (s : State) (h0 : onlyChanges ps σ s) : onlyChanges ps σ (beginLoad r s) := by
  refine only_trans h0 ?_; clear h0; unfold beginLoad
  (try dsimp only)
  repeat' (first
    | with_reducible exact only_refl _ _ | assumption | with_reducible apply wantObjects_only (within_trans rfl hp)
    | with_reducible apply updCfg_only (within_trans rfl hp) | with_reducible apply only_ite)

theorem loadGo_only {σ : State} {ps : List Part} (hp : within [.evt, .cfg, .tab, .i3c, .out] ps = true) (r :
    Requester) (value : Word) (s : State) (h0 : onlyChanges ps σ s) : onlyChanges ps σ (loadGo r value s) := by
  refine only_trans h0 ?_; clear h0; unfold loadGo
  (try dsimp only)
  repeat' (first
    | with_reducible exact only_refl _ _ | assumption | with_reducible apply expireTxn_only (within_trans rfl hp)
    | with_reducible apply setResult_only (within_trans rfl hp)
    | with_reducible apply beginLoad_only (within_trans rfl hp)
    | with_reducible apply updCfg_only (within_trans rfl hp)
    | with_reducible apply rejectCharter_only (within_trans rfl hp) | with_reducible apply only_ite
    | (split <;> try dsimp only))

theorem keepFirst_only {σ : State} {ps : List Part} (hp : within [.cfg, .boot, .i3c, .out] ps = true) (ch :
    Charter) (img : List Byte) (r : Requester) (s : State) (h0 : onlyChanges ps σ s) : onlyChanges ps σ
    (keepFirst ch img r s) := by
  refine only_trans h0 ?_; clear h0; unfold keepFirst
  (try dsimp only)
  repeat' (first
    | with_reducible exact only_refl _ _ | assumption | with_reducible apply updBoot_only (within_trans rfl hp)
    | with_reducible apply updCfg_only (within_trans rfl hp)
    | with_reducible apply wantObjects_only (within_trans rfl hp) | with_reducible apply only_ite)

theorem loadVerified_only {σ : State} {ps : List Part} (hp : within [.evt, .cfg, .tab, .boot, .i3c, .out] ps =
    true) (s : State) (h0 : onlyChanges ps σ s) : onlyChanges ps σ (loadVerified s) := by
  refine only_trans h0 ?_; clear h0; unfold loadVerified
  (try dsimp only)
  repeat' (first
    | with_reducible exact only_refl _ _ | assumption | with_reducible apply expireTxn_only (within_trans rfl hp)
    | with_reducible apply updCfg_only (within_trans rfl hp)
    | with_reducible apply rejectCharter_only (within_trans rfl hp)
    | with_reducible apply keepFirst_only (within_trans rfl hp) | with_reducible apply only_ite
    | (split <;> try dsimp only))

theorem preloadAll_only {ps : List Part} (hp : within [.stations] ps = true)  : ∀ ls {σ s : State},
    onlyChanges ps σ s → onlyChanges ps σ (preloadAll  ls s) := by
  intro ls
  induction ls with
  | nil => intro σ s h; exact h
  | cons a l ih =>
    intro σ s h0
    refine only_trans h0 ?_; clear h0; unfold preloadAll
    repeat' (first
      | with_reducible exact only_refl _ _ | with_reducible apply ih | assumption
      | with_reducible apply preload_only (within_trans rfl hp))

theorem callerSettings_only {σ : State} {ps : List Part} (hp : within [.evt, .stations, .hz, .ctxs, .led,
    .tempo, .sync, .tab, .trace, .i3c, .out] ps = true) (old new : Charter) (s : State) (h0 : onlyChanges ps σ
    s) : onlyChanges ps σ (callerSettings old new s) := by
  refine only_trans h0 ?_; clear h0; unfold callerSettings
  (try dsimp only)
  repeat' (first
    | with_reducible exact only_refl _ _ | assumption | with_reducible apply updEvt_only (within_trans rfl hp)
    | with_reducible apply updLed_only (within_trans rfl hp)
    | with_reducible apply recheckUnits_only (within_trans rfl hp)
    | with_reducible apply checkCount_only (within_trans rfl hp) | with_reducible apply only_ite)

theorem commitTxn_only {σ : State} {ps : List Part} (hp : within [.evt, .cfg, .stations, .hz, .ctxs, .led,
    .tempo, .sync, .tab, .trace, .i3c, .out] ps = true) (x : Txn) (s : State) (h0 : onlyChanges ps σ s) :
    onlyChanges ps σ (commitTxn x s) := by
  refine only_trans h0 ?_; clear h0; unfold commitTxn
  (try dsimp only)
  repeat' (first
    | with_reducible exact only_refl _ _ | assumption | with_reducible apply updCfg_only (within_trans rfl hp)
    | with_reducible apply occur_only (within_trans rfl hp)
    | with_reducible apply setResult_only (within_trans rfl hp)
    | with_reducible apply noteGating_only (within_trans rfl hp)
    | with_reducible apply preloadAll_only (within_trans rfl hp)
    | with_reducible apply acceptCharter_only (within_trans rfl hp)
    | with_reducible apply callerSettings_only (within_trans rfl hp)
    | with_reducible apply applyPolicy_only (within_trans rfl hp) | with_reducible apply only_ite
    | (split <;> try dsimp only))

theorem commitValidated_only {σ : State} {ps : List Part} (hp : within [.evt, .cfg, .stations, .hz, .ctxs,
    .led, .tempo, .sync, .tab, .trace, .i3c, .out] ps = true) (s : State) (h0 : onlyChanges ps σ s) :
    onlyChanges ps σ (commitValidated s) := by
  refine only_trans h0 ?_; clear h0; unfold commitValidated
  (try dsimp only)
  repeat' (first
    | with_reducible exact only_refl _ _ | assumption | with_reducible apply setResult_only (within_trans rfl hp)
    | with_reducible apply rejectCharter_only (within_trans rfl hp)
    | with_reducible apply dropTxn_only (within_trans rfl hp)
    | with_reducible apply recordRollback_only (within_trans rfl hp)
    | with_reducible apply rollback_only (within_trans rfl hp)
    | with_reducible apply commitTxn_only (within_trans rfl hp) | with_reducible apply only_ite
    | (split <;> try dsimp only))

theorem recordHostGen_only {σ : State} {ps : List Part} (hp : within [.evt, .tab] ps = true) (s : State) (h0 :
    onlyChanges ps σ s) : onlyChanges ps σ (recordHostGen s) := by
  refine only_trans h0 ?_; clear h0; unfold recordHostGen
  repeat' (first
    | with_reducible exact only_refl _ _ | assumption | with_reducible apply occur_only (within_trans rfl hp))

theorem hostGenOffer_only {σ : State} {ps : List Part} (hp : within [.evt, .cfg, .tab] ps = true) (r :
    Requester) (value : Word) (s : State) (h0 : onlyChanges ps σ s) : onlyChanges ps σ (hostGenOffer r value
    s) := by
  refine only_trans h0 ?_; clear h0; unfold hostGenOffer
  (try dsimp only)
  repeat' (first
    | with_reducible exact only_refl _ _ | assumption | with_reducible apply updCfg_only (within_trans rfl hp)
    | with_reducible apply recordHostGen_only (within_trans rfl hp) | with_reducible apply only_ite)

theorem functionReset_only {σ : State} {ps : List Part} (hp : within [.evt, .cfg, .tab] ps = true) (s : State)
    (h0 : onlyChanges ps σ s) : onlyChanges ps σ (functionReset s) := by
  refine only_trans h0 ?_; clear h0; unfold functionReset
  repeat' (first
    | with_reducible exact only_refl _ _ | assumption | with_reducible apply recordHostGen_only (within_trans rfl hp)
    | with_reducible apply updCfg_only (within_trans rfl hp) | with_reducible apply only_ite)

theorem execCharterLoadGo_only (t : Nat) (r : Requester) (value : Word) (s : State) : ∃ s', execCharterLoadGo
    t r value s = .next s' ∧ onlyChanges [.now, .evt, .cfg, .tab, .i3c, .out] s s' := by
  refine ⟨_, rfl, ?_⟩
  have hp : within [.now, .evt, .cfg, .tab, .i3c, .out] [.now, .evt, .cfg, .tab, .i3c, .out] = true := rfl
  repeat' (first
    | with_reducible exact only_refl _ _ | assumption | with_reducible apply loadGo_only (within_trans rfl hp)
    | with_reducible apply atTime_only (within_trans rfl hp))

theorem execCharterVerified_only (t : Nat) (s : State) : ∃ s', execCharterVerified t s = .next s' ∧
    onlyChanges [.now, .evt, .cfg, .tab, .boot, .i3c, .out] s s' := by
  refine ⟨_, rfl, ?_⟩
  have hp : within [.now, .evt, .cfg, .tab, .boot, .i3c, .out] [.now, .evt, .cfg, .tab, .boot, .i3c, .out] = true := rfl
  repeat' (first
    | with_reducible exact only_refl _ _ | assumption | with_reducible apply loadVerified_only (within_trans rfl hp)
    | with_reducible apply atTime_only (within_trans rfl hp))

theorem execTxnBegin_only (t : Nat) (r : Requester) (id : BitVec 16) (s : State) : ∃ s', execTxnBegin t r id s
    = .next s' ∧ onlyChanges [.now, .evt, .cfg, .tab] s s' := by
  refine ⟨_, rfl, ?_⟩
  have hp : within [.now, .evt, .cfg, .tab] [.now, .evt, .cfg, .tab] = true := rfl
  repeat' (first
    | with_reducible exact only_refl _ _ | assumption | with_reducible apply txnCommand_only (within_trans rfl hp)
    | with_reducible apply atTime_only (within_trans rfl hp))

theorem execTxnCommit_only (t : Nat) (r : Requester) (id : BitVec 16) (s : State) : ∃ s', execTxnCommit t r id
    s = .next s' ∧ onlyChanges [.now, .evt, .cfg, .tab] s s' := by
  refine ⟨_, rfl, ?_⟩
  have hp : within [.now, .evt, .cfg, .tab] [.now, .evt, .cfg, .tab] = true := rfl
  repeat' (first
    | with_reducible exact only_refl _ _ | assumption | with_reducible apply txnCommand_only (within_trans rfl hp)
    | with_reducible apply atTime_only (within_trans rfl hp))

theorem execTxnRollback_only (t : Nat) (r : Requester) (id : BitVec 16) (s : State) : ∃ s', execTxnRollback t
    r id s = .next s' ∧ onlyChanges [.now, .evt, .cfg, .tab] s s' := by
  refine ⟨_, rfl, ?_⟩
  have hp : within [.now, .evt, .cfg, .tab] [.now, .evt, .cfg, .tab] = true := rfl
  repeat' (first
    | with_reducible exact only_refl _ _ | assumption | with_reducible apply txnCommand_only (within_trans rfl hp)
    | with_reducible apply atTime_only (within_trans rfl hp))

theorem execTxnExpired_only (t : Nat) (s : State) : ∃ s', execTxnExpired t s = .next s' ∧ onlyChanges [.now,
    .evt, .cfg, .tab] s s' := by
  refine ⟨_, rfl, ?_⟩
  have hp : within [.now, .evt, .cfg, .tab] [.now, .evt, .cfg, .tab] = true := rfl
  repeat' (first
    | with_reducible exact only_refl _ _ | assumption | with_reducible apply atTime_only (within_trans rfl hp)
    | with_reducible apply expireTxn_only (within_trans rfl hp) | with_reducible apply only_ite)

theorem execCommitValidated_only (t : Nat) (s : State) : ∃ s', execCommitValidated t s = .next s' ∧
    onlyChanges [.now, .evt, .cfg, .stations, .hz, .ctxs, .led, .tempo, .sync, .tab, .trace, .i3c, .out] s s' := by
  refine ⟨_, rfl, ?_⟩
  have hp : within [.now, .evt, .cfg, .stations, .hz, .ctxs, .led, .tempo, .sync, .tab, .trace, .i3c, .out] [.now, .evt, .cfg, .stations, .hz, .ctxs, .led, .tempo, .sync, .tab, .trace, .i3c, .out] = true := rfl
  repeat' (first
    | with_reducible exact only_refl _ _ | assumption
    | with_reducible apply commitValidated_only (within_trans rfl hp)
    | with_reducible apply atTime_only (within_trans rfl hp))

theorem execShadowWrite_only (t : Nat) (r : Requester) (offset : Fin 0x400000) (value : Word) (s : State) : ∃
    s', execShadowWrite t r offset value s = .next s' ∧ onlyChanges [.now, .evt, .cfg, .tab] s s' := by
  refine ⟨_, rfl, ?_⟩
  have hp : within [.now, .evt, .cfg, .tab] [.now, .evt, .cfg, .tab] = true := rfl
  repeat' (first
    | with_reducible exact only_refl _ _ | assumption | with_reducible apply shadowWrite_only (within_trans rfl hp)
    | with_reducible apply atTime_only (within_trans rfl hp))

theorem execHostGenOffer_only (t : Nat) (r : Requester) (value : Word) (s : State) : ∃ s', execHostGenOffer t
    r value s = .next s' ∧ onlyChanges [.now, .evt, .cfg, .tab] s s' := by
  refine ⟨_, rfl, ?_⟩
  have hp : within [.now, .evt, .cfg, .tab] [.now, .evt, .cfg, .tab] = true := rfl
  repeat' (first
    | with_reducible exact only_refl _ _ | assumption | with_reducible apply hostGenOffer_only (within_trans rfl hp)
    | with_reducible apply atTime_only (within_trans rfl hp))

theorem execFunctionLevelReset_only (t : Nat) (s : State) : ∃ s', execFunctionLevelReset t s = .next s' ∧
    onlyChanges [.now, .evt, .cfg, .tab] s s' := by
  refine ⟨_, rfl, ?_⟩
  have hp : within [.now, .evt, .cfg, .tab] [.now, .evt, .cfg, .tab] = true := rfl
  repeat' (first
    | with_reducible exact only_refl _ _ | assumption | with_reducible apply functionReset_only (within_trans rfl hp)
    | with_reducible apply atTime_only (within_trans rfl hp))

theorem linkDegraded_only {σ : State} {ps : List Part} (hp : within [.evt, .tab] ps = true) (p cause : Nat) (s
    : State) (h0 : onlyChanges ps σ s) : onlyChanges ps σ (linkDegraded p cause s) := by
  refine only_trans h0 ?_; clear h0; unfold linkDegraded
  repeat' (first
    | with_reducible exact only_refl _ _ | assumption | with_reducible apply occur_only (within_trans rfl hp))

theorem settlePort_only {σ : State} {ps : List Part} (hp : within [.evt, .sync, .tab] ps = true) (p : Nat)
    (offer : BitVec 2) (s : State) (h0 : onlyChanges ps σ s) : onlyChanges ps σ (settlePort p offer s) := by
  refine only_trans h0 ?_; clear h0; unfold settlePort
  (try dsimp only)
  repeat' (first
    | with_reducible exact only_refl _ _ | assumption | with_reducible apply updFPort_only (within_trans rfl hp)
    | with_reducible apply occur_only (within_trans rfl hp)
    | with_reducible apply linkDegraded_only (within_trans rfl hp) | with_reducible apply only_ite)

theorem trainPort_only {σ : State} {ps : List Part} (hp : within [.evt, .sync, .tab] ps = true) (p : Nat) (rep
    : Option PortReport) (s : State) (h0 : onlyChanges ps σ s) : onlyChanges ps σ (trainPort p rep s) := by
  refine only_trans h0 ?_; clear h0; unfold trainPort
  repeat' (first
    | with_reducible exact only_refl _ _ | assumption | with_reducible apply updFPort_only (within_trans rfl hp)
    | with_reducible apply settlePort_only (within_trans rfl hp) | with_reducible apply only_ite
    | (split <;> try dsimp only))

theorem trainPorts_only {ps : List Part} (hp : within [.evt, .sync, .tab] ps = true) (reports : List (Option
    PortReport)) : ∀ ls {σ s : State}, onlyChanges ps σ s → onlyChanges ps σ (trainPorts reports ls s) := by
  intro ls
  induction ls with
  | nil => intro σ s h; exact h
  | cons a l ih =>
    intro σ s h0
    refine only_trans h0 ?_; clear h0; unfold trainPorts
    repeat' (first
      | with_reducible exact only_refl _ _ | with_reducible apply ih | assumption
      | with_reducible apply trainPort_only (within_trans rfl hp))

theorem linkChanges_only {σ : State} {ps : List Part} (hp : within [.evt, .sync, .tab, .trace, .out] ps =
    true) (p : Nat) (ev : LinkEvent) (s : State) (h0 : onlyChanges ps σ s) : onlyChanges ps σ (linkChanges p
    ev s) := by
  refine only_trans h0 ?_; clear h0; unfold linkChanges
  (try dsimp only)
  repeat' (first
    | with_reducible exact only_refl _ _ | assumption | with_reducible apply linkDegraded_only (within_trans rfl hp)
    | with_reducible apply updFPort_only (within_trans rfl hp)
    | with_reducible apply settlePort_only (within_trans rfl hp)
    | with_reducible apply sendWaiting_only (within_trans rfl hp) | with_reducible apply only_ite
    | (split <;> try dsimp only))

theorem mismatchRecord_only {σ : State} {ps : List Part} (hp : within [.evt, .tab] ps = true) (p kind expected
    found : Nat) (s : State) (h0 : onlyChanges ps σ s) : onlyChanges ps σ (mismatchRecord p kind expected
    found s) := by
  refine only_trans h0 ?_; clear h0; unfold mismatchRecord
  repeat' (first
    | with_reducible exact only_refl _ _ | assumption | with_reducible apply occur_only (within_trans rfl hp))

theorem disablePort_only {σ : State} {ps : List Part} (hp : within [.sync] ps = true) (p : Nat) (s : State)
    (h0 : onlyChanges ps σ s) : onlyChanges ps σ (disablePort p s) := by
  refine only_trans h0 ?_; clear h0; unfold disablePort
  repeat' (first
    | with_reducible exact only_refl _ _ | assumption | with_reducible apply updFPort_only (within_trans rfl hp))

theorem compareListed_only {σ : State} {ps : List Part} (hp : within [.evt, .sync, .tab] ps = true) (t :
    TopoPort) (x : TopoCount × State) (h0 : onlyChanges ps σ x.2) : onlyChanges ps σ (compareListed t x).2 := by
  refine only_trans h0 ?_; clear h0; unfold compareListed
  (try dsimp only)
  repeat' (first
    | with_reducible exact only_refl _ _ | assumption | with_reducible apply mismatchRecord_only (within_trans rfl hp)
    | with_reducible apply disablePort_only (within_trans rfl hp) | with_reducible apply only_ite
    | (split <;> try dsimp only))

theorem compareUnlisted_only {σ : State} {ps : List Part} (hp : within [.evt, .sync, .tab] ps = true) (t :
    Topology) (p : Nat) (x : TopoCount × State) (h0 : onlyChanges ps σ x.2) : onlyChanges ps σ
    (compareUnlisted t p x).2 := by
  refine only_trans h0 ?_; clear h0; unfold compareUnlisted
  (try dsimp only)
  repeat' (first
    | with_reducible exact only_refl _ _ | assumption | with_reducible apply disablePort_only (within_trans rfl hp)
    | with_reducible apply mismatchRecord_only (within_trans rfl hp) | with_reducible apply only_ite
    | (split <;> try dsimp only))

theorem compareTopology_only {σ : State} {ps : List Part} (hp : within [.evt, .sync, .tab] ps = true) (t :
    Topology) (s : State) (h0 : onlyChanges ps σ s) : onlyChanges ps σ (compareTopology t s).2 := by
  refine only_trans h0 ?_; clear h0; unfold compareTopology
  dsimp only
  exact only_foldl2 (fun x p σ h => compareUnlisted_only (within_trans rfl hp) t p x h) _ _
    (only_foldl2 (fun x p σ h => compareListed_only (within_trans rfl hp) p x h) _ _ (only_refl _ s))

theorem execFabricLinkRetrain_only (t : Nat) (port : Port) (ev : LinkEvent) (s : State) : ∃ s',
    execFabricLinkRetrain t port ev s = .next s' ∧ onlyChanges [.now, .evt, .sync, .tab, .trace, .out] s s' := by
  refine ⟨_, rfl, ?_⟩
  have hp : within [.now, .evt, .sync, .tab, .trace, .out] [.now, .evt, .sync, .tab, .trace, .out] = true := rfl
  repeat' (first
    | with_reducible exact only_refl _ _ | assumption | with_reducible apply linkChanges_only (within_trans rfl hp)
    | with_reducible apply atTime_only (within_trans rfl hp))

theorem reportStage_only {σ : State} {ps : List Part} (hp : within [.evt, .tab, .boot] ps = true) (n result p3
    : Nat) (s : State) (h0 : onlyChanges ps σ s) : onlyChanges ps σ (reportStage n result p3 s) := by
  refine only_trans h0 ?_; clear h0; unfold reportStage
  (try dsimp only)
  repeat' (first
    | with_reducible exact only_refl _ _ | assumption | with_reducible apply updBoot_only (within_trans rfl hp)
    | with_reducible apply occur_only (within_trans rfl hp))

theorem startStage_only {σ : State} {ps : List Part} (hp : within [.boot, .i3c, .out] ps = true) (n : Nat) (s
    : State) (h0 : onlyChanges ps σ s) : onlyChanges ps σ (startStage n s) := by
  refine only_trans h0 ?_; clear h0; unfold startStage
  repeat' (first
    | with_reducible exact only_refl _ _ | assumption | with_reducible apply wantObjects_only (within_trans rfl hp)
    | with_reducible apply updBoot_only (within_trans rfl hp))

theorem stageFails_only {σ : State} {ps : List Part} (hp : within [.boot] ps = true) (n : Nat) (s : State) (h0
    : onlyChanges ps σ s) : onlyChanges ps σ (stageFails n s) := by
  refine only_trans h0 ?_; clear h0; unfold stageFails
  repeat' (first
    | with_reducible exact only_refl _ _ | assumption | with_reducible apply updBoot_only (within_trans rfl hp))

theorem skipStage_only {σ : State} {ps : List Part} (hp : within [.evt, .tab, .boot, .i3c, .out] ps = true) (n
    : Nat) (s : State) (h0 : onlyChanges ps σ s) : onlyChanges ps σ (skipStage n s) := by
  refine only_trans h0 ?_; clear h0; unfold skipStage
  repeat' (first
    | with_reducible exact only_refl _ _ | assumption | with_reducible apply startStage_only (within_trans rfl hp)
    | with_reducible apply reportStage_only (within_trans rfl hp)
    | with_reducible apply stageFails_only (within_trans rfl hp))

theorem stageB0_only {σ : State} {ps : List Part} (hp : within [.evt, .tab, .boot, .i3c, .out] ps = true) (ctl
    core hbm io : Bool) (s : State) (h0 : onlyChanges ps σ s) : onlyChanges ps σ (stageB0 ctl core hbm io s) := by
  refine only_trans h0 ?_; clear h0; unfold stageB0
  (try dsimp only)
  repeat' (first
    | with_reducible exact only_refl _ _ | assumption | with_reducible apply startStage_only (within_trans rfl hp)
    | with_reducible apply reportStage_only (within_trans rfl hp) | with_reducible apply only_ite)

theorem stageB1_only {σ : State} {ps : List Part} (hp : within [.evt, .led, .tab, .boot, .i3c, .out] ps =
    true) (s : State) (h0 : onlyChanges ps σ s) : onlyChanges ps σ (stageB1 s) := by
  refine only_trans h0 ?_; clear h0; unfold stageB1
  (try dsimp only)
  repeat' (first
    | with_reducible exact only_refl _ _ | assumption | with_reducible apply updBoot_only (within_trans rfl hp)
    | with_reducible apply updLed_only (within_trans rfl hp)
    | with_reducible apply startStage_only (within_trans rfl hp)
    | with_reducible apply reportStage_only (within_trans rfl hp) | with_reducible apply only_ite)

theorem setRegulator_only {σ : State} {ps : List Part} (hp : within [.evt, .tempo, .tab, .out] ps = true) (ok
    : Bool) (vout d : Nat) (s : State) (h0 : onlyChanges ps σ s) : onlyChanges ps σ (setRegulator ok vout d s) := by
  refine only_trans h0 ?_; clear h0; unfold setRegulator
  (try dsimp only)
  repeat' (first
    | with_reducible exact only_refl _ _ | assumption | with_reducible apply avsSend_only (within_trans rfl hp)
    | with_reducible apply updDomain_only (within_trans rfl hp)
    | with_reducible apply occur_only (within_trans rfl hp) | with_reducible apply setPoint_only (within_trans rfl hp)
    | with_reducible apply updOut_only (within_trans rfl hp) | with_reducible apply only_ite)

theorem setRegulators_only {ps : List Part} (hp : within [.evt, .tempo, .tab, .out] ps = true) (ok : BitVec
    16) (vout : List Nat) : ∀ ls {σ s : State}, onlyChanges ps σ s → onlyChanges ps σ (setRegulators ok vout
    ls s) := by
  intro ls
  induction ls with
  | nil => intro σ s h; exact h
  | cons a l ih =>
    intro σ s h0
    refine only_trans h0 ?_; clear h0; unfold setRegulators
    repeat' (first
      | with_reducible exact only_refl _ _ | with_reducible apply ih | assumption
      | with_reducible apply setRegulator_only (within_trans rfl hp))

theorem faultAll_only {ps : List Part} (hp : within [.evt, .tempo, .tab, .out] ps = true) (vout : List Nat) :
    ∀ ls {σ s : State}, onlyChanges ps σ s → onlyChanges ps σ (faultAll vout ls s) := by
  intro ls
  induction ls with
  | nil => intro σ s h; exact h
  | cons a l ih =>
    intro σ s h0
    refine only_trans h0 ?_; clear h0; unfold faultAll
    repeat' (first
      | with_reducible exact only_refl _ _ | with_reducible apply ih | assumption
      | with_reducible apply avsFault_only (within_trans rfl hp))

theorem loadReplicas_only {σ : State} {ps : List Part} (hp : within [.replicas] ps = true) (timebase : Bool)
    (lags : List (Fin 3)) (s : State) (h0 : onlyChanges ps σ s) : onlyChanges ps σ (loadReplicas timebase lags
    s) := by
  refine only_trans h0 ?_; clear h0; unfold loadReplicas
  repeat' (first
    | with_reducible exact only_refl _ _ | assumption | with_reducible apply only_ite | (intro _; try dsimp only)
    | dsimp only
    | exact ⟨rfl, fun p h => by cases p <;> first | (with_reducible rfl) | exact absurd (within_mem hp rfl) h⟩)

theorem stageB2_only {σ : State} {ps : List Part} (hp : within [.evt, .crash, .tempo, .tab, .trace, .boot,
    .i3c, .replicas, .out] ps = true) (regulators : BitVec 16) (readback again : List Nat) (timebase tracePll
    : Bool) (lags : List (Fin 3)) (s : State) (h0 : onlyChanges ps σ s) : onlyChanges ps σ (stageB2 regulators
    readback again timebase tracePll lags s) := by
  refine only_trans h0 ?_; clear h0; unfold stageB2
  (try dsimp only)
  repeat' (first
    | with_reducible exact only_refl _ _ | assumption | with_reducible apply completeCopy_only (within_trans rfl hp)
    | with_reducible apply setRegulators_only (within_trans rfl hp)
    | with_reducible apply updTempo_only (within_trans rfl hp)
    | with_reducible apply faultAll_only (within_trans rfl hp)
    | with_reducible apply loadReplicas_only (within_trans rfl hp)
    | with_reducible apply updBoot_only (within_trans rfl hp)
    | with_reducible apply startFlush_only (within_trans rfl hp)
    | with_reducible apply linesLock_only (within_trans rfl hp)
    | with_reducible apply stageFails_only (within_trans rfl hp)
    | with_reducible apply startStage_only (within_trans rfl hp)
    | with_reducible apply reportStage_only (within_trans rfl hp) | with_reducible apply only_ite)

theorem sliceResult_only {σ : State} {ps : List Part} (hp : within [.evt, .tab, .boot] ps = true) (i : Nat)
    (gave : Bool) (expected observed : Word) (s : State) (h0 : onlyChanges ps σ s) : onlyChanges ps σ
    (sliceResult i gave expected observed s) := by
  refine only_trans h0 ?_; clear h0; unfold sliceResult
  (try dsimp only)
  repeat' (first
    | with_reducible exact only_refl _ _ | assumption | with_reducible apply updBoot_only (within_trans rfl hp)
    | with_reducible apply occur_only (within_trans rfl hp) | with_reducible apply only_ite
    | (split <;> try dsimp only))

theorem placeRegions_only {σ : State} {ps : List Part} (hp : within [.adj, .boot] ps = true) (s : State) (h0 :
    onlyChanges ps σ s) : onlyChanges ps σ (placeRegions s) := by
  refine only_trans h0 ?_; clear h0; unfold placeRegions
  repeat' (first
    | with_reducible exact only_refl _ _ | assumption | with_reducible apply updAdj_only (within_trans rfl hp)
    | with_reducible apply updBoot_only (within_trans rfl hp) | with_reducible apply only_ite
    | (split <;> try dsimp only))

theorem coresOut_only {σ : State} {ps : List Part} (hp : within [.rst] ps = true) (s : State) (h0 :
    onlyChanges ps σ s) : onlyChanges ps σ (coresOut s) := by
  refine only_trans h0 ?_; clear h0; unfold coresOut
  repeat' (first
    | with_reducible exact only_refl _ _ | assumption | with_reducible apply updRst_only (within_trans rfl hp)
    | with_reducible apply only_ite)

theorem endB3_only {σ : State} {ps : List Part} (hp : within [.evt, .adj, .tab, .boot, .i3c, .out] ps = true)
    (trained : Byte) (used : Bool) (s : State) (h0 : onlyChanges ps σ s) : onlyChanges ps σ (endB3 trained
    used s) := by
  refine only_trans h0 ?_; clear h0; unfold endB3
  (try dsimp only)
  repeat' (first
    | with_reducible exact only_refl _ _ | assumption | with_reducible apply updBoot_only (within_trans rfl hp)
    | with_reducible apply placeRegions_only (within_trans rfl hp)
    | with_reducible apply stageFails_only (within_trans rfl hp)
    | with_reducible apply startStage_only (within_trans rfl hp)
    | with_reducible apply reportStage_only (within_trans rfl hp) | with_reducible apply only_ite)

theorem restoreMemory_only {σ : State} {ps : List Part} (hp : within [.evt, .rst, .tab, .boot, .i3c, .out] ps
    = true) (s : State) (h0 : onlyChanges ps σ s) : onlyChanges ps σ (restoreMemory s) := by
  refine only_trans h0 ?_; clear h0; unfold restoreMemory
  (try dsimp only)
  repeat' (first
    | with_reducible exact only_refl _ _ | assumption | with_reducible apply updBoot_only (within_trans rfl hp)
    | with_reducible apply stageFails_only (within_trans rfl hp)
    | with_reducible apply startStage_only (within_trans rfl hp)
    | with_reducible apply coresOut_only (within_trans rfl hp)
    | with_reducible apply reportStage_only (within_trans rfl hp) | with_reducible apply only_ite)

theorem stageB3_only {σ : State} {ps : List Part} (hp : within [.evt, .rst, .tab, .boot, .i3c, .out] ps =
    true) (s : State) (h0 : onlyChanges ps σ s) : onlyChanges ps σ (stageB3 s) := by
  refine only_trans h0 ?_; clear h0; unfold stageB3
  (try dsimp only)
  repeat' (first
    | with_reducible exact only_refl _ _ | assumption | with_reducible apply skipStage_only (within_trans rfl hp)
    | with_reducible apply updBoot_only (within_trans rfl hp)
    | with_reducible apply restoreMemory_only (within_trans rfl hp) | with_reducible apply only_ite)

theorem writeMemtrain_only {σ : State} {ps : List Part} (hp : within [.evt, .cfg, .adj, .tab, .boot, .i3c,
    .out] ps = true) (r : Requester) (value : Word) (s : State) (h0 : onlyChanges ps σ s) : onlyChanges ps σ
    (writeMemtrain r value s) := by
  refine only_trans h0 ?_; clear h0; unfold writeMemtrain
  (try dsimp only)
  repeat' (first
    | with_reducible exact only_refl _ _ | assumption | with_reducible apply updBoot_only (within_trans rfl hp)
    | with_reducible apply setResult_only (within_trans rfl hp)
    | with_reducible apply offerObject_only (within_trans rfl hp)
    | with_reducible apply endB3_only (within_trans rfl hp) | with_reducible apply only_ite)

theorem enterB5_only {σ : State} {ps : List Part} (hp : within [.evt, .rst, .tab, .boot, .i3c, .out] ps =
    true) (s : State) (h0 : onlyChanges ps σ s) : onlyChanges ps σ (enterB5 s) := by
  refine only_trans h0 ?_; clear h0; unfold enterB5
  (try dsimp only)
  repeat' (first
    | with_reducible exact only_refl _ _ | assumption | with_reducible apply startStage_only (within_trans rfl hp)
    | with_reducible apply updBoot_only (within_trans rfl hp) | with_reducible apply occur_only (within_trans rfl hp)
    | with_reducible apply coresOut_only (within_trans rfl hp) | with_reducible apply only_ite)

theorem endB4_only {σ : State} {ps : List Part} (hp : within [.evt, .adj, .rst, .tab, .boot, .i3c, .out] ps =
    true) (found : Nat → StackScreen) (s : State) (h0 : onlyChanges ps σ s) : onlyChanges ps σ (endB4 found s) := by
  refine only_trans h0 ?_; clear h0; unfold endB4
  (try dsimp only)
  repeat' (first
    | with_reducible exact only_refl _ _ | assumption | with_reducible apply placeRegions_only (within_trans rfl hp)
    | with_reducible apply updBoot_only (within_trans rfl hp)
    | with_reducible apply stageFails_only (within_trans rfl hp)
    | with_reducible apply enterB5_only (within_trans rfl hp)
    | with_reducible apply reportStage_only (within_trans rfl hp) | with_reducible apply only_ite)

theorem stageB4_only {σ : State} {ps : List Part} (hp : within [.evt, .adj, .rst, .tab, .boot, .i3c, .out] ps
    = true) (found : List StackScreen) (s : State) (h0 : onlyChanges ps σ s) : onlyChanges ps σ (stageB4 found
    s) := by
  refine only_trans h0 ?_; clear h0; unfold stageB4
  repeat' (first
    | with_reducible exact only_refl _ _ | assumption | with_reducible apply enterB5_only (within_trans rfl hp)
    | with_reducible apply skipStage_only (within_trans rfl hp)
    | with_reducible apply endB4_only (within_trans rfl hp) | with_reducible apply only_ite)

theorem countAdded_only {σ : State} {ps : List Part} (hp : within [.boot] ps = true)  (s : State) (h0 :
    onlyChanges ps σ s) : onlyChanges ps σ (countAdded  s) := by
  refine only_trans h0 ?_; clear h0; unfold countAdded
  repeat' (first
    | with_reducible exact only_refl _ _ | assumption | with_reducible apply updBoot_only (within_trans rfl hp))

theorem endB5_only {σ : State} {ps : List Part} (hp : within [.evt, .tab, .boot, .i3c, .out] ps = true) (bad :
    Nat → Bool) (s : State) (h0 : onlyChanges ps σ s) : onlyChanges ps σ (endB5 bad s) := by
  refine only_trans h0 ?_; clear h0; unfold endB5
  (try dsimp only)
  repeat' (first
    | with_reducible exact only_refl _ _ | assumption | with_reducible apply updBoot_only (within_trans rfl hp)
    | with_reducible apply countAdded_only (within_trans rfl hp)
    | with_reducible apply startStage_only (within_trans rfl hp)
    | with_reducible apply reportStage_only (within_trans rfl hp))

theorem stageB5_only {σ : State} {ps : List Part} (hp : within [.evt, .tab, .boot, .i3c, .out] ps = true)
    (patternFail katFail : BitVec 256) (s : State) (h0 : onlyChanges ps σ s) : onlyChanges ps σ (stageB5
    patternFail katFail s) := by
  refine only_trans h0 ?_; clear h0; unfold stageB5
  repeat' (first
    | with_reducible exact only_refl _ _ | assumption | with_reducible apply skipStage_only (within_trans rfl hp)
    | with_reducible apply endB5_only (within_trans rfl hp) | with_reducible apply only_ite)

theorem endB6_only {σ : State} {ps : List Part} (hp : within [.evt, .sync, .tab, .boot, .i3c, .out] ps = true)
    (reports : List (Option PortReport)) (s : State) (h0 : onlyChanges ps σ s) : onlyChanges ps σ (endB6
    reports s) := by
  refine only_trans h0 ?_; clear h0; unfold endB6
  (try dsimp only)
  repeat' (first
    | with_reducible exact only_refl _ _ | assumption | with_reducible apply trainPorts_only (within_trans rfl hp)
    | with_reducible apply startStage_only (within_trans rfl hp)
    | with_reducible apply reportStage_only (within_trans rfl hp))

theorem stageB6_only {σ : State} {ps : List Part} (hp : within [.evt, .sync, .tab, .boot, .i3c, .out] ps =
    true) (reports : List (Option PortReport)) (s : State) (h0 : onlyChanges ps σ s) : onlyChanges ps σ
    (stageB6 reports s) := by
  refine only_trans h0 ?_; clear h0; unfold stageB6
  repeat' (first
    | with_reducible exact only_refl _ _ | assumption | with_reducible apply skipStage_only (within_trans rfl hp)
    | with_reducible apply endB6_only (within_trans rfl hp) | with_reducible apply only_ite)

theorem endB7_only {σ : State} {ps : List Part} (hp : within [.evt, .tab, .boot, .i3c, .out] ps = true) (k :
    TopoCount) (s : State) (h0 : onlyChanges ps σ s) : onlyChanges ps σ (endB7 k s) := by
  refine only_trans h0 ?_; clear h0; unfold endB7
  repeat' (first
    | with_reducible exact only_refl _ _ | assumption | with_reducible apply startStage_only (within_trans rfl hp)
    | with_reducible apply reportStage_only (within_trans rfl hp))

theorem stageB7_only {σ : State} {ps : List Part} (hp : within [.evt, .sync, .tab, .boot, .i3c, .out] ps =
    true) (s : State) (h0 : onlyChanges ps σ s) : onlyChanges ps σ (stageB7 s) := by
  refine only_trans h0 ?_; clear h0; unfold stageB7
  (try dsimp only)
  repeat' (first
    | with_reducible exact only_refl _ _ | assumption | with_reducible apply skipStage_only (within_trans rfl hp)
    | with_reducible apply compareTopology_only (within_trans rfl hp)
    | with_reducible apply endB7_only (within_trans rfl hp) | with_reducible apply only_ite
    | (split <;> try dsimp only))

theorem applyTapFloor_only {σ : State} {ps : List Part} (hp : within [.boot] ps = true) (floor : Nat) (s :
    State) (h0 : onlyChanges ps σ s) : onlyChanges ps σ (applyTapFloor floor s) := by
  refine only_trans h0 ?_; clear h0; unfold applyTapFloor
  (try dsimp only)
  repeat' (first
    | with_reducible exact only_refl _ _ | assumption | with_reducible apply updBoot_only (within_trans rfl hp))

theorem applySyncFloor_only {ps : List Part} (hp : within [.evt, .sync, .tab] ps = true) (floor : Nat) : ∀ ls
    {σ s : State}, onlyChanges ps σ s → onlyChanges ps σ (applySyncFloor floor ls s) := by
  intro ls
  induction ls with
  | nil => intro σ s h; exact h
  | cons a l ih =>
    intro σ s h0
    refine only_trans h0 ?_; clear h0; unfold applySyncFloor
    (try dsimp only)
    repeat' (first
      | with_reducible exact only_refl _ _ | with_reducible apply ih | assumption
      | with_reducible apply updFPort_only (within_trans rfl hp)
      | with_reducible apply linkDegraded_only (within_trans rfl hp) | with_reducible apply only_ite)

theorem applyHostFloor_only {σ : State} {ps : List Part} (hp : within [.evt, .cfg, .tab] ps = true) (floor :
    Nat) (s : State) (h0 : onlyChanges ps σ s) : onlyChanges ps σ (applyHostFloor floor s) := by
  refine only_trans h0 ?_; clear h0; unfold applyHostFloor
  repeat' (first
    | with_reducible exact only_refl _ _ | assumption | with_reducible apply recordHostGen_only (within_trans rfl hp)
    | with_reducible apply updCfg_only (within_trans rfl hp) | with_reducible apply only_ite)

theorem restoreLedger_only {σ : State} {ps : List Part} (hp : within [.led] ps = true) (ch : Charter) (s :
    State) (h0 : onlyChanges ps σ s) : onlyChanges ps σ (restoreLedger ch s) := by
  refine only_trans h0 ?_; clear h0; unfold restoreLedger
  repeat' (first
    | with_reducible exact only_refl _ _ | assumption | with_reducible apply updLed_only (within_trans rfl hp)
    | with_reducible apply only_ite | (split <;> try dsimp only))

theorem loadStations_only {ps : List Part} (hp : within [.stations] ps = true)  : ∀ ls {σ s : State},
    onlyChanges ps σ s → onlyChanges ps σ (loadStations  ls s) := by
  intro ls
  induction ls with
  | nil => intro σ s h; exact h
  | cons a l ih =>
    intro σ s h0
    refine only_trans h0 ?_; clear h0; unfold loadStations
    repeat' (first
      | with_reducible exact only_refl _ _ | with_reducible apply ih | assumption
      | with_reducible apply preload_only (within_trans rfl hp)
      | with_reducible apply updStation_only (within_trans rfl hp))

theorem applyCharter_only {σ : State} {ps : List Part} (hp : within [.evt, .cfg, .stations, .hz, .ctxs, .led,
    .tempo, .sync, .tab, .trace, .boot, .i3c, .out] ps = true) (ch : Charter) (img : List Byte) (s : State)
    (h0 : onlyChanges ps σ s) : onlyChanges ps σ (applyCharter ch img s) := by
  refine only_trans h0 ?_; clear h0; unfold applyCharter
  (try dsimp only)
  repeat' (first
    | with_reducible exact only_refl _ _ | assumption | with_reducible apply updCfg_only (within_trans rfl hp)
    | with_reducible apply noteGating_only (within_trans rfl hp)
    | with_reducible apply acceptCharter_only (within_trans rfl hp)
    | with_reducible apply loadStations_only (within_trans rfl hp)
    | with_reducible apply updBoot_only (within_trans rfl hp)
    | with_reducible apply applySyncFloor_only (within_trans rfl hp)
    | with_reducible apply applyHostFloor_only (within_trans rfl hp)
    | with_reducible apply updEvt_only (within_trans rfl hp)
    | with_reducible apply restoreLedger_only (within_trans rfl hp)
    | with_reducible apply applyPolicy_only (within_trans rfl hp)
    | with_reducible apply drainBegins_only (within_trans rfl hp) | with_reducible apply only_ite)

theorem coreRule_only {σ : State} {ps : List Part} (hp : within [.evt, .tab] ps = true) (ch : Charter) (s :
    State) (h0 : onlyChanges ps σ s) : onlyChanges ps σ (coreRule ch s).2 := by
  refine only_trans h0 ?_; clear h0; unfold coreRule
  (try dsimp only)
  repeat' (first
    | with_reducible exact only_refl _ _ | assumption | with_reducible apply mismatchRecord_only (within_trans rfl hp)
    | with_reducible apply only_ite | (split <;> try dsimp only))

theorem endB8_only {σ : State} {ps : List Part} (hp : within [.evt, .tab, .boot, .i3c, .out] ps = true)
    (result serial : Nat) (s : State) (h0 : onlyChanges ps σ s) : onlyChanges ps σ (endB8 result serial s) := by
  refine only_trans h0 ?_; clear h0; unfold endB8
  repeat' (first
    | with_reducible exact only_refl _ _ | assumption | with_reducible apply startStage_only (within_trans rfl hp)
    | with_reducible apply reportStage_only (within_trans rfl hp))

theorem applyFirst_only {σ : State} {ps : List Part} (hp : within [.evt, .cfg, .stations, .hz, .ctxs, .led,
    .tempo, .sync, .tab, .trace, .boot, .i3c, .out] ps = true) (ch : Charter) (img : List Byte) (s : State)
    (h0 : onlyChanges ps σ s) : onlyChanges ps σ (applyFirst ch img s) := by
  refine only_trans h0 ?_; clear h0; unfold applyFirst
  (try dsimp only)
  repeat' (first
    | with_reducible exact only_refl _ _ | assumption | with_reducible apply applyTapFloor_only (within_trans rfl hp)
    | with_reducible apply updBoot_only (within_trans rfl hp)
    | with_reducible apply rejectCharter_only (within_trans rfl hp)
    | with_reducible apply updCfg_only (within_trans rfl hp)
    | with_reducible apply coreRule_only (within_trans rfl hp) | with_reducible apply endB8_only (within_trans rfl hp)
    | with_reducible apply applyCharter_only (within_trans rfl hp) | with_reducible apply only_ite
    | (split <;> try dsimp only))

theorem reapply_only {σ : State} {ps : List Part} (hp : within [.evt, .cfg, .stations, .hz, .ctxs, .led,
    .tempo, .sync, .tab, .trace, .boot, .i3c, .out] ps = true) (s : State) (h0 : onlyChanges ps σ s) :
    onlyChanges ps σ (reapply s) := by
  refine only_trans h0 ?_; clear h0; unfold reapply
  (try dsimp only)
  repeat' (first
    | with_reducible exact only_refl _ _ | assumption | with_reducible apply endB8_only (within_trans rfl hp)
    | with_reducible apply rejectCharter_only (within_trans rfl hp)
    | with_reducible apply coreRule_only (within_trans rfl hp)
    | with_reducible apply applyCharter_only (within_trans rfl hp) | with_reducible apply only_ite
    | (split <;> try dsimp only))

theorem stageB8_only {σ : State} {ps : List Part} (hp : within [.evt, .cfg, .stations, .hz, .ctxs, .led,
    .tempo, .sync, .tab, .trace, .boot, .i3c, .out] ps = true) (s : State) (h0 : onlyChanges ps σ s) :
    onlyChanges ps σ (stageB8 s) := by
  refine only_trans h0 ?_; clear h0; unfold stageB8
  repeat' (first
    | with_reducible exact only_refl _ _ | assumption | with_reducible apply skipStage_only (within_trans rfl hp)
    | with_reducible apply reapply_only (within_trans rfl hp)
    | with_reducible apply applyFirst_only (within_trans rfl hp) | with_reducible apply only_ite
    | (split <;> try dsimp only))

theorem addFlagged_only {σ : State} {ps : List Part} (hp : within [.boot, .i3c, .out] ps = true) (s : State)
    (h0 : onlyChanges ps σ s) : onlyChanges ps σ (addFlagged s) := by
  refine only_trans h0 ?_; clear h0; unfold addFlagged
  (try dsimp only)
  repeat' (first
    | with_reducible exact only_refl _ _ | assumption | with_reducible apply offerImage_only (within_trans rfl hp)
    | with_reducible apply otpBurn_only (within_trans rfl hp) | with_reducible apply only_ite
    | (split <;> try dsimp only))

theorem markReturned_only {σ : State} {ps : List Part} (hp : within [.led, .boot, .i3c, .out] ps = true) (s :
    State) (h0 : onlyChanges ps σ s) : onlyChanges ps σ (markReturned s) := by
  refine only_trans h0 ?_; clear h0; unfold markReturned
  (try dsimp only)
  repeat' (first
    | with_reducible exact only_refl _ _ | assumption | with_reducible apply offerImage_only (within_trans rfl hp)
    | with_reducible apply otpBurn_only (within_trans rfl hp) | with_reducible apply updLed_only (within_trans rfl hp)
    | with_reducible apply only_ite | (split <;> try dsimp only))

theorem serviceAt_only {σ : State} {ps : List Part} (hp : within [.evt, .led, .tempo, .tab, .boot, .i3c, .out]
    ps = true) (s : State) (h0 : onlyChanges ps σ s) : onlyChanges ps σ (serviceAt s) := by
  refine only_trans h0 ?_; clear h0; unfold serviceAt
  (try dsimp only)
  repeat' (first
    | with_reducible exact only_refl _ _ | assumption | with_reducible apply setState_only (within_trans rfl hp)
    | with_reducible apply markReturned_only (within_trans rfl hp)
    | with_reducible apply addFlagged_only (within_trans rfl hp) | with_reducible apply only_ite)

theorem enterService_only {σ : State} {ps : List Part} (hp : within [.evt, .led, .tempo, .tab, .boot, .i3c,
    .out] ps = true) (s : State) (h0 : onlyChanges ps σ s) : onlyChanges ps σ (enterService s) := by
  refine only_trans h0 ?_; clear h0; unfold enterService
  repeat' (first
    | with_reducible exact only_refl _ _ | assumption
    | with_reducible apply unscheduledReport_only (within_trans rfl hp)
    | with_reducible apply serviceAt_only (within_trans rfl hp) | with_reducible apply only_ite)

theorem startIntervals_only {σ : State} {ps : List Part} (hp : within [.led] ps = true) (s : State) (h0 :
    onlyChanges ps σ s) : onlyChanges ps σ (startIntervals s) := by
  refine only_trans h0 ?_; clear h0; unfold startIntervals
  repeat' (first
    | with_reducible exact only_refl _ _ | assumption | with_reducible apply updLed_only (within_trans rfl hp)
    | with_reducible apply only_ite)

theorem endB9_only {σ : State} {ps : List Part} (hp : within [.evt, .crash, .hz, .ctxs, .led, .tempo, .sync,
    .rst, .tab, .boot, .i3c, .out] ps = true) (s : State) (h0 : onlyChanges ps σ s) : onlyChanges ps σ (endB9
    s) := by
  refine only_trans h0 ?_; clear h0; unfold endB9
  (try dsimp only)
  repeat' (first
    | with_reducible exact only_refl _ _ | assumption | with_reducible apply reportStage_only (within_trans rfl hp)
    | with_reducible apply updBoot_only (within_trans rfl hp)
    | with_reducible apply escalate_only (within_trans rfl hp) | with_reducible apply only_ite
    | (split <;> try dsimp only))

theorem stageB9_only {σ : State} {ps : List Part} (hp : within [.evt, .crash, .hz, .ctxs, .led, .tempo, .sync,
    .rst, .tab, .boot, .i3c, .out] ps = true) (s : State) (h0 : onlyChanges ps σ s) : onlyChanges ps σ
    (stageB9 s) := by
  refine only_trans h0 ?_; clear h0; unfold stageB9
  repeat' (first
    | with_reducible exact only_refl _ _ | assumption | with_reducible apply endB9_only (within_trans rfl hp)
    | with_reducible apply startIntervals_only (within_trans rfl hp)
    | with_reducible apply enterService_only (within_trans rfl hp) | with_reducible apply only_ite)

theorem settleUnits_only {σ : State} {ps : List Part} (hp : within [.boot] ps = true) (s : State) (h0 :
    onlyChanges ps σ s) : onlyChanges ps σ (settleUnits s) := by
  refine only_trans h0 ?_; clear h0; unfold settleUnits
  repeat' (first
    | with_reducible exact only_refl _ _ | assumption | with_reducible apply updBoot_only (within_trans rfl hp)
    | with_reducible apply countAdded_only (within_trans rfl hp) | with_reducible apply only_ite
    | (split <;> try dsimp only))

theorem stageOverruns_only {σ : State} {ps : List Part} (hp : within [.evt, .crash, .hz, .ctxs, .led, .tempo,
    .sync, .rst, .tab, .boot, .i3c, .out] ps = true) (s : State) (h0 : onlyChanges ps σ s) : onlyChanges ps σ
    (stageOverruns s) := by
  refine only_trans h0 ?_; clear h0; unfold stageOverruns
  (try dsimp only)
  repeat' (first
    | with_reducible exact only_refl _ _ | assumption | with_reducible apply stageFails_only (within_trans rfl hp)
    | with_reducible apply settleUnits_only (within_trans rfl hp)
    | with_reducible apply endB9_only (within_trans rfl hp) | with_reducible apply updBoot_only (within_trans rfl hp)
    | with_reducible apply reportStage_only (within_trans rfl hp)
    | with_reducible apply enterB5_only (within_trans rfl hp)
    | with_reducible apply startStage_only (within_trans rfl hp) | with_reducible apply only_ite)

theorem limitReached_only {σ : State} {ps : List Part} (hp : within [.evt, .crash, .hz, .ctxs, .adj, .led,
    .tempo, .sync, .rst, .tab, .boot, .i3c, .out] ps = true) (dropped : StageUnit) (s : State) (h0 :
    onlyChanges ps σ s) : onlyChanges ps σ (limitReached dropped s) := by
  refine only_trans h0 ?_; clear h0; unfold limitReached
  repeat' (first
    | with_reducible exact only_refl _ _ | assumption | with_reducible apply restoreMemory_only (within_trans rfl hp)
    | with_reducible apply updBoot_only (within_trans rfl hp) | with_reducible apply endB3_only (within_trans rfl hp)
    | with_reducible apply endB4_only (within_trans rfl hp) | with_reducible apply endB6_only (within_trans rfl hp)
    | with_reducible apply endB5_only (within_trans rfl hp)
    | with_reducible apply stageOverruns_only (within_trans rfl hp) | with_reducible apply only_ite
    | (split <;> try dsimp only))

theorem powerOn_only {σ : State} {ps : List Part} (hp : within [.rst, .boot, .i3c, .out] ps = true) (s :
    State) (h0 : onlyChanges ps σ s) : onlyChanges ps σ (powerOn s) := by
  refine only_trans h0 ?_; clear h0; unfold powerOn
  repeat' (first
    | with_reducible exact only_refl _ _ | assumption | with_reducible apply startStage_only (within_trans rfl hp)
    | with_reducible apply updRst_only (within_trans rfl hp) | with_reducible apply updBoot_only (within_trans rfl hp)
    | with_reducible apply only_ite)

theorem powerLost_only {σ : State} {ps : List Part} (hp : within [.now, .evt, .crash, .cfg, .stations, .hz,
    .ctxs, .adj, .led, .tempo, .sync, .rst, .tab, .trace, .boot, .i3c, .mem, .memPoison, .replicas, .out] ps =
    true) (s : State) (h0 : onlyChanges ps σ s) : onlyChanges ps σ (powerLost s) := by
  refine only_trans h0 ?_; clear h0; unfold powerLost
  (try dsimp only)
  repeat' (first
    | with_reducible exact only_refl _ _ | assumption | with_reducible apply only_ite | (intro _; try dsimp only)
    | dsimp only
    | exact ⟨rfl, fun p h => by cases p <;> first | (with_reducible rfl) | exact absurd (within_mem hp rfl) h⟩)

theorem execPwrOkRise_only (s : State) : ∃ s', execPwrOkRise s = .next s' ∧ onlyChanges [.rst, .boot, .i3c,
    .out] s s' := by
  refine ⟨_, rfl, ?_⟩
  have hp : within [.rst, .boot, .i3c, .out] [.rst, .boot, .i3c, .out] = true := rfl
  repeat' (first
    | with_reducible exact only_refl _ _ | assumption | with_reducible apply powerOn_only (within_trans rfl hp))

theorem execSupplyLoss_only (s : State) : ∃ s', execSupplyLoss s = .next s' ∧ onlyChanges [.now, .evt, .crash,
    .cfg, .stations, .hz, .ctxs, .adj, .led, .tempo, .sync, .rst, .tab, .trace, .boot, .i3c, .mem, .memPoison,
    .replicas, .out] s s' := by
  refine ⟨_, rfl, ?_⟩
  have hp : within [.now, .evt, .crash, .cfg, .stations, .hz, .ctxs, .adj, .led, .tempo, .sync, .rst, .tab, .trace, .boot, .i3c, .mem, .memPoison, .replicas, .out] [.now, .evt, .crash, .cfg, .stations, .hz, .ctxs, .adj, .led, .tempo, .sync, .rst, .tab, .trace, .boot, .i3c, .mem, .memPoison, .replicas, .out] = true := rfl
  repeat' (first
    | with_reducible exact only_refl _ _ | assumption | with_reducible apply powerLost_only (within_trans rfl hp))

theorem execStageB0Supply_only (t : Nat) (ctl core hbm io : Bool) (s : State) : ∃ s', execStageB0Supply t ctl
    core hbm io s = .next s' ∧ onlyChanges [.now, .evt, .tab, .boot, .i3c, .out] s s' := by
  refine ⟨_, rfl, ?_⟩
  have hp : within [.now, .evt, .tab, .boot, .i3c, .out] [.now, .evt, .tab, .boot, .i3c, .out] = true := rfl
  repeat' (first
    | with_reducible exact only_refl _ _ | assumption | with_reducible apply stageB0_only (within_trans rfl hp)
    | with_reducible apply atTime_only (within_trans rfl hp))

theorem execStageB1Caller_only (t : Nat) (s : State) : ∃ s', execStageB1Caller t s = .next s' ∧ onlyChanges
    [.now, .evt, .led, .tab, .boot, .i3c, .out] s s' := by
  refine ⟨_, rfl, ?_⟩
  have hp : within [.now, .evt, .led, .tab, .boot, .i3c, .out] [.now, .evt, .led, .tab, .boot, .i3c, .out] = true := rfl
  repeat' (first
    | with_reducible exact only_refl _ _ | assumption | with_reducible apply stageB1_only (within_trans rfl hp)
    | with_reducible apply atTime_only (within_trans rfl hp))

theorem execStageB2Clocks_only (t : Nat) (regulators : BitVec 16) (readback : Readback) (timebase :
    TimebaseStart) (tracePll : Bool) (s : State) : ∃ s', execStageB2Clocks t regulators readback timebase
    tracePll s = .next s' ∧ onlyChanges [.now, .evt, .crash, .tempo, .tab, .trace, .boot, .i3c, .replicas,
    .out] s s' := by
  refine ⟨_, rfl, ?_⟩
  have hp : within [.now, .evt, .crash, .tempo, .tab, .trace, .boot, .i3c, .replicas, .out] [.now, .evt, .crash, .tempo, .tab, .trace, .boot, .i3c, .replicas, .out] = true := rfl
  repeat' (first
    | with_reducible exact only_refl _ _ | assumption | with_reducible apply stageB2_only (within_trans rfl hp)
    | with_reducible apply atTime_only (within_trans rfl hp))

theorem execStageB3Memtrain_only (t : Nat) (s : State) : ∃ s', execStageB3Memtrain t s = .next s' ∧
    onlyChanges [.now, .evt, .rst, .tab, .boot, .i3c, .out] s s' := by
  refine ⟨_, rfl, ?_⟩
  have hp : within [.now, .evt, .rst, .tab, .boot, .i3c, .out] [.now, .evt, .rst, .tab, .boot, .i3c, .out] = true := rfl
  repeat' (first
    | with_reducible exact only_refl _ _ | assumption | with_reducible apply stageB3_only (within_trans rfl hp)
    | with_reducible apply atTime_only (within_trans rfl hp))

theorem execMemtrainDone_only (t : Nat) (r : Requester) (value : Word) (s : State) : ∃ s', execMemtrainDone t
    r value s = .next s' ∧ onlyChanges [.now, .evt, .cfg, .adj, .tab, .boot, .i3c, .out] s s' := by
  refine ⟨_, rfl, ?_⟩
  have hp : within [.now, .evt, .cfg, .adj, .tab, .boot, .i3c, .out] [.now, .evt, .cfg, .adj, .tab, .boot, .i3c, .out] = true := rfl
  repeat' (first
    | with_reducible exact only_refl _ _ | assumption | with_reducible apply writeMemtrain_only (within_trans rfl hp)
    | with_reducible apply atTime_only (within_trans rfl hp))

theorem execStageB4Memscreen_only (t : Nat) (found : List StackScreen) (s : State) : ∃ s',
    execStageB4Memscreen t found s = .next s' ∧ onlyChanges [.now, .evt, .adj, .rst, .tab, .boot, .i3c, .out]
    s s' := by
  refine ⟨_, rfl, ?_⟩
  have hp : within [.now, .evt, .adj, .rst, .tab, .boot, .i3c, .out] [.now, .evt, .adj, .rst, .tab, .boot, .i3c, .out] = true := rfl
  repeat' (first
    | with_reducible exact only_refl _ _ | assumption | with_reducible apply stageB4_only (within_trans rfl hp)
    | with_reducible apply atTime_only (within_trans rfl hp))

theorem execStageB5Cores_only (t : Nat) (patternFail katFail : BitVec 256) (s : State) : ∃ s',
    execStageB5Cores t patternFail katFail s = .next s' ∧ onlyChanges [.now, .evt, .tab, .boot, .i3c, .out] s
    s' := by
  refine ⟨_, rfl, ?_⟩
  have hp : within [.now, .evt, .tab, .boot, .i3c, .out] [.now, .evt, .tab, .boot, .i3c, .out] = true := rfl
  repeat' (first
    | with_reducible exact only_refl _ _ | assumption | with_reducible apply stageB5_only (within_trans rfl hp)
    | with_reducible apply atTime_only (within_trans rfl hp))

theorem execLbistSliceComplete_only (t : Nat) (slice : Fin 316) (expected observed : Word) (s : State) : ∃ s',
    execLbistSliceComplete t slice expected observed s = .next s' ∧ onlyChanges [.now, .evt, .tab, .boot] s s' := by
  refine ⟨_, rfl, ?_⟩
  have hp : within [.now, .evt, .tab, .boot] [.now, .evt, .tab, .boot] = true := rfl
  repeat' (first
    | with_reducible exact only_refl _ _ | assumption | with_reducible apply sliceResult_only (within_trans rfl hp)
    | with_reducible apply atTime_only (within_trans rfl hp))

theorem execLbistSliceTimeout_only (t : Nat) (slice : Fin 316) (expected held : Word) (s : State) : ∃ s',
    execLbistSliceTimeout t slice expected held s = .next s' ∧ onlyChanges [.now, .evt, .tab, .boot] s s' := by
  refine ⟨_, rfl, ?_⟩
  have hp : within [.now, .evt, .tab, .boot] [.now, .evt, .tab, .boot] = true := rfl
  repeat' (first
    | with_reducible exact only_refl _ _ | assumption | with_reducible apply sliceResult_only (within_trans rfl hp)
    | with_reducible apply atTime_only (within_trans rfl hp))

theorem execStageB6Fabric_only (t : Nat) (ports : List (Option PortReport)) (s : State) : ∃ s',
    execStageB6Fabric t ports s = .next s' ∧ onlyChanges [.now, .evt, .sync, .tab, .boot, .i3c, .out] s s' := by
  refine ⟨_, rfl, ?_⟩
  have hp : within [.now, .evt, .sync, .tab, .boot, .i3c, .out] [.now, .evt, .sync, .tab, .boot, .i3c, .out] = true := rfl
  repeat' (first
    | with_reducible exact only_refl _ _ | assumption | with_reducible apply stageB6_only (within_trans rfl hp)
    | with_reducible apply atTime_only (within_trans rfl hp))

theorem execStageB7Topology_only (t : Nat) (s : State) : ∃ s', execStageB7Topology t s = .next s' ∧
    onlyChanges [.now, .evt, .sync, .tab, .boot, .i3c, .out] s s' := by
  refine ⟨_, rfl, ?_⟩
  have hp : within [.now, .evt, .sync, .tab, .boot, .i3c, .out] [.now, .evt, .sync, .tab, .boot, .i3c, .out] = true := rfl
  repeat' (first
    | with_reducible exact only_refl _ _ | assumption | with_reducible apply stageB7_only (within_trans rfl hp)
    | with_reducible apply atTime_only (within_trans rfl hp))

theorem execStageB8Charter_only (t : Nat) (s : State) : ∃ s', execStageB8Charter t s = .next s' ∧ onlyChanges
    [.now, .evt, .cfg, .stations, .hz, .ctxs, .led, .tempo, .sync, .tab, .trace, .boot, .i3c, .out] s s' := by
  refine ⟨_, rfl, ?_⟩
  have hp : within [.now, .evt, .cfg, .stations, .hz, .ctxs, .led, .tempo, .sync, .tab, .trace, .boot, .i3c, .out] [.now, .evt, .cfg, .stations, .hz, .ctxs, .led, .tempo, .sync, .tab, .trace, .boot, .i3c, .out] = true := rfl
  repeat' (first
    | with_reducible exact only_refl _ _ | assumption | with_reducible apply stageB8_only (within_trans rfl hp)
    | with_reducible apply atTime_only (within_trans rfl hp))

theorem execStageB9Ready_only (t : Nat) (s : State) : ∃ s', execStageB9Ready t s = .next s' ∧ onlyChanges
    [.now, .evt, .crash, .hz, .ctxs, .led, .tempo, .sync, .rst, .tab, .boot, .i3c, .out] s s' := by
  refine ⟨_, rfl, ?_⟩
  have hp : within [.now, .evt, .crash, .hz, .ctxs, .led, .tempo, .sync, .rst, .tab, .boot, .i3c, .out] [.now, .evt, .crash, .hz, .ctxs, .led, .tempo, .sync, .rst, .tab, .boot, .i3c, .out] = true := rfl
  repeat' (first
    | with_reducible exact only_refl _ _ | assumption | with_reducible apply stageB9_only (within_trans rfl hp)
    | with_reducible apply atTime_only (within_trans rfl hp))

theorem execStageLimitReached_only (t : Nat) (dropped : StageUnit) (s : State) : ∃ s', execStageLimitReached t
    dropped s = .next s' ∧ onlyChanges [.now, .evt, .crash, .hz, .ctxs, .adj, .led, .tempo, .sync, .rst, .tab,
    .boot, .i3c, .out] s s' := by
  refine ⟨_, rfl, ?_⟩
  have hp : within [.now, .evt, .crash, .hz, .ctxs, .adj, .led, .tempo, .sync, .rst, .tab, .boot, .i3c, .out] [.now, .evt, .crash, .hz, .ctxs, .adj, .led, .tempo, .sync, .rst, .tab, .boot, .i3c, .out] = true := rfl
  repeat' (first
    | with_reducible exact only_refl _ _ | assumption | with_reducible apply limitReached_only (within_trans rfl hp)
    | with_reducible apply atTime_only (within_trans rfl hp))

theorem formHorizons_only {ps : List Part} (hp : within [.stations] ps = true) (replica : Nat) : ∀ ls {σ s :
    State}, onlyChanges ps σ s → onlyChanges ps σ (formHorizons replica ls s) := by
  intro ls
  induction ls with
  | nil => intro σ s h; exact h
  | cons a l ih =>
    intro σ s h0
    refine only_trans h0 ?_; clear h0; unfold formHorizons
    repeat' (first
      | with_reducible exact only_refl _ _ | with_reducible apply ih | assumption
      | with_reducible apply updStation_only (within_trans rfl hp))

theorem forwardHorizon_only {σ : State} {ps : List Part} (hp : within [.stations, .hz] ps = true) (cl : Nat)
    (s : State) (h0 : onlyChanges ps σ s) : onlyChanges ps σ (forwardHorizon cl s) := by
  refine only_trans h0 ?_; clear h0; unfold forwardHorizon
  (try dsimp only)
  repeat' (first
    | with_reducible exact only_refl _ _ | assumption | with_reducible apply formHorizons_only (within_trans rfl hp)
    | with_reducible apply updHz_only (within_trans rfl hp) | with_reducible apply only_ite)

theorem broadcastVh_only {σ : State} {ps : List Part} (hp : within [.hz] ps = true) (s : State) (h0 :
    onlyChanges ps σ s) : onlyChanges ps σ (broadcastVh s) := by
  refine only_trans h0 ?_; clear h0; unfold broadcastVh
  (try dsimp only)
  repeat' (first
    | with_reducible exact only_refl _ _ | assumption | with_reducible apply updHz_only (within_trans rfl hp)
    | with_reducible apply only_ite)

theorem vhStalls_only {σ : State} {ps : List Part} (hp : within [.evt, .hz, .tab] ps = true) (s : State) (h0 :
    onlyChanges ps σ s) : onlyChanges ps σ (vhStalls s) := by
  refine only_trans h0 ?_; clear h0; unfold vhStalls
  (try dsimp only)
  repeat' (first
    | with_reducible exact only_refl _ _ | assumption | with_reducible apply occur_only (within_trans rfl hp)
    | with_reducible apply updHz_only (within_trans rfl hp) | with_reducible apply only_ite)

theorem acknowledgeAll_only {σ : State} {ps : List Part} (hp : within [.hz] ps = true) (g : Nat) (s : State)
    (h0 : onlyChanges ps σ s) : onlyChanges ps σ (acknowledgeAll g s) := by
  refine only_trans h0 ?_; clear h0; unfold acknowledgeAll
  (try dsimp only)
  repeat' (first
    | with_reducible exact only_refl _ _ | assumption | with_reducible apply updHz_only (within_trans rfl hp))

theorem closeGate_only {σ : State} {ps : List Part} (hp : within [.hz] ps = true) (g cause : Nat) (s : State)
    (h0 : onlyChanges ps σ s) : onlyChanges ps σ (closeGate g cause s) := by
  refine only_trans h0 ?_; clear h0; unfold closeGate
  repeat' (first
    | with_reducible exact only_refl _ _ | assumption | with_reducible apply updGate_only (within_trans rfl hp)
    | with_reducible apply updHz_only (within_trans rfl hp))

theorem gateUpdate_only {σ : State} {ps : List Part} (hp : within [.free, .evt, .stations, .hz, .sync, .tab,
    .trace, .out] ps = true) (g : Nat) (parityOk : Bool) (s : State) (h0 : onlyChanges ps σ s) : onlyChanges
    ps σ (gateUpdate g parityOk s) := by
  refine only_trans h0 ?_; clear h0; unfold gateUpdate
  (try dsimp only)
  repeat' (first
    | with_reducible exact only_refl _ _ | assumption | with_reducible apply closeGate_only (within_trans rfl hp)
    | with_reducible apply updGate_only (within_trans rfl hp)
    | with_reducible apply acknowledgeAll_only (within_trans rfl hp)
    | with_reducible apply sweepContained_only (within_trans rfl hp)
    | with_reducible apply releaseItems_only (within_trans rfl hp) | with_reducible apply only_ite)

theorem gateTimeout_only {σ : State} {ps : List Part} (hp : within [.hz] ps = true) (g : Nat) (s : State) (h0
    : onlyChanges ps σ s) : onlyChanges ps σ (gateTimeout g s) := by
  refine only_trans h0 ?_; clear h0; unfold gateTimeout
  repeat' (first
    | with_reducible exact only_refl _ _ | assumption | with_reducible apply closeGate_only (within_trans rfl hp)
    | with_reducible apply only_ite)

theorem dropPoisoned_only {ps : List Part} (hp : within [.stations, .hz, .out] ps = true)  : ∀ ls {σ s :
    State}, onlyChanges ps σ s → onlyChanges ps σ (dropPoisoned  ls s) := by
  intro ls
  induction ls with
  | nil => intro σ s h; exact h
  | cons a l ih =>
    intro σ s h0
    refine only_trans h0 ?_; clear h0; unfold dropPoisoned
    repeat' (first
      | with_reducible exact only_refl _ _ | with_reducible apply ih | assumption
      | with_reducible apply dropAtProducer_only (within_trans rfl hp)
      | with_reducible apply updHz_only (within_trans rfl hp))

theorem poisonArrives_only {σ : State} {ps : List Part} (hp : within [.evt, .crash, .stations, .hz, .ctxs,
    .rst, .tab, .i3c, .out] ps = true) (g : Nat) (i : ItemIn) (s : State) (h0 : onlyChanges ps σ s) :
    onlyChanges ps σ (poisonArrives g i s) := by
  refine only_trans h0 ?_; clear h0; unfold poisonArrives
  (try dsimp only)
  repeat' (first
    | with_reducible exact only_refl _ _ | assumption | with_reducible apply updGate_only (within_trans rfl hp)
    | with_reducible apply dropPoisoned_only (within_trans rfl hp)
    | with_reducible apply occur_only (within_trans rfl hp)
    | with_reducible apply startFault_only (within_trans rfl hp))

theorem restArrives_only {σ : State} {ps : List Part} (hp : within [.stations, .hz, .out] ps = true) (g : Nat)
    (i : ItemIn) (rest : Bool) (s : State) (h0 : onlyChanges ps σ s) : onlyChanges ps σ (restArrives g i rest
    s) := by
  refine only_trans h0 ?_; clear h0; unfold restArrives
  (try dsimp only)
  repeat' (first
    | with_reducible exact only_refl _ _ | assumption | with_reducible apply updGate_only (within_trans rfl hp)
    | with_reducible apply dropPoisoned_only (within_trans rfl hp) | with_reducible apply only_ite)

theorem placeItem_only {σ : State} {ps : List Part} (hp : within [.free, .evt, .stations, .hz, .sync, .tab,
    .trace, .out] ps = true) (g : Nat) (i : GItem) (s : State) (h0 : onlyChanges ps σ s) : onlyChanges ps σ
    (placeItem g i s) := by
  refine only_trans h0 ?_; clear h0; unfold placeItem
  repeat' (first
    | with_reducible exact only_refl _ _ | assumption | with_reducible apply dropContained_only (within_trans rfl hp)
    | with_reducible apply releaseItems_only (within_trans rfl hp)
    | with_reducible apply updGate_only (within_trans rfl hp) | with_reducible apply only_ite)

theorem sectorJoins_only {σ : State} {ps : List Part} (hp : within [.free, .evt, .stations, .hz, .sync, .tab,
    .trace, .out] ps = true) (g : Nat) (i : ItemIn) (s : State) (h0 : onlyChanges ps σ s) : onlyChanges ps σ
    (sectorJoins g i s) := by
  refine only_trans h0 ?_; clear h0; unfold sectorJoins
  (try dsimp only)
  repeat' (first
    | with_reducible exact only_refl _ _ | assumption | with_reducible apply placeItem_only (within_trans rfl hp)
    | with_reducible apply updGate_only (within_trans rfl hp)
    | with_reducible apply releaseItems_only (within_trans rfl hp)
    | with_reducible apply sweepContained_only (within_trans rfl hp) | with_reducible apply only_ite)

theorem itemArrives_only {σ : State} {ps : List Part} (hp : within [.free, .evt, .crash, .stations, .hz,
    .ctxs, .led, .sync, .rst, .tab, .trace, .i3c, .out] ps = true) (g : Nat) (i : ItemIn) (s : State) (h0 :
    onlyChanges ps σ s) : onlyChanges ps σ (itemArrives g i s) := by
  refine only_trans h0 ?_; clear h0; unfold itemArrives
  repeat' (first
    | with_reducible exact only_refl _ _ | assumption | with_reducible apply kitInvalid_only (within_trans rfl hp)
    | with_reducible apply restArrives_only (within_trans rfl hp)
    | with_reducible apply poisonArrives_only (within_trans rfl hp)
    | with_reducible apply sectorJoins_only (within_trans rfl hp) | with_reducible apply only_ite)

theorem execHorizonForward_only (t : Nat) (cluster : Cluster) (lag : Fin 3) (s : State) : ∃ s',
    execHorizonForward t cluster lag s = .next s' ∧ onlyChanges [.now, .stations, .hz] s s' := by
  refine ⟨_, rfl, ?_⟩
  have hp : within [.now, .stations, .hz] [.now, .stations, .hz] = true := rfl
  repeat' (first
    | with_reducible exact only_refl _ _ | assumption | with_reducible apply forwardHorizon_only (within_trans rfl hp)
    | with_reducible apply atTime_only (within_trans rfl hp))

theorem execVhBroadcast_only (t : Nat) (s : State) : ∃ s', execVhBroadcast t s = .next s' ∧ onlyChanges [.now,
    .hz] s s' := by
  refine ⟨_, rfl, ?_⟩
  have hp : within [.now, .hz] [.now, .hz] = true := rfl
  repeat' (first
    | with_reducible exact only_refl _ _ | assumption | with_reducible apply broadcastVh_only (within_trans rfl hp)
    | with_reducible apply atTime_only (within_trans rfl hp))

theorem execGateVhUpdate_only (t : Nat) (point : Gate) (parityOk : Bool) (s : State) : ∃ s', execGateVhUpdate
    t point parityOk s = .next s' ∧ onlyChanges [.now, .free, .evt, .stations, .hz, .sync, .tab, .trace, .out]
    s s' := by
  refine ⟨_, rfl, ?_⟩
  have hp : within [.now, .free, .evt, .stations, .hz, .sync, .tab, .trace, .out] [.now, .free, .evt, .stations, .hz, .sync, .tab, .trace, .out] = true := rfl
  repeat' (first
    | with_reducible exact only_refl _ _ | assumption | with_reducible apply gateUpdate_only (within_trans rfl hp)
    | with_reducible apply atTime_only (within_trans rfl hp))

theorem execGateItemArrival_only (t : Nat) (point : Gate) (item : ItemIn) (s : State) : ∃ s',
    execGateItemArrival t point item s = .next s' ∧ onlyChanges [.now, .free, .evt, .crash, .stations, .hz,
    .ctxs, .led, .sync, .rst, .tab, .trace, .i3c, .out] s s' := by
  refine ⟨_, rfl, ?_⟩
  have hp : within [.now, .free, .evt, .crash, .stations, .hz, .ctxs, .led, .sync, .rst, .tab, .trace, .i3c, .out] [.now, .free, .evt, .crash, .stations, .hz, .ctxs, .led, .sync, .rst, .tab, .trace, .i3c, .out] = true := rfl
  repeat' (first
    | with_reducible exact only_refl _ _ | assumption | with_reducible apply itemArrives_only (within_trans rfl hp)
    | with_reducible apply atTime_only (within_trans rfl hp))

theorem execGateBroadcastTimeout_only (t : Nat) (point : Gate) (s : State) : ∃ s', execGateBroadcastTimeout t
    point s = .next s' ∧ onlyChanges [.now, .hz] s s' := by
  refine ⟨_, rfl, ?_⟩
  have hp : within [.now, .hz] [.now, .hz] = true := rfl
  repeat' (first
    | with_reducible exact only_refl _ _ | assumption | with_reducible apply gateTimeout_only (within_trans rfl hp)
    | with_reducible apply atTime_only (within_trans rfl hp))

theorem execVhStall_only (t : Nat) (s : State) : ∃ s', execVhStall t s = .next s' ∧ onlyChanges [.now, .evt,
    .hz, .tab] s s' := by
  refine ⟨_, rfl, ?_⟩
  have hp : within [.now, .evt, .hz, .tab] [.now, .evt, .hz, .tab] = true := rfl
  repeat' (first
    | with_reducible exact only_refl _ _ | assumption | with_reducible apply vhStalls_only (within_trans rfl hp)
    | with_reducible apply atTime_only (within_trans rfl hp))

end Sys2Proof.Laws
end

