-- ==== Sys2Proof/Laws/FramePorts.lean ====
section
/-! SUPPORT. The frame of every operation and meaning of seals, shutdown, tableau, work items, registers and the I3C target: one lemma each, from those of the operations it calls. -/

namespace Sys2Proof.Laws

open Sys2Proof Sys2Proof.Machine Sys2Proof.Safety

theorem writeEntries_only {ps : List Part} (hp : within [.mem, .memPoison] ps = true) (base : Nat) (cores :
    List Nat) (step : Nat) : ∀ ls {σ s : State}, onlyChanges ps σ s → onlyChanges ps σ (writeEntries base
    cores step ls s) := by
  intro ls
  induction ls with
  | nil => intro σ s h; exact h
  | cons a l ih =>
    intro σ s h0
    refine only_trans h0 ?_; clear h0; unfold writeEntries
    repeat' (first
      | with_reducible exact only_refl _ _ | with_reducible apply ih | assumption
      | with_reducible apply memStore_only (within_trans rfl hp))

theorem writePage_only {σ : State} {ps : List Part} (hp : within [.mem, .memPoison] ps = true) (ctx step :
    Nat) (s : State) (h0 : onlyChanges ps σ s) : onlyChanges ps σ (writePage ctx step s) := by
  refine only_trans h0 ?_; clear h0; unfold writePage
  (try dsimp only)
  repeat' (first
    | with_reducible exact only_refl _ _ | assumption | with_reducible apply writeEntries_only (within_trans rfl hp)
    | with_reducible apply memStore_only (within_trans rfl hp) | with_reducible apply only_ite
    | (split <;> try dsimp only))

theorem freeCensus_only {ps : List Part} (hp : within [.stations] ps = true) (step : Nat) : ∀ ls {σ s :
    State}, onlyChanges ps σ s → onlyChanges ps σ (freeCensus step ls s) := by
  intro ls
  induction ls with
  | nil => intro σ s h; exact h
  | cons a l ih =>
    intro σ s h0
    refine only_trans h0 ?_; clear h0; unfold freeCensus
    repeat' (first
      | with_reducible exact only_refl _ _ | with_reducible apply ih | assumption
      | with_reducible apply updStation_only (within_trans rfl hp))

theorem issueSeal_only {σ : State} {ps : List Part} (hp : within [.evt, .stations, .hz, .ctxs, .sync, .tab,
    .trace, .mem, .memPoison, .out] ps = true) (ctx : Nat) (e : SealEntry) (x : Ctx) (tq : Nat) (s : State)
    (h0 : onlyChanges ps σ s) : onlyChanges ps σ (issueSeal ctx e x tq s) := by
  refine only_trans h0 ?_; clear h0; unfold issueSeal
  (try dsimp only)
  repeat' (first
    | with_reducible exact only_refl _ _ | assumption | with_reducible apply writePage_only (within_trans rfl hp)
    | with_reducible apply updCtx_only (within_trans rfl hp)
    | with_reducible apply freeCensus_only (within_trans rfl hp)
    | with_reducible apply actOn_only (within_trans rfl hp)
    | with_reducible apply advanceSeals_only (within_trans rfl hp)
    | with_reducible apply occur_only (within_trans rfl hp)
    | with_reducible apply observeStep_only (within_trans rfl hp) | with_reducible apply only_ite)

theorem sealIssues_only {σ : State} {ps : List Part} (hp : within [.evt, .stations, .hz, .ctxs, .sync, .tab,
    .trace, .mem, .memPoison, .out] ps = true) (ctx : Nat) (s : State) (h0 : onlyChanges ps σ s) : onlyChanges
    ps σ (sealIssues ctx s) := by
  refine only_trans h0 ?_; clear h0; unfold sealIssues
  (try dsimp only)
  repeat' (first
    | with_reducible exact only_refl _ _ | assumption | with_reducible apply issueSeal_only (within_trans rfl hp)
    | with_reducible apply only_ite | (split <;> try dsimp only))

theorem narrow_only {σ : State} {ps : List Part} (hp : within [.evt, .hz, .tab] ps = true) (ctx : Nat) (s :
    State) (h0 : onlyChanges ps σ s) : onlyChanges ps σ (narrow ctx s) := by
  refine only_trans h0 ?_; clear h0; unfold narrow
  (try dsimp only)
  repeat' (first
    | with_reducible exact only_refl _ _ | assumption | with_reducible apply updContainment_only (within_trans rfl hp)
    | with_reducible apply occur_only (within_trans rfl hp))

theorem setSteps_only {ps : List Part} (hp : within [.stations] ps = true) (step : Nat) : ∀ ls {σ s : State},
    onlyChanges ps σ s → onlyChanges ps σ (setSteps step ls s) := by
  intro ls
  induction ls with
  | nil => intro σ s h; exact h
  | cons a l ih =>
    intro σ s h0
    refine only_trans h0 ?_; clear h0; unfold setSteps
    (try dsimp only)
    repeat' (first
      | with_reducible exact only_refl _ _ | with_reducible apply ih | assumption
      | with_reducible apply updStation_only (within_trans rfl hp))

theorem rearmContext_only {σ : State} {ps : List Part} (hp : within [.evt, .stations, .hz, .ctxs, .tab] ps =
    true) (ctx : Nat) (s : State) (h0 : onlyChanges ps σ s) : onlyChanges ps σ (rearmContext ctx s) := by
  refine only_trans h0 ?_; clear h0; unfold rearmContext
  (try dsimp only)
  repeat' (first
    | with_reducible exact only_refl _ _ | assumption | with_reducible apply updCtx_only (within_trans rfl hp)
    | with_reducible apply narrow_only (within_trans rfl hp)
    | with_reducible apply setSteps_only (within_trans rfl hp))

theorem rearm_only {σ : State} {ps : List Part} (hp : within [.evt, .cfg, .stations, .hz, .ctxs, .tab] ps =
    true) (r : Requester) (value : Word) (s : State) (h0 : onlyChanges ps σ s) : onlyChanges ps σ (rearm r
    value s) := by
  refine only_trans h0 ?_; clear h0; unfold rearm
  (try dsimp only)
  repeat' (first
    | with_reducible exact only_refl _ _ | assumption | with_reducible apply setResult_only (within_trans rfl hp)
    | with_reducible apply narrow_only (within_trans rfl hp)
    | with_reducible apply rearmContext_only (within_trans rfl hp) | with_reducible apply only_ite
    | (split <;> try dsimp only))

theorem execSealIssue_only (t : Nat) (ctx : CtxId) (s : State) : ∃ s', execSealIssue t ctx s = .next s' ∧
    onlyChanges [.now, .evt, .stations, .hz, .ctxs, .sync, .tab, .trace, .mem, .memPoison, .out] s s' := by
  refine ⟨_, rfl, ?_⟩
  have hp : within [.now, .evt, .stations, .hz, .ctxs, .sync, .tab, .trace, .mem, .memPoison, .out] [.now, .evt, .stations, .hz, .ctxs, .sync, .tab, .trace, .mem, .memPoison, .out] = true := rfl
  repeat' (first
    | with_reducible exact only_refl _ _ | assumption | with_reducible apply sealIssues_only (within_trans rfl hp)
    | with_reducible apply atTime_only (within_trans rfl hp))

theorem execSealRearm_only (t : Nat) (r : Requester) (value : Word) (s : State) : ∃ s', execSealRearm t r
    value s = .next s' ∧ onlyChanges [.now, .evt, .cfg, .stations, .hz, .ctxs, .tab] s s' := by
  refine ⟨_, rfl, ?_⟩
  have hp : within [.now, .evt, .cfg, .stations, .hz, .ctxs, .tab] [.now, .evt, .cfg, .stations, .hz, .ctxs, .tab] = true := rfl
  repeat' (first
    | with_reducible exact only_refl _ _ | assumption | with_reducible apply atTime_only (within_trans rfl hp)
    | with_reducible apply rearm_only (within_trans rfl hp) | with_reducible apply only_ite)

theorem beginShutdown_only {σ : State} {ps : List Part} (hp : within [.boot] ps = true) (s : State) (h0 :
    onlyChanges ps σ s) : onlyChanges ps σ (beginShutdown s) := by
  refine only_trans h0 ?_; clear h0; unfold beginShutdown
  repeat' (first
    | with_reducible exact only_refl _ _ | assumption | with_reducible apply updBoot_only (within_trans rfl hp))

theorem writeShutdown_only {σ : State} {ps : List Part} (hp : within [.cfg, .boot] ps = true) (r : Requester)
    (value : Word) (s : State) (h0 : onlyChanges ps σ s) : onlyChanges ps σ (writeShutdown r value s) := by
  refine only_trans h0 ?_; clear h0; unfold writeShutdown
  (try dsimp only)
  repeat' (first
    | with_reducible exact only_refl _ _ | assumption | with_reducible apply updCfg_only (within_trans rfl hp)
    | with_reducible apply setResult_only (within_trans rfl hp)
    | with_reducible apply beginShutdown_only (within_trans rfl hp) | with_reducible apply only_ite)

theorem nominalStep_only {σ : State} {ps : List Part} (hp : within [.evt, .tempo, .tab, .boot, .out] ps =
    true) (s : State) (h0 : onlyChanges ps σ s) : onlyChanges ps σ (nominalStep s) := by
  refine only_trans h0 ?_; clear h0; unfold nominalStep
  repeat' (first
    | with_reducible exact only_refl _ _ | assumption | with_reducible apply updBoot_only (within_trans rfl hp)
    | with_reducible apply allNominal_only (within_trans rfl hp))

theorem shutdownDrained_only {σ : State} {ps : List Part} (hp : within [.evt, .tempo, .tab, .boot, .out] ps =
    true) (s : State) (h0 : onlyChanges ps σ s) : onlyChanges ps σ (shutdownDrained s) := by
  refine only_trans h0 ?_; clear h0; unfold shutdownDrained
  repeat' (first
    | with_reducible exact only_refl _ _ | assumption | with_reducible apply nominalStep_only (within_trans rfl hp)
    | with_reducible apply only_ite)

theorem discardHeld_only {ps : List Part} (hp : within [.hz] ps = true)  : ∀ ls {σ s : State}, onlyChanges ps
    σ s → onlyChanges ps σ (discardHeld  ls s) := by
  intro ls
  induction ls with
  | nil => intro σ s h; exact h
  | cons a l ih =>
    intro σ s h0
    refine only_trans h0 ?_; clear h0; unfold discardHeld
    (try dsimp only)
    repeat' (first
      | with_reducible exact only_refl _ _ | with_reducible apply ih | assumption
      | with_reducible apply updGate_only (within_trans rfl hp)
      | with_reducible apply updHz_only (within_trans rfl hp))

theorem shutdownDrainLate_only {σ : State} {ps : List Part} (hp : within [.evt, .hz, .tempo, .tab, .boot,
    .out] ps = true) (s : State) (h0 : onlyChanges ps σ s) : onlyChanges ps σ (shutdownDrainLate s) := by
  refine only_trans h0 ?_; clear h0; unfold shutdownDrainLate
  repeat' (first
    | with_reducible exact only_refl _ _ | assumption | with_reducible apply nominalStep_only (within_trans rfl hp)
    | with_reducible apply updBoot_only (within_trans rfl hp)
    | with_reducible apply discardHeld_only (within_trans rfl hp) | with_reducible apply only_ite)

theorem zeroise_only {σ : State} {ps : List Part} (hp : within [.evt, .tab, .boot] ps = true) (since : Nat) (s
    : State) (h0 : onlyChanges ps σ s) : onlyChanges ps σ (zeroise since s) := by
  refine only_trans h0 ?_; clear h0; unfold zeroise
  repeat' (first
    | with_reducible exact only_refl _ _ | assumption | with_reducible apply occur_only (within_trans rfl hp)
    | with_reducible apply updBoot_only (within_trans rfl hp))

theorem paceScan_only {σ : State} {ps : List Part} (hp : within [.trace] ps = true) (s : State) (h0 :
    onlyChanges ps σ s) : onlyChanges ps σ (paceScan s) := by
  refine only_trans h0 ?_; clear h0; unfold paceScan
  (try dsimp only)
  repeat' (first
    | with_reducible exact only_refl _ _ | assumption | with_reducible apply updTrace_only (within_trans rfl hp))

theorem zeroisationDone_only {σ : State} {ps : List Part} (hp : within [.evt, .tab, .trace, .boot] ps = true)
    (s : State) (h0 : onlyChanges ps σ s) : onlyChanges ps σ (zeroisationDone s) := by
  refine only_trans h0 ?_; clear h0; unfold zeroisationDone
  (try dsimp only)
  repeat' (first
    | with_reducible exact only_refl _ _ | assumption | with_reducible apply updTab_only (within_trans rfl hp)
    | with_reducible apply paceScan_only (within_trans rfl hp)
    | with_reducible apply zeroise_only (within_trans rfl hp)
    | with_reducible apply updBoot_only (within_trans rfl hp) | with_reducible apply only_ite
    | (split <;> try dsimp only))

theorem slicesDone_only {σ : State} {ps : List Part} (hp : within [.boot, .i3c, .out] ps = true) (s : State)
    (h0 : onlyChanges ps σ s) : onlyChanges ps σ (slicesDone s) := by
  refine only_trans h0 ?_; clear h0; unfold slicesDone
  repeat' (first
    | with_reducible exact only_refl _ _ | assumption | with_reducible apply offerObject_only (within_trans rfl hp)
    | with_reducible apply updBoot_only (within_trans rfl hp) | with_reducible apply only_ite)

theorem haltChip_only {σ : State} {ps : List Part} (hp : within [.boot, .i3c, .out] ps = true) (s : State) (h0
    : onlyChanges ps σ s) : onlyChanges ps σ (haltChip s) := by
  refine only_trans h0 ?_; clear h0; unfold haltChip
  repeat' (first
    | with_reducible exact only_refl _ _ | assumption | with_reducible apply oobAdd_only (within_trans rfl hp)
    | with_reducible apply updI3c_only (within_trans rfl hp) | with_reducible apply updBoot_only (within_trans rfl hp)
    | with_reducible apply only_ite)

theorem otpMismatch_only {σ : State} {ps : List Part} (hp : within [.evt] ps = true) (r : Requester) (s :
    State) (h0 : onlyChanges ps σ s) : onlyChanges ps σ (otpMismatch r s).2 := by
  refine only_trans h0 ?_; clear h0; unfold otpMismatch
  (try dsimp only)
  repeat' (first
    | with_reducible exact only_refl _ _ | assumption | with_reducible apply countMismatch_only (within_trans rfl hp)
    | with_reducible apply updEvt_only (within_trans rfl hp))

theorem programOtp_only {σ : State} {ps : List Part} (hp : within [.evt, .boot] ps = true) (r : Requester)
    (type : Nat) (s : State) (h0 : onlyChanges ps σ s) : onlyChanges ps σ (programOtp r type s).2 := by
  refine only_trans h0 ?_; clear h0; unfold programOtp
  (try dsimp only)
  repeat' (first
    | with_reducible exact only_refl _ _ | assumption | with_reducible apply otpMismatch_only (within_trans rfl hp)
    | with_reducible apply updEvt_only (within_trans rfl hp) | with_reducible apply updBoot_only (within_trans rfl hp)
    | with_reducible apply only_ite | (split <;> try dsimp only))

theorem writeOtp_only {σ : State} {ps : List Part} (hp : within [.evt, .cfg, .boot] ps = true) (r : Requester)
    (value : Word) (s : State) (h0 : onlyChanges ps σ s) : onlyChanges ps σ (writeOtp r value s) := by
  refine only_trans h0 ?_; clear h0; unfold writeOtp
  dsimp only
  split
  · exact only_refl _ s
  · have hk := updCfg_only (ps := ps) (within_trans rfl hp)
      (fun c => { c with otpRecord := BitVec.ofNat 3 (bits value.toNat 26 24) }) s (only_refl _ s)
    split
    · exact hk
    · have h := programOtp_only (within_trans rfl hp) r (bits value.toNat 26 24) _ hk
      split
      · rename_i heq
        rw [heq] at h
        exact setResult_only (within_trans rfl hp) _ _ _ _ h
      · rename_i heq
        rw [heq] at h
        exact h

theorem answerResult_only {σ : State} {ps : List Part} (hp : within [.i3c] ps = true) (refused : Bool) (v :
    Nat) (s : State) (h0 : onlyChanges ps σ s) : onlyChanges ps σ (answerResult refused v s) := by
  refine only_trans h0 ?_; clear h0; unfold answerResult
  repeat' (first
    | with_reducible exact only_refl _ _ | assumption | with_reducible apply updI3c_only (within_trans rfl hp))

theorem answerOtp_only {σ : State} {ps : List Part} (hp : within [.i3c] ps = true) (r : Requester) (v : Nat)
    (s : State) (h0 : onlyChanges ps σ s) : onlyChanges ps σ (answerOtp r v s) := by
  refine only_trans h0 ?_; clear h0; unfold answerOtp
  repeat' (first
    | with_reducible exact only_refl _ _ | assumption | with_reducible apply answerResult_only (within_trans rfl hp)
    | with_reducible apply only_ite | (split <;> try dsimp only))

theorem slotProgrammed_only {σ : State} {ps : List Part} (hp : within [.cfg, .boot, .i3c, .out] ps = true) (s
    : State) (h0 : onlyChanges ps σ s) : onlyChanges ps σ (slotProgrammed s) := by
  refine only_trans h0 ?_; clear h0; unfold slotProgrammed
  (try dsimp only)
  repeat' (first
    | with_reducible exact only_refl _ _ | assumption | with_reducible apply updBoot_only (within_trans rfl hp)
    | with_reducible apply offerImage_only (within_trans rfl hp)
    | with_reducible apply otpBurn_only (within_trans rfl hp)
    | with_reducible apply answerOtp_only (within_trans rfl hp)
    | with_reducible apply setResult_only (within_trans rfl hp) | with_reducible apply only_ite
    | (split <;> try dsimp only))

theorem execShutdown_only (t : Nat) (r : Requester) (value : Word) (s : State) : ∃ s', execShutdown t r value
    s = .next s' ∧ onlyChanges [.now, .cfg, .boot] s s' := by
  refine ⟨_, rfl, ?_⟩
  have hp : within [.now, .cfg, .boot] [.now, .cfg, .boot] = true := rfl
  repeat' (first
    | with_reducible exact only_refl _ _ | assumption | with_reducible apply atTime_only (within_trans rfl hp)
    | with_reducible apply writeShutdown_only (within_trans rfl hp) | with_reducible apply only_ite)

theorem execShutdownDrainDone_only (t : Nat) (s : State) : ∃ s', execShutdownDrainDone t s = .next s' ∧
    onlyChanges [.now, .evt, .tempo, .tab, .boot, .out] s s' := by
  refine ⟨_, rfl, ?_⟩
  have hp : within [.now, .evt, .tempo, .tab, .boot, .out] [.now, .evt, .tempo, .tab, .boot, .out] = true := rfl
  repeat' (first
    | with_reducible exact only_refl _ _ | assumption
    | with_reducible apply shutdownDrained_only (within_trans rfl hp)
    | with_reducible apply atTime_only (within_trans rfl hp))

theorem execShutdownDrainTimeout_only (t : Nat) (s : State) : ∃ s', execShutdownDrainTimeout t s = .next s' ∧
    onlyChanges [.now, .evt, .hz, .tempo, .tab, .boot, .out] s s' := by
  refine ⟨_, rfl, ?_⟩
  have hp : within [.now, .evt, .hz, .tempo, .tab, .boot, .out] [.now, .evt, .hz, .tempo, .tab, .boot, .out] = true := rfl
  repeat' (first
    | with_reducible exact only_refl _ _ | assumption
    | with_reducible apply shutdownDrainLate_only (within_trans rfl hp)
    | with_reducible apply atTime_only (within_trans rfl hp))

theorem execZeroisationComplete_only (t : Nat) (s : State) : ∃ s', execZeroisationComplete t s = .next s' ∧
    onlyChanges [.now, .evt, .tab, .trace, .boot] s s' := by
  refine ⟨_, rfl, ?_⟩
  have hp : within [.now, .evt, .tab, .trace, .boot] [.now, .evt, .tab, .trace, .boot] = true := rfl
  repeat' (first
    | with_reducible exact only_refl _ _ | assumption
    | with_reducible apply zeroisationDone_only (within_trans rfl hp)
    | with_reducible apply atTime_only (within_trans rfl hp))

theorem execShutdownSlicesDone_only (t : Nat) (s : State) : ∃ s', execShutdownSlicesDone t s = .next s' ∧
    onlyChanges [.now, .boot, .i3c, .out] s s' := by
  refine ⟨_, rfl, ?_⟩
  have hp : within [.now, .boot, .i3c, .out] [.now, .boot, .i3c, .out] = true := rfl
  repeat' (first
    | with_reducible exact only_refl _ _ | assumption | with_reducible apply slicesDone_only (within_trans rfl hp)
    | with_reducible apply atTime_only (within_trans rfl hp))

theorem execOtpProgram_only (t : Nat) (r : Requester) (value : Word) (s : State) : ∃ s', execOtpProgram t r
    value s = .next s' ∧ onlyChanges [.now, .evt, .cfg, .boot] s s' := by
  refine ⟨_, rfl, ?_⟩
  have hp : within [.now, .evt, .cfg, .boot] [.now, .evt, .cfg, .boot] = true := rfl
  repeat' (first
    | with_reducible exact only_refl _ _ | assumption | with_reducible apply atTime_only (within_trans rfl hp)
    | with_reducible apply writeOtp_only (within_trans rfl hp) | with_reducible apply only_ite)

theorem execOtpSlotProgrammed_only (t : Nat) (s : State) : ∃ s', execOtpSlotProgrammed t s = .next s' ∧
    onlyChanges [.now, .cfg, .boot, .i3c, .out] s s' := by
  refine ⟨_, rfl, ?_⟩
  have hp : within [.now, .cfg, .boot, .i3c, .out] [.now, .cfg, .boot, .i3c, .out] = true := rfl
  repeat' (first
    | with_reducible exact only_refl _ _ | assumption | with_reducible apply slotProgrammed_only (within_trans rfl hp)
    | with_reducible apply atTime_only (within_trans rfl hp))

theorem writeHalt_only {σ : State} {ps : List Part} (hp : within [.cfg, .tab] ps = true) (r : Requester) (s :
    State) (h0 : onlyChanges ps σ s) : onlyChanges ps σ (writeHalt r s) := by
  refine only_trans h0 ?_; clear h0; unfold writeHalt
  (try dsimp only)
  repeat' (first
    | with_reducible exact only_refl _ _ | assumption | with_reducible apply setResult_only (within_trans rfl hp)
    | with_reducible apply tableauTrigger_only (within_trans rfl hp) | with_reducible apply only_ite)

theorem stopIn_only {σ : State} {ps : List Part} (hp : within [.tab] ps = true) (s : State) (h0 : onlyChanges
    ps σ s) : onlyChanges ps σ (stopIn s) := by
  refine only_trans h0 ?_; clear h0; unfold stopIn
  repeat' (first
    | with_reducible exact only_refl _ _ | assumption | with_reducible apply tableauTrigger_only (within_trans rfl hp)
    | with_reducible apply only_ite)

theorem tableauHalted_only {σ : State} {ps : List Part} (hp : within [.evt, .crash, .tab, .out] ps = true)
    (latency : Nat) (s : State) (h0 : onlyChanges ps σ s) : onlyChanges ps σ (tableauHalted latency s) := by
  refine only_trans h0 ?_; clear h0; unfold tableauHalted
  (try dsimp only)
  repeat' (first
    | with_reducible exact only_refl _ _ | assumption | with_reducible apply updTab_only (within_trans rfl hp)
    | with_reducible apply capture_only (within_trans rfl hp) | with_reducible apply msix_only (within_trans rfl hp)
    | with_reducible apply occurEv_only (within_trans rfl hp) | with_reducible apply only_ite)

theorem releaseHold_only {σ : State} {ps : List Part} (hp : within [.evt, .crash, .stations, .hz, .ctxs, .adj,
    .led, .tempo, .sync, .rst, .tab, .trace, .i3c, .out] ps = true) (s : State) (h0 : onlyChanges ps σ s) :
    onlyChanges ps σ (releaseHold s) := by
  refine only_trans h0 ?_; clear h0; unfold releaseHold
  (try dsimp only)
  repeat' (first
    | with_reducible exact only_refl _ _ | assumption | with_reducible apply startWaiting_only (within_trans rfl hp)
    | with_reducible apply updRst_only (within_trans rfl hp)
    | with_reducible apply endHold_only (within_trans rfl hp))

theorem writeRelease_only {σ : State} {ps : List Part} (hp : within [.evt, .crash, .cfg, .stations, .hz,
    .ctxs, .adj, .led, .tempo, .sync, .rst, .tab, .trace, .i3c, .out] ps = true) (r : Requester) (s : State)
    (h0 : onlyChanges ps σ s) : onlyChanges ps σ (writeRelease r s) := by
  refine only_trans h0 ?_; clear h0; unfold writeRelease
  (try dsimp only)
  repeat' (first
    | with_reducible exact only_refl _ _ | assumption | with_reducible apply setResult_only (within_trans rfl hp)
    | with_reducible apply releaseHold_only (within_trans rfl hp) | with_reducible apply only_ite)

theorem writeScan_only {σ : State} {ps : List Part} (hp : within [.cfg, .tab, .boot] ps = true) (r :
    Requester) (s : State) (h0 : onlyChanges ps σ s) : onlyChanges ps σ (writeScan r s) := by
  refine only_trans h0 ?_; clear h0; unfold writeScan
  (try dsimp only)
  repeat' (first
    | with_reducible exact only_refl _ _ | assumption | with_reducible apply setResult_only (within_trans rfl hp)
    | with_reducible apply updBoot_only (within_trans rfl hp) | with_reducible apply updTab_only (within_trans rfl hp)
    | with_reducible apply only_ite)

theorem scanRecord_only {σ : State} {ps : List Part} (hp : within [.evt, .tab, .trace, .out] ps = true) (seg
    at_ : Nat) (bs : List Byte) (s : State) (h0 : onlyChanges ps σ s) : onlyChanges ps σ (scanRecord seg at_
    bs s) := by
  refine only_trans h0 ?_; clear h0; unfold scanRecord
  (try dsimp only)
  repeat' (first
    | with_reducible exact only_refl _ _ | assumption | with_reducible apply traceVia_only (within_trans rfl hp)
    | with_reducible apply linePut_only (within_trans rfl hp)
    | with_reducible apply noteGap_only (within_trans rfl hp) | with_reducible apply only_ite
    | (intro _; try dsimp only))

theorem scanRecords_only {ps : List Part} (hp : within [.evt, .tab, .trace, .out] ps = true) (seg : Nat) (bs :
    List Byte) : ∀ ls {σ s : State}, onlyChanges ps σ s → onlyChanges ps σ (scanRecords seg bs ls s) := by
  intro ls
  induction ls with
  | nil => intro σ s h; exact h
  | cons a l ih =>
    intro σ s h0
    refine only_trans h0 ?_; clear h0; unfold scanRecords
    repeat' (first
      | with_reducible exact only_refl _ _ | with_reducible apply ih | assumption
      | with_reducible apply scanRecord_only (within_trans rfl hp))

theorem scanBlock_only {σ : State} {ps : List Part} (hp : within [.evt, .tab, .trace, .out] ps = true) (seg :
    Nat) (bs : List Byte) (s : State) (h0 : onlyChanges ps σ s) : onlyChanges ps σ (scanBlock seg bs s) := by
  refine only_trans h0 ?_; clear h0; unfold scanBlock
  repeat' (first
    | with_reducible exact only_refl _ _ | assumption | with_reducible apply scanRecords_only (within_trans rfl hp))

theorem portSegments_only {ps : List Part} (hp : within [.evt, .tab, .trace, .out] ps = true) (src : State) :
    ∀ ls {σ s : State}, onlyChanges ps σ s → onlyChanges ps σ (portSegments src ls s) := by
  intro ls
  induction ls with
  | nil => intro σ s h; exact h
  | cons a l ih =>
    intro σ s h0
    refine only_trans h0 ?_; clear h0; unfold portSegments
    repeat' (first
      | with_reducible exact only_refl _ _ | with_reducible apply ih | assumption
      | with_reducible apply scanBlock_only (within_trans rfl hp))

theorem memSegments_only {ps : List Part} (hp : within [.mem, .memPoison] ps = true) (src : State) : ∀ ls {σ s
    : State}, onlyChanges ps σ s → onlyChanges ps σ (memSegments src ls s) := by
  intro ls
  induction ls with
  | nil => intro σ s h; exact h
  | cons a l ih =>
    intro σ s h0
    refine only_trans h0 ?_; clear h0; unfold memSegments
    repeat' (first
      | with_reducible exact only_refl _ _ | with_reducible apply ih | assumption
      | with_reducible apply memStore_only (within_trans rfl hp))

theorem scanComplete_only {σ : State} {ps : List Part} (hp : within [.evt, .tab, .trace, .mem, .memPoison,
    .out] ps = true) (s : State) (h0 : onlyChanges ps σ s) : onlyChanges ps σ (scanComplete s) := by
  refine only_trans h0 ?_; clear h0; unfold scanComplete
  (try dsimp only)
  repeat' (first
    | with_reducible exact only_refl _ _ | assumption | with_reducible apply scanBlock_only (within_trans rfl hp)
    | with_reducible apply portSegments_only (within_trans rfl hp)
    | with_reducible apply memStore_only (within_trans rfl hp)
    | with_reducible apply memSegments_only (within_trans rfl hp)
    | with_reducible apply updTab_only (within_trans rfl hp) | with_reducible apply only_ite)

theorem writeSnap_only {σ : State} {ps : List Part} (hp : within [.cfg, .trace] ps = true) (r : Requester) (s
    : State) (h0 : onlyChanges ps σ s) : onlyChanges ps σ (writeSnap r s) := by
  refine only_trans h0 ?_; clear h0; unfold writeSnap
  repeat' (first
    | with_reducible exact only_refl _ _ | assumption | with_reducible apply setResult_only (within_trans rfl hp)
    | with_reducible apply updTrace_only (within_trans rfl hp) | with_reducible apply only_ite)

theorem latchStation_only {σ : State} {ps : List Part} (hp : within [.evt, .stations, .tab, .trace, .out] ps =
    true) (ts c : Nat) (s : State) (h0 : onlyChanges ps σ s) : onlyChanges ps σ (latchStation ts c s) := by
  refine only_trans h0 ?_; clear h0; unfold latchStation
  (try dsimp only)
  repeat' (first
    | with_reducible exact only_refl _ _ | assumption | with_reducible apply updStation_only (within_trans rfl hp)
    | with_reducible apply traceAlways_only (within_trans rfl hp) | with_reducible apply only_ite)

theorem latchStations_only {ps : List Part} (hp : within [.evt, .stations, .tab, .trace, .out] ps = true) (ts
    : Nat) : ∀ ls {σ s : State}, onlyChanges ps σ s → onlyChanges ps σ (latchStations ts ls s) := by
  intro ls
  induction ls with
  | nil => intro σ s h; exact h
  | cons a l ih =>
    intro σ s h0
    refine only_trans h0 ?_; clear h0; unfold latchStations
    repeat' (first
      | with_reducible exact only_refl _ _ | with_reducible apply ih | assumption
      | with_reducible apply latchStation_only (within_trans rfl hp))

theorem snapLatches_only {σ : State} {ps : List Part} (hp : within [.evt, .stations, .tab, .trace, .out] ps =
    true) (s : State) (h0 : onlyChanges ps σ s) : onlyChanges ps σ (snapLatches s) := by
  refine only_trans h0 ?_; clear h0; unfold snapLatches
  (try dsimp only)
  repeat' (first
    | with_reducible exact only_refl _ _ | assumption | with_reducible apply latchStations_only (within_trans rfl hp)
    | with_reducible apply updTrace_only (within_trans rfl hp) | with_reducible apply only_ite
    | (split <;> try dsimp only))

theorem writeMark_only {σ : State} {ps : List Part} (hp : within [.evt, .cfg, .tab, .trace, .out] ps = true)
    (r : Requester) (upper : Word) (lower : Option Word) (s : State) (h0 : onlyChanges ps σ s) : onlyChanges
    ps σ (writeMark r upper lower s) := by
  refine only_trans h0 ?_; clear h0; unfold writeMark
  (try dsimp only)
  repeat' (first
    | with_reducible exact only_refl _ _ | assumption | with_reducible apply updTrace_only (within_trans rfl hp)
    | with_reducible apply updCfg_only (within_trans rfl hp)
    | with_reducible apply traceRec_only (within_trans rfl hp) | with_reducible apply only_ite)

theorem writeBufRd_only {σ : State} {ps : List Part} (hp : within [.trace] ps = true) (r : Requester) (value :
    Word) (s : State) (h0 : onlyChanges ps σ s) : onlyChanges ps σ (writeBufRd r value s) := by
  refine only_trans h0 ?_; clear h0; unfold writeBufRd
  (try dsimp only)
  repeat' (first
    | with_reducible exact only_refl _ _ | assumption | with_reducible apply updTrace_only (within_trans rfl hp)
    | with_reducible apply only_ite)

theorem readyChanges_only {σ : State} {ps : List Part} (hp : within [.trace, .out] ps = true) (ready : Bool)
    (s : State) (h0 : onlyChanges ps σ s) : onlyChanges ps σ (readyChanges ready s) := by
  refine only_trans h0 ?_; clear h0; unfold readyChanges
  (try dsimp only)
  repeat' (first
    | with_reducible exact only_refl _ _ | assumption | with_reducible apply updTrace_only (within_trans rfl hp)
    | with_reducible apply startFlush_only (within_trans rfl hp)
    | with_reducible apply linesUp_only (within_trans rfl hp)
    | with_reducible apply linesDown_only (within_trans rfl hp) | with_reducible apply only_ite)

theorem lineFeed_only {ps : List Part} (hp : within [.trace, .out] ps = true) (p : Nat) : ∀ ls {σ s : State},
    onlyChanges ps σ s → onlyChanges ps σ (lineFeed p ls s) := by
  intro ls
  induction ls with
  | nil => intro σ s h; exact h
  | cons a l ih =>
    intro σ s h0
    refine only_trans h0 ?_; clear h0; unfold lineFeed
    repeat' (first
      | with_reducible exact only_refl _ _ | with_reducible apply ih | assumption
      | with_reducible apply linePut_only (within_trans rfl hp))

theorem bufferFlushed_only {σ : State} {ps : List Part} (hp : within [.trace, .out] ps = true) (s : State) (h0
    : onlyChanges ps σ s) : onlyChanges ps σ (bufferFlushed s) := by
  refine only_trans h0 ?_; clear h0; unfold bufferFlushed
  (try dsimp only)
  repeat' (first
    | with_reducible exact only_refl _ _ | assumption | with_reducible apply lineFeed_only (within_trans rfl hp)
    | with_reducible apply updTrace_only (within_trans rfl hp) | with_reducible apply only_ite)

theorem loadTest_only {σ : State} {ps : List Part} (hp : within [.boot, .out] ps = true) (v : Byte) (s :
    State) (h0 : onlyChanges ps σ s) : onlyChanges ps σ (loadTest v s) := by
  refine only_trans h0 ?_; clear h0; unfold loadTest
  (try dsimp only)
  repeat' (first
    | with_reducible exact only_refl _ _ | assumption | with_reducible apply updBoot_only (within_trans rfl hp)
    | with_reducible apply updOut_only (within_trans rfl hp) | with_reducible apply only_ite)

theorem execTableauHalt_only (t : Nat) (r : Requester) (s : State) : ∃ s', execTableauHalt t r s = .next s' ∧
    onlyChanges [.now, .cfg, .tab] s s' := by
  refine ⟨_, rfl, ?_⟩
  have hp : within [.now, .cfg, .tab] [.now, .cfg, .tab] = true := rfl
  repeat' (first
    | with_reducible exact only_refl _ _ | assumption | with_reducible apply atTime_only (within_trans rfl hp)
    | with_reducible apply writeHalt_only (within_trans rfl hp) | with_reducible apply only_ite)

theorem execStopInAsserted_only (t : Nat) (s : State) : ∃ s', execStopInAsserted t s = .next s' ∧ onlyChanges
    [.now, .tab] s s' := by
  refine ⟨_, rfl, ?_⟩
  have hp : within [.now, .tab] [.now, .tab] = true := rfl
  repeat' (first
    | with_reducible exact only_refl _ _ | assumption | with_reducible apply stopIn_only (within_trans rfl hp)
    | with_reducible apply atTime_only (within_trans rfl hp))

theorem execTableauHalted_only (t : Nat) (latency : Nat) (s : State) : ∃ s', execTableauHalted t latency s =
    .next s' ∧ onlyChanges [.now, .evt, .crash, .tab, .out] s s' := by
  refine ⟨_, rfl, ?_⟩
  have hp : within [.now, .evt, .crash, .tab, .out] [.now, .evt, .crash, .tab, .out] = true := rfl
  repeat' (first
    | with_reducible exact only_refl _ _ | assumption | with_reducible apply tableauHalted_only (within_trans rfl hp)
    | with_reducible apply atTime_only (within_trans rfl hp))

theorem execTableauRelease_only (t : Nat) (r : Requester) (s : State) : ∃ s', execTableauRelease t r s = .next
    s' ∧ onlyChanges [.now, .evt, .crash, .cfg, .stations, .hz, .ctxs, .adj, .led, .tempo, .sync, .rst, .tab,
    .trace, .i3c, .out] s s' := by
  refine ⟨_, rfl, ?_⟩
  have hp : within [.now, .evt, .crash, .cfg, .stations, .hz, .ctxs, .adj, .led, .tempo, .sync, .rst, .tab, .trace, .i3c, .out] [.now, .evt, .crash, .cfg, .stations, .hz, .ctxs, .adj, .led, .tempo, .sync, .rst, .tab, .trace, .i3c, .out] = true := rfl
  repeat' (first
    | with_reducible exact only_refl _ _ | assumption | with_reducible apply atTime_only (within_trans rfl hp)
    | with_reducible apply writeRelease_only (within_trans rfl hp) | with_reducible apply only_ite)

theorem execTableauScan_only (t : Nat) (r : Requester) (s : State) : ∃ s', execTableauScan t r s = .next s' ∧
    onlyChanges [.now, .cfg, .tab, .boot] s s' := by
  refine ⟨_, rfl, ?_⟩
  have hp : within [.now, .cfg, .tab, .boot] [.now, .cfg, .tab, .boot] = true := rfl
  repeat' (first
    | with_reducible exact only_refl _ _ | assumption | with_reducible apply atTime_only (within_trans rfl hp)
    | with_reducible apply writeScan_only (within_trans rfl hp) | with_reducible apply only_ite)

theorem execScanImageComplete_only (t : Nat) (s : State) : ∃ s', execScanImageComplete t s = .next s' ∧
    onlyChanges [.now, .evt, .tab, .trace, .mem, .memPoison, .out] s s' := by
  refine ⟨_, rfl, ?_⟩
  have hp : within [.now, .evt, .tab, .trace, .mem, .memPoison, .out] [.now, .evt, .tab, .trace, .mem, .memPoison, .out] = true := rfl
  repeat' (first
    | with_reducible exact only_refl _ _ | assumption | with_reducible apply scanComplete_only (within_trans rfl hp)
    | with_reducible apply atTime_only (within_trans rfl hp))

theorem execCounterSnap_only (t : Nat) (r : Requester) (s : State) : ∃ s', execCounterSnap t r s = .next s' ∧
    onlyChanges [.now, .cfg, .trace] s s' := by
  refine ⟨_, rfl, ?_⟩
  have hp : within [.now, .cfg, .trace] [.now, .cfg, .trace] = true := rfl
  repeat' (first
    | with_reducible exact only_refl _ _ | assumption | with_reducible apply writeSnap_only (within_trans rfl hp)
    | with_reducible apply atTime_only (within_trans rfl hp))

theorem execCounterSnapshotLatch_only (t : Nat) (s : State) : ∃ s', execCounterSnapshotLatch t s = .next s' ∧
    onlyChanges [.now, .evt, .stations, .tab, .trace, .out] s s' := by
  refine ⟨_, rfl, ?_⟩
  have hp : within [.now, .evt, .stations, .tab, .trace, .out] [.now, .evt, .stations, .tab, .trace, .out] = true := rfl
  repeat' (first
    | with_reducible exact only_refl _ _ | assumption | with_reducible apply snapLatches_only (within_trans rfl hp)
    | with_reducible apply atTime_only (within_trans rfl hp))

theorem execTraceMarkWrite_only (t : Nat) (r : Requester) (upper : Word) (lower : Option Word) (s : State) : ∃
    s', execTraceMarkWrite t r upper lower s = .next s' ∧ onlyChanges [.now, .evt, .cfg, .tab, .trace, .out] s
    s' := by
  refine ⟨_, rfl, ?_⟩
  have hp : within [.now, .evt, .cfg, .tab, .trace, .out] [.now, .evt, .cfg, .tab, .trace, .out] = true := rfl
  repeat' (first
    | with_reducible exact only_refl _ _ | assumption | with_reducible apply writeMark_only (within_trans rfl hp)
    | with_reducible apply atTime_only (within_trans rfl hp))

theorem execTraceBufRdWrite_only (t : Nat) (r : Requester) (value : Word) (s : State) : ∃ s',
    execTraceBufRdWrite t r value s = .next s' ∧ onlyChanges [.now, .trace] s s' := by
  refine ⟨_, rfl, ?_⟩
  have hp : within [.now, .trace] [.now, .trace] = true := rfl
  repeat' (first
    | with_reducible exact only_refl _ _ | assumption | with_reducible apply writeBufRd_only (within_trans rfl hp)
    | with_reducible apply atTime_only (within_trans rfl hp))

theorem execTraceRdyChange_only (t : Nat) (ready : Bool) (s : State) : ∃ s', execTraceRdyChange t ready s =
    .next s' ∧ onlyChanges [.now, .trace, .out] s s' := by
  refine ⟨_, rfl, ?_⟩
  have hp : within [.now, .trace, .out] [.now, .trace, .out] = true := rfl
  repeat' (first
    | with_reducible exact only_refl _ _ | assumption | with_reducible apply readyChanges_only (within_trans rfl hp)
    | with_reducible apply atTime_only (within_trans rfl hp))

theorem execTraceBufferFlushed_only (t : Nat) (s : State) : ∃ s', execTraceBufferFlushed t s = .next s' ∧
    onlyChanges [.now, .trace, .out] s s' := by
  refine ⟨_, rfl, ?_⟩
  have hp : within [.now, .trace, .out] [.now, .trace, .out] = true := rfl
  repeat' (first
    | with_reducible exact only_refl _ _ | assumption | with_reducible apply bufferFlushed_only (within_trans rfl hp)
    | with_reducible apply atTime_only (within_trans rfl hp))

theorem execTestInstructionLoad_only (t : Nat) (value : Byte) (s : State) : ∃ s', execTestInstructionLoad t
    value s = .next s' ∧ onlyChanges [.now, .boot, .out] s s' := by
  refine ⟨_, rfl, ?_⟩
  have hp : within [.now, .boot, .out] [.now, .boot, .out] = true := rfl
  repeat' (first
    | with_reducible exact only_refl _ _ | assumption | with_reducible apply loadTest_only (within_trans rfl hp)
    | with_reducible apply atTime_only (within_trans rfl hp))

theorem assignObjects_only {ps : List Part} (hp : within [.sync] ps = true) (ctx : Nat) (p : Word) : ∀ ls {σ s
    : State}, onlyChanges ps σ s → onlyChanges ps σ (assignObjects ctx p ls s) := by
  intro ls
  induction ls with
  | nil => intro σ s h; exact h
  | cons a l ih =>
    intro σ s h0
    refine only_trans h0 ?_; clear h0; unfold assignObjects
    repeat' (first
      | with_reducible exact only_refl _ _ | with_reducible apply ih | assumption
      | with_reducible apply updObject_only (within_trans rfl hp))

theorem installMonitors_only {ps : List Part} (hp : within [.sync] ps = true) (ctx : Nat) : ∀ ls v0 {σ s :
    State}, onlyChanges ps σ s → onlyChanges ps σ (installMonitors ctx ls v0 s) := by
  intro ls
  induction ls with
  | nil => intro v0 σ s h; exact h
  | cons a l ih =>
    intro v0 σ s h0
    refine only_trans h0 ?_; clear h0; unfold installMonitors
    (try dsimp only)
    repeat' (first
      | with_reducible exact only_refl _ _ | with_reducible apply ih | assumption
      | with_reducible apply updSync_only (within_trans rfl hp) | with_reducible apply only_ite)

theorem resetSteps_only {ps : List Part} (hp : within [.stations] ps = true)  : ∀ ls {σ s : State},
    onlyChanges ps σ s → onlyChanges ps σ (resetSteps  ls s) := by
  intro ls
  induction ls with
  | nil => intro σ s h; exact h
  | cons a l ih =>
    intro σ s h0
    refine only_trans h0 ?_; clear h0; unfold resetSteps
    (try dsimp only)
    repeat' (first
      | with_reducible exact only_refl _ _ | with_reducible apply ih | assumption
      | with_reducible apply updStation_only (within_trans rfl hp))

theorem startContext_only {σ : State} {ps : List Part} (hp : within [.evt, .stations, .ctxs, .sync, .tab] ps =
    true) (ctx : Nat) (p : Word) (s : State) (h0 : onlyChanges ps σ s) : onlyChanges ps σ (startContext ctx p
    s) := by
  refine only_trans h0 ?_; clear h0; unfold startContext
  split
  · exact only_refl _ s
  · refine occur_only (within_trans rfl hp) _ _ _ _ _ _ (resetSteps_only (within_trans rfl hp) _
      (updSync_only (within_trans rfl hp) _ _ ?_))
    exact only_trans (installMonitors_only (within_trans rfl hp) _ _ _ (assignObjects_only (within_trans rfl hp) _ _ _ (only_refl _ s)))
      ⟨rfl, fun p h => by cases p <;> first | (with_reducible rfl) | exact absurd (within_mem hp rfl) h⟩

theorem finishItem_only {σ : State} {ps : List Part} (hp : within [.evt, .tab, .mem, .memPoison] ps = true)
    (ring kind status : Nat) (s : State) (h0 : onlyChanges ps σ s) : onlyChanges ps σ (finishItem ring kind
    status s) := by
  refine only_trans h0 ?_; clear h0; unfold finishItem
  (try dsimp only)
  repeat' (first
    | with_reducible exact only_refl _ _ | assumption | with_reducible apply memStore_only (within_trans rfl hp)
    | with_reducible apply syncError_only (within_trans rfl hp) | with_reducible apply only_ite)

theorem takeItem_only {σ : State} {ps : List Part} (hp : within [.evt, .tab, .mem, .memPoison] ps = true)
    (ring : Nat) (kind : Nat → Bool) (act : List Byte → State → Nat × State) (s : State) (hact : ∀ x0 {σ s :
    State}, onlyChanges ps σ s → onlyChanges ps σ (act x0 s).2) (h0 : onlyChanges ps σ s) : onlyChanges ps σ
    (takeItem ring kind act s) := by
  refine only_trans h0 ?_; clear h0; unfold takeItem
  (try dsimp only)
  repeat' (first
    | with_reducible exact only_refl _ _ | assumption | with_reducible apply finishItem_only (within_trans rfl hp)
    | with_reducible apply hact | with_reducible apply only_ite | (split <;> try dsimp only))

theorem itemStart_only {σ : State} {ps : List Part} (hp : within [.evt, .stations, .ctxs, .sync, .tab] ps =
    true) (ring : Nat) (l : List Byte) (s : State) (h0 : onlyChanges ps σ s) : onlyChanges ps σ (itemStart
    ring l s).2 := by
  refine only_trans h0 ?_; clear h0; unfold itemStart
  (try dsimp only)
  repeat' (first
    | with_reducible exact only_refl _ _ | assumption | with_reducible apply startContext_only (within_trans rfl hp)
    | with_reducible apply only_ite | (split <;> try dsimp only))

theorem itemEnd_only {σ : State} {ps : List Part} (hp : within [.evt, .stations, .hz, .ctxs, .sync, .tab,
    .trace, .out] ps = true) (l : List Byte) (s : State) (h0 : onlyChanges ps σ s) : onlyChanges ps σ (itemEnd
    l s).2 := by
  refine only_trans h0 ?_; clear h0; unfold itemEnd
  (try dsimp only)
  repeat' (first
    | with_reducible exact only_refl _ _ | assumption | with_reducible apply endContext_only (within_trans rfl hp)
    | with_reducible apply only_ite | (split <;> try dsimp only))

theorem itemOp_only {σ : State} {ps : List Part} (hp : within [.evt, .stations, .hz, .ctxs, .sync, .tab,
    .trace, .out] ps = true) (ring : Nat) (l : List Byte) (s : State) (h0 : onlyChanges ps σ s) : onlyChanges
    ps σ (itemOp ring l s).2 := by
  refine only_trans h0 ?_; clear h0; unfold itemOp
  (try dsimp only)
  repeat' (first
    | with_reducible exact only_refl _ _ | assumption | with_reducible apply actOn_only (within_trans rfl hp)
    | with_reducible apply sealChanged_only (within_trans rfl hp) | with_reducible apply only_ite
    | (split <;> try dsimp only))

theorem itemArm_only {σ : State} {ps : List Part} (hp : within [.sync] ps = true) (l : List Byte) (s : State)
    (h0 : onlyChanges ps σ s) : onlyChanges ps σ (itemArm l s).2 := by
  refine only_trans h0 ?_; clear h0; unfold itemArm
  (try dsimp only)
  repeat' (first
    | with_reducible exact only_refl _ _ | assumption | with_reducible apply updSync_only (within_trans rfl hp)
    | with_reducible apply only_ite | (split <;> try dsimp only))

theorem itemDisarm_only {σ : State} {ps : List Part} (hp : within [.sync] ps = true) (l : List Byte) (s :
    State) (h0 : onlyChanges ps σ s) : onlyChanges ps σ (itemDisarm l s).2 := by
  refine only_trans h0 ?_; clear h0; unfold itemDisarm
  (try dsimp only)
  repeat' (first
    | with_reducible exact only_refl _ _ | assumption | with_reducible apply updSync_only (within_trans rfl hp)
    | with_reducible apply only_ite | (split <;> try dsimp only))

theorem writeWorkList_only {σ : State} {ps : List Part} (hp : within [.sync] ps = true) (r : Requester) (ring
    : Nat) (value : DWord) (s : State) (h0 : onlyChanges ps σ s) : onlyChanges ps σ (writeWorkList r ring
    value s) := by
  refine only_trans h0 ?_; clear h0; unfold writeWorkList
  (try dsimp only)
  repeat' (first
    | with_reducible exact only_refl _ _ | assumption | with_reducible apply updSync_only (within_trans rfl hp)
    | with_reducible apply only_ite)

theorem forceG1_only {σ : State} {ps : List Part} (hp : within [.evt, .cfg, .stations, .hz, .ctxs, .sync,
    .tab, .trace, .out] ps = true) (value : Word) (s : State) (h0 : onlyChanges ps σ s) : onlyChanges ps σ
    (forceG1 value s) := by
  refine only_trans h0 ?_; clear h0; unfold forceG1
  (try dsimp only)
  repeat' (first
    | with_reducible exact only_refl _ _ | assumption | with_reducible apply updCfg_only (within_trans rfl hp)
    | with_reducible apply occur_only (within_trans rfl hp)
    | with_reducible apply sealChanged_only (within_trans rfl hp)
    | with_reducible apply change_only (within_trans rfl hp) | with_reducible apply only_ite)

theorem execContextStart_only (t : Nat) (ring : Fin 2) (s : State) : ∃ s', execContextStart t ring s = .next
    s' ∧ onlyChanges [.now, .evt, .stations, .ctxs, .sync, .tab, .mem, .memPoison] s s' := by
  refine ⟨_, rfl, ?_⟩
  have hp : within [.now, .evt, .stations, .ctxs, .sync, .tab, .mem, .memPoison] [.now, .evt, .stations, .ctxs, .sync, .tab, .mem, .memPoison] = true := rfl
  repeat' (first
    | with_reducible exact only_refl _ _ | assumption | with_reducible apply takeItem_only (within_trans rfl hp)
    | with_reducible apply itemStart_only (within_trans rfl hp)
    | with_reducible apply atTime_only (within_trans rfl hp) | with_reducible apply only_ite
    | (intro _; try dsimp only))

theorem execContextEnd_only (t : Nat) (ring : Fin 2) (s : State) : ∃ s', execContextEnd t ring s = .next s' ∧
    onlyChanges [.now, .evt, .stations, .hz, .ctxs, .sync, .tab, .trace, .mem, .memPoison, .out] s s' := by
  refine ⟨_, rfl, ?_⟩
  have hp : within [.now, .evt, .stations, .hz, .ctxs, .sync, .tab, .trace, .mem, .memPoison, .out] [.now, .evt, .stations, .hz, .ctxs, .sync, .tab, .trace, .mem, .memPoison, .out] = true := rfl
  repeat' (first
    | with_reducible exact only_refl _ _ | assumption | with_reducible apply takeItem_only (within_trans rfl hp)
    | with_reducible apply itemEnd_only (within_trans rfl hp) | with_reducible apply atTime_only (within_trans rfl hp)
    | with_reducible apply only_ite | (intro _; try dsimp only))

theorem execObjectOp_only (t : Nat) (ring : Fin 2) (s : State) : ∃ s', execObjectOp t ring s = .next s' ∧
    onlyChanges [.now, .evt, .stations, .hz, .ctxs, .sync, .tab, .trace, .mem, .memPoison, .out] s s' := by
  refine ⟨_, rfl, ?_⟩
  have hp : within [.now, .evt, .stations, .hz, .ctxs, .sync, .tab, .trace, .mem, .memPoison, .out] [.now, .evt, .stations, .hz, .ctxs, .sync, .tab, .trace, .mem, .memPoison, .out] = true := rfl
  repeat' (first
    | with_reducible exact only_refl _ _ | assumption | with_reducible apply takeItem_only (within_trans rfl hp)
    | with_reducible apply itemOp_only (within_trans rfl hp) | with_reducible apply atTime_only (within_trans rfl hp)
    | with_reducible apply only_ite | (intro _; try dsimp only))

theorem execMonArm_only (t : Nat) (ring : Fin 2) (s : State) : ∃ s', execMonArm t ring s = .next s' ∧
    onlyChanges [.now, .evt, .sync, .tab, .mem, .memPoison] s s' := by
  refine ⟨_, rfl, ?_⟩
  have hp : within [.now, .evt, .sync, .tab, .mem, .memPoison] [.now, .evt, .sync, .tab, .mem, .memPoison] = true := rfl
  repeat' (first
    | with_reducible exact only_refl _ _ | assumption | with_reducible apply takeItem_only (within_trans rfl hp)
    | with_reducible apply itemArm_only (within_trans rfl hp) | with_reducible apply atTime_only (within_trans rfl hp)
    | with_reducible apply only_ite | (intro _; try dsimp only))

theorem execMonDisarm_only (t : Nat) (ring : Fin 2) (s : State) : ∃ s', execMonDisarm t ring s = .next s' ∧
    onlyChanges [.now, .evt, .sync, .tab, .mem, .memPoison] s s' := by
  refine ⟨_, rfl, ?_⟩
  have hp : within [.now, .evt, .sync, .tab, .mem, .memPoison] [.now, .evt, .sync, .tab, .mem, .memPoison] = true := rfl
  repeat' (first
    | with_reducible exact only_refl _ _ | assumption | with_reducible apply takeItem_only (within_trans rfl hp)
    | with_reducible apply itemDisarm_only (within_trans rfl hp)
    | with_reducible apply atTime_only (within_trans rfl hp) | with_reducible apply only_ite
    | (intro _; try dsimp only))

theorem execWorkListConfigWrite_only (t : Nat) (r : Requester) (ring : Fin 2) (value : DWord) (s : State) : ∃
    s', execWorkListConfigWrite t r ring value s = .next s' ∧ onlyChanges [.now, .sync] s s' := by
  refine ⟨_, rfl, ?_⟩
  have hp : within [.now, .sync] [.now, .sync] = true := rfl
  repeat' (first
    | with_reducible exact only_refl _ _ | assumption | with_reducible apply atTime_only (within_trans rfl hp)
    | with_reducible apply writeWorkList_only (within_trans rfl hp) | with_reducible apply only_ite)

theorem execG1ForceGo_only (t : Nat) (value : Word) (s : State) : ∃ s', execG1ForceGo t value s = .next s' ∧
    onlyChanges [.now, .evt, .cfg, .stations, .hz, .ctxs, .sync, .tab, .trace, .out] s s' := by
  refine ⟨_, rfl, ?_⟩
  have hp : within [.now, .evt, .cfg, .stations, .hz, .ctxs, .sync, .tab, .trace, .out] [.now, .evt, .cfg, .stations, .hz, .ctxs, .sync, .tab, .trace, .out] = true := rfl
  repeat' (first
    | with_reducible exact only_refl _ _ | assumption | with_reducible apply atTime_only (within_trans rfl hp)
    | with_reducible apply forceG1_only (within_trans rfl hp) | with_reducible apply only_ite)

theorem readLatched_only {σ : State} {ps : List Part} (hp : within [.cfg] ps = true) (r : Requester) (o : Nat)
    (s : State) (h0 : onlyChanges ps σ s) : onlyChanges ps σ (readLatched r o s).2 := by
  refine only_trans h0 ?_; clear h0; unfold readLatched
  repeat' (first
    | with_reducible exact only_refl _ _ | assumption | with_reducible apply updCfg_only (within_trans rfl hp)
    | with_reducible apply only_ite | (split <;> try dsimp only))

theorem windowRead_only {σ : State} {ps : List Part} (hp : within [.cfg] ps = true) (r : Requester) (o : Nat)
    (s : State) (h0 : onlyChanges ps σ s) : onlyChanges ps σ (windowRead r o s).2 := by
  refine only_trans h0 ?_; clear h0; unfold windowRead
  repeat' (first
    | with_reducible exact only_refl _ _ | assumption | with_reducible apply readLatched_only (within_trans rfl hp)
    | with_reducible apply only_ite | (split <;> try dsimp only))

theorem busRead_only {σ : State} {ps : List Part} (hp : within [.cfg] ps = true) (r : Requester) (o n : Nat)
    (s : State) (h0 : onlyChanges ps σ s) : onlyChanges ps σ (busRead r o n s).2 := by
  refine only_trans h0 ?_; clear h0; unfold busRead
  (try dsimp only)
  repeat' (first
    | with_reducible exact only_refl _ _ | assumption | with_reducible apply windowRead_only (within_trans rfl hp)
    | with_reducible apply only_ite | (split <;> try dsimp only))

theorem recordMode_only {σ : State} {ps : List Part} (hp : within [.evt, .tab] ps = true) (s : State) (h0 :
    onlyChanges ps σ s) : onlyChanges ps σ (recordMode s) := by
  refine only_trans h0 ?_; clear h0; unfold recordMode
  repeat' (first
    | with_reducible exact only_refl _ _ | assumption | with_reducible apply occur_only (within_trans rfl hp))

theorem setMode_only {σ : State} {ps : List Part} (hp : within [.evt, .tab, .i3c] ps = true) (m : Nat) (s :
    State) (h0 : onlyChanges ps σ s) : onlyChanges ps σ (setMode m s) := by
  refine only_trans h0 ?_; clear h0; unfold setMode
  repeat' (first
    | with_reducible exact only_refl _ _ | assumption | with_reducible apply recordMode_only (within_trans rfl hp)
    | with_reducible apply updI3c_only (within_trans rfl hp) | with_reducible apply only_ite)

theorem noteTransfer_only {σ : State} {ps : List Part} (hp : within [.evt, .tab, .i3c] ps = true) (s : State)
    (h0 : onlyChanges ps σ s) : onlyChanges ps σ (noteTransfer s) := by
  refine only_trans h0 ?_; clear h0; unfold noteTransfer
  repeat' (first
    | with_reducible exact only_refl _ _ | assumption | with_reducible apply setMode_only (within_trans rfl hp)
    | with_reducible apply only_ite)

theorem assignAddress_only {σ : State} {ps : List Part} (hp : within [.evt, .tab, .i3c, .out] ps = true)
    (entdaa : Bool) (addr : BitVec 7) (s : State) (h0 : onlyChanges ps σ s) : onlyChanges ps σ (assignAddress
    entdaa addr s) := by
  refine only_trans h0 ?_; clear h0; unfold assignAddress
  (try dsimp only)
  repeat' (first
    | with_reducible exact only_refl _ _ | assumption | with_reducible apply updOut_only (within_trans rfl hp)
    | with_reducible apply recordMode_only (within_trans rfl hp)
    | with_reducible apply updI3c_only (within_trans rfl hp) | with_reducible apply only_ite)

theorem resetAddress_only {σ : State} {ps : List Part} (hp : within [.evt, .tab, .i3c] ps = true) (s : State)
    (h0 : onlyChanges ps σ s) : onlyChanges ps σ (resetAddress s) := by
  refine only_trans h0 ?_; clear h0; unfold resetAddress
  (try dsimp only)
  repeat' (first
    | with_reducible exact only_refl _ _ | assumption | with_reducible apply updI3c_only (within_trans rfl hp)
    | with_reducible apply setMode_only (within_trans rfl hp) | with_reducible apply only_ite)

theorem answer_only {σ : State} {ps : List Part} (hp : within [.i3c] ps = true) (result : Nat) (data : List
    Byte) (s : State) (h0 : onlyChanges ps σ s) : onlyChanges ps σ (answer result data s) := by
  refine only_trans h0 ?_; clear h0; unfold answer
  repeat' (first
    | with_reducible exact only_refl _ _ | assumption | with_reducible apply updI3c_only (within_trans rfl hp))

theorem command_only {σ : State} {ps : List Part} (hp : within [.evt, .tab, .i3c] ps = true) (cmd : Nat) (tag
    : Byte) (arg : List Byte) (crc : Word) (act : State → State) (s : State) (hact : ∀  {σ s : State},
    onlyChanges ps σ s → onlyChanges ps σ (act  s)) (h0 : onlyChanges ps σ s) : onlyChanges ps σ (command cmd
    tag arg crc act s) := by
  refine only_trans h0 ?_; clear h0; unfold command
  (try dsimp only)
  repeat' (first
    | with_reducible exact only_refl _ _ | assumption | with_reducible apply noteTransfer_only (within_trans rfl hp)
    | with_reducible apply updI3c_only (within_trans rfl hp) | with_reducible apply answer_only (within_trans rfl hp)
    | with_reducible apply hact | with_reducible apply only_ite)

theorem callerCommand_only {σ : State} {ps : List Part} (hp : within [.i3c] ps = true) (act : State → State)
    (s : State) (hact : ∀  {σ s : State}, onlyChanges ps σ s → onlyChanges ps σ (act  s)) (h0 : onlyChanges ps
    σ s) : onlyChanges ps σ (callerCommand act s) := by
  refine only_trans h0 ?_; clear h0; unfold callerCommand
  repeat' (first
    | with_reducible exact only_refl _ _ | assumption | with_reducible apply answer_only (within_trans rfl hp)
    | with_reducible apply hact | with_reducible apply only_ite)

theorem readResponse_only {σ : State} {ps : List Part} (hp : within [.evt, .tab, .i3c, .out] ps = true) (s :
    State) (h0 : onlyChanges ps σ s) : onlyChanges ps σ (readResponse s) := by
  refine only_trans h0 ?_; clear h0; unfold readResponse
  (try dsimp only)
  repeat' (first
    | with_reducible exact only_refl _ _ | assumption | with_reducible apply noteTransfer_only (within_trans rfl hp)
    | with_reducible apply updOut_only (within_trans rfl hp) | with_reducible apply updI3c_only (within_trans rfl hp)
    | with_reducible apply only_ite | (split <;> try dsimp only))

theorem readWords_only {ps : List Part} (hp : within [.cfg] ps = true)  : ∀ ls v0 {σ s : State}, onlyChanges
    ps σ s → onlyChanges ps σ (readWords  ls v0 s).2 := by
  intro ls
  induction ls with
  | nil => intro v0 σ s h; exact h
  | cons a l ih =>
    intro v0 σ s h0
    refine only_trans h0 ?_; clear h0; unfold readWords
    (try dsimp only)
    repeat' (first
      | with_reducible exact only_refl _ _ | with_reducible apply ih | assumption
      | with_reducible apply readLatched_only (within_trans rfl hp))

theorem regRead_only {σ : State} {ps : List Part} (hp : within [.cfg, .i3c] ps = true) (offset count : Nat) (s
    : State) (h0 : onlyChanges ps σ s) : onlyChanges ps σ (regRead offset count s) := by
  refine only_trans h0 ?_; clear h0; unfold regRead
  (try dsimp only)
  repeat' (first
    | with_reducible exact only_refl _ _ | assumption | with_reducible apply answer_only (within_trans rfl hp)
    | with_reducible apply readWords_only (within_trans rfl hp) | with_reducible apply only_ite)

theorem evtReadI3c_only {σ : State} {ps : List Part} (hp : within [.i3c] ps = true) (era seq : Nat) (s :
    State) (h0 : onlyChanges ps σ s) : onlyChanges ps σ (evtReadI3c era seq s) := by
  exact answer_only (within_trans rfl hp) _ _ _ h0

theorem dkReadI3c_only {σ : State} {ps : List Part} (hp : within [.i3c] ps = true) (page offset len : Nat) (s
    : State) (h0 : onlyChanges ps σ s) : onlyChanges ps σ (dkReadI3c page offset len s) := by
  refine only_trans h0 ?_; clear h0; unfold dkReadI3c
  repeat' (first
    | with_reducible exact only_refl _ _ | assumption | with_reducible apply answer_only (within_trans rfl hp)
    | with_reducible apply only_ite)

theorem fetchOob_only {σ : State} {ps : List Part} (hp : within [.i3c] ps = true) (s : State) (h0 :
    onlyChanges ps σ s) : onlyChanges ps σ (fetchOob s) := by
  refine only_trans h0 ?_; clear h0; unfold fetchOob
  (try dsimp only)
  repeat' (first
    | with_reducible exact only_refl _ _ | assumption | with_reducible apply updI3c_only (within_trans rfl hp)
    | with_reducible apply answer_only (within_trans rfl hp))

theorem ackOob_only {σ : State} {ps : List Part} (hp : within [.led, .i3c] ps = true) (oseq : Nat) (s : State)
    (h0 : onlyChanges ps σ s) : onlyChanges ps σ (ackOob oseq s) := by
  refine only_trans h0 ?_; clear h0; unfold ackOob
  (try dsimp only)
  repeat' (first
    | with_reducible exact only_refl _ _ | assumption | with_reducible apply answer_only (within_trans rfl hp)
    | with_reducible apply updI3c_only (within_trans rfl hp) | with_reducible apply updLed_only (within_trans rfl hp)
    | with_reducible apply only_ite | (split <;> try dsimp only))

theorem repeatInterrupt_only {σ : State} {ps : List Part} (hp : within [.i3c, .out] ps = true) (s : State) (h0
    : onlyChanges ps σ s) : onlyChanges ps σ (repeatInterrupt s) := by
  refine only_trans h0 ?_; clear h0; unfold repeatInterrupt
  repeat' (first
    | with_reducible exact only_refl _ _ | assumption | with_reducible apply raiseIbi_only (within_trans rfl hp)
    | with_reducible apply only_ite)

theorem resetI3c_only {σ : State} {ps : List Part} (hp : within [.evt, .crash, .cfg, .stations, .hz, .ctxs,
    .adj, .led, .tempo, .sync, .rst, .tab, .trace, .i3c, .out] ps = true) (level queue index : Byte) (s :
    State) (h0 : onlyChanges ps σ s) : onlyChanges ps σ (resetI3c level queue index s) := by
  refine only_trans h0 ?_; clear h0; unfold resetI3c
  (try dsimp only)
  repeat' (first
    | with_reducible exact only_refl _ _ | assumption | with_reducible apply writeRstCmd_only (within_trans rfl hp)
    | with_reducible apply answerResult_only (within_trans rfl hp))

theorem tableauI3c_only {σ : State} {ps : List Part} (hp : within [.evt, .crash, .cfg, .stations, .hz, .ctxs,
    .adj, .led, .tempo, .sync, .rst, .tab, .trace, .boot, .i3c, .out] ps = true) (op : Nat) (s : State) (h0 :
    onlyChanges ps σ s) : onlyChanges ps σ (tableauI3c op s) := by
  refine only_trans h0 ?_; clear h0; unfold tableauI3c
  (try dsimp only)
  repeat' (first
    | with_reducible exact only_refl _ _ | assumption | with_reducible apply answerResult_only (within_trans rfl hp)
    | with_reducible apply writeHalt_only (within_trans rfl hp)
    | with_reducible apply writeRelease_only (within_trans rfl hp)
    | with_reducible apply writeScan_only (within_trans rfl hp)
    | with_reducible apply answer_only (within_trans rfl hp) | with_reducible apply only_ite
    | (split <;> try dsimp only))

theorem shutdownI3c_only {σ : State} {ps : List Part} (hp : within [.cfg, .boot, .i3c] ps = true) (budget :
    Byte) (s : State) (h0 : onlyChanges ps σ s) : onlyChanges ps σ (shutdownI3c budget s) := by
  refine only_trans h0 ?_; clear h0; unfold shutdownI3c
  (try dsimp only)
  repeat' (first
    | with_reducible exact only_refl _ _ | assumption | with_reducible apply writeShutdown_only (within_trans rfl hp)
    | with_reducible apply answerResult_only (within_trans rfl hp))

theorem challengeI3c_only {σ : State} {ps : List Part} (hp : within [.free, .evt, .tab, .i3c] ps = true) (s :
    State) (h0 : onlyChanges ps σ s) : onlyChanges ps σ (challengeI3c s) := by
  refine only_trans h0 ?_; clear h0; unfold challengeI3c
  (try dsimp only)
  repeat' (first
    | with_reducible exact only_refl _ _ | assumption | with_reducible apply challenge_only (within_trans rfl hp)
    | with_reducible apply answer_only (within_trans rfl hp)
    | with_reducible apply answerResult_only (within_trans rfl hp) | with_reducible apply only_ite)

theorem clearI3c_only {σ : State} {ps : List Part} (hp : within [.evt, .tab, .i3c] ps = true) (tag : List
    Byte) (s : State) (h0 : onlyChanges ps σ s) : onlyChanges ps σ (clearI3c tag s) := by
  refine only_trans h0 ?_; clear h0; unfold clearI3c
  (try dsimp only)
  repeat' (first
    | with_reducible exact only_refl _ _ | assumption | with_reducible apply clearLog_only (within_trans rfl hp)
    | with_reducible apply updEvt_only (within_trans rfl hp)
    | with_reducible apply answerResult_only (within_trans rfl hp))

theorem otpI3c_only {σ : State} {ps : List Part} (hp : within [.evt, .cfg, .boot, .i3c] ps = true) (type :
    Nat) (content tag : List Byte) (s : State) (h0 : onlyChanges ps σ s) : onlyChanges ps σ (otpI3c type
    content tag s) := by
  refine only_trans h0 ?_; clear h0; unfold otpI3c
  dsimp only
  have hk := updEvt_only (ps := ps) (within_trans rfl hp) (fun e => { e with response := tlist 0 0 tag }) _
      (updCfg_only (within_trans rfl hp) (fun c => { c with otpData := tputs 0 (reqCode .bc * 64) (List.replicate 4 0 ++ content) c.otpData }) s
        (only_refl _ s))
  have h := programOtp_only (within_trans rfl hp) .bc type _ hk
  split
  · rename_i heq
    rw [heq] at h
    exact answerResult_only (within_trans rfl hp) _ _ _ (setResult_only (within_trans rfl hp) _ _ _ _ h)
  · rename_i heq
    rw [heq] at h
    exact answer_only (within_trans rfl hp) _ _ _ h

theorem storePutI3c_only {σ : State} {ps : List Part} (hp : within [.i3c] ps = true) (object offset : Nat)
    (bytes : List Byte) (s : State) (h0 : onlyChanges ps σ s) : onlyChanges ps σ (storePutI3c object offset
    bytes s) := by
  refine only_trans h0 ?_; clear h0; unfold storePutI3c
  (try dsimp only)
  repeat' (first
    | with_reducible exact only_refl _ _ | assumption | with_reducible apply answer_only (within_trans rfl hp)
    | with_reducible apply updI3c_only (within_trans rfl hp) | with_reducible apply only_ite
    | (split <;> try dsimp only))

theorem storeEndI3c_only {σ : State} {ps : List Part} (hp : within [.boot, .i3c, .out] ps = true) (object len
    : Nat) (s : State) (h0 : onlyChanges ps σ s) : onlyChanges ps σ (storeEndI3c object len s) := by
  refine only_trans h0 ?_; clear h0; unfold storeEndI3c
  repeat' (first
    | with_reducible exact only_refl _ _ | assumption | with_reducible apply answer_only (within_trans rfl hp)
    | with_reducible apply needSettled_only (within_trans rfl hp) | with_reducible apply only_ite
    | (split <;> try dsimp only))

theorem storeGetI3c_only {σ : State} {ps : List Part} (hp : within [.i3c] ps = true) (object offset len : Nat)
    (s : State) (h0 : onlyChanges ps σ s) : onlyChanges ps σ (storeGetI3c object offset len s) := by
  refine only_trans h0 ?_; clear h0; unfold storeGetI3c
  repeat' (first
    | with_reducible exact only_refl _ _ | assumption | with_reducible apply answer_only (within_trans rfl hp)
    | with_reducible apply only_ite | (split <;> try dsimp only))

theorem offerEnded_only {σ : State} {ps : List Part} (hp : within [.boot, .i3c, .out] ps = true) (object :
    Nat) (s : State) (h0 : onlyChanges ps σ s) : onlyChanges ps σ (offerEnded object s) := by
  refine only_trans h0 ?_; clear h0; unfold offerEnded
  repeat' (first
    | with_reducible exact only_refl _ _ | assumption | with_reducible apply haltChip_only (within_trans rfl hp)
    | with_reducible apply updI3c_only (within_trans rfl hp)
    | with_reducible apply nextOffer_only (within_trans rfl hp) | with_reducible apply only_ite)

theorem storeDoneI3c_only {σ : State} {ps : List Part} (hp : within [.boot, .i3c, .out] ps = true) (object :
    Nat) (s : State) (h0 : onlyChanges ps σ s) : onlyChanges ps σ (storeDoneI3c object s) := by
  refine only_trans h0 ?_; clear h0; unfold storeDoneI3c
  (try dsimp only)
  repeat' (first
    | with_reducible exact only_refl _ _ | assumption | with_reducible apply answer_only (within_trans rfl hp)
    | with_reducible apply updI3c_only (within_trans rfl hp)
    | with_reducible apply offerEnded_only (within_trans rfl hp) | with_reducible apply only_ite
    | (split <;> try dsimp only))

theorem needTimeout_only {σ : State} {ps : List Part} (hp : within [.boot, .i3c, .out] ps = true) (object :
    Nat) (s : State) (h0 : onlyChanges ps σ s) : onlyChanges ps σ (needTimeout object s) := by
  refine only_trans h0 ?_; clear h0; unfold needTimeout
  repeat' (first
    | with_reducible exact only_refl _ _ | assumption | with_reducible apply needSettled_only (within_trans rfl hp)
    | with_reducible apply only_ite | (split <;> try dsimp only))

theorem offerTimeout_only {σ : State} {ps : List Part} (hp : within [.boot, .i3c, .out] ps = true) (object :
    Nat) (s : State) (h0 : onlyChanges ps σ s) : onlyChanges ps σ (offerTimeout object s) := by
  refine only_trans h0 ?_; clear h0; unfold offerTimeout
  repeat' (first
    | with_reducible exact only_refl _ _ | assumption | with_reducible apply offerEnded_only (within_trans rfl hp)
    | with_reducible apply only_ite | (split <;> try dsimp only))

theorem unknownCommand_only {σ : State} {ps : List Part} (hp : within [.evt, .tab, .i3c] ps = true) (cmd tag :
    Byte) (arg : List Byte) (crc : Word) (s : State) (h0 : onlyChanges ps σ s) : onlyChanges ps σ
    (unknownCommand cmd tag arg crc s) := by
  refine only_trans h0 ?_; clear h0; unfold unknownCommand
  repeat' (first
    | with_reducible exact only_refl _ _ | assumption | with_reducible apply command_only (within_trans rfl hp)
    | with_reducible apply answer_only (within_trans rfl hp) | with_reducible apply only_ite
    | (intro _; try dsimp only))

theorem execI3cDynamicAddress_only (t : Nat) (entdaa : Bool) (addr : BitVec 7) (s : State) : ∃ s',
    execI3cDynamicAddress t entdaa addr s = .next s' ∧ onlyChanges [.now, .evt, .tab, .i3c, .out] s s' := by
  refine ⟨_, rfl, ?_⟩
  have hp : within [.now, .evt, .tab, .i3c, .out] [.now, .evt, .tab, .i3c, .out] = true := rfl
  repeat' (first
    | with_reducible exact only_refl _ _ | assumption | with_reducible apply assignAddress_only (within_trans rfl hp)
    | with_reducible apply atTime_only (within_trans rfl hp))

theorem execI3cHdrDdrTransfer_only (t : Nat) (s : State) : ∃ s', execI3cHdrDdrTransfer t s = .next s' ∧
    onlyChanges [.now, .evt, .tab, .i3c] s s' := by
  refine ⟨_, rfl, ?_⟩
  have hp : within [.now, .evt, .tab, .i3c] [.now, .evt, .tab, .i3c] = true := rfl
  repeat' (first
    | with_reducible exact only_refl _ _ | assumption | with_reducible apply atTime_only (within_trans rfl hp)
    | with_reducible apply setMode_only (within_trans rfl hp) | with_reducible apply only_ite)

theorem execI3cRstdaa_only (t : Nat) (s : State) : ∃ s', execI3cRstdaa t s = .next s' ∧ onlyChanges [.now,
    .evt, .tab, .i3c] s s' := by
  refine ⟨_, rfl, ?_⟩
  have hp : within [.now, .evt, .tab, .i3c] [.now, .evt, .tab, .i3c] = true := rfl
  repeat' (first
    | with_reducible exact only_refl _ _ | assumption | with_reducible apply resetAddress_only (within_trans rfl hp)
    | with_reducible apply atTime_only (within_trans rfl hp))

theorem execI3cFrameAbort_only (t : Nat) (s : State) : ∃ s', execI3cFrameAbort t s = .next s' ∧ onlyChanges
    [.now] s s' := by
  refine ⟨_, rfl, ?_⟩
  have hp : within [.now] [.now] = true := rfl
  repeat' (first
    | with_reducible exact only_refl _ _ | assumption | with_reducible apply atTime_only (within_trans rfl hp))

theorem execI3cResponseRead_only (t : Nat) (s : State) : ∃ s', execI3cResponseRead t s = .next s' ∧
    onlyChanges [.now, .evt, .tab, .i3c, .out] s s' := by
  refine ⟨_, rfl, ?_⟩
  have hp : within [.now, .evt, .tab, .i3c, .out] [.now, .evt, .tab, .i3c, .out] = true := rfl
  repeat' (first
    | with_reducible exact only_refl _ _ | assumption | with_reducible apply readResponse_only (within_trans rfl hp)
    | with_reducible apply atTime_only (within_trans rfl hp))

theorem execI3cStatus_only (t : Nat) (tag : Byte) (crc : Word) (s : State) : ∃ s', execI3cStatus t tag crc s =
    .next s' ∧ onlyChanges [.now, .evt, .tab, .i3c] s s' := by
  refine ⟨_, rfl, ?_⟩
  have hp : within [.now, .evt, .tab, .i3c] [.now, .evt, .tab, .i3c] = true := rfl
  repeat' (first
    | with_reducible exact only_refl _ _ | assumption | with_reducible apply command_only (within_trans rfl hp)
    | with_reducible apply answer_only (within_trans rfl hp) | with_reducible apply atTime_only (within_trans rfl hp)
    | with_reducible apply only_ite | (intro _; try dsimp only))

theorem execI3cRegRead_only (t : Nat) (tag : Byte) (offset : Word) (count : Byte) (crc : Word) (s : State) : ∃
    s', execI3cRegRead t tag offset count crc s = .next s' ∧ onlyChanges [.now, .evt, .cfg, .tab, .i3c] s s' := by
  refine ⟨_, rfl, ?_⟩
  have hp : within [.now, .evt, .cfg, .tab, .i3c] [.now, .evt, .cfg, .tab, .i3c] = true := rfl
  repeat' (first
    | with_reducible exact only_refl _ _ | assumption | with_reducible apply command_only (within_trans rfl hp)
    | with_reducible apply regRead_only (within_trans rfl hp) | with_reducible apply atTime_only (within_trans rfl hp)
    | with_reducible apply only_ite | (intro _; try dsimp only))

theorem execI3cEvtRead_only (t : Nat) (tag : Byte) (era : Byte) (seq : Word) (crc : Word) (s : State) : ∃ s',
    execI3cEvtRead t tag era seq crc s = .next s' ∧ onlyChanges [.now, .evt, .tab, .i3c] s s' := by
  refine ⟨_, rfl, ?_⟩
  have hp : within [.now, .evt, .tab, .i3c] [.now, .evt, .tab, .i3c] = true := rfl
  repeat' (first
    | with_reducible exact only_refl _ _ | assumption | with_reducible apply command_only (within_trans rfl hp)
    | with_reducible apply evtReadI3c_only (within_trans rfl hp)
    | with_reducible apply atTime_only (within_trans rfl hp) | with_reducible apply only_ite
    | (intro _; try dsimp only))

theorem execI3cDkRead_only (t : Nat) (tag : Byte) (page : Byte) (offset : Word) (len : BitVec 16) (crc : Word)
    (s : State) : ∃ s', execI3cDkRead t tag page offset len crc s = .next s' ∧ onlyChanges [.now, .evt, .tab,
    .i3c] s s' := by
  refine ⟨_, rfl, ?_⟩
  have hp : within [.now, .evt, .tab, .i3c] [.now, .evt, .tab, .i3c] = true := rfl
  repeat' (first
    | with_reducible exact only_refl _ _ | assumption | with_reducible apply command_only (within_trans rfl hp)
    | with_reducible apply dkReadI3c_only (within_trans rfl hp)
    | with_reducible apply atTime_only (within_trans rfl hp) | with_reducible apply only_ite
    | (intro _; try dsimp only))

theorem execOobFetch_only (t : Nat) (tag : Byte) (crc : Word) (s : State) : ∃ s', execOobFetch t tag crc s =
    .next s' ∧ onlyChanges [.now, .evt, .tab, .i3c] s s' := by
  refine ⟨_, rfl, ?_⟩
  have hp : within [.now, .evt, .tab, .i3c] [.now, .evt, .tab, .i3c] = true := rfl
  repeat' (first
    | with_reducible exact only_refl _ _ | assumption | with_reducible apply command_only (within_trans rfl hp)
    | with_reducible apply fetchOob_only (within_trans rfl hp)
    | with_reducible apply atTime_only (within_trans rfl hp) | with_reducible apply only_ite
    | (intro _; try dsimp only))

theorem execOobAck_only (t : Nat) (tag : Byte) (oseq : BitVec 16) (crc : Word) (s : State) : ∃ s', execOobAck
    t tag oseq crc s = .next s' ∧ onlyChanges [.now, .evt, .led, .tab, .i3c] s s' := by
  refine ⟨_, rfl, ?_⟩
  have hp : within [.now, .evt, .led, .tab, .i3c] [.now, .evt, .led, .tab, .i3c] = true := rfl
  repeat' (first
    | with_reducible exact only_refl _ _ | assumption | with_reducible apply command_only (within_trans rfl hp)
    | with_reducible apply ackOob_only (within_trans rfl hp) | with_reducible apply atTime_only (within_trans rfl hp)
    | with_reducible apply only_ite | (intro _; try dsimp only))

theorem execI3cReset_only (t : Nat) (tag : Byte) (level queue index : Byte) (crc : Word) (s : State) : ∃ s',
    execI3cReset t tag level queue index crc s = .next s' ∧ onlyChanges [.now, .evt, .crash, .cfg, .stations,
    .hz, .ctxs, .adj, .led, .tempo, .sync, .rst, .tab, .trace, .i3c, .out] s s' := by
  refine ⟨_, rfl, ?_⟩
  have hp : within [.now, .evt, .crash, .cfg, .stations, .hz, .ctxs, .adj, .led, .tempo, .sync, .rst, .tab, .trace, .i3c, .out] [.now, .evt, .crash, .cfg, .stations, .hz, .ctxs, .adj, .led, .tempo, .sync, .rst, .tab, .trace, .i3c, .out] = true := rfl
  repeat' (first
    | with_reducible exact only_refl _ _ | assumption | with_reducible apply command_only (within_trans rfl hp)
    | with_reducible apply callerCommand_only (within_trans rfl hp)
    | with_reducible apply resetI3c_only (within_trans rfl hp)
    | with_reducible apply atTime_only (within_trans rfl hp) | with_reducible apply only_ite
    | (intro _; try dsimp only))

theorem execI3cTableau_only (t : Nat) (tag : Byte) (op : Byte) (crc : Word) (s : State) : ∃ s', execI3cTableau
    t tag op crc s = .next s' ∧ onlyChanges [.now, .evt, .crash, .cfg, .stations, .hz, .ctxs, .adj, .led,
    .tempo, .sync, .rst, .tab, .trace, .boot, .i3c, .out] s s' := by
  refine ⟨_, rfl, ?_⟩
  have hp : within [.now, .evt, .crash, .cfg, .stations, .hz, .ctxs, .adj, .led, .tempo, .sync, .rst, .tab, .trace, .boot, .i3c, .out] [.now, .evt, .crash, .cfg, .stations, .hz, .ctxs, .adj, .led, .tempo, .sync, .rst, .tab, .trace, .boot, .i3c, .out] = true := rfl
  repeat' (first
    | with_reducible exact only_refl _ _ | assumption | with_reducible apply command_only (within_trans rfl hp)
    | with_reducible apply callerCommand_only (within_trans rfl hp)
    | with_reducible apply tableauI3c_only (within_trans rfl hp)
    | with_reducible apply atTime_only (within_trans rfl hp) | with_reducible apply only_ite
    | (intro _; try dsimp only))

theorem execI3cShutdown_only (t : Nat) (tag : Byte) (budget : Byte) (crc : Word) (s : State) : ∃ s',
    execI3cShutdown t tag budget crc s = .next s' ∧ onlyChanges [.now, .evt, .cfg, .tab, .boot, .i3c] s s' := by
  refine ⟨_, rfl, ?_⟩
  have hp : within [.now, .evt, .cfg, .tab, .boot, .i3c] [.now, .evt, .cfg, .tab, .boot, .i3c] = true := rfl
  repeat' (first
    | with_reducible exact only_refl _ _ | assumption | with_reducible apply command_only (within_trans rfl hp)
    | with_reducible apply callerCommand_only (within_trans rfl hp)
    | with_reducible apply shutdownI3c_only (within_trans rfl hp)
    | with_reducible apply atTime_only (within_trans rfl hp) | with_reducible apply only_ite
    | (intro _; try dsimp only))

theorem execI3cChallenge_only (t : Nat) (tag : Byte) (crc : Word) (s : State) : ∃ s', execI3cChallenge t tag
    crc s = .next s' ∧ onlyChanges [.now, .free, .evt, .tab, .i3c] s s' := by
  refine ⟨_, rfl, ?_⟩
  have hp : within [.now, .free, .evt, .tab, .i3c] [.now, .free, .evt, .tab, .i3c] = true := rfl
  repeat' (first
    | with_reducible exact only_refl _ _ | assumption | with_reducible apply command_only (within_trans rfl hp)
    | with_reducible apply callerCommand_only (within_trans rfl hp)
    | with_reducible apply challengeI3c_only (within_trans rfl hp)
    | with_reducible apply atTime_only (within_trans rfl hp) | with_reducible apply only_ite
    | (intro _; try dsimp only))

theorem execI3cClear_only (t : Nat) (tag : Byte) (hmac : BitVec 256) (crc : Word) (s : State) : ∃ s',
    execI3cClear t tag hmac crc s = .next s' ∧ onlyChanges [.now, .evt, .tab, .i3c] s s' := by
  refine ⟨_, rfl, ?_⟩
  have hp : within [.now, .evt, .tab, .i3c] [.now, .evt, .tab, .i3c] = true := rfl
  repeat' (first
    | with_reducible exact only_refl _ _ | assumption | with_reducible apply command_only (within_trans rfl hp)
    | with_reducible apply callerCommand_only (within_trans rfl hp)
    | with_reducible apply clearI3c_only (within_trans rfl hp)
    | with_reducible apply atTime_only (within_trans rfl hp) | with_reducible apply only_ite
    | (intro _; try dsimp only))

theorem execI3cOtpProgram_only (t : Nat) (tag : Byte) (type : Byte) (content : BitVec 480) (hmac : BitVec 256)
    (crc : Word) (s : State) : ∃ s', execI3cOtpProgram t tag type content hmac crc s = .next s' ∧ onlyChanges
    [.now, .evt, .cfg, .tab, .boot, .i3c] s s' := by
  refine ⟨_, rfl, ?_⟩
  have hp : within [.now, .evt, .cfg, .tab, .boot, .i3c] [.now, .evt, .cfg, .tab, .boot, .i3c] = true := rfl
  repeat' (first
    | with_reducible exact only_refl _ _ | assumption | with_reducible apply command_only (within_trans rfl hp)
    | with_reducible apply callerCommand_only (within_trans rfl hp)
    | with_reducible apply otpI3c_only (within_trans rfl hp) | with_reducible apply atTime_only (within_trans rfl hp)
    | with_reducible apply only_ite | (intro _; try dsimp only))

theorem execStorePut_only (t : Nat) (tag : Byte) (object : Byte) (offset : Word) (bytes : List Byte) (crc :
    Word) (s : State) : ∃ s', execStorePut t tag object offset bytes crc s = .next s' ∧ onlyChanges [.now,
    .evt, .tab, .i3c] s s' := by
  refine ⟨_, rfl, ?_⟩
  have hp : within [.now, .evt, .tab, .i3c] [.now, .evt, .tab, .i3c] = true := rfl
  repeat' (first
    | with_reducible exact only_refl _ _ | assumption | with_reducible apply command_only (within_trans rfl hp)
    | with_reducible apply callerCommand_only (within_trans rfl hp)
    | with_reducible apply storePutI3c_only (within_trans rfl hp)
    | with_reducible apply answer_only (within_trans rfl hp) | with_reducible apply atTime_only (within_trans rfl hp)
    | with_reducible apply only_ite | (split <;> try dsimp only) | (intro _; try dsimp only))

theorem execStoreEnd_only (t : Nat) (tag : Byte) (object : Byte) (len : Word) (crc : Word) (s : State) : ∃ s',
    execStoreEnd t tag object len crc s = .next s' ∧ onlyChanges [.now, .evt, .tab, .boot, .i3c, .out] s s' := by
  refine ⟨_, rfl, ?_⟩
  have hp : within [.now, .evt, .tab, .boot, .i3c, .out] [.now, .evt, .tab, .boot, .i3c, .out] = true := rfl
  repeat' (first
    | with_reducible exact only_refl _ _ | assumption | with_reducible apply command_only (within_trans rfl hp)
    | with_reducible apply callerCommand_only (within_trans rfl hp)
    | with_reducible apply storeEndI3c_only (within_trans rfl hp)
    | with_reducible apply atTime_only (within_trans rfl hp) | with_reducible apply only_ite
    | (intro _; try dsimp only))

theorem execStoreGet_only (t : Nat) (tag : Byte) (object : Byte) (offset : Word) (len : BitVec 16) (crc :
    Word) (s : State) : ∃ s', execStoreGet t tag object offset len crc s = .next s' ∧ onlyChanges [.now, .evt,
    .tab, .i3c] s s' := by
  refine ⟨_, rfl, ?_⟩
  have hp : within [.now, .evt, .tab, .i3c] [.now, .evt, .tab, .i3c] = true := rfl
  repeat' (first
    | with_reducible exact only_refl _ _ | assumption | with_reducible apply command_only (within_trans rfl hp)
    | with_reducible apply callerCommand_only (within_trans rfl hp)
    | with_reducible apply storeGetI3c_only (within_trans rfl hp)
    | with_reducible apply atTime_only (within_trans rfl hp) | with_reducible apply only_ite
    | (intro _; try dsimp only))

theorem execStoreDone_only (t : Nat) (tag : Byte) (object : Byte) (crc : Word) (s : State) : ∃ s',
    execStoreDone t tag object crc s = .next s' ∧ onlyChanges [.now, .evt, .tab, .boot, .i3c, .out] s s' := by
  refine ⟨_, rfl, ?_⟩
  have hp : within [.now, .evt, .tab, .boot, .i3c, .out] [.now, .evt, .tab, .boot, .i3c, .out] = true := rfl
  repeat' (first
    | with_reducible exact only_refl _ _ | assumption | with_reducible apply command_only (within_trans rfl hp)
    | with_reducible apply callerCommand_only (within_trans rfl hp)
    | with_reducible apply storeDoneI3c_only (within_trans rfl hp)
    | with_reducible apply atTime_only (within_trans rfl hp) | with_reducible apply only_ite
    | (intro _; try dsimp only))

theorem execStoreNeedTimeout_only (t : Nat) (object : Byte) (s : State) : ∃ s', execStoreNeedTimeout t object
    s = .next s' ∧ onlyChanges [.now, .boot, .i3c, .out] s s' := by
  refine ⟨_, rfl, ?_⟩
  have hp : within [.now, .boot, .i3c, .out] [.now, .boot, .i3c, .out] = true := rfl
  repeat' (first
    | with_reducible exact only_refl _ _ | assumption | with_reducible apply needTimeout_only (within_trans rfl hp)
    | with_reducible apply atTime_only (within_trans rfl hp))

theorem execStoreOfferTimeout_only (t : Nat) (object : Byte) (s : State) : ∃ s', execStoreOfferTimeout t
    object s = .next s' ∧ onlyChanges [.now, .boot, .i3c, .out] s s' := by
  refine ⟨_, rfl, ?_⟩
  have hp : within [.now, .boot, .i3c, .out] [.now, .boot, .i3c, .out] = true := rfl
  repeat' (first
    | with_reducible exact only_refl _ _ | assumption | with_reducible apply offerTimeout_only (within_trans rfl hp)
    | with_reducible apply atTime_only (within_trans rfl hp))

theorem execOobInterruptRepeat_only (t : Nat) (s : State) : ∃ s', execOobInterruptRepeat t s = .next s' ∧
    onlyChanges [.now, .i3c, .out] s s' := by
  refine ⟨_, rfl, ?_⟩
  have hp : within [.now, .i3c, .out] [.now, .i3c, .out] = true := rfl
  repeat' (first
    | with_reducible exact only_refl _ _ | assumption
    | with_reducible apply repeatInterrupt_only (within_trans rfl hp)
    | with_reducible apply atTime_only (within_trans rfl hp))

theorem execI3cUnknownCommand_only (t : Nat) (cmd tag : Byte) (arg : List Byte) (crc : Word) (s : State) : ∃
    s', execI3cUnknownCommand t cmd tag arg crc s = .next s' ∧ onlyChanges [.now, .evt, .tab, .i3c] s s' := by
  refine ⟨_, rfl, ?_⟩
  have hp : within [.now, .evt, .tab, .i3c] [.now, .evt, .tab, .i3c] = true := rfl
  repeat' (first
    | with_reducible exact only_refl _ _ | assumption | with_reducible apply unknownCommand_only (within_trans rfl hp)
    | with_reducible apply atTime_only (within_trans rfl hp))

theorem holdLow_only {σ : State} {ps : List Part} (hp : within [.cfg] ps = true) (o : Nat) (r : Requester) (v
    : Word) (s : State) (h0 : onlyChanges ps σ s) : onlyChanges ps σ (holdLow o r v s) := by
  refine only_trans h0 ?_; clear h0; unfold holdLow
  repeat' (first
    | with_reducible exact only_refl _ _ | assumption | with_reducible apply updCfg_only (within_trans rfl hp))

theorem takeLow_only {σ : State} {ps : List Part} (hp : within [.cfg] ps = true) (o : Nat) (r : Requester) (s
    : State) (h0 : onlyChanges ps σ s) : onlyChanges ps σ (takeLow o r s) := by
  refine only_trans h0 ?_; clear h0; unfold takeLow
  repeat' (first
    | with_reducible exact only_refl _ _ | assumption | with_reducible apply updCfg_only (within_trans rfl hp))

theorem write64_only {σ : State} {ps : List Part} (hp : within [.cfg] ps = true) (o off : Nat) (wide : Bool)
    (r : Requester) (v : DWord) (now : Nat) (act : DWord → State → State) (s : State) (hact : ∀ x0 {σ s :
    State}, onlyChanges ps σ s → onlyChanges ps σ (act x0 s)) (h0 : onlyChanges ps σ s) : onlyChanges ps σ
    (write64 o off wide r v now act s) := by
  refine only_trans h0 ?_; clear h0; unfold write64
  repeat' (first
    | with_reducible exact only_refl _ _ | assumption | with_reducible apply takeLow_only (within_trans rfl hp)
    | with_reducible apply holdLow_only (within_trans rfl hp) | with_reducible apply hact
    | with_reducible apply only_ite)

theorem writeCharterAddr_only {σ : State} {ps : List Part} (hp : within [.cfg] ps = true) (v : DWord) (s :
    State) (h0 : onlyChanges ps σ s) : onlyChanges ps σ (writeCharterAddr v s) := by
  refine only_trans h0 ?_; clear h0; unfold writeCharterAddr
  repeat' (first
    | with_reducible exact only_refl _ _ | assumption | with_reducible apply updCfg_only (within_trans rfl hp))

theorem writeDest_only {σ : State} {ps : List Part} (hp : within [.tab] ps = true) (v : DWord) (s : State) (h0
    : onlyChanges ps σ s) : onlyChanges ps σ (writeDest v s) := by
  refine only_trans h0 ?_; clear h0; unfold writeDest
  repeat' (first
    | with_reducible exact only_refl _ _ | assumption | with_reducible apply updTab_only (within_trans rfl hp))

theorem writeSnapAt_only {σ : State} {ps : List Part} (hp : within [.trace] ps = true) (v : DWord) (s : State)
    (h0 : onlyChanges ps σ s) : onlyChanges ps σ (writeSnapAt v s) := by
  refine only_trans h0 ?_; clear h0; unfold writeSnapAt
  repeat' (first
    | with_reducible exact only_refl _ _ | assumption | with_reducible apply updTrace_only (within_trans rfl hp))

theorem writeBarAddr_only {σ : State} {ps : List Part} (hp : within [.cfg] ps = true) (r : Requester) (v :
    DWord) (s : State) (h0 : onlyChanges ps σ s) : onlyChanges ps σ (writeBarAddr r v s) := by
  refine only_trans h0 ?_; clear h0; unfold writeBarAddr
  repeat' (first
    | with_reducible exact only_refl _ _ | assumption | with_reducible apply updCfg_only (within_trans rfl hp))

theorem writeFwd_only {σ : State} {ps : List Part} (hp : within [.evt] ps = true) (v : Word) (s : State) (h0 :
    onlyChanges ps σ s) : onlyChanges ps σ (writeFwd v s) := by
  refine only_trans h0 ?_; clear h0; unfold writeFwd
  repeat' (first
    | with_reducible exact only_refl _ _ | assumption | with_reducible apply updEvt_only (within_trans rfl hp))

theorem writeDkSel_only {σ : State} {ps : List Part} (hp : within [.evt] ps = true) (r : Requester) (v : Word)
    (s : State) (h0 : onlyChanges ps σ s) : onlyChanges ps σ (writeDkSel r v s) := by
  refine only_trans h0 ?_; clear h0; unfold writeDkSel
  repeat' (first
    | with_reducible exact only_refl _ _ | assumption | with_reducible apply updEvt_only (within_trans rfl hp))

theorem writeBufSel_only {σ : State} {ps : List Part} (hp : within [.trace] ps = true) (r : Requester) (v :
    Word) (s : State) (h0 : onlyChanges ps σ s) : onlyChanges ps σ (writeBufSel r v s) := by
  refine only_trans h0 ?_; clear h0; unfold writeBufSel
  repeat' (first
    | with_reducible exact only_refl _ _ | assumption | with_reducible apply updTrace_only (within_trans rfl hp))

theorem writeSealSel_only {σ : State} {ps : List Part} (hp : within [.cfg] ps = true) (r : Requester) (v :
    Word) (s : State) (h0 : onlyChanges ps σ s) : onlyChanges ps σ (writeSealSel r v s) := by
  refine only_trans h0 ?_; clear h0; unfold writeSealSel
  repeat' (first
    | with_reducible exact only_refl _ _ | assumption | with_reducible apply updCfg_only (within_trans rfl hp))

theorem writeArm_only {σ : State} {ps : List Part} (hp : within [.tab] ps = true) (v : Word) (s : State) (h0 :
    onlyChanges ps σ s) : onlyChanges ps σ (writeArm v s) := by
  refine only_trans h0 ?_; clear h0; unfold writeArm
  repeat' (first
    | with_reducible exact only_refl _ _ | assumption | with_reducible apply updTab_only (within_trans rfl hp))

theorem writeTraceCtl_only {σ : State} {ps : List Part} (hp : within [.trace] ps = true) (v : Word) (s :
    State) (h0 : onlyChanges ps σ s) : onlyChanges ps σ (writeTraceCtl v s) := by
  refine only_trans h0 ?_; clear h0; unfold writeTraceCtl
  repeat' (first
    | with_reducible exact only_refl _ _ | assumption | with_reducible apply startFlush_only (within_trans rfl hp)
    | with_reducible apply updTrace_only (within_trans rfl hp))

theorem writeTraceCores_only {σ : State} {ps : List Part} (hp : within [.trace] ps = true) (i : Nat) (v :
    Word) (s : State) (h0 : onlyChanges ps σ s) : onlyChanges ps σ (writeTraceCores i v s) := by
  refine only_trans h0 ?_; clear h0; unfold writeTraceCores
  (try dsimp only)
  repeat' (first
    | with_reducible exact only_refl _ _ | assumption | with_reducible apply updTrace_only (within_trans rfl hp))

theorem writeTxn_only {σ : State} {ps : List Part} (hp : within [.evt, .cfg, .tab] ps = true) (r : Requester)
    (v : Word) (s : State) (h0 : onlyChanges ps σ s) : onlyChanges ps σ (writeTxn r v s) := by
  refine only_trans h0 ?_; clear h0; unfold writeTxn
  repeat' (first
    | with_reducible exact only_refl _ _ | assumption | with_reducible apply txnCommand_only (within_trans rfl hp)
    | with_reducible apply only_ite)

theorem writeEvtClear_only {σ : State} {ps : List Part} (hp : within [.free, .evt, .tab] ps = true) (r :
    Requester) (v : Word) (s : State) (h0 : onlyChanges ps σ s) : onlyChanges ps σ (writeEvtClear r v s) := by
  refine only_trans h0 ?_; clear h0; unfold writeEvtClear
  repeat' (first
    | with_reducible exact only_refl _ _ | assumption | with_reducible apply challenge_only (within_trans rfl hp)
    | with_reducible apply clearLog_only (within_trans rfl hp) | with_reducible apply only_ite
    | (split <;> try dsimp only))

theorem writeTableauCmd_only {σ : State} {ps : List Part} (hp : within [.evt, .crash, .cfg, .stations, .hz,
    .ctxs, .adj, .led, .tempo, .sync, .rst, .tab, .trace, .boot, .i3c, .out] ps = true) (r : Requester) (v :
    Word) (s : State) (h0 : onlyChanges ps σ s) : onlyChanges ps σ (writeTableauCmd r v s) := by
  refine only_trans h0 ?_; clear h0; unfold writeTableauCmd
  repeat' (first
    | with_reducible exact only_refl _ _ | assumption | with_reducible apply writeHalt_only (within_trans rfl hp)
    | with_reducible apply writeRelease_only (within_trans rfl hp)
    | with_reducible apply writeScan_only (within_trans rfl hp) | with_reducible apply only_ite
    | (split <;> try dsimp only))

theorem writeSnapCmd_only {σ : State} {ps : List Part} (hp : within [.cfg, .trace] ps = true) (r : Requester)
    (v : Word) (s : State) (h0 : onlyChanges ps σ s) : onlyChanges ps σ (writeSnapCmd r v s) := by
  refine only_trans h0 ?_; clear h0; unfold writeSnapCmd
  repeat' (first
    | with_reducible exact only_refl _ _ | assumption | with_reducible apply writeSnap_only (within_trans rfl hp)
    | with_reducible apply only_ite)

theorem writeBarCmd_only {σ : State} {ps : List Part} (hp : within [.cfg, .sync] ps = true) (r : Requester) (v
    : Word) (s : State) (h0 : onlyChanges ps σ s) : onlyChanges ps σ (writeBarCmd r v s) := by
  refine only_trans h0 ?_; clear h0; unfold writeBarCmd
  (try dsimp only)
  repeat' (first
    | with_reducible exact only_refl _ _ | assumption | with_reducible apply updCfg_only (within_trans rfl hp)
    | with_reducible apply armBarrier_only (within_trans rfl hp)
    | with_reducible apply disarmBarrier_only (within_trans rfl hp) | with_reducible apply only_ite
    | (split <;> try dsimp only))

theorem writePeer_only {σ : State} {ps : List Part} (hp : within [.free, .evt, .cfg, .stations, .hz, .sync,
    .tab, .trace, .out] ps = true) (r : Requester) (v : DWord) (s : State) (h0 : onlyChanges ps σ s) :
    onlyChanges ps σ (writePeer r v s) := by
  refine only_trans h0 ?_; clear h0; unfold writePeer
  (try dsimp only)
  repeat' (first
    | with_reducible exact only_refl _ _ | assumption | with_reducible apply updCfg_only (within_trans rfl hp)
    | with_reducible apply advise_only (within_trans rfl hp) | with_reducible apply only_ite
    | (split <;> try dsimp only))

theorem writeEvtRead_only {σ : State} {ps : List Part} (hp : within [.evt] ps = true) (off : Nat) (wide :
    Bool) (r : Requester) (v : DWord) (s : State) (h0 : onlyChanges ps σ s) : onlyChanges ps σ (writeEvtRead
    off wide r v s) := by
  refine only_trans h0 ?_; clear h0; unfold writeEvtRead
  (try dsimp only)
  repeat' (first
    | with_reducible exact only_refl _ _ | assumption | with_reducible apply updEvt_only (within_trans rfl hp))

theorem writeMarkReg_only {σ : State} {ps : List Part} (hp : within [.evt, .cfg, .tab, .trace, .out] ps =
    true) (off : Nat) (wide : Bool) (r : Requester) (v : DWord) (s : State) (h0 : onlyChanges ps σ s) :
    onlyChanges ps σ (writeMarkReg off wide r v s) := by
  refine only_trans h0 ?_; clear h0; unfold writeMarkReg
  repeat' (first
    | with_reducible exact only_refl _ _ | assumption | with_reducible apply writeMark_only (within_trans rfl hp)
    | with_reducible apply holdLow_only (within_trans rfl hp) | with_reducible apply only_ite)

theorem write32_only {σ : State} {ps : List Part} (hp : within [.free, .evt, .crash, .cfg, .stations, .hz,
    .ctxs, .adj, .led, .tempo, .sync, .rst, .tab, .trace, .boot, .i3c, .out] ps = true) (r : Requester) (o :
    Nat) (v : Word) (s : State) (h0 : onlyChanges ps σ s) : onlyChanges ps σ (write32 r o v s) := by
  refine only_trans h0 ?_; clear h0; unfold write32
  repeat' (first
    | with_reducible exact only_refl _ _ | assumption | with_reducible apply loadGo_only (within_trans rfl hp)
    | with_reducible apply writeTxn_only (within_trans rfl hp)
    | with_reducible apply hostGenOffer_only (within_trans rfl hp)
    | with_reducible apply shadowWrite_only (within_trans rfl hp)
    | with_reducible apply writeFwd_only (within_trans rfl hp)
    | with_reducible apply writeDkSel_only (within_trans rfl hp)
    | with_reducible apply writeEvtClear_only (within_trans rfl hp)
    | with_reducible apply writeSealSel_only (within_trans rfl hp)
    | with_reducible apply rearm_only (within_trans rfl hp)
    | with_reducible apply writeRstCmd_only (within_trans rfl hp)
    | with_reducible apply writeMemtrain_only (within_trans rfl hp)
    | with_reducible apply writeShutdown_only (within_trans rfl hp)
    | with_reducible apply writeOtp_only (within_trans rfl hp)
    | with_reducible apply writeTableauCmd_only (within_trans rfl hp)
    | with_reducible apply writeArm_only (within_trans rfl hp)
    | with_reducible apply writeTraceCtl_only (within_trans rfl hp)
    | with_reducible apply writeSnapCmd_only (within_trans rfl hp)
    | with_reducible apply writeBufRd_only (within_trans rfl hp)
    | with_reducible apply writeBufSel_only (within_trans rfl hp)
    | with_reducible apply writeBarCmd_only (within_trans rfl hp) | with_reducible apply only_ite
    | (split <;> try dsimp only))

theorem writeWide_only {σ : State} {ps : List Part} (hp : within [.free, .evt, .cfg, .stations, .hz, .sync,
    .tab, .trace, .out] ps = true) (r : Requester) (o off : Nat) (wide : Bool) (v : DWord) (s : State) (h0 :
    onlyChanges ps σ s) : onlyChanges ps σ (writeWide r o off wide v s) := by
  refine only_trans h0 ?_; clear h0; unfold writeWide
  repeat' (first
    | with_reducible exact only_refl _ _ | assumption | with_reducible apply write64_only (within_trans rfl hp)
    | with_reducible apply writeCharterAddr_only (within_trans rfl hp)
    | with_reducible apply writeEvtRead_only (within_trans rfl hp)
    | with_reducible apply writePeer_only (within_trans rfl hp)
    | with_reducible apply writeDest_only (within_trans rfl hp)
    | with_reducible apply writeSnapAt_only (within_trans rfl hp)
    | with_reducible apply writeMarkReg_only (within_trans rfl hp)
    | with_reducible apply writeWorkList_only (within_trans rfl hp)
    | with_reducible apply writeBarAddr_only (within_trans rfl hp) | with_reducible apply only_ite
    | (split <;> try dsimp only) | (intro _; try dsimp only))

theorem writeWindow_only {σ : State} {ps : List Part} (hp : within [.evt, .cfg, .trace, .boot] ps = true) (r :
    Requester) (o : Nat) (l : List Byte) (s : State) (h0 : onlyChanges ps σ s) : onlyChanges ps σ (writeWindow
    r o l s) := by
  refine only_trans h0 ?_; clear h0; unfold writeWindow
  (try dsimp only)
  repeat' (first
    | with_reducible exact only_refl _ _ | assumption | with_reducible apply updEvt_only (within_trans rfl hp)
    | with_reducible apply updCfg_only (within_trans rfl hp) | with_reducible apply updBoot_only (within_trans rfl hp)
    | with_reducible apply writeTraceCores_only (within_trans rfl hp) | with_reducible apply only_ite)

theorem writeNative_only {σ : State} {ps : List Part} (hp : within [.free, .evt, .crash, .cfg, .stations, .hz,
    .ctxs, .adj, .led, .tempo, .sync, .rst, .tab, .trace, .boot, .i3c, .out] ps = true) (r : Requester) (o :
    Nat) (wide : Bool) (v : DWord) (s : State) (h0 : onlyChanges ps σ s) : onlyChanges ps σ (writeNative r o
    wide v s) := by
  refine only_trans h0 ?_; clear h0; unfold writeNative
  repeat' (first
    | with_reducible exact only_refl _ _ | assumption | with_reducible apply writeWindow_only (within_trans rfl hp)
    | with_reducible apply writeWide_only (within_trans rfl hp)
    | with_reducible apply write32_only (within_trans rfl hp) | with_reducible apply only_ite)

theorem writeG1_only {σ : State} {ps : List Part} (hp : within [.evt, .crash, .cfg, .stations, .hz, .ctxs,
    .adj, .led, .tempo, .sync, .rst, .tab, .trace, .boot, .i3c, .out] ps = true) (o : Nat) (wide : Bool) (v :
    DWord) (s : State) (h0 : onlyChanges ps σ s) : onlyChanges ps σ (writeG1 o wide v s) := by
  refine only_trans h0 ?_; clear h0; unfold writeG1
  (try dsimp only)
  repeat' (first
    | with_reducible exact only_refl _ _ | assumption | with_reducible apply write64_only (within_trans rfl hp)
    | with_reducible apply writeCharterAddr_only (within_trans rfl hp)
    | with_reducible apply writeTxn_only (within_trans rfl hp)
    | with_reducible apply loadGo_only (within_trans rfl hp)
    | with_reducible apply writeTableauCmd_only (within_trans rfl hp)
    | with_reducible apply forceG1_only (within_trans rfl hp) | with_reducible apply rearm_only (within_trans rfl hp)
    | with_reducible apply only_ite | (split <;> try dsimp only) | (intro _; try dsimp only))

theorem registerWrite_only {σ : State} {ps : List Part} (hp : within [.free, .evt, .crash, .cfg, .stations,
    .hz, .ctxs, .adj, .led, .tempo, .sync, .rst, .tab, .trace, .boot, .i3c, .out] ps = true) (r : Requester)
    (o : Nat) (wide : Bool) (v : DWord) (s : State) (h0 : onlyChanges ps σ s) : onlyChanges ps σ
    (registerWrite r o wide v s) := by
  refine only_trans h0 ?_; clear h0; unfold registerWrite
  repeat' (first
    | with_reducible exact only_refl _ _ | assumption | with_reducible apply writeNative_only (within_trans rfl hp)
    | with_reducible apply writeG1_only (within_trans rfl hp) | with_reducible apply only_ite
    | (split <;> try dsimp only))

theorem execRegisterWrite_only (t : Nat) (r : Requester) (offset : Fin 0x400000) (wide : Bool) (value : DWord)
    (s : State) : ∃ s', execRegisterWrite t r offset wide value s = .next s' ∧ onlyChanges [.now, .free, .evt,
    .crash, .cfg, .stations, .hz, .ctxs, .adj, .led, .tempo, .sync, .rst, .tab, .trace, .boot, .i3c, .out] s
    s' := by
  refine ⟨_, rfl, ?_⟩
  have hp : within [.now, .free, .evt, .crash, .cfg, .stations, .hz, .ctxs, .adj, .led, .tempo, .sync, .rst, .tab, .trace, .boot, .i3c, .out] [.now, .free, .evt, .crash, .cfg, .stations, .hz, .ctxs, .adj, .led, .tempo, .sync, .rst, .tab, .trace, .boot, .i3c, .out] = true := rfl
  repeat' (first
    | with_reducible exact only_refl _ _ | assumption | with_reducible apply registerWrite_only (within_trans rfl hp)
    | with_reducible apply atTime_only (within_trans rfl hp))

end Sys2Proof.Laws
end

