-- ==== Sys2Proof/Laws/Tab.lean ====
section
/-! SUPPORT. Sparse tables: what a read gives after a write, and that every write keeps the canonical form. -/

namespace Sys2Proof.Laws

open Sys2Proof.Machine

variable {α : Type}

/-- Every key of a table is at least `k`. -/
def keysFrom (k : Nat) (t : Tab α) : Prop := ∀ e ∈ t, k ≤ e.1

theorem rising_cons {e : Nat × α} {t : Tab α} : rising (e :: t) = true ↔ keysFrom (e.1 + 1) t ∧ rising t = true := by
  induction t generalizing e with
  | nil => simp [rising, keysFrom]
  | cons f t ih =>
    have hf := @ih f
    simp only [rising, Bool.and_eq_true, decide_eq_true_eq, keysFrom, List.mem_cons, forall_eq_or_imp]
    constructor
    · rintro ⟨h, hr⟩
      refine ⟨⟨h, fun x hx => ?_⟩, hr⟩
      have := (hf.1 hr).1 x hx
      omega
    · rintro ⟨⟨h, _⟩, hr⟩
      exact ⟨h, hr⟩

theorem tfind_none_of_keysFrom {k : Nat} {t : Tab α} (h : keysFrom (k + 1) t) : tfind k t = none := by
  induction t with
  | nil => rfl
  | cons e t ih =>
    have h1 := h e (by simp)
    simp only [tfind]
    rw [if_neg (by omega)]
    exact ih fun x hx => h x (by simp [hx])

theorem tfind_filter (k : Nat) (p : Nat → Bool) (t : Tab α) :
    tfind k (t.filter fun e => p e.1) = if p k then tfind k t else none := by
  induction t with
  | nil => simp [tfind]
  | cons e t ih =>
    simp only [List.filter_cons]
    by_cases hk : e.1 = k
    · subst hk
      by_cases hp : p e.1 = true
      · simp [hp, tfind]
      · simp only [hp, Bool.false_eq_true, ↓reduceIte] at ih ⊢
        exact ih
    · by_cases hp : p e.1 = true
      · simp only [hp, ↓reduceIte, tfind, hk]; exact ih
      · simp only [hp, Bool.false_eq_true, ↓reduceIte, tfind, hk]; exact ih

theorem tfind_tinsert (j k : Nat) (v : α) (t : Tab α) (h : tfind k t = none) :
    tfind j (tinsert k v t) = if j = k then some v else tfind j t := by
  induction t with
  | nil => simp [tinsert, tfind, eq_comm]
  | cons e t ih =>
    simp only [tfind] at h
    split at h
    · simp at h
    · rename_i hek
      simp only [tinsert]
      split
      · simp only [tfind]
        by_cases hj : k = j
        · simp [hj]
        · rw [if_neg hj, if_neg (Ne.symm hj)]
      · simp only [tfind, ih h]
        by_cases hj : e.1 = j
        · have : j ≠ k := fun hh => hek (hj.trans hh)
          simp [hj, this]
        · simp [hj]

theorem tfind_tdel (j k : Nat) (t : Tab α) : tfind j (tdel k t) = if j = k then none else tfind j t := by
  have := tfind_filter j (fun x => x != k) t
  simp only [tdel]
  rw [this]
  by_cases h : j = k <;> simp [h]

/-- A read after listing a value. -/
theorem tfind_tset (j k : Nat) (v : α) (t : Tab α) : tfind j (tset k v t) = if j = k then some v else tfind j t := by
  simp only [tset]
  rw [tfind_tinsert j k v _ (by simp [tfind_tdel]), tfind_tdel]
  by_cases h : j = k <;> simp [h]

/-- A read after a write: the value written at its key, and every other key as before. -/
theorem tget_tput [DecidableEq α] (d : α) (j k : Nat) (v : α) (t : Tab α) :
    tget d j (tput d k v t) = if j = k then v else tget d j t := by
  simp only [tget, tput]
  split
  · rename_i hv
    rw [tfind_tdel]
    by_cases h : j = k <;> simp [h, hv]
  · rw [tfind_tset]
    by_cases h : j = k <;> simp [h]

@[simp] theorem tget_tput_same [DecidableEq α] (d : α) (k : Nat) (v : α) (t : Tab α) : tget d k (tput d k v t) = v := by
  simp [tget_tput]

theorem tget_tput_ne [DecidableEq α] (d : α) {j k : Nat} (h : j ≠ k) (v : α) (t : Tab α) :
    tget d j (tput d k v t) = tget d j t := by
  simp [tget_tput, h]

theorem rising_filter (p : Nat × α → Bool) {t : Tab α} (h : rising t = true) : rising (t.filter p) = true := by
  induction t with
  | nil => simpa using h
  | cons e t ih =>
    have he := rising_cons.1 h
    simp only [List.filter_cons]
    split
    · exact rising_cons.2 ⟨fun x hx => he.1 x (List.mem_of_mem_filter hx), ih he.2⟩
    · exact ih he.2

theorem mem_tinsert {k : Nat} {v : α} {t : Tab α} {x : Nat × α} (h : x ∈ tinsert k v t) : x = (k, v) ∨ x ∈ t := by
  induction t with
  | nil => simpa [tinsert] using h
  | cons e t ih =>
    simp only [tinsert] at h
    split at h
    · simpa using h
    · rcases List.mem_cons.1 h with h | h
      · exact .inr (by simp [h])
      · rcases ih h with h | h
        · exact .inl h
        · exact .inr (by simp [h])

theorem rising_tinsert {k : Nat} {v : α} {t : Tab α} (h : rising t = true) (hk : ∀ e ∈ t, e.1 ≠ k) :
    rising (tinsert k v t) = true := by
  induction t with
  | nil => simp [tinsert, rising]
  | cons e t ih =>
    have he := rising_cons.1 h
    simp only [tinsert]
    split
    · rename_i hlt
      refine rising_cons.2 ⟨fun x hx => ?_, h⟩
      rcases List.mem_cons.1 hx with hx | hx
      · subst hx; exact hlt
      · have := he.1 x hx
        dsimp only
        omega
    · rename_i hge
      have hne := hk e (by simp)
      refine rising_cons.2 ⟨fun x hx => ?_, ih he.2 fun x hx => hk x (by simp [hx])⟩
      rcases mem_tinsert hx with hx | hx
      · subst hx
        dsimp only
        omega
      · exact he.1 x hx

theorem rising_append {t u : Tab α} (ht : rising t = true) (hu : rising u = true)
    (h : ∀ e ∈ t, ∀ f ∈ u, e.1 < f.1) : rising (t ++ u) = true := by
  induction t with
  | nil => simpa using hu
  | cons e t ih =>
    have he := rising_cons.1 ht
    simp only [List.cons_append]
    refine rising_cons.2 ⟨fun x hx => ?_, ih he.2 fun a ha b hb => h a (by simp [ha]) b hb⟩
    rcases List.mem_append.1 hx with hx | hx
    · exact he.1 x hx
    · exact h e (by simp) x hx

theorem tfind_append (j : Nat) (t u : Tab α) : tfind j (t ++ u) = (tfind j t).or (tfind j u) := by
  induction t with
  | nil => simp [tfind]
  | cons e t ih =>
    simp only [List.cons_append, tfind]
    split
    · simp
    · exact ih

variable [DecidableEq α]

theorem twf_iff {d : α} {t : Tab α} : twf d t = true ↔ rising t = true ∧ ∀ e ∈ t, e.2 ≠ d := by
  simp [twf]

/-- A write of one key keeps the canonical form. -/
theorem twf_tput {d : α} {t : Tab α} (k : Nat) (v : α) (h : twf d t = true) : twf d (tput d k v t) = true := by
  have ⟨hr, hd⟩ := twf_iff.1 h
  simp only [tput]
  have hdel : rising (tdel k t) = true := rising_filter _ hr
  split
  · exact twf_iff.2 ⟨hdel, fun e he => hd e (List.mem_of_mem_filter he)⟩
  · rename_i hv
    refine twf_iff.2 ⟨rising_tinsert hdel fun e he => ?_, fun e he => ?_⟩
    · simpa using (List.mem_filter.1 he).2
    · rcases mem_tinsert he with he | he
      · subst he; exact hv
      · exact hd e (List.mem_of_mem_filter he)

theorem mem_tlist {d : α} {k : Nat} {vs : List α} {e : Nat × α} (h : e ∈ tlist d k vs) :
    k ≤ e.1 ∧ e.1 < k + vs.length ∧ e.2 ≠ d := by
  induction vs generalizing k with
  | nil => simp [tlist] at h
  | cons v r ih =>
    simp only [tlist] at h
    split at h
    · have := ih h
      simp only [List.length_cons]
      exact ⟨by omega, by omega, this.2.2⟩
    · rename_i hv
      rcases List.mem_cons.1 h with h | h
      · subst h
        simpa using hv
      · have := ih h
        simp only [List.length_cons]
        exact ⟨by omega, by omega, this.2.2⟩

theorem rising_tlist (d : α) (k : Nat) (vs : List α) : rising (tlist d k vs) = true := by
  induction vs generalizing k with
  | nil => rfl
  | cons v r ih =>
    simp only [tlist]
    split
    · exact ih _
    · exact rising_cons.2 ⟨fun e he => (mem_tlist he).1, ih _⟩

/-- A write of successive keys keeps the canonical form. -/
theorem twf_tputs {d : α} {t : Tab α} (k : Nat) (vs : List α) (h : twf d t = true) : twf d (tputs d k vs t) = true := by
  have ⟨hr, hd⟩ := twf_iff.1 h
  simp only [tputs]
  refine twf_iff.2 ⟨rising_append (rising_append (rising_filter _ hr) (rising_tlist d k vs) ?_) (rising_filter _ hr) ?_, ?_⟩
  · intro e he f hf
    have h1 := (List.mem_filter.1 he).2
    have h2 := (mem_tlist hf).1
    simp only [decide_eq_true_eq] at h1
    omega
  · intro e he f hf
    have h2 := (List.mem_filter.1 hf).2
    simp only [decide_eq_true_eq] at h2
    rcases List.mem_append.1 he with he | he
    · have h1 := (List.mem_filter.1 he).2
      simp only [decide_eq_true_eq] at h1
      omega
    · have := (mem_tlist he).2.1
      omega
  · intro e he
    rcases List.mem_append.1 he with he | he
    · rcases List.mem_append.1 he with he | he
      · exact hd e (List.mem_of_mem_filter he)
      · exact (mem_tlist he).2.2
    · exact hd e (List.mem_of_mem_filter he)

theorem tfind_tlist (d : α) (j k : Nat) (vs : List α) :
    (tfind j (tlist d k vs)).getD d = if k ≤ j ∧ j < k + vs.length then vs.getD (j - k) d else d := by
  induction vs generalizing k with
  | nil => simp [tlist, tfind]
  | cons v r ih =>
    simp only [tlist]
    by_cases hj : k = j
    · subst hj
      split
      · rename_i hv
        rw [ih, if_neg (by omega)]
        simp [hv]
      · simp [tfind]
    · have hrest : (if k + 1 ≤ j ∧ j < k + 1 + r.length then r.getD (j - (k + 1)) d else d) =
          if k ≤ j ∧ j < k + (v :: r).length then (v :: r).getD (j - k) d else d := by
        by_cases hc : k + 1 ≤ j ∧ j < k + 1 + r.length
        · have he : j - k = (j - (k + 1)) + 1 := by omega
          rw [if_pos hc, if_pos (by simp only [List.length_cons]; omega), he, List.getD_cons_succ]
        · rw [if_neg hc, if_neg (by simp only [List.length_cons]; omega)]
      split
      · rw [ih, hrest]
      · simp only [tfind, if_neg hj]
        rw [ih, hrest]

theorem tfind_tlist_none (d : α) {j k : Nat} {vs : List α} (h : ¬(k ≤ j ∧ j < k + vs.length)) :
    tfind j (tlist d k vs) = none := by
  induction vs generalizing k with
  | nil => rfl
  | cons v r ih =>
    simp only [List.length_cons] at h
    simp only [tlist]
    split
    · exact ih (by omega)
    · simp only [tfind]
      rw [if_neg (by omega)]
      exact ih (by omega)

/-- A read after a write of successive keys. -/
theorem tget_tputs (d : α) (j k : Nat) (vs : List α) (t : Tab α) :
    tget d j (tputs d k vs t) = if k ≤ j ∧ j < k + vs.length then vs.getD (j - k) d else tget d j t := by
  simp only [tget, tputs, tfind_append]
  rw [tfind_filter j (fun x => decide (x < k)) t, tfind_filter j (fun x => decide (k + vs.length ≤ x)) t]
  by_cases hc : k ≤ j ∧ j < k + vs.length
  · have h1 : ¬ j < k := by omega
    have h2 : ¬ k + vs.length ≤ j := by omega
    simp only [h1, h2, decide_false, Bool.false_eq_true, ↓reduceIte, Option.none_or, Option.or_none]
    rw [tfind_tlist, if_pos hc, if_pos hc]
  · rw [tfind_tlist_none d hc]
    simp only [if_neg hc, Option.or_none]
    by_cases h1 : j < k
    · have h2 : ¬ k + vs.length ≤ j := by omega
      simp [h1, h2]
    · have h2 : k + vs.length ≤ j := by omega
      simp [h1, h2]

theorem tget_tputs_out (d : α) {j k : Nat} {vs : List α} (t : Tab α) (h : j < k ∨ k + vs.length ≤ j) :
    tget d j (tputs d k vs t) = tget d j t := by
  rw [tget_tputs, if_neg (by omega)]

end Sys2Proof.Laws
end

