-- ==== Sys2Proof/Laws/State.lean ====
section
/-! SUPPORT. Each update of a part of the state, read back field by field: no proof unfolds an update. -/

namespace Sys2Proof.Laws

open Sys2Proof.Machine

/-! ### `updEvt` -/

@[simp] theorem updEvt_pending (f : Recorder → Recorder) (s : State) : (updEvt f s).pending = s.pending := rfl
@[simp] theorem updEvt_now (f : Recorder → Recorder) (s : State) : (updEvt f s).now = s.now := rfl
@[simp] theorem updEvt_free (f : Recorder → Recorder) (s : State) : (updEvt f s).free = s.free := rfl
@[simp] theorem updEvt_evt (f : Recorder → Recorder) (s : State) : (updEvt f s).evt = f s.evt := rfl
@[simp] theorem updEvt_crash (f : Recorder → Recorder) (s : State) : (updEvt f s).crash = s.crash := rfl
@[simp] theorem updEvt_cfg (f : Recorder → Recorder) (s : State) : (updEvt f s).cfg = s.cfg := rfl
@[simp] theorem updEvt_stations (f : Recorder → Recorder) (s : State) : (updEvt f s).stations = s.stations := rfl
@[simp] theorem updEvt_hz (f : Recorder → Recorder) (s : State) : (updEvt f s).hz = s.hz := rfl
@[simp] theorem updEvt_ctxs (f : Recorder → Recorder) (s : State) : (updEvt f s).ctxs = s.ctxs := rfl
@[simp] theorem updEvt_adj (f : Recorder → Recorder) (s : State) : (updEvt f s).adj = s.adj := rfl
@[simp] theorem updEvt_led (f : Recorder → Recorder) (s : State) : (updEvt f s).led = s.led := rfl
@[simp] theorem updEvt_tempo (f : Recorder → Recorder) (s : State) : (updEvt f s).tempo = s.tempo := rfl
@[simp] theorem updEvt_sync (f : Recorder → Recorder) (s : State) : (updEvt f s).sync = s.sync := rfl
@[simp] theorem updEvt_rst (f : Recorder → Recorder) (s : State) : (updEvt f s).rst = s.rst := rfl
@[simp] theorem updEvt_tab (f : Recorder → Recorder) (s : State) : (updEvt f s).tab = s.tab := rfl
@[simp] theorem updEvt_trace (f : Recorder → Recorder) (s : State) : (updEvt f s).trace = s.trace := rfl
@[simp] theorem updEvt_boot (f : Recorder → Recorder) (s : State) : (updEvt f s).boot = s.boot := rfl
@[simp] theorem updEvt_i3c (f : Recorder → Recorder) (s : State) : (updEvt f s).i3c = s.i3c := rfl
@[simp] theorem updEvt_mem (f : Recorder → Recorder) (s : State) : (updEvt f s).mem = s.mem := rfl
@[simp] theorem updEvt_memPoison (f : Recorder → Recorder) (s : State) : (updEvt f s).memPoison = s.memPoison := rfl
@[simp] theorem updEvt_replicas (f : Recorder → Recorder) (s : State) : (updEvt f s).replicas = s.replicas := rfl
@[simp] theorem updEvt_causes (f : Recorder → Recorder) (s : State) : (updEvt f s).causes = s.causes := rfl
@[simp] theorem updEvt_out (f : Recorder → Recorder) (s : State) : (updEvt f s).out = s.out := rfl

/-! ### `updCrash` -/

@[simp] theorem updCrash_pending (f : Crash → Crash) (s : State) : (updCrash f s).pending = s.pending := rfl
@[simp] theorem updCrash_now (f : Crash → Crash) (s : State) : (updCrash f s).now = s.now := rfl
@[simp] theorem updCrash_free (f : Crash → Crash) (s : State) : (updCrash f s).free = s.free := rfl
@[simp] theorem updCrash_evt (f : Crash → Crash) (s : State) : (updCrash f s).evt = s.evt := rfl
@[simp] theorem updCrash_crash (f : Crash → Crash) (s : State) : (updCrash f s).crash = f s.crash := rfl
@[simp] theorem updCrash_cfg (f : Crash → Crash) (s : State) : (updCrash f s).cfg = s.cfg := rfl
@[simp] theorem updCrash_stations (f : Crash → Crash) (s : State) : (updCrash f s).stations = s.stations := rfl
@[simp] theorem updCrash_hz (f : Crash → Crash) (s : State) : (updCrash f s).hz = s.hz := rfl
@[simp] theorem updCrash_ctxs (f : Crash → Crash) (s : State) : (updCrash f s).ctxs = s.ctxs := rfl
@[simp] theorem updCrash_adj (f : Crash → Crash) (s : State) : (updCrash f s).adj = s.adj := rfl
@[simp] theorem updCrash_led (f : Crash → Crash) (s : State) : (updCrash f s).led = s.led := rfl
@[simp] theorem updCrash_tempo (f : Crash → Crash) (s : State) : (updCrash f s).tempo = s.tempo := rfl
@[simp] theorem updCrash_sync (f : Crash → Crash) (s : State) : (updCrash f s).sync = s.sync := rfl
@[simp] theorem updCrash_rst (f : Crash → Crash) (s : State) : (updCrash f s).rst = s.rst := rfl
@[simp] theorem updCrash_tab (f : Crash → Crash) (s : State) : (updCrash f s).tab = s.tab := rfl
@[simp] theorem updCrash_trace (f : Crash → Crash) (s : State) : (updCrash f s).trace = s.trace := rfl
@[simp] theorem updCrash_boot (f : Crash → Crash) (s : State) : (updCrash f s).boot = s.boot := rfl
@[simp] theorem updCrash_i3c (f : Crash → Crash) (s : State) : (updCrash f s).i3c = s.i3c := rfl
@[simp] theorem updCrash_mem (f : Crash → Crash) (s : State) : (updCrash f s).mem = s.mem := rfl
@[simp] theorem updCrash_memPoison (f : Crash → Crash) (s : State) : (updCrash f s).memPoison = s.memPoison := rfl
@[simp] theorem updCrash_replicas (f : Crash → Crash) (s : State) : (updCrash f s).replicas = s.replicas := rfl
@[simp] theorem updCrash_causes (f : Crash → Crash) (s : State) : (updCrash f s).causes = s.causes := rfl
@[simp] theorem updCrash_out (f : Crash → Crash) (s : State) : (updCrash f s).out = s.out := rfl

/-! ### `updCfg` -/

@[simp] theorem updCfg_pending (f : Cfg → Cfg) (s : State) : (updCfg f s).pending = s.pending := rfl
@[simp] theorem updCfg_now (f : Cfg → Cfg) (s : State) : (updCfg f s).now = s.now := rfl
@[simp] theorem updCfg_free (f : Cfg → Cfg) (s : State) : (updCfg f s).free = s.free := rfl
@[simp] theorem updCfg_evt (f : Cfg → Cfg) (s : State) : (updCfg f s).evt = s.evt := rfl
@[simp] theorem updCfg_crash (f : Cfg → Cfg) (s : State) : (updCfg f s).crash = s.crash := rfl
@[simp] theorem updCfg_cfg (f : Cfg → Cfg) (s : State) : (updCfg f s).cfg = f s.cfg := rfl
@[simp] theorem updCfg_stations (f : Cfg → Cfg) (s : State) : (updCfg f s).stations = s.stations := rfl
@[simp] theorem updCfg_hz (f : Cfg → Cfg) (s : State) : (updCfg f s).hz = s.hz := rfl
@[simp] theorem updCfg_ctxs (f : Cfg → Cfg) (s : State) : (updCfg f s).ctxs = s.ctxs := rfl
@[simp] theorem updCfg_adj (f : Cfg → Cfg) (s : State) : (updCfg f s).adj = s.adj := rfl
@[simp] theorem updCfg_led (f : Cfg → Cfg) (s : State) : (updCfg f s).led = s.led := rfl
@[simp] theorem updCfg_tempo (f : Cfg → Cfg) (s : State) : (updCfg f s).tempo = s.tempo := rfl
@[simp] theorem updCfg_sync (f : Cfg → Cfg) (s : State) : (updCfg f s).sync = s.sync := rfl
@[simp] theorem updCfg_rst (f : Cfg → Cfg) (s : State) : (updCfg f s).rst = s.rst := rfl
@[simp] theorem updCfg_tab (f : Cfg → Cfg) (s : State) : (updCfg f s).tab = s.tab := rfl
@[simp] theorem updCfg_trace (f : Cfg → Cfg) (s : State) : (updCfg f s).trace = s.trace := rfl
@[simp] theorem updCfg_boot (f : Cfg → Cfg) (s : State) : (updCfg f s).boot = s.boot := rfl
@[simp] theorem updCfg_i3c (f : Cfg → Cfg) (s : State) : (updCfg f s).i3c = s.i3c := rfl
@[simp] theorem updCfg_mem (f : Cfg → Cfg) (s : State) : (updCfg f s).mem = s.mem := rfl
@[simp] theorem updCfg_memPoison (f : Cfg → Cfg) (s : State) : (updCfg f s).memPoison = s.memPoison := rfl
@[simp] theorem updCfg_replicas (f : Cfg → Cfg) (s : State) : (updCfg f s).replicas = s.replicas := rfl
@[simp] theorem updCfg_causes (f : Cfg → Cfg) (s : State) : (updCfg f s).causes = s.causes := rfl
@[simp] theorem updCfg_out (f : Cfg → Cfg) (s : State) : (updCfg f s).out = s.out := rfl

/-! ### `updHz` -/

@[simp] theorem updHz_pending (f : Horizon → Horizon) (s : State) : (updHz f s).pending = s.pending := rfl
@[simp] theorem updHz_now (f : Horizon → Horizon) (s : State) : (updHz f s).now = s.now := rfl
@[simp] theorem updHz_free (f : Horizon → Horizon) (s : State) : (updHz f s).free = s.free := rfl
@[simp] theorem updHz_evt (f : Horizon → Horizon) (s : State) : (updHz f s).evt = s.evt := rfl
@[simp] theorem updHz_crash (f : Horizon → Horizon) (s : State) : (updHz f s).crash = s.crash := rfl
@[simp] theorem updHz_cfg (f : Horizon → Horizon) (s : State) : (updHz f s).cfg = s.cfg := rfl
@[simp] theorem updHz_stations (f : Horizon → Horizon) (s : State) : (updHz f s).stations = s.stations := rfl
@[simp] theorem updHz_hz (f : Horizon → Horizon) (s : State) : (updHz f s).hz = f s.hz := rfl
@[simp] theorem updHz_ctxs (f : Horizon → Horizon) (s : State) : (updHz f s).ctxs = s.ctxs := rfl
@[simp] theorem updHz_adj (f : Horizon → Horizon) (s : State) : (updHz f s).adj = s.adj := rfl
@[simp] theorem updHz_led (f : Horizon → Horizon) (s : State) : (updHz f s).led = s.led := rfl
@[simp] theorem updHz_tempo (f : Horizon → Horizon) (s : State) : (updHz f s).tempo = s.tempo := rfl
@[simp] theorem updHz_sync (f : Horizon → Horizon) (s : State) : (updHz f s).sync = s.sync := rfl
@[simp] theorem updHz_rst (f : Horizon → Horizon) (s : State) : (updHz f s).rst = s.rst := rfl
@[simp] theorem updHz_tab (f : Horizon → Horizon) (s : State) : (updHz f s).tab = s.tab := rfl
@[simp] theorem updHz_trace (f : Horizon → Horizon) (s : State) : (updHz f s).trace = s.trace := rfl
@[simp] theorem updHz_boot (f : Horizon → Horizon) (s : State) : (updHz f s).boot = s.boot := rfl
@[simp] theorem updHz_i3c (f : Horizon → Horizon) (s : State) : (updHz f s).i3c = s.i3c := rfl
@[simp] theorem updHz_mem (f : Horizon → Horizon) (s : State) : (updHz f s).mem = s.mem := rfl
@[simp] theorem updHz_memPoison (f : Horizon → Horizon) (s : State) : (updHz f s).memPoison = s.memPoison := rfl
@[simp] theorem updHz_replicas (f : Horizon → Horizon) (s : State) : (updHz f s).replicas = s.replicas := rfl
@[simp] theorem updHz_causes (f : Horizon → Horizon) (s : State) : (updHz f s).causes = s.causes := rfl
@[simp] theorem updHz_out (f : Horizon → Horizon) (s : State) : (updHz f s).out = s.out := rfl

/-! ### `updAdj` -/

@[simp] theorem updAdj_pending (f : Adjudicator → Adjudicator) (s : State) : (updAdj f s).pending = s.pending := rfl
@[simp] theorem updAdj_now (f : Adjudicator → Adjudicator) (s : State) : (updAdj f s).now = s.now := rfl
@[simp] theorem updAdj_free (f : Adjudicator → Adjudicator) (s : State) : (updAdj f s).free = s.free := rfl
@[simp] theorem updAdj_evt (f : Adjudicator → Adjudicator) (s : State) : (updAdj f s).evt = s.evt := rfl
@[simp] theorem updAdj_crash (f : Adjudicator → Adjudicator) (s : State) : (updAdj f s).crash = s.crash := rfl
@[simp] theorem updAdj_cfg (f : Adjudicator → Adjudicator) (s : State) : (updAdj f s).cfg = s.cfg := rfl
@[simp] theorem updAdj_stations (f : Adjudicator → Adjudicator) (s : State) : (updAdj f s).stations = s.stations := rfl
@[simp] theorem updAdj_hz (f : Adjudicator → Adjudicator) (s : State) : (updAdj f s).hz = s.hz := rfl
@[simp] theorem updAdj_ctxs (f : Adjudicator → Adjudicator) (s : State) : (updAdj f s).ctxs = s.ctxs := rfl
@[simp] theorem updAdj_adj (f : Adjudicator → Adjudicator) (s : State) : (updAdj f s).adj = f s.adj := rfl
@[simp] theorem updAdj_led (f : Adjudicator → Adjudicator) (s : State) : (updAdj f s).led = s.led := rfl
@[simp] theorem updAdj_tempo (f : Adjudicator → Adjudicator) (s : State) : (updAdj f s).tempo = s.tempo := rfl
@[simp] theorem updAdj_sync (f : Adjudicator → Adjudicator) (s : State) : (updAdj f s).sync = s.sync := rfl
@[simp] theorem updAdj_rst (f : Adjudicator → Adjudicator) (s : State) : (updAdj f s).rst = s.rst := rfl
@[simp] theorem updAdj_tab (f : Adjudicator → Adjudicator) (s : State) : (updAdj f s).tab = s.tab := rfl
@[simp] theorem updAdj_trace (f : Adjudicator → Adjudicator) (s : State) : (updAdj f s).trace = s.trace := rfl
@[simp] theorem updAdj_boot (f : Adjudicator → Adjudicator) (s : State) : (updAdj f s).boot = s.boot := rfl
@[simp] theorem updAdj_i3c (f : Adjudicator → Adjudicator) (s : State) : (updAdj f s).i3c = s.i3c := rfl
@[simp] theorem updAdj_mem (f : Adjudicator → Adjudicator) (s : State) : (updAdj f s).mem = s.mem := rfl
@[simp] theorem updAdj_memPoison (f : Adjudicator → Adjudicator) (s : State) : (updAdj f s).memPoison = s.memPoison := rfl
@[simp] theorem updAdj_replicas (f : Adjudicator → Adjudicator) (s : State) : (updAdj f s).replicas = s.replicas := rfl
@[simp] theorem updAdj_causes (f : Adjudicator → Adjudicator) (s : State) : (updAdj f s).causes = s.causes := rfl
@[simp] theorem updAdj_out (f : Adjudicator → Adjudicator) (s : State) : (updAdj f s).out = s.out := rfl

/-! ### `updLed` -/

@[simp] theorem updLed_pending (f : Ledger → Ledger) (s : State) : (updLed f s).pending = s.pending := rfl
@[simp] theorem updLed_now (f : Ledger → Ledger) (s : State) : (updLed f s).now = s.now := rfl
@[simp] theorem updLed_free (f : Ledger → Ledger) (s : State) : (updLed f s).free = s.free := rfl
@[simp] theorem updLed_evt (f : Ledger → Ledger) (s : State) : (updLed f s).evt = s.evt := rfl
@[simp] theorem updLed_crash (f : Ledger → Ledger) (s : State) : (updLed f s).crash = s.crash := rfl
@[simp] theorem updLed_cfg (f : Ledger → Ledger) (s : State) : (updLed f s).cfg = s.cfg := rfl
@[simp] theorem updLed_stations (f : Ledger → Ledger) (s : State) : (updLed f s).stations = s.stations := rfl
@[simp] theorem updLed_hz (f : Ledger → Ledger) (s : State) : (updLed f s).hz = s.hz := rfl
@[simp] theorem updLed_ctxs (f : Ledger → Ledger) (s : State) : (updLed f s).ctxs = s.ctxs := rfl
@[simp] theorem updLed_adj (f : Ledger → Ledger) (s : State) : (updLed f s).adj = s.adj := rfl
@[simp] theorem updLed_led (f : Ledger → Ledger) (s : State) : (updLed f s).led = f s.led := rfl
@[simp] theorem updLed_tempo (f : Ledger → Ledger) (s : State) : (updLed f s).tempo = s.tempo := rfl
@[simp] theorem updLed_sync (f : Ledger → Ledger) (s : State) : (updLed f s).sync = s.sync := rfl
@[simp] theorem updLed_rst (f : Ledger → Ledger) (s : State) : (updLed f s).rst = s.rst := rfl
@[simp] theorem updLed_tab (f : Ledger → Ledger) (s : State) : (updLed f s).tab = s.tab := rfl
@[simp] theorem updLed_trace (f : Ledger → Ledger) (s : State) : (updLed f s).trace = s.trace := rfl
@[simp] theorem updLed_boot (f : Ledger → Ledger) (s : State) : (updLed f s).boot = s.boot := rfl
@[simp] theorem updLed_i3c (f : Ledger → Ledger) (s : State) : (updLed f s).i3c = s.i3c := rfl
@[simp] theorem updLed_mem (f : Ledger → Ledger) (s : State) : (updLed f s).mem = s.mem := rfl
@[simp] theorem updLed_memPoison (f : Ledger → Ledger) (s : State) : (updLed f s).memPoison = s.memPoison := rfl
@[simp] theorem updLed_replicas (f : Ledger → Ledger) (s : State) : (updLed f s).replicas = s.replicas := rfl
@[simp] theorem updLed_causes (f : Ledger → Ledger) (s : State) : (updLed f s).causes = s.causes := rfl
@[simp] theorem updLed_out (f : Ledger → Ledger) (s : State) : (updLed f s).out = s.out := rfl

/-! ### `updTempo` -/

@[simp] theorem updTempo_pending (f : Tempo → Tempo) (s : State) : (updTempo f s).pending = s.pending := rfl
@[simp] theorem updTempo_now (f : Tempo → Tempo) (s : State) : (updTempo f s).now = s.now := rfl
@[simp] theorem updTempo_free (f : Tempo → Tempo) (s : State) : (updTempo f s).free = s.free := rfl
@[simp] theorem updTempo_evt (f : Tempo → Tempo) (s : State) : (updTempo f s).evt = s.evt := rfl
@[simp] theorem updTempo_crash (f : Tempo → Tempo) (s : State) : (updTempo f s).crash = s.crash := rfl
@[simp] theorem updTempo_cfg (f : Tempo → Tempo) (s : State) : (updTempo f s).cfg = s.cfg := rfl
@[simp] theorem updTempo_stations (f : Tempo → Tempo) (s : State) : (updTempo f s).stations = s.stations := rfl
@[simp] theorem updTempo_hz (f : Tempo → Tempo) (s : State) : (updTempo f s).hz = s.hz := rfl
@[simp] theorem updTempo_ctxs (f : Tempo → Tempo) (s : State) : (updTempo f s).ctxs = s.ctxs := rfl
@[simp] theorem updTempo_adj (f : Tempo → Tempo) (s : State) : (updTempo f s).adj = s.adj := rfl
@[simp] theorem updTempo_led (f : Tempo → Tempo) (s : State) : (updTempo f s).led = s.led := rfl
@[simp] theorem updTempo_tempo (f : Tempo → Tempo) (s : State) : (updTempo f s).tempo = f s.tempo := rfl
@[simp] theorem updTempo_sync (f : Tempo → Tempo) (s : State) : (updTempo f s).sync = s.sync := rfl
@[simp] theorem updTempo_rst (f : Tempo → Tempo) (s : State) : (updTempo f s).rst = s.rst := rfl
@[simp] theorem updTempo_tab (f : Tempo → Tempo) (s : State) : (updTempo f s).tab = s.tab := rfl
@[simp] theorem updTempo_trace (f : Tempo → Tempo) (s : State) : (updTempo f s).trace = s.trace := rfl
@[simp] theorem updTempo_boot (f : Tempo → Tempo) (s : State) : (updTempo f s).boot = s.boot := rfl
@[simp] theorem updTempo_i3c (f : Tempo → Tempo) (s : State) : (updTempo f s).i3c = s.i3c := rfl
@[simp] theorem updTempo_mem (f : Tempo → Tempo) (s : State) : (updTempo f s).mem = s.mem := rfl
@[simp] theorem updTempo_memPoison (f : Tempo → Tempo) (s : State) : (updTempo f s).memPoison = s.memPoison := rfl
@[simp] theorem updTempo_replicas (f : Tempo → Tempo) (s : State) : (updTempo f s).replicas = s.replicas := rfl
@[simp] theorem updTempo_causes (f : Tempo → Tempo) (s : State) : (updTempo f s).causes = s.causes := rfl
@[simp] theorem updTempo_out (f : Tempo → Tempo) (s : State) : (updTempo f s).out = s.out := rfl

/-! ### `updSync` -/

@[simp] theorem updSync_pending (f : Sync → Sync) (s : State) : (updSync f s).pending = s.pending := rfl
@[simp] theorem updSync_now (f : Sync → Sync) (s : State) : (updSync f s).now = s.now := rfl
@[simp] theorem updSync_free (f : Sync → Sync) (s : State) : (updSync f s).free = s.free := rfl
@[simp] theorem updSync_evt (f : Sync → Sync) (s : State) : (updSync f s).evt = s.evt := rfl
@[simp] theorem updSync_crash (f : Sync → Sync) (s : State) : (updSync f s).crash = s.crash := rfl
@[simp] theorem updSync_cfg (f : Sync → Sync) (s : State) : (updSync f s).cfg = s.cfg := rfl
@[simp] theorem updSync_stations (f : Sync → Sync) (s : State) : (updSync f s).stations = s.stations := rfl
@[simp] theorem updSync_hz (f : Sync → Sync) (s : State) : (updSync f s).hz = s.hz := rfl
@[simp] theorem updSync_ctxs (f : Sync → Sync) (s : State) : (updSync f s).ctxs = s.ctxs := rfl
@[simp] theorem updSync_adj (f : Sync → Sync) (s : State) : (updSync f s).adj = s.adj := rfl
@[simp] theorem updSync_led (f : Sync → Sync) (s : State) : (updSync f s).led = s.led := rfl
@[simp] theorem updSync_tempo (f : Sync → Sync) (s : State) : (updSync f s).tempo = s.tempo := rfl
@[simp] theorem updSync_sync (f : Sync → Sync) (s : State) : (updSync f s).sync = f s.sync := rfl
@[simp] theorem updSync_rst (f : Sync → Sync) (s : State) : (updSync f s).rst = s.rst := rfl
@[simp] theorem updSync_tab (f : Sync → Sync) (s : State) : (updSync f s).tab = s.tab := rfl
@[simp] theorem updSync_trace (f : Sync → Sync) (s : State) : (updSync f s).trace = s.trace := rfl
@[simp] theorem updSync_boot (f : Sync → Sync) (s : State) : (updSync f s).boot = s.boot := rfl
@[simp] theorem updSync_i3c (f : Sync → Sync) (s : State) : (updSync f s).i3c = s.i3c := rfl
@[simp] theorem updSync_mem (f : Sync → Sync) (s : State) : (updSync f s).mem = s.mem := rfl
@[simp] theorem updSync_memPoison (f : Sync → Sync) (s : State) : (updSync f s).memPoison = s.memPoison := rfl
@[simp] theorem updSync_replicas (f : Sync → Sync) (s : State) : (updSync f s).replicas = s.replicas := rfl
@[simp] theorem updSync_causes (f : Sync → Sync) (s : State) : (updSync f s).causes = s.causes := rfl
@[simp] theorem updSync_out (f : Sync → Sync) (s : State) : (updSync f s).out = s.out := rfl

/-! ### `updRst` -/

@[simp] theorem updRst_pending (f : Ladder → Ladder) (s : State) : (updRst f s).pending = s.pending := rfl
@[simp] theorem updRst_now (f : Ladder → Ladder) (s : State) : (updRst f s).now = s.now := rfl
@[simp] theorem updRst_free (f : Ladder → Ladder) (s : State) : (updRst f s).free = s.free := rfl
@[simp] theorem updRst_evt (f : Ladder → Ladder) (s : State) : (updRst f s).evt = s.evt := rfl
@[simp] theorem updRst_crash (f : Ladder → Ladder) (s : State) : (updRst f s).crash = s.crash := rfl
@[simp] theorem updRst_cfg (f : Ladder → Ladder) (s : State) : (updRst f s).cfg = s.cfg := rfl
@[simp] theorem updRst_stations (f : Ladder → Ladder) (s : State) : (updRst f s).stations = s.stations := rfl
@[simp] theorem updRst_hz (f : Ladder → Ladder) (s : State) : (updRst f s).hz = s.hz := rfl
@[simp] theorem updRst_ctxs (f : Ladder → Ladder) (s : State) : (updRst f s).ctxs = s.ctxs := rfl
@[simp] theorem updRst_adj (f : Ladder → Ladder) (s : State) : (updRst f s).adj = s.adj := rfl
@[simp] theorem updRst_led (f : Ladder → Ladder) (s : State) : (updRst f s).led = s.led := rfl
@[simp] theorem updRst_tempo (f : Ladder → Ladder) (s : State) : (updRst f s).tempo = s.tempo := rfl
@[simp] theorem updRst_sync (f : Ladder → Ladder) (s : State) : (updRst f s).sync = s.sync := rfl
@[simp] theorem updRst_rst (f : Ladder → Ladder) (s : State) : (updRst f s).rst = f s.rst := rfl
@[simp] theorem updRst_tab (f : Ladder → Ladder) (s : State) : (updRst f s).tab = s.tab := rfl
@[simp] theorem updRst_trace (f : Ladder → Ladder) (s : State) : (updRst f s).trace = s.trace := rfl
@[simp] theorem updRst_boot (f : Ladder → Ladder) (s : State) : (updRst f s).boot = s.boot := rfl
@[simp] theorem updRst_i3c (f : Ladder → Ladder) (s : State) : (updRst f s).i3c = s.i3c := rfl
@[simp] theorem updRst_mem (f : Ladder → Ladder) (s : State) : (updRst f s).mem = s.mem := rfl
@[simp] theorem updRst_memPoison (f : Ladder → Ladder) (s : State) : (updRst f s).memPoison = s.memPoison := rfl
@[simp] theorem updRst_replicas (f : Ladder → Ladder) (s : State) : (updRst f s).replicas = s.replicas := rfl
@[simp] theorem updRst_causes (f : Ladder → Ladder) (s : State) : (updRst f s).causes = s.causes := rfl
@[simp] theorem updRst_out (f : Ladder → Ladder) (s : State) : (updRst f s).out = s.out := rfl

/-! ### `updTab` -/

@[simp] theorem updTab_pending (f : Tableau → Tableau) (s : State) : (updTab f s).pending = s.pending := rfl
@[simp] theorem updTab_now (f : Tableau → Tableau) (s : State) : (updTab f s).now = s.now := rfl
@[simp] theorem updTab_free (f : Tableau → Tableau) (s : State) : (updTab f s).free = s.free := rfl
@[simp] theorem updTab_evt (f : Tableau → Tableau) (s : State) : (updTab f s).evt = s.evt := rfl
@[simp] theorem updTab_crash (f : Tableau → Tableau) (s : State) : (updTab f s).crash = s.crash := rfl
@[simp] theorem updTab_cfg (f : Tableau → Tableau) (s : State) : (updTab f s).cfg = s.cfg := rfl
@[simp] theorem updTab_stations (f : Tableau → Tableau) (s : State) : (updTab f s).stations = s.stations := rfl
@[simp] theorem updTab_hz (f : Tableau → Tableau) (s : State) : (updTab f s).hz = s.hz := rfl
@[simp] theorem updTab_ctxs (f : Tableau → Tableau) (s : State) : (updTab f s).ctxs = s.ctxs := rfl
@[simp] theorem updTab_adj (f : Tableau → Tableau) (s : State) : (updTab f s).adj = s.adj := rfl
@[simp] theorem updTab_led (f : Tableau → Tableau) (s : State) : (updTab f s).led = s.led := rfl
@[simp] theorem updTab_tempo (f : Tableau → Tableau) (s : State) : (updTab f s).tempo = s.tempo := rfl
@[simp] theorem updTab_sync (f : Tableau → Tableau) (s : State) : (updTab f s).sync = s.sync := rfl
@[simp] theorem updTab_rst (f : Tableau → Tableau) (s : State) : (updTab f s).rst = s.rst := rfl
@[simp] theorem updTab_tab (f : Tableau → Tableau) (s : State) : (updTab f s).tab = f s.tab := rfl
@[simp] theorem updTab_trace (f : Tableau → Tableau) (s : State) : (updTab f s).trace = s.trace := rfl
@[simp] theorem updTab_boot (f : Tableau → Tableau) (s : State) : (updTab f s).boot = s.boot := rfl
@[simp] theorem updTab_i3c (f : Tableau → Tableau) (s : State) : (updTab f s).i3c = s.i3c := rfl
@[simp] theorem updTab_mem (f : Tableau → Tableau) (s : State) : (updTab f s).mem = s.mem := rfl
@[simp] theorem updTab_memPoison (f : Tableau → Tableau) (s : State) : (updTab f s).memPoison = s.memPoison := rfl
@[simp] theorem updTab_replicas (f : Tableau → Tableau) (s : State) : (updTab f s).replicas = s.replicas := rfl
@[simp] theorem updTab_causes (f : Tableau → Tableau) (s : State) : (updTab f s).causes = s.causes := rfl
@[simp] theorem updTab_out (f : Tableau → Tableau) (s : State) : (updTab f s).out = s.out := rfl

/-! ### `updTrace` -/

@[simp] theorem updTrace_pending (f : Trace → Trace) (s : State) : (updTrace f s).pending = s.pending := rfl
@[simp] theorem updTrace_now (f : Trace → Trace) (s : State) : (updTrace f s).now = s.now := rfl
@[simp] theorem updTrace_free (f : Trace → Trace) (s : State) : (updTrace f s).free = s.free := rfl
@[simp] theorem updTrace_evt (f : Trace → Trace) (s : State) : (updTrace f s).evt = s.evt := rfl
@[simp] theorem updTrace_crash (f : Trace → Trace) (s : State) : (updTrace f s).crash = s.crash := rfl
@[simp] theorem updTrace_cfg (f : Trace → Trace) (s : State) : (updTrace f s).cfg = s.cfg := rfl
@[simp] theorem updTrace_stations (f : Trace → Trace) (s : State) : (updTrace f s).stations = s.stations := rfl
@[simp] theorem updTrace_hz (f : Trace → Trace) (s : State) : (updTrace f s).hz = s.hz := rfl
@[simp] theorem updTrace_ctxs (f : Trace → Trace) (s : State) : (updTrace f s).ctxs = s.ctxs := rfl
@[simp] theorem updTrace_adj (f : Trace → Trace) (s : State) : (updTrace f s).adj = s.adj := rfl
@[simp] theorem updTrace_led (f : Trace → Trace) (s : State) : (updTrace f s).led = s.led := rfl
@[simp] theorem updTrace_tempo (f : Trace → Trace) (s : State) : (updTrace f s).tempo = s.tempo := rfl
@[simp] theorem updTrace_sync (f : Trace → Trace) (s : State) : (updTrace f s).sync = s.sync := rfl
@[simp] theorem updTrace_rst (f : Trace → Trace) (s : State) : (updTrace f s).rst = s.rst := rfl
@[simp] theorem updTrace_tab (f : Trace → Trace) (s : State) : (updTrace f s).tab = s.tab := rfl
@[simp] theorem updTrace_trace (f : Trace → Trace) (s : State) : (updTrace f s).trace = f s.trace := rfl
@[simp] theorem updTrace_boot (f : Trace → Trace) (s : State) : (updTrace f s).boot = s.boot := rfl
@[simp] theorem updTrace_i3c (f : Trace → Trace) (s : State) : (updTrace f s).i3c = s.i3c := rfl
@[simp] theorem updTrace_mem (f : Trace → Trace) (s : State) : (updTrace f s).mem = s.mem := rfl
@[simp] theorem updTrace_memPoison (f : Trace → Trace) (s : State) : (updTrace f s).memPoison = s.memPoison := rfl
@[simp] theorem updTrace_replicas (f : Trace → Trace) (s : State) : (updTrace f s).replicas = s.replicas := rfl
@[simp] theorem updTrace_causes (f : Trace → Trace) (s : State) : (updTrace f s).causes = s.causes := rfl
@[simp] theorem updTrace_out (f : Trace → Trace) (s : State) : (updTrace f s).out = s.out := rfl

/-! ### `updBoot` -/

@[simp] theorem updBoot_pending (f : Boot → Boot) (s : State) : (updBoot f s).pending = s.pending := rfl
@[simp] theorem updBoot_now (f : Boot → Boot) (s : State) : (updBoot f s).now = s.now := rfl
@[simp] theorem updBoot_free (f : Boot → Boot) (s : State) : (updBoot f s).free = s.free := rfl
@[simp] theorem updBoot_evt (f : Boot → Boot) (s : State) : (updBoot f s).evt = s.evt := rfl
@[simp] theorem updBoot_crash (f : Boot → Boot) (s : State) : (updBoot f s).crash = s.crash := rfl
@[simp] theorem updBoot_cfg (f : Boot → Boot) (s : State) : (updBoot f s).cfg = s.cfg := rfl
@[simp] theorem updBoot_stations (f : Boot → Boot) (s : State) : (updBoot f s).stations = s.stations := rfl
@[simp] theorem updBoot_hz (f : Boot → Boot) (s : State) : (updBoot f s).hz = s.hz := rfl
@[simp] theorem updBoot_ctxs (f : Boot → Boot) (s : State) : (updBoot f s).ctxs = s.ctxs := rfl
@[simp] theorem updBoot_adj (f : Boot → Boot) (s : State) : (updBoot f s).adj = s.adj := rfl
@[simp] theorem updBoot_led (f : Boot → Boot) (s : State) : (updBoot f s).led = s.led := rfl
@[simp] theorem updBoot_tempo (f : Boot → Boot) (s : State) : (updBoot f s).tempo = s.tempo := rfl
@[simp] theorem updBoot_sync (f : Boot → Boot) (s : State) : (updBoot f s).sync = s.sync := rfl
@[simp] theorem updBoot_rst (f : Boot → Boot) (s : State) : (updBoot f s).rst = s.rst := rfl
@[simp] theorem updBoot_tab (f : Boot → Boot) (s : State) : (updBoot f s).tab = s.tab := rfl
@[simp] theorem updBoot_trace (f : Boot → Boot) (s : State) : (updBoot f s).trace = s.trace := rfl
@[simp] theorem updBoot_boot (f : Boot → Boot) (s : State) : (updBoot f s).boot = f s.boot := rfl
@[simp] theorem updBoot_i3c (f : Boot → Boot) (s : State) : (updBoot f s).i3c = s.i3c := rfl
@[simp] theorem updBoot_mem (f : Boot → Boot) (s : State) : (updBoot f s).mem = s.mem := rfl
@[simp] theorem updBoot_memPoison (f : Boot → Boot) (s : State) : (updBoot f s).memPoison = s.memPoison := rfl
@[simp] theorem updBoot_replicas (f : Boot → Boot) (s : State) : (updBoot f s).replicas = s.replicas := rfl
@[simp] theorem updBoot_causes (f : Boot → Boot) (s : State) : (updBoot f s).causes = s.causes := rfl
@[simp] theorem updBoot_out (f : Boot → Boot) (s : State) : (updBoot f s).out = s.out := rfl

/-! ### `updI3c` -/

@[simp] theorem updI3c_pending (f : I3c → I3c) (s : State) : (updI3c f s).pending = s.pending := rfl
@[simp] theorem updI3c_now (f : I3c → I3c) (s : State) : (updI3c f s).now = s.now := rfl
@[simp] theorem updI3c_free (f : I3c → I3c) (s : State) : (updI3c f s).free = s.free := rfl
@[simp] theorem updI3c_evt (f : I3c → I3c) (s : State) : (updI3c f s).evt = s.evt := rfl
@[simp] theorem updI3c_crash (f : I3c → I3c) (s : State) : (updI3c f s).crash = s.crash := rfl
@[simp] theorem updI3c_cfg (f : I3c → I3c) (s : State) : (updI3c f s).cfg = s.cfg := rfl
@[simp] theorem updI3c_stations (f : I3c → I3c) (s : State) : (updI3c f s).stations = s.stations := rfl
@[simp] theorem updI3c_hz (f : I3c → I3c) (s : State) : (updI3c f s).hz = s.hz := rfl
@[simp] theorem updI3c_ctxs (f : I3c → I3c) (s : State) : (updI3c f s).ctxs = s.ctxs := rfl
@[simp] theorem updI3c_adj (f : I3c → I3c) (s : State) : (updI3c f s).adj = s.adj := rfl
@[simp] theorem updI3c_led (f : I3c → I3c) (s : State) : (updI3c f s).led = s.led := rfl
@[simp] theorem updI3c_tempo (f : I3c → I3c) (s : State) : (updI3c f s).tempo = s.tempo := rfl
@[simp] theorem updI3c_sync (f : I3c → I3c) (s : State) : (updI3c f s).sync = s.sync := rfl
@[simp] theorem updI3c_rst (f : I3c → I3c) (s : State) : (updI3c f s).rst = s.rst := rfl
@[simp] theorem updI3c_tab (f : I3c → I3c) (s : State) : (updI3c f s).tab = s.tab := rfl
@[simp] theorem updI3c_trace (f : I3c → I3c) (s : State) : (updI3c f s).trace = s.trace := rfl
@[simp] theorem updI3c_boot (f : I3c → I3c) (s : State) : (updI3c f s).boot = s.boot := rfl
@[simp] theorem updI3c_i3c (f : I3c → I3c) (s : State) : (updI3c f s).i3c = f s.i3c := rfl
@[simp] theorem updI3c_mem (f : I3c → I3c) (s : State) : (updI3c f s).mem = s.mem := rfl
@[simp] theorem updI3c_memPoison (f : I3c → I3c) (s : State) : (updI3c f s).memPoison = s.memPoison := rfl
@[simp] theorem updI3c_replicas (f : I3c → I3c) (s : State) : (updI3c f s).replicas = s.replicas := rfl
@[simp] theorem updI3c_causes (f : I3c → I3c) (s : State) : (updI3c f s).causes = s.causes := rfl
@[simp] theorem updI3c_out (f : I3c → I3c) (s : State) : (updI3c f s).out = s.out := rfl

/-! ### `updOut` -/

@[simp] theorem updOut_pending (f : Outputs → Outputs) (s : State) : (updOut f s).pending = s.pending := rfl
@[simp] theorem updOut_now (f : Outputs → Outputs) (s : State) : (updOut f s).now = s.now := rfl
@[simp] theorem updOut_free (f : Outputs → Outputs) (s : State) : (updOut f s).free = s.free := rfl
@[simp] theorem updOut_evt (f : Outputs → Outputs) (s : State) : (updOut f s).evt = s.evt := rfl
@[simp] theorem updOut_crash (f : Outputs → Outputs) (s : State) : (updOut f s).crash = s.crash := rfl
@[simp] theorem updOut_cfg (f : Outputs → Outputs) (s : State) : (updOut f s).cfg = s.cfg := rfl
@[simp] theorem updOut_stations (f : Outputs → Outputs) (s : State) : (updOut f s).stations = s.stations := rfl
@[simp] theorem updOut_hz (f : Outputs → Outputs) (s : State) : (updOut f s).hz = s.hz := rfl
@[simp] theorem updOut_ctxs (f : Outputs → Outputs) (s : State) : (updOut f s).ctxs = s.ctxs := rfl
@[simp] theorem updOut_adj (f : Outputs → Outputs) (s : State) : (updOut f s).adj = s.adj := rfl
@[simp] theorem updOut_led (f : Outputs → Outputs) (s : State) : (updOut f s).led = s.led := rfl
@[simp] theorem updOut_tempo (f : Outputs → Outputs) (s : State) : (updOut f s).tempo = s.tempo := rfl
@[simp] theorem updOut_sync (f : Outputs → Outputs) (s : State) : (updOut f s).sync = s.sync := rfl
@[simp] theorem updOut_rst (f : Outputs → Outputs) (s : State) : (updOut f s).rst = s.rst := rfl
@[simp] theorem updOut_tab (f : Outputs → Outputs) (s : State) : (updOut f s).tab = s.tab := rfl
@[simp] theorem updOut_trace (f : Outputs → Outputs) (s : State) : (updOut f s).trace = s.trace := rfl
@[simp] theorem updOut_boot (f : Outputs → Outputs) (s : State) : (updOut f s).boot = s.boot := rfl
@[simp] theorem updOut_i3c (f : Outputs → Outputs) (s : State) : (updOut f s).i3c = s.i3c := rfl
@[simp] theorem updOut_mem (f : Outputs → Outputs) (s : State) : (updOut f s).mem = s.mem := rfl
@[simp] theorem updOut_memPoison (f : Outputs → Outputs) (s : State) : (updOut f s).memPoison = s.memPoison := rfl
@[simp] theorem updOut_replicas (f : Outputs → Outputs) (s : State) : (updOut f s).replicas = s.replicas := rfl
@[simp] theorem updOut_causes (f : Outputs → Outputs) (s : State) : (updOut f s).causes = s.causes := rfl
@[simp] theorem updOut_out (f : Outputs → Outputs) (s : State) : (updOut f s).out = f s.out := rfl

/-! ### `updStation` -/

@[simp] theorem updStation_pending (c : Nat) (f : Station → Station) (s : State) : (updStation c f s).pending = s.pending := rfl
@[simp] theorem updStation_now (c : Nat) (f : Station → Station) (s : State) : (updStation c f s).now = s.now := rfl
@[simp] theorem updStation_free (c : Nat) (f : Station → Station) (s : State) : (updStation c f s).free = s.free := rfl
@[simp] theorem updStation_evt (c : Nat) (f : Station → Station) (s : State) : (updStation c f s).evt = s.evt := rfl
@[simp] theorem updStation_crash (c : Nat) (f : Station → Station) (s : State) : (updStation c f s).crash = s.crash := rfl
@[simp] theorem updStation_cfg (c : Nat) (f : Station → Station) (s : State) : (updStation c f s).cfg = s.cfg := rfl
@[simp] theorem updStation_stations (c : Nat) (f : Station → Station) (s : State) : (updStation c f s).stations = tput {} c (f (station s c)) s.stations := rfl
@[simp] theorem updStation_hz (c : Nat) (f : Station → Station) (s : State) : (updStation c f s).hz = s.hz := rfl
@[simp] theorem updStation_ctxs (c : Nat) (f : Station → Station) (s : State) : (updStation c f s).ctxs = s.ctxs := rfl
@[simp] theorem updStation_adj (c : Nat) (f : Station → Station) (s : State) : (updStation c f s).adj = s.adj := rfl
@[simp] theorem updStation_led (c : Nat) (f : Station → Station) (s : State) : (updStation c f s).led = s.led := rfl
@[simp] theorem updStation_tempo (c : Nat) (f : Station → Station) (s : State) : (updStation c f s).tempo = s.tempo := rfl
@[simp] theorem updStation_sync (c : Nat) (f : Station → Station) (s : State) : (updStation c f s).sync = s.sync := rfl
@[simp] theorem updStation_rst (c : Nat) (f : Station → Station) (s : State) : (updStation c f s).rst = s.rst := rfl
@[simp] theorem updStation_tab (c : Nat) (f : Station → Station) (s : State) : (updStation c f s).tab = s.tab := rfl
@[simp] theorem updStation_trace (c : Nat) (f : Station → Station) (s : State) : (updStation c f s).trace = s.trace := rfl
@[simp] theorem updStation_boot (c : Nat) (f : Station → Station) (s : State) : (updStation c f s).boot = s.boot := rfl
@[simp] theorem updStation_i3c (c : Nat) (f : Station → Station) (s : State) : (updStation c f s).i3c = s.i3c := rfl
@[simp] theorem updStation_mem (c : Nat) (f : Station → Station) (s : State) : (updStation c f s).mem = s.mem := rfl
@[simp] theorem updStation_memPoison (c : Nat) (f : Station → Station) (s : State) : (updStation c f s).memPoison = s.memPoison := rfl
@[simp] theorem updStation_replicas (c : Nat) (f : Station → Station) (s : State) : (updStation c f s).replicas = s.replicas := rfl
@[simp] theorem updStation_causes (c : Nat) (f : Station → Station) (s : State) : (updStation c f s).causes = s.causes := rfl
@[simp] theorem updStation_out (c : Nat) (f : Station → Station) (s : State) : (updStation c f s).out = s.out := rfl

/-! ### `atTime` -/

@[simp] theorem atTime_pending (t : Nat) (s : State) : (atTime t s).pending = s.pending := rfl
@[simp] theorem atTime_now (t : Nat) (s : State) : (atTime t s).now = timeAt t s := rfl
@[simp] theorem atTime_free (t : Nat) (s : State) : (atTime t s).free = s.free := rfl
@[simp] theorem atTime_evt (t : Nat) (s : State) : (atTime t s).evt = s.evt := rfl
@[simp] theorem atTime_crash (t : Nat) (s : State) : (atTime t s).crash = s.crash := rfl
@[simp] theorem atTime_cfg (t : Nat) (s : State) : (atTime t s).cfg = s.cfg := rfl
@[simp] theorem atTime_stations (t : Nat) (s : State) : (atTime t s).stations = s.stations := rfl
@[simp] theorem atTime_hz (t : Nat) (s : State) : (atTime t s).hz = s.hz := rfl
@[simp] theorem atTime_ctxs (t : Nat) (s : State) : (atTime t s).ctxs = s.ctxs := rfl
@[simp] theorem atTime_adj (t : Nat) (s : State) : (atTime t s).adj = s.adj := rfl
@[simp] theorem atTime_led (t : Nat) (s : State) : (atTime t s).led = s.led := rfl
@[simp] theorem atTime_tempo (t : Nat) (s : State) : (atTime t s).tempo = s.tempo := rfl
@[simp] theorem atTime_sync (t : Nat) (s : State) : (atTime t s).sync = s.sync := rfl
@[simp] theorem atTime_rst (t : Nat) (s : State) : (atTime t s).rst = s.rst := rfl
@[simp] theorem atTime_tab (t : Nat) (s : State) : (atTime t s).tab = s.tab := rfl
@[simp] theorem atTime_trace (t : Nat) (s : State) : (atTime t s).trace = s.trace := rfl
@[simp] theorem atTime_boot (t : Nat) (s : State) : (atTime t s).boot = s.boot := rfl
@[simp] theorem atTime_i3c (t : Nat) (s : State) : (atTime t s).i3c = s.i3c := rfl
@[simp] theorem atTime_mem (t : Nat) (s : State) : (atTime t s).mem = s.mem := rfl
@[simp] theorem atTime_memPoison (t : Nat) (s : State) : (atTime t s).memPoison = s.memPoison := rfl
@[simp] theorem atTime_replicas (t : Nat) (s : State) : (atTime t s).replicas = s.replicas := rfl
@[simp] theorem atTime_out (t : Nat) (s : State) : (atTime t s).out = s.out := rfl

/-! ### `memWrite` -/

@[simp] theorem memWrite_pending (a : Nat) (bs : List Byte) (s : State) : (memWrite a bs s).pending = s.pending := rfl
@[simp] theorem memWrite_now (a : Nat) (bs : List Byte) (s : State) : (memWrite a bs s).now = s.now := rfl
@[simp] theorem memWrite_free (a : Nat) (bs : List Byte) (s : State) : (memWrite a bs s).free = s.free := rfl
@[simp] theorem memWrite_evt (a : Nat) (bs : List Byte) (s : State) : (memWrite a bs s).evt = s.evt := rfl
@[simp] theorem memWrite_crash (a : Nat) (bs : List Byte) (s : State) : (memWrite a bs s).crash = s.crash := rfl
@[simp] theorem memWrite_cfg (a : Nat) (bs : List Byte) (s : State) : (memWrite a bs s).cfg = s.cfg := rfl
@[simp] theorem memWrite_stations (a : Nat) (bs : List Byte) (s : State) : (memWrite a bs s).stations = s.stations := rfl
@[simp] theorem memWrite_hz (a : Nat) (bs : List Byte) (s : State) : (memWrite a bs s).hz = s.hz := rfl
@[simp] theorem memWrite_ctxs (a : Nat) (bs : List Byte) (s : State) : (memWrite a bs s).ctxs = s.ctxs := rfl
@[simp] theorem memWrite_adj (a : Nat) (bs : List Byte) (s : State) : (memWrite a bs s).adj = s.adj := rfl
@[simp] theorem memWrite_led (a : Nat) (bs : List Byte) (s : State) : (memWrite a bs s).led = s.led := rfl
@[simp] theorem memWrite_tempo (a : Nat) (bs : List Byte) (s : State) : (memWrite a bs s).tempo = s.tempo := rfl
@[simp] theorem memWrite_sync (a : Nat) (bs : List Byte) (s : State) : (memWrite a bs s).sync = s.sync := rfl
@[simp] theorem memWrite_rst (a : Nat) (bs : List Byte) (s : State) : (memWrite a bs s).rst = s.rst := rfl
@[simp] theorem memWrite_tab (a : Nat) (bs : List Byte) (s : State) : (memWrite a bs s).tab = s.tab := rfl
@[simp] theorem memWrite_trace (a : Nat) (bs : List Byte) (s : State) : (memWrite a bs s).trace = s.trace := rfl
@[simp] theorem memWrite_boot (a : Nat) (bs : List Byte) (s : State) : (memWrite a bs s).boot = s.boot := rfl
@[simp] theorem memWrite_i3c (a : Nat) (bs : List Byte) (s : State) : (memWrite a bs s).i3c = s.i3c := rfl
@[simp] theorem memWrite_mem (a : Nat) (bs : List Byte) (s : State) : (memWrite a bs s).mem = tputs 0 a bs s.mem := rfl
@[simp] theorem memWrite_memPoison (a : Nat) (bs : List Byte) (s : State) :
    (memWrite a bs s).memPoison = markSectors false a bs.length s.memPoison := rfl
@[simp] theorem memWrite_replicas (a : Nat) (bs : List Byte) (s : State) : (memWrite a bs s).replicas = s.replicas := rfl
@[simp] theorem memWrite_causes (a : Nat) (bs : List Byte) (s : State) : (memWrite a bs s).causes = s.causes := rfl
@[simp] theorem memWrite_out (a : Nat) (bs : List Byte) (s : State) : (memWrite a bs s).out = s.out := rfl

/-! ### `memPut` -/

@[simp] theorem memPut_pending (m : Bool) (a : Nat) (bs : List Byte) (s : State) : (memPut m a bs s).pending = s.pending := rfl
@[simp] theorem memPut_now (m : Bool) (a : Nat) (bs : List Byte) (s : State) : (memPut m a bs s).now = s.now := rfl
@[simp] theorem memPut_free (m : Bool) (a : Nat) (bs : List Byte) (s : State) : (memPut m a bs s).free = s.free := rfl
@[simp] theorem memPut_evt (m : Bool) (a : Nat) (bs : List Byte) (s : State) : (memPut m a bs s).evt = s.evt := rfl
@[simp] theorem memPut_crash (m : Bool) (a : Nat) (bs : List Byte) (s : State) : (memPut m a bs s).crash = s.crash := rfl
@[simp] theorem memPut_cfg (m : Bool) (a : Nat) (bs : List Byte) (s : State) : (memPut m a bs s).cfg = s.cfg := rfl
@[simp] theorem memPut_stations (m : Bool) (a : Nat) (bs : List Byte) (s : State) : (memPut m a bs s).stations = s.stations := rfl
@[simp] theorem memPut_hz (m : Bool) (a : Nat) (bs : List Byte) (s : State) : (memPut m a bs s).hz = s.hz := rfl
@[simp] theorem memPut_ctxs (m : Bool) (a : Nat) (bs : List Byte) (s : State) : (memPut m a bs s).ctxs = s.ctxs := rfl
@[simp] theorem memPut_adj (m : Bool) (a : Nat) (bs : List Byte) (s : State) : (memPut m a bs s).adj = s.adj := rfl
@[simp] theorem memPut_led (m : Bool) (a : Nat) (bs : List Byte) (s : State) : (memPut m a bs s).led = s.led := rfl
@[simp] theorem memPut_tempo (m : Bool) (a : Nat) (bs : List Byte) (s : State) : (memPut m a bs s).tempo = s.tempo := rfl
@[simp] theorem memPut_sync (m : Bool) (a : Nat) (bs : List Byte) (s : State) : (memPut m a bs s).sync = s.sync := rfl
@[simp] theorem memPut_rst (m : Bool) (a : Nat) (bs : List Byte) (s : State) : (memPut m a bs s).rst = s.rst := rfl
@[simp] theorem memPut_tab (m : Bool) (a : Nat) (bs : List Byte) (s : State) : (memPut m a bs s).tab = s.tab := rfl
@[simp] theorem memPut_trace (m : Bool) (a : Nat) (bs : List Byte) (s : State) : (memPut m a bs s).trace = s.trace := rfl
@[simp] theorem memPut_boot (m : Bool) (a : Nat) (bs : List Byte) (s : State) : (memPut m a bs s).boot = s.boot := rfl
@[simp] theorem memPut_i3c (m : Bool) (a : Nat) (bs : List Byte) (s : State) : (memPut m a bs s).i3c = s.i3c := rfl
@[simp] theorem memPut_mem (m : Bool) (a : Nat) (bs : List Byte) (s : State) : (memPut m a bs s).mem = tputs 0 a bs s.mem := rfl
@[simp] theorem memPut_memPoison (m : Bool) (a : Nat) (bs : List Byte) (s : State) :
    (memPut m a bs s).memPoison = markSectors m a bs.length s.memPoison := rfl
@[simp] theorem memPut_replicas (m : Bool) (a : Nat) (bs : List Byte) (s : State) : (memPut m a bs s).replicas = s.replicas := rfl
@[simp] theorem memPut_causes (m : Bool) (a : Nat) (bs : List Byte) (s : State) : (memPut m a bs s).causes = s.causes := rfl
@[simp] theorem memPut_out (m : Bool) (a : Nat) (bs : List Byte) (s : State) : (memPut m a bs s).out = s.out := rfl

/-! ### `memStore` -/

@[simp] theorem memStore_pending (m : Bool) (a : Nat) (bs : List Byte) (s : State) : (memStore m a bs s).pending = s.pending := by
  unfold memStore; split <;> rfl
@[simp] theorem memStore_now (m : Bool) (a : Nat) (bs : List Byte) (s : State) : (memStore m a bs s).now = s.now := by
  unfold memStore; split <;> rfl
@[simp] theorem memStore_free (m : Bool) (a : Nat) (bs : List Byte) (s : State) : (memStore m a bs s).free = s.free := by
  unfold memStore; split <;> rfl
@[simp] theorem memStore_evt (m : Bool) (a : Nat) (bs : List Byte) (s : State) : (memStore m a bs s).evt = s.evt := by
  unfold memStore; split <;> rfl
@[simp] theorem memStore_crash (m : Bool) (a : Nat) (bs : List Byte) (s : State) : (memStore m a bs s).crash = s.crash := by
  unfold memStore; split <;> rfl
@[simp] theorem memStore_cfg (m : Bool) (a : Nat) (bs : List Byte) (s : State) : (memStore m a bs s).cfg = s.cfg := by
  unfold memStore; split <;> rfl
@[simp] theorem memStore_stations (m : Bool) (a : Nat) (bs : List Byte) (s : State) : (memStore m a bs s).stations = s.stations := by
  unfold memStore; split <;> rfl
@[simp] theorem memStore_hz (m : Bool) (a : Nat) (bs : List Byte) (s : State) : (memStore m a bs s).hz = s.hz := by
  unfold memStore; split <;> rfl
@[simp] theorem memStore_ctxs (m : Bool) (a : Nat) (bs : List Byte) (s : State) : (memStore m a bs s).ctxs = s.ctxs := by
  unfold memStore; split <;> rfl
@[simp] theorem memStore_adj (m : Bool) (a : Nat) (bs : List Byte) (s : State) : (memStore m a bs s).adj = s.adj := by
  unfold memStore; split <;> rfl
@[simp] theorem memStore_led (m : Bool) (a : Nat) (bs : List Byte) (s : State) : (memStore m a bs s).led = s.led := by
  unfold memStore; split <;> rfl
@[simp] theorem memStore_tempo (m : Bool) (a : Nat) (bs : List Byte) (s : State) : (memStore m a bs s).tempo = s.tempo := by
  unfold memStore; split <;> rfl
@[simp] theorem memStore_sync (m : Bool) (a : Nat) (bs : List Byte) (s : State) : (memStore m a bs s).sync = s.sync := by
  unfold memStore; split <;> rfl
@[simp] theorem memStore_rst (m : Bool) (a : Nat) (bs : List Byte) (s : State) : (memStore m a bs s).rst = s.rst := by
  unfold memStore; split <;> rfl
@[simp] theorem memStore_tab (m : Bool) (a : Nat) (bs : List Byte) (s : State) : (memStore m a bs s).tab = s.tab := by
  unfold memStore; split <;> rfl
@[simp] theorem memStore_trace (m : Bool) (a : Nat) (bs : List Byte) (s : State) : (memStore m a bs s).trace = s.trace := by
  unfold memStore; split <;> rfl
@[simp] theorem memStore_boot (m : Bool) (a : Nat) (bs : List Byte) (s : State) : (memStore m a bs s).boot = s.boot := by
  unfold memStore; split <;> rfl
@[simp] theorem memStore_i3c (m : Bool) (a : Nat) (bs : List Byte) (s : State) : (memStore m a bs s).i3c = s.i3c := by
  unfold memStore; split <;> rfl
@[simp] theorem memStore_replicas (m : Bool) (a : Nat) (bs : List Byte) (s : State) : (memStore m a bs s).replicas = s.replicas := by
  unfold memStore; split <;> rfl
@[simp] theorem memStore_causes (m : Bool) (a : Nat) (bs : List Byte) (s : State) : (memStore m a bs s).causes = s.causes := by
  unfold memStore; split <;> rfl
@[simp] theorem memStore_out (m : Bool) (a : Nat) (bs : List Byte) (s : State) : (memStore m a bs s).out = s.out := by
  unfold memStore; split <;> rfl

/-- R224: what a store does to memory: nothing in the capsule region, and elsewhere it writes its bytes. -/
theorem memStore_mem (m : Bool) (a : Nat) (bs : List Byte) (s : State) :
    (memStore m a bs s).mem = if inCapsules s a bs.length then s.mem else tputs 0 a bs s.mem := by
  unfold memStore; split <;> rfl

/-- A store leaves every byte outside it alone. -/
theorem memStore_other (m : Bool) (a : Nat) (bs : List Byte) (s : State) (x : Nat) (h : x < a ∨ a + bs.length ≤ x) :
    tget (0 : Byte) x (memStore m a bs s).mem = tget 0 x s.mem := by
  rw [memStore_mem]
  split
  · rfl
  · rw [tget_tputs, if_neg (by omega)]

/-! ### `setResult` -/

@[simp] theorem setResult_pending (reg : Nat) (r : Requester) (v : Nat) (s : State) : (setResult reg r v s).pending = s.pending := rfl
@[simp] theorem setResult_now (reg : Nat) (r : Requester) (v : Nat) (s : State) : (setResult reg r v s).now = s.now := rfl
@[simp] theorem setResult_free (reg : Nat) (r : Requester) (v : Nat) (s : State) : (setResult reg r v s).free = s.free := rfl
@[simp] theorem setResult_evt (reg : Nat) (r : Requester) (v : Nat) (s : State) : (setResult reg r v s).evt = s.evt := rfl
@[simp] theorem setResult_crash (reg : Nat) (r : Requester) (v : Nat) (s : State) : (setResult reg r v s).crash = s.crash := rfl
@[simp] theorem setResult_stations (reg : Nat) (r : Requester) (v : Nat) (s : State) : (setResult reg r v s).stations = s.stations := rfl
@[simp] theorem setResult_hz (reg : Nat) (r : Requester) (v : Nat) (s : State) : (setResult reg r v s).hz = s.hz := rfl
@[simp] theorem setResult_ctxs (reg : Nat) (r : Requester) (v : Nat) (s : State) : (setResult reg r v s).ctxs = s.ctxs := rfl
@[simp] theorem setResult_adj (reg : Nat) (r : Requester) (v : Nat) (s : State) : (setResult reg r v s).adj = s.adj := rfl
@[simp] theorem setResult_led (reg : Nat) (r : Requester) (v : Nat) (s : State) : (setResult reg r v s).led = s.led := rfl
@[simp] theorem setResult_tempo (reg : Nat) (r : Requester) (v : Nat) (s : State) : (setResult reg r v s).tempo = s.tempo := rfl
@[simp] theorem setResult_sync (reg : Nat) (r : Requester) (v : Nat) (s : State) : (setResult reg r v s).sync = s.sync := rfl
@[simp] theorem setResult_rst (reg : Nat) (r : Requester) (v : Nat) (s : State) : (setResult reg r v s).rst = s.rst := rfl
@[simp] theorem setResult_tab (reg : Nat) (r : Requester) (v : Nat) (s : State) : (setResult reg r v s).tab = s.tab := rfl
@[simp] theorem setResult_trace (reg : Nat) (r : Requester) (v : Nat) (s : State) : (setResult reg r v s).trace = s.trace := rfl
@[simp] theorem setResult_boot (reg : Nat) (r : Requester) (v : Nat) (s : State) : (setResult reg r v s).boot = s.boot := rfl
@[simp] theorem setResult_i3c (reg : Nat) (r : Requester) (v : Nat) (s : State) : (setResult reg r v s).i3c = s.i3c := rfl
@[simp] theorem setResult_mem (reg : Nat) (r : Requester) (v : Nat) (s : State) : (setResult reg r v s).mem = s.mem := rfl
@[simp] theorem setResult_memPoison (reg : Nat) (r : Requester) (v : Nat) (s : State) : (setResult reg r v s).memPoison = s.memPoison := rfl
@[simp] theorem setResult_replicas (reg : Nat) (r : Requester) (v : Nat) (s : State) : (setResult reg r v s).replicas = s.replicas := rfl
@[simp] theorem setResult_causes (reg : Nat) (r : Requester) (v : Nat) (s : State) : (setResult reg r v s).causes = s.causes := rfl
@[simp] theorem setResult_out (reg : Nat) (r : Requester) (v : Nat) (s : State) : (setResult reg r v s).out = s.out := rfl

/-! ### `msix` -/

@[simp] theorem msix_pending (v : Nat) (s : State) : (msix v s).pending = s.pending := rfl
@[simp] theorem msix_now (v : Nat) (s : State) : (msix v s).now = s.now := rfl
@[simp] theorem msix_free (v : Nat) (s : State) : (msix v s).free = s.free := rfl
@[simp] theorem msix_evt (v : Nat) (s : State) : (msix v s).evt = s.evt := rfl
@[simp] theorem msix_crash (v : Nat) (s : State) : (msix v s).crash = s.crash := rfl
@[simp] theorem msix_cfg (v : Nat) (s : State) : (msix v s).cfg = s.cfg := rfl
@[simp] theorem msix_stations (v : Nat) (s : State) : (msix v s).stations = s.stations := rfl
@[simp] theorem msix_hz (v : Nat) (s : State) : (msix v s).hz = s.hz := rfl
@[simp] theorem msix_ctxs (v : Nat) (s : State) : (msix v s).ctxs = s.ctxs := rfl
@[simp] theorem msix_adj (v : Nat) (s : State) : (msix v s).adj = s.adj := rfl
@[simp] theorem msix_led (v : Nat) (s : State) : (msix v s).led = s.led := rfl
@[simp] theorem msix_tempo (v : Nat) (s : State) : (msix v s).tempo = s.tempo := rfl
@[simp] theorem msix_sync (v : Nat) (s : State) : (msix v s).sync = s.sync := rfl
@[simp] theorem msix_rst (v : Nat) (s : State) : (msix v s).rst = s.rst := rfl
@[simp] theorem msix_tab (v : Nat) (s : State) : (msix v s).tab = s.tab := rfl
@[simp] theorem msix_trace (v : Nat) (s : State) : (msix v s).trace = s.trace := rfl
@[simp] theorem msix_boot (v : Nat) (s : State) : (msix v s).boot = s.boot := rfl
@[simp] theorem msix_i3c (v : Nat) (s : State) : (msix v s).i3c = s.i3c := rfl
@[simp] theorem msix_mem (v : Nat) (s : State) : (msix v s).mem = s.mem := rfl
@[simp] theorem msix_memPoison (v : Nat) (s : State) : (msix v s).memPoison = s.memPoison := rfl
@[simp] theorem msix_replicas (v : Nat) (s : State) : (msix v s).replicas = s.replicas := rfl
@[simp] theorem msix_causes (v : Nat) (s : State) : (msix v s).causes = s.causes := rfl

/-! ### `updGate` -/

@[simp] theorem updGate_pending (g : Nat) (f : GatePoint → GatePoint) (s : State) : (updGate g f s).pending = s.pending := rfl
@[simp] theorem updGate_now (g : Nat) (f : GatePoint → GatePoint) (s : State) : (updGate g f s).now = s.now := rfl
@[simp] theorem updGate_free (g : Nat) (f : GatePoint → GatePoint) (s : State) : (updGate g f s).free = s.free := rfl
@[simp] theorem updGate_evt (g : Nat) (f : GatePoint → GatePoint) (s : State) : (updGate g f s).evt = s.evt := rfl
@[simp] theorem updGate_crash (g : Nat) (f : GatePoint → GatePoint) (s : State) : (updGate g f s).crash = s.crash := rfl
@[simp] theorem updGate_cfg (g : Nat) (f : GatePoint → GatePoint) (s : State) : (updGate g f s).cfg = s.cfg := rfl
@[simp] theorem updGate_stations (g : Nat) (f : GatePoint → GatePoint) (s : State) : (updGate g f s).stations = s.stations := rfl
@[simp] theorem updGate_ctxs (g : Nat) (f : GatePoint → GatePoint) (s : State) : (updGate g f s).ctxs = s.ctxs := rfl
@[simp] theorem updGate_adj (g : Nat) (f : GatePoint → GatePoint) (s : State) : (updGate g f s).adj = s.adj := rfl
@[simp] theorem updGate_led (g : Nat) (f : GatePoint → GatePoint) (s : State) : (updGate g f s).led = s.led := rfl
@[simp] theorem updGate_tempo (g : Nat) (f : GatePoint → GatePoint) (s : State) : (updGate g f s).tempo = s.tempo := rfl
@[simp] theorem updGate_sync (g : Nat) (f : GatePoint → GatePoint) (s : State) : (updGate g f s).sync = s.sync := rfl
@[simp] theorem updGate_rst (g : Nat) (f : GatePoint → GatePoint) (s : State) : (updGate g f s).rst = s.rst := rfl
@[simp] theorem updGate_tab (g : Nat) (f : GatePoint → GatePoint) (s : State) : (updGate g f s).tab = s.tab := rfl
@[simp] theorem updGate_trace (g : Nat) (f : GatePoint → GatePoint) (s : State) : (updGate g f s).trace = s.trace := rfl
@[simp] theorem updGate_boot (g : Nat) (f : GatePoint → GatePoint) (s : State) : (updGate g f s).boot = s.boot := rfl
@[simp] theorem updGate_i3c (g : Nat) (f : GatePoint → GatePoint) (s : State) : (updGate g f s).i3c = s.i3c := rfl
@[simp] theorem updGate_mem (g : Nat) (f : GatePoint → GatePoint) (s : State) : (updGate g f s).mem = s.mem := rfl
@[simp] theorem updGate_memPoison (g : Nat) (f : GatePoint → GatePoint) (s : State) : (updGate g f s).memPoison = s.memPoison := rfl
@[simp] theorem updGate_replicas (g : Nat) (f : GatePoint → GatePoint) (s : State) : (updGate g f s).replicas = s.replicas := rfl
@[simp] theorem updGate_causes (g : Nat) (f : GatePoint → GatePoint) (s : State) : (updGate g f s).causes = s.causes := rfl
@[simp] theorem updGate_out (g : Nat) (f : GatePoint → GatePoint) (s : State) : (updGate g f s).out = s.out := rfl

@[simp] theorem gate_updGate (g : Nat) (f : GatePoint → GatePoint) (s : State) : gate (updGate g f s) g = f (gate s g) :=
  tget_tput_same ..

theorem gate_updGate_ne {k g : Nat} (h : k ≠ g) (f : GatePoint → GatePoint) (s : State) : gate (updGate g f s) k = gate s k :=
  tget_tput_ne _ h ..

/-! ### `updDomain` -/

@[simp] theorem updDomain_pending (d : Nat) (f : Domain → Domain) (s : State) : (updDomain d f s).pending = s.pending := rfl
@[simp] theorem updDomain_now (d : Nat) (f : Domain → Domain) (s : State) : (updDomain d f s).now = s.now := rfl
@[simp] theorem updDomain_free (d : Nat) (f : Domain → Domain) (s : State) : (updDomain d f s).free = s.free := rfl
@[simp] theorem updDomain_evt (d : Nat) (f : Domain → Domain) (s : State) : (updDomain d f s).evt = s.evt := rfl
@[simp] theorem updDomain_crash (d : Nat) (f : Domain → Domain) (s : State) : (updDomain d f s).crash = s.crash := rfl
@[simp] theorem updDomain_cfg (d : Nat) (f : Domain → Domain) (s : State) : (updDomain d f s).cfg = s.cfg := rfl
@[simp] theorem updDomain_stations (d : Nat) (f : Domain → Domain) (s : State) : (updDomain d f s).stations = s.stations := rfl
@[simp] theorem updDomain_hz (d : Nat) (f : Domain → Domain) (s : State) : (updDomain d f s).hz = s.hz := rfl
@[simp] theorem updDomain_ctxs (d : Nat) (f : Domain → Domain) (s : State) : (updDomain d f s).ctxs = s.ctxs := rfl
@[simp] theorem updDomain_adj (d : Nat) (f : Domain → Domain) (s : State) : (updDomain d f s).adj = s.adj := rfl
@[simp] theorem updDomain_led (d : Nat) (f : Domain → Domain) (s : State) : (updDomain d f s).led = s.led := rfl
@[simp] theorem updDomain_sync (d : Nat) (f : Domain → Domain) (s : State) : (updDomain d f s).sync = s.sync := rfl
@[simp] theorem updDomain_rst (d : Nat) (f : Domain → Domain) (s : State) : (updDomain d f s).rst = s.rst := rfl
@[simp] theorem updDomain_tab (d : Nat) (f : Domain → Domain) (s : State) : (updDomain d f s).tab = s.tab := rfl
@[simp] theorem updDomain_trace (d : Nat) (f : Domain → Domain) (s : State) : (updDomain d f s).trace = s.trace := rfl
@[simp] theorem updDomain_boot (d : Nat) (f : Domain → Domain) (s : State) : (updDomain d f s).boot = s.boot := rfl
@[simp] theorem updDomain_i3c (d : Nat) (f : Domain → Domain) (s : State) : (updDomain d f s).i3c = s.i3c := rfl
@[simp] theorem updDomain_mem (d : Nat) (f : Domain → Domain) (s : State) : (updDomain d f s).mem = s.mem := rfl
@[simp] theorem updDomain_memPoison (d : Nat) (f : Domain → Domain) (s : State) : (updDomain d f s).memPoison = s.memPoison := rfl
@[simp] theorem updDomain_replicas (d : Nat) (f : Domain → Domain) (s : State) : (updDomain d f s).replicas = s.replicas := rfl
@[simp] theorem updDomain_causes (d : Nat) (f : Domain → Domain) (s : State) : (updDomain d f s).causes = s.causes := rfl
@[simp] theorem updDomain_out (d : Nat) (f : Domain → Domain) (s : State) : (updDomain d f s).out = s.out := rfl

@[simp] theorem domain_updDomain (d : Nat) (f : Domain → Domain) (s : State) : domain (updDomain d f s) d = f (domain s d) :=
  tget_tput_same ..

theorem domain_updDomain_ne {k d : Nat} (h : k ≠ d) (f : Domain → Domain) (s : State) : domain (updDomain d f s) k = domain s k :=
  tget_tput_ne _ h ..

/-! ### `updObject` -/

@[simp] theorem updObject_pending (o : Nat) (f : Obj → Obj) (s : State) : (updObject o f s).pending = s.pending := rfl
@[simp] theorem updObject_now (o : Nat) (f : Obj → Obj) (s : State) : (updObject o f s).now = s.now := rfl
@[simp] theorem updObject_free (o : Nat) (f : Obj → Obj) (s : State) : (updObject o f s).free = s.free := rfl
@[simp] theorem updObject_evt (o : Nat) (f : Obj → Obj) (s : State) : (updObject o f s).evt = s.evt := rfl
@[simp] theorem updObject_crash (o : Nat) (f : Obj → Obj) (s : State) : (updObject o f s).crash = s.crash := rfl
@[simp] theorem updObject_cfg (o : Nat) (f : Obj → Obj) (s : State) : (updObject o f s).cfg = s.cfg := rfl
@[simp] theorem updObject_stations (o : Nat) (f : Obj → Obj) (s : State) : (updObject o f s).stations = s.stations := rfl
@[simp] theorem updObject_hz (o : Nat) (f : Obj → Obj) (s : State) : (updObject o f s).hz = s.hz := rfl
@[simp] theorem updObject_ctxs (o : Nat) (f : Obj → Obj) (s : State) : (updObject o f s).ctxs = s.ctxs := rfl
@[simp] theorem updObject_adj (o : Nat) (f : Obj → Obj) (s : State) : (updObject o f s).adj = s.adj := rfl
@[simp] theorem updObject_led (o : Nat) (f : Obj → Obj) (s : State) : (updObject o f s).led = s.led := rfl
@[simp] theorem updObject_tempo (o : Nat) (f : Obj → Obj) (s : State) : (updObject o f s).tempo = s.tempo := rfl
@[simp] theorem updObject_rst (o : Nat) (f : Obj → Obj) (s : State) : (updObject o f s).rst = s.rst := rfl
@[simp] theorem updObject_tab (o : Nat) (f : Obj → Obj) (s : State) : (updObject o f s).tab = s.tab := rfl
@[simp] theorem updObject_trace (o : Nat) (f : Obj → Obj) (s : State) : (updObject o f s).trace = s.trace := rfl
@[simp] theorem updObject_boot (o : Nat) (f : Obj → Obj) (s : State) : (updObject o f s).boot = s.boot := rfl
@[simp] theorem updObject_i3c (o : Nat) (f : Obj → Obj) (s : State) : (updObject o f s).i3c = s.i3c := rfl
@[simp] theorem updObject_mem (o : Nat) (f : Obj → Obj) (s : State) : (updObject o f s).mem = s.mem := rfl
@[simp] theorem updObject_memPoison (o : Nat) (f : Obj → Obj) (s : State) : (updObject o f s).memPoison = s.memPoison := rfl
@[simp] theorem updObject_replicas (o : Nat) (f : Obj → Obj) (s : State) : (updObject o f s).replicas = s.replicas := rfl
@[simp] theorem updObject_causes (o : Nat) (f : Obj → Obj) (s : State) : (updObject o f s).causes = s.causes := rfl
@[simp] theorem updObject_out (o : Nat) (f : Obj → Obj) (s : State) : (updObject o f s).out = s.out := rfl

@[simp] theorem object_updObject (o : Nat) (f : Obj → Obj) (s : State) : object (updObject o f s) o = f (object s o) :=
  tget_tput_same ..

theorem object_updObject_ne {k o : Nat} (h : k ≠ o) (f : Obj → Obj) (s : State) : object (updObject o f s) k = object s k :=
  tget_tput_ne _ h ..

/-! ### `updBarrier` -/

@[simp] theorem updBarrier_pending (b : Nat) (f : Barrier → Barrier) (s : State) : (updBarrier b f s).pending = s.pending := rfl
@[simp] theorem updBarrier_now (b : Nat) (f : Barrier → Barrier) (s : State) : (updBarrier b f s).now = s.now := rfl
@[simp] theorem updBarrier_free (b : Nat) (f : Barrier → Barrier) (s : State) : (updBarrier b f s).free = s.free := rfl
@[simp] theorem updBarrier_evt (b : Nat) (f : Barrier → Barrier) (s : State) : (updBarrier b f s).evt = s.evt := rfl
@[simp] theorem updBarrier_crash (b : Nat) (f : Barrier → Barrier) (s : State) : (updBarrier b f s).crash = s.crash := rfl
@[simp] theorem updBarrier_cfg (b : Nat) (f : Barrier → Barrier) (s : State) : (updBarrier b f s).cfg = s.cfg := rfl
@[simp] theorem updBarrier_stations (b : Nat) (f : Barrier → Barrier) (s : State) : (updBarrier b f s).stations = s.stations := rfl
@[simp] theorem updBarrier_hz (b : Nat) (f : Barrier → Barrier) (s : State) : (updBarrier b f s).hz = s.hz := rfl
@[simp] theorem updBarrier_ctxs (b : Nat) (f : Barrier → Barrier) (s : State) : (updBarrier b f s).ctxs = s.ctxs := rfl
@[simp] theorem updBarrier_adj (b : Nat) (f : Barrier → Barrier) (s : State) : (updBarrier b f s).adj = s.adj := rfl
@[simp] theorem updBarrier_led (b : Nat) (f : Barrier → Barrier) (s : State) : (updBarrier b f s).led = s.led := rfl
@[simp] theorem updBarrier_tempo (b : Nat) (f : Barrier → Barrier) (s : State) : (updBarrier b f s).tempo = s.tempo := rfl
@[simp] theorem updBarrier_rst (b : Nat) (f : Barrier → Barrier) (s : State) : (updBarrier b f s).rst = s.rst := rfl
@[simp] theorem updBarrier_tab (b : Nat) (f : Barrier → Barrier) (s : State) : (updBarrier b f s).tab = s.tab := rfl
@[simp] theorem updBarrier_trace (b : Nat) (f : Barrier → Barrier) (s : State) : (updBarrier b f s).trace = s.trace := rfl
@[simp] theorem updBarrier_boot (b : Nat) (f : Barrier → Barrier) (s : State) : (updBarrier b f s).boot = s.boot := rfl
@[simp] theorem updBarrier_i3c (b : Nat) (f : Barrier → Barrier) (s : State) : (updBarrier b f s).i3c = s.i3c := rfl
@[simp] theorem updBarrier_mem (b : Nat) (f : Barrier → Barrier) (s : State) : (updBarrier b f s).mem = s.mem := rfl
@[simp] theorem updBarrier_memPoison (b : Nat) (f : Barrier → Barrier) (s : State) : (updBarrier b f s).memPoison = s.memPoison := rfl
@[simp] theorem updBarrier_replicas (b : Nat) (f : Barrier → Barrier) (s : State) : (updBarrier b f s).replicas = s.replicas := rfl
@[simp] theorem updBarrier_causes (b : Nat) (f : Barrier → Barrier) (s : State) : (updBarrier b f s).causes = s.causes := rfl
@[simp] theorem updBarrier_out (b : Nat) (f : Barrier → Barrier) (s : State) : (updBarrier b f s).out = s.out := rfl

@[simp] theorem barrier_updBarrier (b : Nat) (f : Barrier → Barrier) (s : State) : barrier (updBarrier b f s) b = f (barrier s b) :=
  tget_tput_same ..

theorem barrier_updBarrier_ne {k b : Nat} (h : k ≠ b) (f : Barrier → Barrier) (s : State) : barrier (updBarrier b f s) k = barrier s k :=
  tget_tput_ne _ h ..

/-! ### `updFPort` -/

@[simp] theorem updFPort_pending (p : Nat) (f : FPort → FPort) (s : State) : (updFPort p f s).pending = s.pending := rfl
@[simp] theorem updFPort_now (p : Nat) (f : FPort → FPort) (s : State) : (updFPort p f s).now = s.now := rfl
@[simp] theorem updFPort_free (p : Nat) (f : FPort → FPort) (s : State) : (updFPort p f s).free = s.free := rfl
@[simp] theorem updFPort_evt (p : Nat) (f : FPort → FPort) (s : State) : (updFPort p f s).evt = s.evt := rfl
@[simp] theorem updFPort_crash (p : Nat) (f : FPort → FPort) (s : State) : (updFPort p f s).crash = s.crash := rfl
@[simp] theorem updFPort_cfg (p : Nat) (f : FPort → FPort) (s : State) : (updFPort p f s).cfg = s.cfg := rfl
@[simp] theorem updFPort_stations (p : Nat) (f : FPort → FPort) (s : State) : (updFPort p f s).stations = s.stations := rfl
@[simp] theorem updFPort_hz (p : Nat) (f : FPort → FPort) (s : State) : (updFPort p f s).hz = s.hz := rfl
@[simp] theorem updFPort_ctxs (p : Nat) (f : FPort → FPort) (s : State) : (updFPort p f s).ctxs = s.ctxs := rfl
@[simp] theorem updFPort_adj (p : Nat) (f : FPort → FPort) (s : State) : (updFPort p f s).adj = s.adj := rfl
@[simp] theorem updFPort_led (p : Nat) (f : FPort → FPort) (s : State) : (updFPort p f s).led = s.led := rfl
@[simp] theorem updFPort_tempo (p : Nat) (f : FPort → FPort) (s : State) : (updFPort p f s).tempo = s.tempo := rfl
@[simp] theorem updFPort_rst (p : Nat) (f : FPort → FPort) (s : State) : (updFPort p f s).rst = s.rst := rfl
@[simp] theorem updFPort_tab (p : Nat) (f : FPort → FPort) (s : State) : (updFPort p f s).tab = s.tab := rfl
@[simp] theorem updFPort_trace (p : Nat) (f : FPort → FPort) (s : State) : (updFPort p f s).trace = s.trace := rfl
@[simp] theorem updFPort_boot (p : Nat) (f : FPort → FPort) (s : State) : (updFPort p f s).boot = s.boot := rfl
@[simp] theorem updFPort_i3c (p : Nat) (f : FPort → FPort) (s : State) : (updFPort p f s).i3c = s.i3c := rfl
@[simp] theorem updFPort_mem (p : Nat) (f : FPort → FPort) (s : State) : (updFPort p f s).mem = s.mem := rfl
@[simp] theorem updFPort_memPoison (p : Nat) (f : FPort → FPort) (s : State) : (updFPort p f s).memPoison = s.memPoison := rfl
@[simp] theorem updFPort_replicas (p : Nat) (f : FPort → FPort) (s : State) : (updFPort p f s).replicas = s.replicas := rfl
@[simp] theorem updFPort_causes (p : Nat) (f : FPort → FPort) (s : State) : (updFPort p f s).causes = s.causes := rfl
@[simp] theorem updFPort_out (p : Nat) (f : FPort → FPort) (s : State) : (updFPort p f s).out = s.out := rfl

@[simp] theorem fport_updFPort (p : Nat) (f : FPort → FPort) (s : State) : fport (updFPort p f s) p = f (fport s p) :=
  tget_tput_same ..

theorem fport_updFPort_ne {k p : Nat} (h : k ≠ p) (f : FPort → FPort) (s : State) : fport (updFPort p f s) k = fport s k :=
  tget_tput_ne _ h ..

@[simp] theorem station_updStation (c : Nat) (f : Station → Station) (s : State) : station (updStation c f s) c = f (station s c) :=
  tget_tput_same ..

theorem station_updStation_ne {k c : Nat} (h : k ≠ c) (f : Station → Station) (s : State) :
    station (updStation c f s) k = station s k :=
  tget_tput_ne _ h ..

/-! ### Recording an event changes the recorder, and an armed tableau trigger (R404, R427) -/

@[simp] theorem tableauTrigger_pending (n : Nat) (s : State) : (tableauTrigger n s).pending = s.pending := by
  unfold tableauTrigger; split <;> [rfl; (split <;> [rfl; (split <;> rfl)])]
@[simp] theorem eventTrigger_pending (c : BitVec 16) (s : State) : (eventTrigger c s).pending = s.pending := by
  unfold eventTrigger; split <;> simp
@[simp] theorem tableauTrigger_now (n : Nat) (s : State) : (tableauTrigger n s).now = s.now := by
  unfold tableauTrigger; split <;> [rfl; (split <;> [rfl; (split <;> rfl)])]
@[simp] theorem eventTrigger_now (c : BitVec 16) (s : State) : (eventTrigger c s).now = s.now := by
  unfold eventTrigger; split <;> simp
@[simp] theorem tableauTrigger_free (n : Nat) (s : State) : (tableauTrigger n s).free = s.free := by
  unfold tableauTrigger; split <;> [rfl; (split <;> [rfl; (split <;> rfl)])]
@[simp] theorem eventTrigger_free (c : BitVec 16) (s : State) : (eventTrigger c s).free = s.free := by
  unfold eventTrigger; split <;> simp
@[simp] theorem tableauTrigger_evt (n : Nat) (s : State) : (tableauTrigger n s).evt = s.evt := by
  unfold tableauTrigger; split <;> [rfl; (split <;> [rfl; (split <;> rfl)])]
@[simp] theorem eventTrigger_evt (c : BitVec 16) (s : State) : (eventTrigger c s).evt = s.evt := by
  unfold eventTrigger; split <;> simp
@[simp] theorem tableauTrigger_crash (n : Nat) (s : State) : (tableauTrigger n s).crash = s.crash := by
  unfold tableauTrigger; split <;> [rfl; (split <;> [rfl; (split <;> rfl)])]
@[simp] theorem eventTrigger_crash (c : BitVec 16) (s : State) : (eventTrigger c s).crash = s.crash := by
  unfold eventTrigger; split <;> simp
@[simp] theorem tableauTrigger_cfg (n : Nat) (s : State) : (tableauTrigger n s).cfg = s.cfg := by
  unfold tableauTrigger; split <;> [rfl; (split <;> [rfl; (split <;> rfl)])]
@[simp] theorem eventTrigger_cfg (c : BitVec 16) (s : State) : (eventTrigger c s).cfg = s.cfg := by
  unfold eventTrigger; split <;> simp
@[simp] theorem tableauTrigger_stations (n : Nat) (s : State) : (tableauTrigger n s).stations = s.stations := by
  unfold tableauTrigger; split <;> [rfl; (split <;> [rfl; (split <;> rfl)])]
@[simp] theorem eventTrigger_stations (c : BitVec 16) (s : State) : (eventTrigger c s).stations = s.stations := by
  unfold eventTrigger; split <;> simp
@[simp] theorem tableauTrigger_hz (n : Nat) (s : State) : (tableauTrigger n s).hz = s.hz := by
  unfold tableauTrigger; split <;> [rfl; (split <;> [rfl; (split <;> rfl)])]
@[simp] theorem eventTrigger_hz (c : BitVec 16) (s : State) : (eventTrigger c s).hz = s.hz := by
  unfold eventTrigger; split <;> simp
@[simp] theorem tableauTrigger_ctxs (n : Nat) (s : State) : (tableauTrigger n s).ctxs = s.ctxs := by
  unfold tableauTrigger; split <;> [rfl; (split <;> [rfl; (split <;> rfl)])]
@[simp] theorem eventTrigger_ctxs (c : BitVec 16) (s : State) : (eventTrigger c s).ctxs = s.ctxs := by
  unfold eventTrigger; split <;> simp
@[simp] theorem tableauTrigger_adj (n : Nat) (s : State) : (tableauTrigger n s).adj = s.adj := by
  unfold tableauTrigger; split <;> [rfl; (split <;> [rfl; (split <;> rfl)])]
@[simp] theorem eventTrigger_adj (c : BitVec 16) (s : State) : (eventTrigger c s).adj = s.adj := by
  unfold eventTrigger; split <;> simp
@[simp] theorem tableauTrigger_led (n : Nat) (s : State) : (tableauTrigger n s).led = s.led := by
  unfold tableauTrigger; split <;> [rfl; (split <;> [rfl; (split <;> rfl)])]
@[simp] theorem eventTrigger_led (c : BitVec 16) (s : State) : (eventTrigger c s).led = s.led := by
  unfold eventTrigger; split <;> simp
@[simp] theorem tableauTrigger_tempo (n : Nat) (s : State) : (tableauTrigger n s).tempo = s.tempo := by
  unfold tableauTrigger; split <;> [rfl; (split <;> [rfl; (split <;> rfl)])]
@[simp] theorem eventTrigger_tempo (c : BitVec 16) (s : State) : (eventTrigger c s).tempo = s.tempo := by
  unfold eventTrigger; split <;> simp
@[simp] theorem tableauTrigger_sync (n : Nat) (s : State) : (tableauTrigger n s).sync = s.sync := by
  unfold tableauTrigger; split <;> [rfl; (split <;> [rfl; (split <;> rfl)])]
@[simp] theorem eventTrigger_sync (c : BitVec 16) (s : State) : (eventTrigger c s).sync = s.sync := by
  unfold eventTrigger; split <;> simp
@[simp] theorem tableauTrigger_rst (n : Nat) (s : State) : (tableauTrigger n s).rst = s.rst := by
  unfold tableauTrigger; split <;> [rfl; (split <;> [rfl; (split <;> rfl)])]
@[simp] theorem eventTrigger_rst (c : BitVec 16) (s : State) : (eventTrigger c s).rst = s.rst := by
  unfold eventTrigger; split <;> simp
@[simp] theorem tableauTrigger_trace (n : Nat) (s : State) : (tableauTrigger n s).trace = s.trace := by
  unfold tableauTrigger; split <;> [rfl; (split <;> [rfl; (split <;> rfl)])]
@[simp] theorem eventTrigger_trace (c : BitVec 16) (s : State) : (eventTrigger c s).trace = s.trace := by
  unfold eventTrigger; split <;> simp
@[simp] theorem tableauTrigger_boot (n : Nat) (s : State) : (tableauTrigger n s).boot = s.boot := by
  unfold tableauTrigger; split <;> [rfl; (split <;> [rfl; (split <;> rfl)])]
@[simp] theorem eventTrigger_boot (c : BitVec 16) (s : State) : (eventTrigger c s).boot = s.boot := by
  unfold eventTrigger; split <;> simp
@[simp] theorem tableauTrigger_i3c (n : Nat) (s : State) : (tableauTrigger n s).i3c = s.i3c := by
  unfold tableauTrigger; split <;> [rfl; (split <;> [rfl; (split <;> rfl)])]
@[simp] theorem eventTrigger_i3c (c : BitVec 16) (s : State) : (eventTrigger c s).i3c = s.i3c := by
  unfold eventTrigger; split <;> simp
@[simp] theorem tableauTrigger_mem (n : Nat) (s : State) : (tableauTrigger n s).mem = s.mem := by
  unfold tableauTrigger; split <;> [rfl; (split <;> [rfl; (split <;> rfl)])]
@[simp] theorem tableauTrigger_memPoison (n : Nat) (s : State) : (tableauTrigger n s).memPoison = s.memPoison := by
  unfold tableauTrigger; split <;> [rfl; (split <;> [rfl; (split <;> rfl)])]
@[simp] theorem tableauTrigger_replicas (n : Nat) (s : State) : (tableauTrigger n s).replicas = s.replicas := by
  unfold tableauTrigger; split <;> [rfl; (split <;> [rfl; (split <;> rfl)])]
@[simp] theorem tableauTrigger_causes (n : Nat) (s : State) : (tableauTrigger n s).causes = s.causes := by
  unfold tableauTrigger; split <;> [rfl; (split <;> [rfl; (split <;> rfl)])]
@[simp] theorem eventTrigger_mem (c : BitVec 16) (s : State) : (eventTrigger c s).mem = s.mem := by
  unfold eventTrigger; split <;> simp
@[simp] theorem eventTrigger_memPoison (c : BitVec 16) (s : State) : (eventTrigger c s).memPoison = s.memPoison := by
  unfold eventTrigger; split <;> simp
@[simp] theorem eventTrigger_replicas (c : BitVec 16) (s : State) : (eventTrigger c s).replicas = s.replicas := by
  unfold eventTrigger; split <;> simp
@[simp] theorem eventTrigger_causes (c : BitVec 16) (s : State) : (eventTrigger c s).causes = s.causes := by
  unfold eventTrigger; split <;> simp
@[simp] theorem tableauTrigger_out (n : Nat) (s : State) : (tableauTrigger n s).out = s.out := by
  unfold tableauTrigger; split <;> [rfl; (split <;> [rfl; (split <;> rfl)])]
@[simp] theorem eventTrigger_out (c : BitVec 16) (s : State) : (eventTrigger c s).out = s.out := by
  unfold eventTrigger; split <;> simp
@[simp] theorem occurEv_pending (e : Ev) (s : State) : (occurEv e s).pending = s.pending := by simp [occurEv]
@[simp] theorem occur_pending (c x : BitVec 16) (a b d : Nat) (s : State) : (occur c x a b d s).pending = s.pending := by simp [occur]
@[simp] theorem occurDeferred_pending (c x : BitVec 16) (a b d : Nat) (s : State) : (occurDeferred c x a b d s).pending = s.pending := by
  simp [occurDeferred]
@[simp] theorem occurEv_now (e : Ev) (s : State) : (occurEv e s).now = s.now := by simp [occurEv]
@[simp] theorem occur_now (c x : BitVec 16) (a b d : Nat) (s : State) : (occur c x a b d s).now = s.now := by simp [occur]
@[simp] theorem occurDeferred_now (c x : BitVec 16) (a b d : Nat) (s : State) : (occurDeferred c x a b d s).now = s.now := by
  simp [occurDeferred]
@[simp] theorem occurEv_free (e : Ev) (s : State) : (occurEv e s).free = s.free := by simp [occurEv]
@[simp] theorem occur_free (c x : BitVec 16) (a b d : Nat) (s : State) : (occur c x a b d s).free = s.free := by simp [occur]
@[simp] theorem occurDeferred_free (c x : BitVec 16) (a b d : Nat) (s : State) : (occurDeferred c x a b d s).free = s.free := by
  simp [occurDeferred]
@[simp] theorem occurEv_crash (e : Ev) (s : State) : (occurEv e s).crash = s.crash := by simp [occurEv]
@[simp] theorem occur_crash (c x : BitVec 16) (a b d : Nat) (s : State) : (occur c x a b d s).crash = s.crash := by simp [occur]
@[simp] theorem occurDeferred_crash (c x : BitVec 16) (a b d : Nat) (s : State) : (occurDeferred c x a b d s).crash = s.crash := by
  simp [occurDeferred]
@[simp] theorem occurEv_cfg (e : Ev) (s : State) : (occurEv e s).cfg = s.cfg := by simp [occurEv]
@[simp] theorem occur_cfg (c x : BitVec 16) (a b d : Nat) (s : State) : (occur c x a b d s).cfg = s.cfg := by simp [occur]
@[simp] theorem occurDeferred_cfg (c x : BitVec 16) (a b d : Nat) (s : State) : (occurDeferred c x a b d s).cfg = s.cfg := by
  simp [occurDeferred]
@[simp] theorem occurEv_stations (e : Ev) (s : State) : (occurEv e s).stations = s.stations := by simp [occurEv]
@[simp] theorem occur_stations (c x : BitVec 16) (a b d : Nat) (s : State) : (occur c x a b d s).stations = s.stations := by simp [occur]
@[simp] theorem occurDeferred_stations (c x : BitVec 16) (a b d : Nat) (s : State) : (occurDeferred c x a b d s).stations = s.stations := by
  simp [occurDeferred]
@[simp] theorem occurEv_hz (e : Ev) (s : State) : (occurEv e s).hz = s.hz := by simp [occurEv]
@[simp] theorem occur_hz (c x : BitVec 16) (a b d : Nat) (s : State) : (occur c x a b d s).hz = s.hz := by simp [occur]
@[simp] theorem occurDeferred_hz (c x : BitVec 16) (a b d : Nat) (s : State) : (occurDeferred c x a b d s).hz = s.hz := by
  simp [occurDeferred]
@[simp] theorem occurEv_ctxs (e : Ev) (s : State) : (occurEv e s).ctxs = s.ctxs := by simp [occurEv]
@[simp] theorem occur_ctxs (c x : BitVec 16) (a b d : Nat) (s : State) : (occur c x a b d s).ctxs = s.ctxs := by simp [occur]
@[simp] theorem occurDeferred_ctxs (c x : BitVec 16) (a b d : Nat) (s : State) : (occurDeferred c x a b d s).ctxs = s.ctxs := by
  simp [occurDeferred]
@[simp] theorem occurEv_adj (e : Ev) (s : State) : (occurEv e s).adj = s.adj := by simp [occurEv]
@[simp] theorem occur_adj (c x : BitVec 16) (a b d : Nat) (s : State) : (occur c x a b d s).adj = s.adj := by simp [occur]
@[simp] theorem occurDeferred_adj (c x : BitVec 16) (a b d : Nat) (s : State) : (occurDeferred c x a b d s).adj = s.adj := by
  simp [occurDeferred]
@[simp] theorem occurEv_led (e : Ev) (s : State) : (occurEv e s).led = s.led := by simp [occurEv]
@[simp] theorem occur_led (c x : BitVec 16) (a b d : Nat) (s : State) : (occur c x a b d s).led = s.led := by simp [occur]
@[simp] theorem occurDeferred_led (c x : BitVec 16) (a b d : Nat) (s : State) : (occurDeferred c x a b d s).led = s.led := by
  simp [occurDeferred]
@[simp] theorem occurEv_tempo (e : Ev) (s : State) : (occurEv e s).tempo = s.tempo := by simp [occurEv]
@[simp] theorem occur_tempo (c x : BitVec 16) (a b d : Nat) (s : State) : (occur c x a b d s).tempo = s.tempo := by simp [occur]
@[simp] theorem occurDeferred_tempo (c x : BitVec 16) (a b d : Nat) (s : State) : (occurDeferred c x a b d s).tempo = s.tempo := by
  simp [occurDeferred]
@[simp] theorem occurEv_sync (e : Ev) (s : State) : (occurEv e s).sync = s.sync := by simp [occurEv]
@[simp] theorem occur_sync (c x : BitVec 16) (a b d : Nat) (s : State) : (occur c x a b d s).sync = s.sync := by simp [occur]
@[simp] theorem occurDeferred_sync (c x : BitVec 16) (a b d : Nat) (s : State) : (occurDeferred c x a b d s).sync = s.sync := by
  simp [occurDeferred]
@[simp] theorem occurEv_rst (e : Ev) (s : State) : (occurEv e s).rst = s.rst := by simp [occurEv]
@[simp] theorem occur_rst (c x : BitVec 16) (a b d : Nat) (s : State) : (occur c x a b d s).rst = s.rst := by simp [occur]
@[simp] theorem occurDeferred_rst (c x : BitVec 16) (a b d : Nat) (s : State) : (occurDeferred c x a b d s).rst = s.rst := by
  simp [occurDeferred]
@[simp] theorem occurEv_trace (e : Ev) (s : State) : (occurEv e s).trace = s.trace := by simp [occurEv]
@[simp] theorem occur_trace (c x : BitVec 16) (a b d : Nat) (s : State) : (occur c x a b d s).trace = s.trace := by simp [occur]
@[simp] theorem occurDeferred_trace (c x : BitVec 16) (a b d : Nat) (s : State) : (occurDeferred c x a b d s).trace = s.trace := by
  simp [occurDeferred]
@[simp] theorem occurEv_boot (e : Ev) (s : State) : (occurEv e s).boot = s.boot := by simp [occurEv]
@[simp] theorem occur_boot (c x : BitVec 16) (a b d : Nat) (s : State) : (occur c x a b d s).boot = s.boot := by simp [occur]
@[simp] theorem occurDeferred_boot (c x : BitVec 16) (a b d : Nat) (s : State) : (occurDeferred c x a b d s).boot = s.boot := by
  simp [occurDeferred]
@[simp] theorem occurEv_i3c (e : Ev) (s : State) : (occurEv e s).i3c = s.i3c := by simp [occurEv]
@[simp] theorem occur_i3c (c x : BitVec 16) (a b d : Nat) (s : State) : (occur c x a b d s).i3c = s.i3c := by simp [occur]
@[simp] theorem occurDeferred_i3c (c x : BitVec 16) (a b d : Nat) (s : State) : (occurDeferred c x a b d s).i3c = s.i3c := by
  simp [occurDeferred]
@[simp] theorem occurEv_mem (e : Ev) (s : State) : (occurEv e s).mem = s.mem := by simp [occurEv]
@[simp] theorem occurEv_memPoison (e : Ev) (s : State) : (occurEv e s).memPoison = s.memPoison := by simp [occurEv]
@[simp] theorem occurEv_replicas (e : Ev) (s : State) : (occurEv e s).replicas = s.replicas := by simp [occurEv]
@[simp] theorem occurEv_causes (e : Ev) (s : State) : (occurEv e s).causes = s.causes := by simp [occurEv]
@[simp] theorem occur_mem (c x : BitVec 16) (a b d : Nat) (s : State) : (occur c x a b d s).mem = s.mem := by simp [occur]
@[simp] theorem occur_memPoison (c x : BitVec 16) (a b d : Nat) (s : State) : (occur c x a b d s).memPoison = s.memPoison := by simp [occur]
@[simp] theorem occur_replicas (c x : BitVec 16) (a b d : Nat) (s : State) : (occur c x a b d s).replicas = s.replicas := by simp [occur]
@[simp] theorem occur_causes (c x : BitVec 16) (a b d : Nat) (s : State) : (occur c x a b d s).causes = s.causes := by simp [occur]
@[simp] theorem occurDeferred_mem (c x : BitVec 16) (a b d : Nat) (s : State) : (occurDeferred c x a b d s).mem = s.mem := by
  simp [occurDeferred]
@[simp] theorem occurDeferred_memPoison (c x : BitVec 16) (a b d : Nat) (s : State) : (occurDeferred c x a b d s).memPoison = s.memPoison := by
  simp [occurDeferred]
@[simp] theorem occurDeferred_replicas (c x : BitVec 16) (a b d : Nat) (s : State) : (occurDeferred c x a b d s).replicas = s.replicas := by
  simp [occurDeferred]
@[simp] theorem occurDeferred_causes (c x : BitVec 16) (a b d : Nat) (s : State) : (occurDeferred c x a b d s).causes = s.causes := by
  simp [occurDeferred]
@[simp] theorem occurEv_out (e : Ev) (s : State) : (occurEv e s).out = s.out := by simp [occurEv]
@[simp] theorem occur_out (c x : BitVec 16) (a b d : Nat) (s : State) : (occur c x a b d s).out = s.out := by simp [occur]
@[simp] theorem occurDeferred_out (c x : BitVec 16) (a b d : Nat) (s : State) : (occurDeferred c x a b d s).out = s.out := by
  simp [occurDeferred]

/-- What recording an event does to the recorder: the occurrence is counted, then admitted (R409, R412). -/
@[simp] theorem occurEv_evt (e : Ev) (s : State) : (occurEv e s).evt = admitEv s.now e (countUp e.code s.evt) := by simp [occurEv]

end Sys2Proof.Laws
end

