-- ==== Sys2Proof/Laws/Heads.lean ====
section
/-! SUPPORT. What the verdict, reprise and adjudication commands write to memory: headers of capsules, and nothing else
(`HeadsOnly`), as a relation that composes. -/

namespace Sys2Proof.Laws

open Sys2Proof.Machine Sys2Proof.Safety

/-- The capsules of a state lie where capsules of the other one lay, and memory differs in their headers only. -/
structure HeadsOnly (s t : State) : Prop where
  base : t.adj.capsuleBase = s.adj.capsuleBase
  caps : ∀ c, ∀ k ∈ (station t c).capsules, ∃ k' ∈ (station s c).capsules, k'.pos = k.pos
  mem : ∀ a, (∀ c, ∀ k ∈ (station s c).capsules, a < capsuleAt s c k.pos ∨ capsuleAt s c k.pos + 64 ≤ a) →
    tget (0 : Byte) a t.mem = tget 0 a s.mem

theorem HeadsOnly.refl (s : State) : HeadsOnly s s := ⟨rfl, fun _ k h => ⟨k, h, rfl⟩, fun _ _ => rfl⟩
theorem HeadsOnly.trans {s t u : State} (h : HeadsOnly s t) (k : HeadsOnly t u) : HeadsOnly s u := by
  have hat : ∀ c p, capsuleAt t c p = capsuleAt s c p := fun c p => by simp only [capsuleAt, capsuleRing, h.base]
  refine ⟨k.base.trans h.base, fun c x hx => ?_, fun a ha => (k.mem a fun c x hx => ?_).trans (h.mem a ha)⟩
  · obtain ⟨y, hy, e⟩ := k.caps c x hx
    obtain ⟨z, hz, e'⟩ := h.caps c y hy
    exact ⟨z, hz, e'.trans e⟩
  · obtain ⟨y, hy, e⟩ := h.caps c x hx
    rw [hat, ← e]
    exact ha c y hy
theorem HeadsOnly.of_eq {s t : State} (b : t.adj.capsuleBase = s.adj.capsuleBase) (c : t.stations = s.stations) (m : t.mem = s.mem) :
    HeadsOnly s t :=
  ⟨b, fun d k h => ⟨k, by rw [station, c] at h; exact h, rfl⟩, fun _ _ => by rw [m]⟩
theorem HeadsOnly.ite {c : Prop} [Decidable c] {s a b : State} (ha : HeadsOnly s a) (hb : HeadsOnly s b) :
    HeadsOnly s (if c then a else b) := by
  split <;> assumption
theorem HeadsOnly.foldl {α : Type} {r : State} {f : State → α → State} (h : ∀ s x, HeadsOnly s (f s x)) (l : List α) (s : State)
    (h0 : HeadsOnly r s) : HeadsOnly r (l.foldl f s) := by
  refine h0.trans ?_
  clear h0
  induction l generalizing s with
  | nil => exact HeadsOnly.refl s
  | cons a l ih => exact (h s a).trans (ih _)

theorem updEvt_heads {r} (f) (s : State) (h : HeadsOnly r s) : HeadsOnly r (updEvt f s) := h.trans (HeadsOnly.of_eq rfl rfl rfl)
theorem updCrash_heads {r} (f) (s : State) (h : HeadsOnly r s) : HeadsOnly r (updCrash f s) := h.trans (HeadsOnly.of_eq rfl rfl rfl)
theorem updCfg_heads {r} (f) (s : State) (h : HeadsOnly r s) : HeadsOnly r (updCfg f s) := h.trans (HeadsOnly.of_eq rfl rfl rfl)
theorem updHz_heads {r} (f) (s : State) (h : HeadsOnly r s) : HeadsOnly r (updHz f s) := h.trans (HeadsOnly.of_eq rfl rfl rfl)
theorem updLed_heads {r} (f) (s : State) (h : HeadsOnly r s) : HeadsOnly r (updLed f s) := h.trans (HeadsOnly.of_eq rfl rfl rfl)
theorem updTempo_heads {r} (f) (s : State) (h : HeadsOnly r s) : HeadsOnly r (updTempo f s) := h.trans (HeadsOnly.of_eq rfl rfl rfl)
theorem updSync_heads {r} (f) (s : State) (h : HeadsOnly r s) : HeadsOnly r (updSync f s) := h.trans (HeadsOnly.of_eq rfl rfl rfl)
theorem updRst_heads {r} (f) (s : State) (h : HeadsOnly r s) : HeadsOnly r (updRst f s) := h.trans (HeadsOnly.of_eq rfl rfl rfl)
theorem updTab_heads {r} (f) (s : State) (h : HeadsOnly r s) : HeadsOnly r (updTab f s) := h.trans (HeadsOnly.of_eq rfl rfl rfl)
theorem updTrace_heads {r} (f) (s : State) (h : HeadsOnly r s) : HeadsOnly r (updTrace f s) := h.trans (HeadsOnly.of_eq rfl rfl rfl)
theorem updBoot_heads {r} (f) (s : State) (h : HeadsOnly r s) : HeadsOnly r (updBoot f s) := h.trans (HeadsOnly.of_eq rfl rfl rfl)
theorem updI3c_heads {r} (f) (s : State) (h : HeadsOnly r s) : HeadsOnly r (updI3c f s) := h.trans (HeadsOnly.of_eq rfl rfl rfl)
theorem updOut_heads {r} (f) (s : State) (h : HeadsOnly r s) : HeadsOnly r (updOut f s) := h.trans (HeadsOnly.of_eq rfl rfl rfl)
theorem updAdj_heads {r} (f) (s : State) (h : (f s.adj).capsuleBase = s.adj.capsuleBase) (h0 : HeadsOnly r s) :
    HeadsOnly r (updAdj f s) :=
  h0.trans (HeadsOnly.of_eq h rfl rfl)
theorem updStation_heads {r} (c f) (s : State)
    (h : ∀ k ∈ (f (station s c)).capsules, ∃ k' ∈ (station s c).capsules, k'.pos = k.pos) (h0 : HeadsOnly r s) :
    HeadsOnly r (updStation c f s) := by
  refine h0.trans ⟨rfl, fun d k hk => ?_, fun _ _ => rfl⟩
  by_cases hd : d = c
  · subst hd
    rw [station_updStation] at hk
    exact h k hk
  · rw [station_updStation_ne hd] at hk
    exact ⟨k, hk, rfl⟩
theorem mapStations_heads {r} (f : Station → Station) (s : State) (h : ∀ t, (f t).capsules = t.capsules)
    (h0 : HeadsOnly r s) : HeadsOnly r { s with stations := s.stations.map fun x => (x.1, f x.2) } := by
  refine h0.trans ⟨rfl, fun d k hk => ?_, fun _ _ => rfl⟩
  have : ∀ l : Tab Station, tfind d (l.map fun x : Nat × Station => (x.1, f x.2)) = (tfind d l).map f := by
    intro l
    induction l with
    | nil => rfl
    | cons e l ih => simp only [List.map_cons, tfind]; split <;> simp_all
  simp only [station, tget, this] at hk ⊢
  cases hx : tfind d s.stations with
  | none => simp [hx] at hk
  | some t => rw [hx] at hk; exact ⟨k, by simpa [h] using hk, rfl⟩
theorem toLe_length (n v : Nat) : (toLe n v).length = n := by
  induction n generalizing v with
  | zero => rfl
  | succ n ih => simp [toLe, ih]
theorem writeCapsuleHead_heads {r} (c : Nat) (k : Capsule) (s : State) (h : ∃ k' ∈ (station s c).capsules, k'.pos = k.pos)
    (h0 : HeadsOnly r s) : HeadsOnly r (writeCapsuleHead c k s) := by
  refine h0.trans ⟨rfl, fun _ k h => ⟨k, h, rfl⟩, fun a ha => ?_⟩
  obtain ⟨k', hk', e⟩ := h
  have hx := ha c k' hk'
  rw [e] at hx
  unfold writeCapsuleHead memWrite memPut
  dsimp only
  refine tget_tputs_out _ _ ?_
  simp only [List.length_append, List.length_take, List.length_replicate, toLe_length]
  omega
theorem capsuleOf_mem {s : State} {c : Nat} {tag : Word} {k : Capsule} (h : capsuleOf s c tag = some k) :
    k ∈ (station s c).capsules := by
  exact List.mem_of_find?_eq_some h
theorem updCapsule_heads {r} (c : Nat) (tag : Word) (f : Capsule → Capsule) (h : ∀ k, (f k).pos = k.pos) (s : State)
    (h0 : HeadsOnly r s) : HeadsOnly r (updCapsule c tag f s) := by
  refine updStation_heads _ _ _ (fun k hk => ?_) h0
  obtain ⟨x, hx, rfl⟩ := List.mem_map.1 hk
  refine ⟨x, hx, ?_⟩
  split
  · exact (h x).symm
  · rfl
theorem capsule_stays (c : Nat) (tag : Word) (f : Capsule → Capsule) (hf : ∀ k, (f k).pos = k.pos) (s : State) {p : Nat}
    (h : ∃ k ∈ (station s c).capsules, k.pos = p) : ∃ k ∈ (station (updCapsule c tag f s) c).capsules, k.pos = p := by
  obtain ⟨k, hk, rfl⟩ := h
  unfold updCapsule
  rw [station_updStation]
  refine ⟨_, List.mem_map_of_mem hk, ?_⟩
  split
  · exact hf k
  · rfl
theorem freeCapsules_heads {r} (c : Nat) (s : State) (h0 : HeadsOnly r s) : HeadsOnly r (freeCapsules c s) := by
  refine updStation_heads _ _ _ (fun k hk => ⟨k, ?_, rfl⟩) h0
  simp only [freeRing, List.mem_append] at hk
  rcases hk with hk | hk
  · exact (List.mem_filter.1 hk).1
  · exact (List.mem_filter.1 ((List.dropWhile_sublist _).subset hk)).1
/-- In terms of the headers' ranges: every byte outside them reads as before. -/
theorem HeadsOnly.outside {s t : State} (h : HeadsOnly s t) (a : Nat)
    (ha : ∀ r ∈ capsuleHeads s, a < r.1 ∨ r.1 + r.2 ≤ a) : tget (0 : Byte) a t.mem = tget 0 a s.mem := by
  refine h.mem a fun c k hk => ?_
  refine ha (capsuleAt s c k.pos, 64) ?_
  have find : ∀ (l : Tab Station) (x : Station), tfind c l = some x → (c, x) ∈ l := by
    intro l x hx
    induction l with
    | nil => simp [tfind] at hx
    | cons e l ih =>
      simp only [tfind] at hx
      split at hx
      · rename_i he
        obtain rfl := Option.some.inj hx
        exact List.mem_cons.2 (.inl (by rw [← he]))
      · exact List.mem_cons_of_mem _ (ih hx)
  simp only [station, tget] at hk
  cases hx : tfind c s.stations with
  | none => simp [hx] at hk
  | some x =>
    rw [hx] at hk
    exact List.mem_flatten.2 ⟨_, List.mem_map.2 ⟨_, find _ _ hx, rfl⟩, List.mem_map.2 ⟨k, hk, rfl⟩⟩
theorem foldl2_heads {α β : Type} {f : β × State → α → β × State}
    (h : ∀ x p σ, HeadsOnly σ x.2 → HeadsOnly σ (f x p).2) (l : List α) (x : β × State) {σ : State} (h0 : HeadsOnly σ x.2) :
    HeadsOnly σ (l.foldl f x).2 := by
  induction l generalizing x with
  | nil => exact h0
  | cons a l ih => exact ih _ (h x a σ h0)
end Sys2Proof.Laws
end

