-- ==== Sys2Proof/Laws/HeadsOf.lean ====
section
/-! SUPPORT. `HeadsOnly` for every operation and meaning of the verdict, adjudication and reprise commands: one lemma each. -/

namespace Sys2Proof.Laws

open Sys2Proof Sys2Proof.Machine Sys2Proof.Safety

theorem updGate_heads {σ : State} (g : Nat) (f : GatePoint → GatePoint) (s : State) (h0 : HeadsOnly σ s) :
    HeadsOnly σ (updGate g f s) := by
  refine h0.trans ?_; clear h0; unfold updGate
  repeat' (first | with_reducible exact HeadsOnly.refl _ | assumption | with_reducible apply updHz_heads)

theorem updDomain_heads {σ : State} (d : Nat) (f : Domain → Domain) (s : State) (h0 : HeadsOnly σ s) :
    HeadsOnly σ (updDomain d f s) := by
  refine h0.trans ?_; clear h0; unfold updDomain
  repeat' (first | with_reducible exact HeadsOnly.refl _ | assumption | with_reducible apply updTempo_heads)

theorem updObject_heads {σ : State} (o : Nat) (f : Obj → Obj) (s : State) (h0 : HeadsOnly σ s) : HeadsOnly σ
    (updObject o f s) := by
  refine h0.trans ?_; clear h0; unfold updObject
  repeat' (first | with_reducible exact HeadsOnly.refl _ | assumption | with_reducible apply updSync_heads)

theorem updBarrier_heads {σ : State} (b : Nat) (f : Barrier → Barrier) (s : State) (h0 : HeadsOnly σ s) :
    HeadsOnly σ (updBarrier b f s) := by
  refine h0.trans ?_; clear h0; unfold updBarrier
  repeat' (first | with_reducible exact HeadsOnly.refl _ | assumption | with_reducible apply updSync_heads)

theorem updFPort_heads {σ : State} (p : Nat) (f : FPort → FPort) (s : State) (h0 : HeadsOnly σ s) : HeadsOnly
    σ (updFPort p f s) := by
  refine h0.trans ?_; clear h0; unfold updFPort
  repeat' (first | with_reducible exact HeadsOnly.refl _ | assumption | with_reducible apply updSync_heads)

theorem updCtx_heads {σ : State} (c : Nat) (f : Ctx → Ctx) (s : State) (h0 : HeadsOnly σ s) : HeadsOnly σ
    (updCtx c f s) := by
  refine h0.trans ?_; clear h0; unfold updCtx
  repeat' (first
    | with_reducible exact HeadsOnly.refl _ | assumption | with_reducible apply HeadsOnly.ite
    | (with_reducible apply HeadsOnly.foldl; (intro _ _; try dsimp only))
    | with_reducible exact HeadsOnly.of_eq rfl rfl rfl | (split <;> try dsimp only))

theorem atTime_heads {σ : State} (t : Nat) (s : State) (h0 : HeadsOnly σ s) : HeadsOnly σ (atTime t s) := by
  refine h0.trans ?_; clear h0; unfold atTime
  repeat' (first
    | with_reducible exact HeadsOnly.refl _ | assumption | with_reducible apply HeadsOnly.ite
    | (with_reducible apply HeadsOnly.foldl; (intro _ _; try dsimp only))
    | with_reducible exact HeadsOnly.of_eq rfl rfl rfl)

theorem lineAligns_heads {σ : State} (p n d : Nat) (tseq : Word) (s : State) (h0 : HeadsOnly σ s) : HeadsOnly
    σ (lineAligns p n d tseq s) := by
  refine h0.trans ?_; clear h0; unfold lineAligns
  (try dsimp only)
  repeat' (first
    | with_reducible exact HeadsOnly.refl _ | assumption | with_reducible apply updTrace_heads
    | with_reducible apply updOut_heads)

theorem lineIdle_heads {σ : State} (p : Nat) (tseq : Word) (s : State) (h0 : HeadsOnly σ s) : HeadsOnly σ
    (lineIdle p tseq s) := by
  refine h0.trans ?_; clear h0; unfold lineIdle
  (try dsimp only)
  repeat' (first
    | with_reducible exact HeadsOnly.refl _ | assumption | with_reducible apply lineAligns_heads
    | with_reducible apply HeadsOnly.ite)

theorem linePut_heads {σ : State} (p : Nat) (us : List (BitVec 256)) (s : State) (h0 : HeadsOnly σ s) :
    HeadsOnly σ (linePut p us s) := by
  refine h0.trans ?_; clear h0; unfold linePut
  (try dsimp only)
  repeat' (first
    | with_reducible exact HeadsOnly.refl _ | assumption | with_reducible apply lineIdle_heads
    | with_reducible apply lineAligns_heads | with_reducible apply updTrace_heads | with_reducible apply updOut_heads
    | with_reducible apply HeadsOnly.ite)

theorem startFlush_heads {σ : State} (s : State) (h0 : HeadsOnly σ s) : HeadsOnly σ (startFlush s) := by
  refine h0.trans ?_; clear h0; unfold startFlush
  (try dsimp only)
  repeat' (first | with_reducible exact HeadsOnly.refl _ | assumption | with_reducible apply updTrace_heads)

theorem routeSend_heads {σ : State} (us : List (BitVec 256)) (s : State) (h0 : HeadsOnly σ s) : HeadsOnly σ
    (routeSend us s) := by
  refine h0.trans ?_; clear h0; unfold routeSend
  repeat' (first
    | with_reducible exact HeadsOnly.refl _ | assumption | with_reducible apply linePut_heads
    | with_reducible apply startFlush_heads | with_reducible apply updTrace_heads
    | with_reducible apply HeadsOnly.ite)

theorem traceDrop_heads {σ : State} (port : Bool) (time : Nat) (tseq : Word) (s : State) (h0 : HeadsOnly σ s)
    : HeadsOnly σ (traceDrop port time tseq s) := by
  refine h0.trans ?_; clear h0; unfold traceDrop
  repeat' (first | with_reducible exact HeadsOnly.refl _ | assumption | with_reducible apply updTrace_heads)

theorem traceVia_heads {σ : State} (port : Bool) (room : Nat → Bool) (send : List (BitVec 256) → State →
    State) (type : Nat) (source : BitVec 16) (time units : Nat) (body : List Byte) (s : State) (hsend : ∀ x0
    {σ s : State}, HeadsOnly σ s → HeadsOnly σ (send x0 s)) (h0 : HeadsOnly σ s) : HeadsOnly σ (traceVia port
    room send type source time units body s).1 := by
  refine h0.trans ?_; clear h0; unfold traceVia
  (try dsimp only)
  repeat' (first
    | with_reducible exact HeadsOnly.refl _ | assumption | with_reducible apply updTrace_heads
    | with_reducible apply traceDrop_heads | with_reducible apply hsend | with_reducible apply HeadsOnly.ite
    | (with_reducible apply HeadsOnly.foldl; (intro _ _; try dsimp only))
    | with_reducible exact HeadsOnly.of_eq rfl rfl rfl | (split <;> try dsimp only))

theorem traceEmit_heads {σ : State} (type : Nat) (source : BitVec 16) (time units : Nat) (body : List Byte) (s
    : State) (h0 : HeadsOnly σ s) : HeadsOnly σ (traceEmit type source time units body s).1 := by
  refine h0.trans ?_; clear h0; unfold traceEmit
  repeat' (first
    | with_reducible exact HeadsOnly.refl _ | assumption | with_reducible apply traceVia_heads
    | with_reducible apply routeSend_heads | with_reducible apply HeadsOnly.ite
    | (with_reducible apply HeadsOnly.foldl; (intro _ _; try dsimp only))
    | with_reducible exact HeadsOnly.of_eq rfl rfl rfl | (intro _; try dsimp only))

theorem msix_heads {σ : State} (v : Nat) (s : State) (h0 : HeadsOnly σ s) : HeadsOnly σ (msix v s) := by
  refine h0.trans ?_; clear h0; unfold msix
  repeat' (first | with_reducible exact HeadsOnly.refl _ | assumption | with_reducible apply updOut_heads)

theorem raiseIbi_heads {σ : State} (s : State) (h0 : HeadsOnly σ s) : HeadsOnly σ (raiseIbi s) := by
  refine h0.trans ?_; clear h0; unfold raiseIbi
  (try dsimp only)
  repeat' (first
    | with_reducible exact HeadsOnly.refl _ | assumption | with_reducible apply HeadsOnly.ite
    | (with_reducible apply HeadsOnly.foldl; (intro _ _; try dsimp only))
    | with_reducible exact HeadsOnly.of_eq rfl rfl rfl | (split <;> try dsimp only))

theorem oobAdd_heads {σ : State} (kind : Nat) (body : List Byte) (s : State) (h0 : HeadsOnly σ s) : HeadsOnly
    σ (oobAdd kind body s) := by
  refine h0.trans ?_; clear h0; unfold oobAdd
  (try dsimp only)
  repeat' (first
    | with_reducible exact HeadsOnly.refl _ | assumption | with_reducible apply updI3c_heads
    | with_reducible apply raiseIbi_heads | with_reducible apply HeadsOnly.ite
    | (with_reducible apply HeadsOnly.foldl; (intro _ _; try dsimp only))
    | with_reducible exact HeadsOnly.of_eq rfl rfl rfl | (split <;> try dsimp only))

theorem tableauTrigger_heads {σ : State} (source : Nat) (s : State) (h0 : HeadsOnly σ s) : HeadsOnly σ
    (tableauTrigger source s) := by
  refine h0.trans ?_; clear h0; unfold tableauTrigger
  repeat' (first
    | with_reducible exact HeadsOnly.refl _ | assumption | with_reducible apply updTab_heads
    | with_reducible apply HeadsOnly.ite)

theorem eventTrigger_heads {σ : State} (code : BitVec 16) (s : State) (h0 : HeadsOnly σ s) : HeadsOnly σ
    (eventTrigger code s) := by
  refine h0.trans ?_; clear h0; unfold eventTrigger
  repeat' (first
    | with_reducible exact HeadsOnly.refl _ | assumption | with_reducible apply tableauTrigger_heads
    | with_reducible apply updTab_heads | with_reducible apply HeadsOnly.ite)

theorem occurEv_heads {σ : State} (ev : Ev) (s : State) (h0 : HeadsOnly σ s) : HeadsOnly σ (occurEv ev s) := by
  refine h0.trans ?_; clear h0; unfold occurEv
  repeat' (first
    | with_reducible exact HeadsOnly.refl _ | assumption | with_reducible apply eventTrigger_heads
    | with_reducible apply updEvt_heads)

theorem occur_heads {σ : State} (code : BitVec 16) (src : BitVec 16) (p1 p2 p3 : Nat) (s : State) (h0 :
    HeadsOnly σ s) : HeadsOnly σ (occur code src p1 p2 p3 s) := by
  refine h0.trans ?_; clear h0; unfold occur
  repeat' (first | with_reducible exact HeadsOnly.refl _ | assumption | with_reducible apply occurEv_heads)

theorem occurDeferred_heads {σ : State} (code : BitVec 16) (src : BitVec 16) (p1 p2 p3 : Nat) (s : State) (h0
    : HeadsOnly σ s) : HeadsOnly σ (occurDeferred code src p1 p2 p3 s) := by
  refine h0.trans ?_; clear h0; unfold occurDeferred
  repeat' (first | with_reducible exact HeadsOnly.refl _ | assumption | with_reducible apply occurEv_heads)

theorem noteGap_heads {σ : State} (d : Option (Word × Word × Word)) (s : State) (h0 : HeadsOnly σ s) :
    HeadsOnly σ (noteGap d s) := by
  refine h0.trans ?_; clear h0; unfold noteGap
  repeat' (first
    | with_reducible exact HeadsOnly.refl _ | assumption | with_reducible apply occurEv_heads
    | with_reducible apply HeadsOnly.ite | (with_reducible apply HeadsOnly.foldl; (intro _ _; try dsimp only))
    | with_reducible exact HeadsOnly.of_eq rfl rfl rfl | (split <;> try dsimp only))

theorem traceAlways_heads {σ : State} (type : Nat) (source : BitVec 16) (time units : Nat) (body : List Byte)
    (s : State) (h0 : HeadsOnly σ s) : HeadsOnly σ (traceAlways type source time units body s) := by
  refine h0.trans ?_; clear h0; unfold traceAlways
  have h := traceEmit_heads type source time units body s (HeadsOnly.refl s)
  rcases hx : traceEmit type source time units body s with ⟨x, _ | ⟨a, b, c⟩⟩
  · rw [hx] at h; exact h
  · rw [hx] at h; exact occurEv_heads _ _ h

theorem traceRec_heads {σ : State} (type : Nat) (source : BitVec 16) (time units : Nat) (body : List Byte) (s
    : State) (h0 : HeadsOnly σ s) : HeadsOnly σ (traceRec type source time units body s) := by
  refine h0.trans ?_; clear h0; unfold traceRec
  repeat' (first
    | with_reducible exact HeadsOnly.refl _ | assumption | with_reducible apply traceAlways_heads
    | with_reducible apply HeadsOnly.ite)

theorem updQueue_heads {σ : State} (c q : Nat) (f : QState → QState) (s : State) (h0 : HeadsOnly σ s) :
    HeadsOnly σ (updQueue c q f s) := by
  refine h0.trans ?_; clear h0; unfold updQueue
  repeat' (first
    | with_reducible exact HeadsOnly.refl _ | assumption
    | ((with_reducible apply updStation_heads); · first | exact fun k hk => ⟨k, hk, rfl⟩ | (intro k hk; refine ⟨k, ?_, rfl⟩; revert hk; (try unfold feedDesc); (try dsimp only); (repeat' split) <;> exact id)))

theorem retireSync_heads {σ : State} (c q : Nat) (opid : BitVec 16) (status : Nat) (value : Word) (s : State)
    (h0 : HeadsOnly σ s) : HeadsOnly σ (retireSync c q opid status value s) := by
  refine h0.trans ?_; clear h0; unfold retireSync
  repeat' (first
    | with_reducible exact HeadsOnly.refl _ | assumption | with_reducible apply updOut_heads
    | with_reducible apply updQueue_heads)

theorem traceMsg_heads {σ : State} (trace : Nat) (port : Nat) (type : Nat) (chip : ChipId) (m : SyncMsg) (s :
    State) (h0 : HeadsOnly σ s) : HeadsOnly σ (traceMsg trace port type chip m s) := by
  refine h0.trans ?_; clear h0; unfold traceMsg
  repeat' (first
    | with_reducible exact HeadsOnly.refl _ | assumption | with_reducible apply traceRec_heads
    | with_reducible apply HeadsOnly.ite)

theorem sendMsg_heads {σ : State} (type : Nat) (chip : ChipId) (m : SyncMsg) (s : State) (h0 : HeadsOnly σ s)
    : HeadsOnly σ (sendMsg type chip m s) := by
  refine h0.trans ?_; clear h0; unfold sendMsg
  repeat' (first
    | with_reducible exact HeadsOnly.refl _ | assumption | with_reducible apply traceMsg_heads
    | with_reducible apply updOut_heads | with_reducible apply updFPort_heads | with_reducible apply HeadsOnly.ite)

theorem updContainment_heads {σ : State} (ctx : Nat) (f : Containment → Containment) (s : State) (h0 :
    HeadsOnly σ s) : HeadsOnly σ (updContainment ctx f s) := by
  refine h0.trans ?_; clear h0; unfold updContainment
  repeat' (first | with_reducible exact HeadsOnly.refl _ | assumption | with_reducible apply updHz_heads)

theorem contain_heads {σ : State} (ctx tc : Nat) (cu : Option (Nat × Word)) (reset : Option Word) (s : State)
    (h0 : HeadsOnly σ s) : HeadsOnly σ (contain ctx tc cu reset s) := by
  refine h0.trans ?_; clear h0; unfold contain
  (try dsimp only)
  repeat' (first | with_reducible exact HeadsOnly.refl _ | assumption | with_reducible apply updContainment_heads)

theorem traceGate_heads {σ : State} (g : Nat) (i : GItem) (s : State) (h0 : HeadsOnly σ s) : HeadsOnly σ
    (traceGate g i s) := by
  refine h0.trans ?_; clear h0; unfold traceGate
  (try dsimp only)
  repeat' (first | with_reducible exact HeadsOnly.refl _ | assumption | with_reducible apply traceRec_heads)

theorem retireSignal_heads {σ : State} (i : GItem) (s : State) (h0 : HeadsOnly σ s) : HeadsOnly σ
    (retireSignal i s) := by
  refine h0.trans ?_; clear h0; unfold retireSignal
  (try dsimp only)
  repeat' (first
    | with_reducible exact HeadsOnly.refl _ | assumption | with_reducible apply retireSync_heads
    | with_reducible apply HeadsOnly.ite | (with_reducible apply HeadsOnly.foldl; (intro _ _; try dsimp only))
    | with_reducible exact HeadsOnly.of_eq rfl rfl rfl | (split <;> try dsimp only))

theorem leave_heads {σ : State} (g : Nat) (i : GItem) (s : State) (h0 : HeadsOnly σ s) : HeadsOnly σ (leave g
    i s) := by
  refine h0.trans ?_; clear h0; unfold leave
  (try dsimp only)
  repeat' (first
    | with_reducible exact HeadsOnly.refl _ | assumption | with_reducible apply traceGate_heads
    | with_reducible apply traceMsg_heads | with_reducible apply updOut_heads
    | with_reducible apply retireSignal_heads | with_reducible apply HeadsOnly.ite
    | (with_reducible apply HeadsOnly.foldl; (intro _ _; try dsimp only))
    | with_reducible exact HeadsOnly.of_eq rfl rfl rfl | (split <;> try dsimp only))

theorem scanRelease_heads (g : Nat) : ∀ ls v0 {σ s : State}, HeadsOnly σ s → HeadsOnly σ (scanRelease g ls v0
    s).2 := by
  intro ls
  induction ls with
  | nil => intro v0 σ s h; exact h
  | cons a l ih =>
    intro v0 σ s h0
    refine h0.trans ?_; clear h0; unfold scanRelease
    (try dsimp only)
    repeat' (first
      | with_reducible exact HeadsOnly.refl _ | with_reducible apply ih | assumption
      | with_reducible apply leave_heads | with_reducible apply HeadsOnly.ite
      | (with_reducible apply HeadsOnly.foldl; (intro _ _; try dsimp only))
      | with_reducible exact HeadsOnly.of_eq rfl rfl rfl | (split <;> try dsimp only))

theorem release0_heads {σ : State} (g : Nat) (s : State) (h0 : HeadsOnly σ s) : HeadsOnly σ (release0 g s) := by
  refine h0.trans ?_; clear h0; unfold release0
  (try dsimp only)
  repeat' (first
    | with_reducible exact HeadsOnly.refl _ | assumption | with_reducible apply scanRelease_heads
    | with_reducible apply updGate_heads)

theorem dropAtProducer_heads {σ : State} (i : GItem) (s : State) (h0 : HeadsOnly σ s) : HeadsOnly σ
    (dropAtProducer i s) := by
  refine h0.trans ?_; clear h0; unfold dropAtProducer
  repeat' (first
    | with_reducible exact HeadsOnly.refl _ | assumption
    | ((with_reducible apply updStation_heads); · first | exact fun k hk => ⟨k, hk, rfl⟩ | (intro k hk; refine ⟨k, ?_, rfl⟩; revert hk; (try unfold feedDesc); (try dsimp only); (repeat' split) <;> exact id))
    | with_reducible apply retireSignal_heads | with_reducible apply HeadsOnly.ite)

theorem dropContained_heads {σ : State} (i : GItem) (s : State) (h0 : HeadsOnly σ s) : HeadsOnly σ
    (dropContained i s) := by
  refine h0.trans ?_; clear h0; unfold dropContained
  (try dsimp only)
  repeat' (first
    | with_reducible exact HeadsOnly.refl _ | assumption | with_reducible apply updHz_heads
    | with_reducible apply updContainment_heads | with_reducible apply dropAtProducer_heads)

theorem takePlace_heads {σ : State} (g : Nat) (i : GItem) (s : State) (h0 : HeadsOnly σ s) : HeadsOnly σ
    (takePlace g i s) := by
  refine h0.trans ?_; clear h0; unfold takePlace
  repeat' (first
    | with_reducible exact HeadsOnly.refl _ | assumption | with_reducible apply dropContained_heads
    | with_reducible apply release0_heads | with_reducible apply updGate_heads | with_reducible apply HeadsOnly.ite)

theorem giveCredit_heads (g : Nat) : ∀ ls {σ s : State}, HeadsOnly σ s → HeadsOnly σ (giveCredit g ls s) := by
  intro ls
  induction ls with
  | nil => intro σ s h; exact h
  | cons a l ih =>
    intro σ s h0
    refine h0.trans ?_; clear h0; unfold giveCredit
    repeat' (first
      | with_reducible exact HeadsOnly.refl _ | with_reducible apply ih | assumption
      | with_reducible apply takePlace_heads | with_reducible apply updGate_heads
      | with_reducible apply HeadsOnly.ite)

theorem putItem_heads {σ : State} (g : Nat) (i : GItem) (s : State) (h0 : HeadsOnly σ s) : HeadsOnly σ
    (putItem g i s) := by
  refine h0.trans ?_; clear h0; unfold putItem
  (try dsimp only)
  repeat' (first
    | with_reducible exact HeadsOnly.refl _ | assumption | with_reducible apply updGate_heads
    | with_reducible apply giveCredit_heads)

theorem gateMsg_heads {σ : State} (type : Nat) (core : Core) (queue : Queue) (opid : BitVec 16) (gated : Bool)
    (start ackNeed : Nat) (chip : ChipId) (m : SyncMsg) (s : State) (h0 : HeadsOnly σ s) : HeadsOnly σ
    (gateMsg type core queue opid gated start ackNeed chip m s) := by
  refine h0.trans ?_; clear h0; unfold gateMsg
  (try dsimp only)
  repeat' (first | with_reducible exact HeadsOnly.refl _ | assumption | with_reducible apply putItem_heads)

theorem withhold_heads (ctx : Nat) : ∀ ls v0 v1 {σ s : State}, HeadsOnly σ s → HeadsOnly σ (withhold ctx ls v0
    v1 s).2 := by
  intro ls
  induction ls with
  | nil => intro v0 v1 σ s h; exact h
  | cons a l ih =>
    intro v0 v1 σ s h0
    refine h0.trans ?_; clear h0; unfold withhold
    (try dsimp only)
    repeat' (first
      | with_reducible exact HeadsOnly.refl _ | with_reducible apply ih | assumption
      | with_reducible apply occur_heads | with_reducible apply HeadsOnly.ite
      | (with_reducible apply HeadsOnly.foldl; (intro _ _; try dsimp only))
      | with_reducible exact HeadsOnly.of_eq rfl rfl rfl | (split <;> try dsimp only))

theorem reportWithheld_heads {σ : State} (ctx : Nat) (s : State) (h0 : HeadsOnly σ s) : HeadsOnly σ
    (reportWithheld ctx s) := by
  refine h0.trans ?_; clear h0; unfold reportWithheld
  (try dsimp only)
  repeat' (first
    | with_reducible exact HeadsOnly.refl _ | assumption | with_reducible apply withhold_heads
    | with_reducible apply updCtx_heads | with_reducible apply HeadsOnly.ite
    | (with_reducible apply HeadsOnly.foldl; (intro _ _; try dsimp only))
    | with_reducible exact HeadsOnly.of_eq rfl rfl rfl | (split <;> try dsimp only))

theorem openIncident_heads {σ : State} (ctx reason step : Nat) (tag : Word) (s : State) (h0 : HeadsOnly σ s) :
    HeadsOnly σ (openIncident ctx reason step tag s) := by
  refine h0.trans ?_; clear h0; unfold openIncident
  repeat' (first
    | with_reducible exact HeadsOnly.refl _ | assumption | with_reducible apply reportWithheld_heads
    | with_reducible apply updCtx_heads)

theorem openAtUnsealed_heads {σ : State} (ctx reason : Nat) (s : State) (h0 : HeadsOnly σ s) : HeadsOnly σ
    (openAtUnsealed ctx reason s) := by
  refine h0.trans ?_; clear h0; unfold openAtUnsealed
  repeat' (first
    | with_reducible exact HeadsOnly.refl _ | assumption | with_reducible apply openIncident_heads
    | with_reducible apply HeadsOnly.ite | (with_reducible apply HeadsOnly.foldl; (intro _ _; try dsimp only))
    | with_reducible exact HeadsOnly.of_eq rfl rfl rfl | (split <;> try dsimp only))

theorem closeAdjIncident_heads {σ : State} (ctx reason : Nat) (tag : Word) (confirmed : Bool) (s : State) (h0
    : HeadsOnly σ s) : HeadsOnly σ (closeAdjIncident ctx reason tag confirmed s) := by
  refine h0.trans ?_; clear h0; unfold closeAdjIncident
  repeat' (first | with_reducible exact HeadsOnly.refl _ | assumption | with_reducible apply updCtx_heads)

theorem sendRelease_heads {σ : State} (o : Nat) (p : Word) (status : Nat) (value : Word) (start : Nat) (s :
    State) (h0 : HeadsOnly σ s) : HeadsOnly σ (sendRelease o p status value start s) := by
  refine h0.trans ?_; clear h0; unfold sendRelease
  (try dsimp only)
  repeat' (first
    | with_reducible exact HeadsOnly.refl _ | assumption | with_reducible apply updSync_heads
    | with_reducible apply gateMsg_heads | with_reducible apply sendMsg_heads | with_reducible apply HeadsOnly.ite)

theorem sendReleases_heads (o status : Nat) (value : Word) (start : Nat) : ∀ ls {σ s : State}, HeadsOnly σ s →
    HeadsOnly σ (sendReleases o status value start ls s) := by
  intro ls
  induction ls with
  | nil => intro σ s h; exact h
  | cons a l ih =>
    intro σ s h0
    refine h0.trans ?_; clear h0; unfold sendReleases
    repeat' (first
      | with_reducible exact HeadsOnly.refl _ | with_reducible apply ih | assumption
      | with_reducible apply sendRelease_heads)

theorem evalSubs_heads {σ : State} (o start : Nat) (s : State) (h0 : HeadsOnly σ s) : HeadsOnly σ (evalSubs o
    start s) := by
  refine h0.trans ?_; clear h0; unfold evalSubs
  (try dsimp only)
  repeat' (first
    | with_reducible exact HeadsOnly.refl _ | assumption | with_reducible apply sendReleases_heads
    | with_reducible apply updObject_heads)

theorem releaseAllSubs_heads {σ : State} (o status : Nat) (s : State) (h0 : HeadsOnly σ s) : HeadsOnly σ
    (releaseAllSubs o status s) := by
  refine h0.trans ?_; clear h0; unfold releaseAllSubs
  (try dsimp only)
  repeat' (first
    | with_reducible exact HeadsOnly.refl _ | assumption | with_reducible apply sendReleases_heads
    | with_reducible apply updObject_heads)

theorem hostWrite_heads {σ : State} (o : Nat) (p : Word) (start : Nat) (s : State) (h0 : HeadsOnly σ s) :
    HeadsOnly σ (hostWrite o p start s) := by
  refine h0.trans ?_; clear h0; unfold hostWrite
  (try dsimp only)
  repeat' (first
    | with_reducible exact HeadsOnly.refl _ | assumption | with_reducible apply putItem_heads
    | with_reducible apply updGate_heads | with_reducible apply HeadsOnly.ite)

theorem change_heads {σ : State} (o : Nat) (v : Word) (op : Nat) (p : Word) (start : Nat) (s : State) (h0 :
    HeadsOnly σ s) : HeadsOnly σ (change o v op p start s) := by
  refine h0.trans ?_; clear h0; unfold change
  (try dsimp only)
  repeat' (first
    | with_reducible exact HeadsOnly.refl _ | assumption | with_reducible apply updObject_heads
    | with_reducible apply hostWrite_heads | with_reducible apply evalSubs_heads)

theorem releaseBarWaiters_heads {σ : State} (b status : Nat) (s : State) (h0 : HeadsOnly σ s) : HeadsOnly σ
    (releaseBarWaiters b status s) := by
  refine h0.trans ?_; clear h0; unfold releaseBarWaiters
  (try dsimp only)
  repeat' (first
    | with_reducible exact HeadsOnly.refl _ | assumption | with_reducible apply updSync_heads
    | with_reducible apply updBarrier_heads)

theorem disarmOwned_heads (ctx : Nat) : ∀ ls {σ s : State}, HeadsOnly σ s → HeadsOnly σ (disarmOwned ctx ls s) := by
  intro ls
  induction ls with
  | nil => intro σ s h; exact h
  | cons a l ih =>
    intro σ s h0
    refine h0.trans ?_; clear h0; unfold disarmOwned
    (try dsimp only)
    repeat' (first
      | with_reducible exact HeadsOnly.refl _ | with_reducible apply ih | assumption
      | with_reducible apply updBarrier_heads | with_reducible apply releaseBarWaiters_heads
      | with_reducible apply HeadsOnly.ite)

theorem clearObjects_heads  : ∀ ls {σ s : State}, HeadsOnly σ s → HeadsOnly σ (clearObjects  ls s) := by
  intro ls
  induction ls with
  | nil => intro σ s h; exact h
  | cons a l ih =>
    intro σ s h0
    refine h0.trans ?_; clear h0; unfold clearObjects
    repeat' (first
      | with_reducible exact HeadsOnly.refl _ | with_reducible apply ih | assumption
      | with_reducible apply updObject_heads)

theorem releaseWatches_heads (status : Nat) : ∀ ls {σ s : State}, HeadsOnly σ s → HeadsOnly σ (releaseWatches
    status ls s) := by
  intro ls
  induction ls with
  | nil => intro σ s h; exact h
  | cons a l ih =>
    intro σ s h0
    refine h0.trans ?_; clear h0; unfold releaseWatches
    (try dsimp only)
    repeat' (first
      | with_reducible exact HeadsOnly.refl _ | with_reducible apply ih | assumption
      | with_reducible apply updSync_heads
      | ((with_reducible apply updStation_heads); · first | exact fun k hk => ⟨k, hk, rfl⟩ | (intro k hk; refine ⟨k, ?_, rfl⟩; revert hk; (try unfold feedDesc); (try dsimp only); (repeat' split) <;> exact id))
      | with_reducible apply updObject_heads | with_reducible apply HeadsOnly.ite)

theorem releaseObjectSubs_heads (status : Nat) : ∀ ls {σ s : State}, HeadsOnly σ s → HeadsOnly σ
    (releaseObjectSubs status ls s) := by
  intro ls
  induction ls with
  | nil => intro σ s h; exact h
  | cons a l ih =>
    intro σ s h0
    refine h0.trans ?_; clear h0; unfold releaseObjectSubs
    repeat' (first
      | with_reducible exact HeadsOnly.refl _ | with_reducible apply ih | assumption
      | with_reducible apply releaseAllSubs_heads)

theorem settleCu_heads {σ : State} (c : Nat) (tag : Word) (s : State) (h0 : HeadsOnly σ s) : HeadsOnly σ
    (settleCu c tag s) := by
  refine h0.trans ?_; clear h0; unfold settleCu
  repeat' (first
    | with_reducible exact HeadsOnly.refl _ | assumption
    | ((with_reducible apply updStation_heads); · first | exact fun k hk => ⟨k, hk, rfl⟩ | (intro k hk; refine ⟨k, ?_, rfl⟩; revert hk; (try unfold feedDesc); (try dsimp only); (repeat' split) <;> exact id)))

theorem settleAll_heads  : ∀ ls {σ s : State}, HeadsOnly σ s → HeadsOnly σ (settleAll  ls s) := by
  intro ls
  induction ls with
  | nil => intro σ s h; exact h
  | cons a l ih =>
    intro σ s h0
    refine h0.trans ?_; clear h0; unfold settleAll
    repeat' (first
      | with_reducible exact HeadsOnly.refl _ | with_reducible apply ih | assumption
      | with_reducible apply settleCu_heads)

theorem endContext_heads {σ : State} (ctx cause : Nat) (s : State) (h0 : HeadsOnly σ s) : HeadsOnly σ
    (endContext ctx cause s) := by
  refine h0.trans ?_; clear h0; unfold endContext
  (try dsimp only)
  repeat' (first
    | with_reducible exact HeadsOnly.refl _ | assumption | with_reducible apply updSync_heads
    | with_reducible apply releaseWatches_heads | with_reducible apply releaseObjectSubs_heads
    | with_reducible apply disarmOwned_heads | with_reducible apply clearObjects_heads
    | with_reducible apply settleAll_heads | with_reducible apply updContainment_heads
    | with_reducible apply occur_heads | with_reducible apply HeadsOnly.ite
    | (with_reducible apply HeadsOnly.foldl; (intro _ _; try dsimp only))
    | with_reducible exact HeadsOnly.of_eq rfl rfl rfl | (split <;> try dsimp only))

theorem raiseSteps_heads (step : Nat) : ∀ ls {σ s : State}, HeadsOnly σ s → HeadsOnly σ (raiseSteps step ls s) := by
  intro ls
  induction ls with
  | nil => intro σ s h; exact h
  | cons a l ih =>
    intro σ s h0
    refine h0.trans ?_; clear h0; unfold raiseSteps
    (try dsimp only)
    repeat' (first
      | with_reducible exact HeadsOnly.refl _ | with_reducible apply ih | assumption
      | ((with_reducible apply updStation_heads); · first | exact fun k hk => ⟨k, hk, rfl⟩ | (intro k hk; refine ⟨k, ?_, rfl⟩; revert hk; (try unfold feedDesc); (try dsimp only); (repeat' split) <;> exact id)))

theorem observeStep_heads {σ : State} (ctx : Nat) (s : State) (h0 : HeadsOnly σ s) : HeadsOnly σ (observeStep
    ctx s) := by
  refine h0.trans ?_; clear h0; unfold observeStep
  repeat' (first
    | with_reducible exact HeadsOnly.refl _ | assumption | with_reducible apply updCtx_heads
    | with_reducible apply HeadsOnly.ite | (with_reducible apply HeadsOnly.foldl; (intro _ _; try dsimp only))
    | with_reducible exact HeadsOnly.of_eq rfl rfl rfl | (split <;> try dsimp only))

theorem atBoundary_heads {σ : State} (ctx : Nat) (s : State) (h0 : HeadsOnly σ s) : HeadsOnly σ (atBoundary
    ctx s) := by
  refine h0.trans ?_; clear h0; unfold atBoundary
  repeat' (first
    | with_reducible exact HeadsOnly.refl _ | assumption | with_reducible apply endContext_heads
    | with_reducible apply HeadsOnly.ite)

theorem sealRequest_heads {σ : State} (o n start : Nat) (s : State) (h0 : HeadsOnly σ s) : HeadsOnly σ
    (sealRequest o n start s) := by
  refine h0.trans ?_; clear h0; unfold sealRequest
  (try dsimp only)
  repeat' (first
    | with_reducible exact HeadsOnly.refl _ | assumption | with_reducible apply updCtx_heads
    | with_reducible apply raiseSteps_heads | with_reducible apply atBoundary_heads
    | with_reducible apply observeStep_heads | with_reducible apply reportWithheld_heads
    | with_reducible apply HeadsOnly.ite | (with_reducible apply HeadsOnly.foldl; (intro _ _; try dsimp only))
    | with_reducible exact HeadsOnly.of_eq rfl rfl rfl | (split <;> try dsimp only))

theorem applyOp_heads {σ : State} (o op : Nat) (n : Word) (p : Word) (start : Nat) (s : State) (h0 : HeadsOnly
    σ s) : HeadsOnly σ (applyOp o op n p start s).2 := by
  refine h0.trans ?_; clear h0; unfold applyOp
  (try dsimp only)
  repeat' (first
    | with_reducible exact HeadsOnly.refl _ | assumption | with_reducible apply change_heads
    | with_reducible apply sealRequest_heads | with_reducible apply occur_heads | with_reducible apply HeadsOnly.ite
    | (with_reducible apply HeadsOnly.foldl; (intro _ _; try dsimp only))
    | with_reducible exact HeadsOnly.of_eq rfl rfl rfl | (split <;> try dsimp only))

theorem syncError_heads {σ : State} (src : BitVec 16) (name p : Word) (status op : Nat) (s : State) (h0 :
    HeadsOnly σ s) : HeadsOnly σ (syncError src name p status op s) := by
  refine h0.trans ?_; clear h0; unfold syncError
  repeat' (first | with_reducible exact HeadsOnly.refl _ | assumption | with_reducible apply occur_heads)

theorem actOn_heads {σ : State} (o op : Nat) (n : Word) (p : Word) (start : Nat) (s : State) (h0 : HeadsOnly σ
    s) : HeadsOnly σ (actOn o op n p start s).2 := by
  refine h0.trans ?_; clear h0; unfold actOn
  dsimp only
  split
  · exact syncError_heads _ _ _ _ _ _ (HeadsOnly.refl s)
  · have h := applyOp_heads o op n p start s (HeadsOnly.refl s)
    rcases hx : applyOp o op n p start s with ⟨k, x⟩
    rw [hx] at h
    split
    · rename_i heq
      obtain ⟨rfl, rfl⟩ := Prod.mk.inj heq
      exact syncError_heads _ _ _ _ _ _ h
    · exact h

theorem setPoint_heads {σ : State} (d v : Nat) (s : State) (h0 : HeadsOnly σ s) : HeadsOnly σ (setPoint d v s) := by
  refine h0.trans ?_; clear h0; unfold setPoint
  repeat' (first | with_reducible exact HeadsOnly.refl _ | assumption | with_reducible apply updDomain_heads)

theorem avsCommand_heads {σ : State} (d kind old cause : Nat) (p2 : Word) (s : State) (h0 : HeadsOnly σ s) :
    HeadsOnly σ (avsCommand d kind old cause p2 s) := by
  refine h0.trans ?_; clear h0; unfold avsCommand
  (try dsimp only)
  repeat' (first
    | with_reducible exact HeadsOnly.refl _ | assumption | with_reducible apply updOut_heads
    | with_reducible apply updDomain_heads)

theorem recordStep_heads {σ : State} (rise : Bool) (d old : Nat) (s : State) (h0 : HeadsOnly σ s) : HeadsOnly
    σ (recordStep rise d old s) := by
  refine h0.trans ?_; clear h0; unfold recordStep
  (try dsimp only)
  repeat' (first | with_reducible exact HeadsOnly.refl _ | assumption | with_reducible apply occur_heads)

theorem recordReplaced_heads {σ : State} (steps : Bool) (d : Nat) (s : State) (h0 : HeadsOnly σ s) : HeadsOnly
    σ (recordReplaced steps d s) := by
  refine h0.trans ?_; clear h0; unfold recordReplaced
  repeat' (first
    | with_reducible exact HeadsOnly.refl _ | assumption | with_reducible apply recordStep_heads
    | with_reducible apply HeadsOnly.ite | (with_reducible apply HeadsOnly.foldl; (intro _ _; try dsimp only))
    | with_reducible exact HeadsOnly.of_eq rfl rfl rfl | (split <;> try dsimp only))

theorem toNominal_heads {σ : State} (d : Nat) (s : State) (h0 : HeadsOnly σ s) : HeadsOnly σ (toNominal d s) := by
  refine h0.trans ?_; clear h0; unfold toNominal
  (try dsimp only)
  repeat' (first
    | with_reducible exact HeadsOnly.refl _ | assumption | with_reducible apply updDomain_heads
    | with_reducible apply recordReplaced_heads | with_reducible apply avsCommand_heads
    | with_reducible apply setPoint_heads | with_reducible apply HeadsOnly.ite)

theorem allNominal_heads  : ∀ ls {σ s : State}, HeadsOnly σ s → HeadsOnly σ (allNominal  ls s) := by
  intro ls
  induction ls with
  | nil => intro σ s h; exact h
  | cons a l ih =>
    intro σ s h0
    refine h0.trans ?_; clear h0; unfold allNominal
    repeat' (first
      | with_reducible exact HeadsOnly.refl _ | with_reducible apply ih | assumption
      | with_reducible apply toNominal_heads)

theorem leaveServing_heads {σ : State} (s : State) (h0 : HeadsOnly σ s) : HeadsOnly σ (leaveServing s) := by
  refine h0.trans ?_; clear h0; unfold leaveServing
  repeat' (first | with_reducible exact HeadsOnly.refl _ | assumption | with_reducible apply allNominal_heads)

theorem lockDomain_heads {σ : State} (d : Nat) (p : TempoPolicy) (s : State) (h0 : HeadsOnly σ s) : HeadsOnly
    σ (lockDomain d p s) := by
  refine h0.trans ?_; clear h0; unfold lockDomain
  (try dsimp only)
  repeat' (first
    | with_reducible exact HeadsOnly.refl _ | assumption | with_reducible apply setPoint_heads
    | with_reducible apply updOut_heads | with_reducible apply updDomain_heads | with_reducible apply occur_heads
    | with_reducible apply HeadsOnly.ite)

theorem cancelStep_heads {σ : State} (d : Nat) (s : State) (h0 : HeadsOnly σ s) : HeadsOnly σ (cancelStep d s) := by
  refine h0.trans ?_; clear h0; unfold cancelStep
  repeat' (first
    | with_reducible exact HeadsOnly.refl _ | assumption | with_reducible apply updOut_heads
    | with_reducible apply updTempo_heads | with_reducible apply updDomain_heads | with_reducible apply HeadsOnly.ite
    | (with_reducible apply HeadsOnly.foldl; (intro _ _; try dsimp only))
    | with_reducible exact HeadsOnly.of_eq rfl rfl rfl | (split <;> try dsimp only))

theorem startBackoff_heads {σ : State} (d cause : Nat) (p2 : Word) (p : TempoPolicy) (s : State) (h0 :
    HeadsOnly σ s) : HeadsOnly σ (startBackoff d cause p2 p s) := by
  refine h0.trans ?_; clear h0; unfold startBackoff
  (try dsimp only)
  repeat' (first
    | with_reducible exact HeadsOnly.refl _ | assumption | with_reducible apply recordReplaced_heads
    | with_reducible apply setPoint_heads | with_reducible apply updDomain_heads
    | with_reducible apply lockDomain_heads | with_reducible apply avsCommand_heads)

theorem backoff_heads {σ : State} (d cause : Nat) (p2 : Word) (s : State) (h0 : HeadsOnly σ s) : HeadsOnly σ
    (backoff d cause p2 s) := by
  refine h0.trans ?_; clear h0; unfold backoff
  (try dsimp only)
  repeat' (first
    | with_reducible exact HeadsOnly.refl _ | assumption | with_reducible apply updDomain_heads
    | with_reducible apply cancelStep_heads | with_reducible apply lockDomain_heads
    | with_reducible apply startBackoff_heads | with_reducible apply HeadsOnly.ite
    | (with_reducible apply HeadsOnly.foldl; (intro _ _; try dsimp only))
    | with_reducible exact HeadsOnly.of_eq rfl rfl rfl | (split <;> try dsimp only))

theorem backoffCore_heads {σ : State} (c cause : Nat) (p2 : Word) (s : State) (h0 : HeadsOnly σ s) : HeadsOnly
    σ (backoffCore c cause p2 s) := by
  refine h0.trans ?_; clear h0; unfold backoffCore
  repeat' (first | with_reducible exact HeadsOnly.refl _ | assumption | with_reducible apply backoff_heads)

theorem sendMgmt_heads {σ : State} (bytes : List Byte) (s : State) (h0 : HeadsOnly σ s) : HeadsOnly σ
    (sendMgmt bytes s) := by
  refine h0.trans ?_; clear h0; unfold sendMgmt
  repeat' (first
    | with_reducible exact HeadsOnly.refl _ | assumption | with_reducible apply updOut_heads
    | with_reducible apply HeadsOnly.ite | (with_reducible apply HeadsOnly.foldl; (intro _ _; try dsimp only))
    | with_reducible exact HeadsOnly.of_eq rfl rfl rfl | (split <;> try dsimp only))

theorem makeReport_heads {σ : State} (unscheduled : Bool) (p : LedgerPolicy) (b : Bound) (s : State) (h0 :
    HeadsOnly σ s) : HeadsOnly σ (makeReport unscheduled p b s) := by
  refine h0.trans ?_; clear h0; unfold makeReport
  (try dsimp only)
  repeat' (first
    | with_reducible exact HeadsOnly.refl _ | assumption | with_reducible apply updLed_heads
    | with_reducible apply updTempo_heads | with_reducible apply sendMgmt_heads | with_reducible apply oobAdd_heads
    | with_reducible apply occur_heads | with_reducible apply HeadsOnly.ite)

theorem unscheduledReport_heads {σ : State} (s : State) (h0 : HeadsOnly σ s) : HeadsOnly σ (unscheduledReport
    s) := by
  refine h0.trans ?_; clear h0; unfold unscheduledReport
  repeat' (first
    | with_reducible exact HeadsOnly.refl _ | assumption | with_reducible apply makeReport_heads
    | with_reducible apply HeadsOnly.ite | (with_reducible apply HeadsOnly.foldl; (intro _ _; try dsimp only))
    | with_reducible exact HeadsOnly.of_eq rfl rfl rfl | (split <;> try dsimp only))

theorem setState_heads {σ : State} (v : Nat) (s : State) (h0 : HeadsOnly σ s) : HeadsOnly σ (setState v s) := by
  refine h0.trans ?_; clear h0; unfold setState
  (try dsimp only)
  repeat' (first
    | with_reducible exact HeadsOnly.refl _ | assumption | with_reducible apply leaveServing_heads
    | with_reducible apply updLed_heads | with_reducible apply updTempo_heads | with_reducible apply msix_heads
    | with_reducible apply HeadsOnly.ite)

theorem openAll_heads (reason : Nat) : ∀ ls {σ s : State}, HeadsOnly σ s → HeadsOnly σ (openAll reason ls s) := by
  intro ls
  induction ls with
  | nil => intro σ s h; exact h
  | cons a l ih =>
    intro σ s h0
    refine h0.trans ?_; clear h0; unfold openAll
    repeat' (first
      | with_reducible exact HeadsOnly.refl _ | with_reducible apply ih | assumption
      | with_reducible apply openAtUnsealed_heads)

theorem endAll_heads (cause : Nat) : ∀ ls {σ s : State}, HeadsOnly σ s → HeadsOnly σ (endAll cause ls s) := by
  intro ls
  induction ls with
  | nil => intro σ s h; exact h
  | cons a l ih =>
    intro σ s h0
    refine h0.trans ?_; clear h0; unfold endAll
    repeat' (first
      | with_reducible exact HeadsOnly.refl _ | with_reducible apply ih | assumption
      | with_reducible apply endContext_heads)

theorem drainBegins_heads {σ : State} (s : State) (h0 : HeadsOnly σ s) : HeadsOnly σ (drainBegins s) := by
  refine h0.trans ?_; clear h0; unfold drainBegins
  (try dsimp only)
  repeat' (first
    | with_reducible exact HeadsOnly.refl _ | assumption | with_reducible apply oobAdd_heads
    | with_reducible apply unscheduledReport_heads | with_reducible apply endAll_heads)

theorem suspect_heads {σ : State} (cause unit core mask : Nat) (p3 : Word) (s : State) (h0 : HeadsOnly σ s) :
    HeadsOnly σ (suspect cause unit core mask p3 s) := by
  refine h0.trans ?_; clear h0; unfold suspect
  (try dsimp only)
  repeat' (first
    | with_reducible exact HeadsOnly.refl _ | assumption | with_reducible apply updLed_heads
    | with_reducible apply occur_heads | with_reducible apply setState_heads | with_reducible apply openAll_heads
    | with_reducible apply drainBegins_heads | with_reducible apply HeadsOnly.ite)

theorem windowPut_heads {σ : State} (core unit : Nat) (s : State) (h0 : HeadsOnly σ s) : HeadsOnly σ
    (windowPut core unit s) := by
  refine h0.trans ?_; clear h0; unfold windowPut
  repeat' (first | with_reducible exact HeadsOnly.refl _ | assumption | with_reducible apply updLed_heads)

theorem countDet_heads {σ : State} (i : Nat) (s : State) (h0 : HeadsOnly σ s) : HeadsOnly σ (countDet i s) := by
  refine h0.trans ?_; clear h0; unfold countDet
  repeat' (first | with_reducible exact HeadsOnly.refl _ | assumption | with_reducible apply updLed_heads)

theorem countConfirmed_heads {σ : State} (s : State) (h0 : HeadsOnly σ s) : HeadsOnly σ (countConfirmed s) := by
  refine h0.trans ?_; clear h0; unfold countConfirmed
  repeat' (first | with_reducible exact HeadsOnly.refl _ | assumption | with_reducible apply updLed_heads)

theorem chargeEngine_heads {σ : State} (core q : Nat) (tag : Word) (s : State) (h0 : HeadsOnly σ s) :
    HeadsOnly σ (chargeEngine core q tag s) := by
  refine h0.trans ?_; clear h0; unfold chargeEngine
  (try dsimp only)
  repeat' (first
    | with_reducible exact HeadsOnly.refl _ | assumption | with_reducible apply windowPut_heads
    | with_reducible apply suspect_heads | with_reducible apply HeadsOnly.ite
    | (with_reducible apply HeadsOnly.foldl; (intro _ _; try dsimp only))
    | with_reducible exact HeadsOnly.of_eq rfl rfl rfl | (split <;> try dsimp only))

theorem stationFault_heads {σ : State} (core : Nat) (tag : Word) (s : State) (h0 : HeadsOnly σ s) : HeadsOnly
    σ (stationFault core tag s) := by
  refine h0.trans ?_; clear h0; unfold stationFault
  (try dsimp only)
  repeat' (first
    | with_reducible exact HeadsOnly.refl _ | assumption | with_reducible apply countDet_heads
    | with_reducible apply updLed_heads | with_reducible apply windowPut_heads | with_reducible apply suspect_heads
    | with_reducible apply HeadsOnly.ite | (with_reducible apply HeadsOnly.foldl; (intro _ _; try dsimp only))
    | with_reducible exact HeadsOnly.of_eq rfl rfl rfl | (split <;> try dsimp only))

theorem updCus_heads {σ : State} (c : Nat) (p : Cu → Bool) (f : Cu → Cu) (s : State) (h0 : HeadsOnly σ s) :
    HeadsOnly σ (updCus c p f s) := by
  refine h0.trans ?_; clear h0; unfold updCus
  repeat' (first
    | with_reducible exact HeadsOnly.refl _ | assumption
    | ((with_reducible apply updStation_heads); · first | exact fun k hk => ⟨k, hk, rfl⟩ | (intro k hk; refine ⟨k, ?_, rfl⟩; revert hk; (try unfold feedDesc); (try dsimp only); (repeat' split) <;> exact id)))

theorem setDisp_heads {σ : State} (c : Nat) (tag : Word) (retire disp : Nat) (s : State) (h0 : HeadsOnly σ s)
    : HeadsOnly σ (setDisp c tag retire disp s) := by
  refine h0.trans ?_; clear h0; unfold setDisp
  (try dsimp only)
  repeat' (first
    | with_reducible exact HeadsOnly.refl _ | assumption
    | ((with_reducible apply updStation_heads); · first | exact fun k hk => ⟨k, hk, rfl⟩ | (intro k hk; refine ⟨k, ?_, rfl⟩; revert hk; (try unfold feedDesc); (try dsimp only); (repeat' split) <;> exact id)))

theorem loadPin_heads {σ : State} (c : Nat) (u : Cu) (s : State) (h0 : HeadsOnly σ s) : HeadsOnly σ (loadPin c
    u s) := by
  refine h0.trans ?_; clear h0; unfold loadPin
  (try dsimp only)
  repeat' (first
    | with_reducible exact HeadsOnly.refl _ | assumption
    | ((with_reducible apply updStation_heads); · first | exact fun k hk => ⟨k, hk, rfl⟩ | (intro k hk; refine ⟨k, ?_, rfl⟩; revert hk; (try unfold feedDesc); (try dsimp only); (repeat' split) <;> exact id))
    | with_reducible apply HeadsOnly.ite)

theorem spadPut_heads {σ : State} (c : Nat) (poison : Bool) (a : Nat) (bs : List Byte) (s : State) (h0 :
    HeadsOnly σ s) : HeadsOnly σ (spadPut c poison a bs s) := by
  refine h0.trans ?_; clear h0; unfold spadPut
  repeat' (first
    | with_reducible exact HeadsOnly.refl _ | assumption
    | ((with_reducible apply updStation_heads); · first | exact fun k hk => ⟨k, hk, rfl⟩ | (intro k hk; refine ⟨k, ?_, rfl⟩; revert hk; (try unfold feedDesc); (try dsimp only); (repeat' split) <;> exact id)))

theorem landSector_heads {σ : State} (c a : Nat) (w : InbWrite) (s : State) (h0 : HeadsOnly σ s) : HeadsOnly σ
    (landSector c a w s) := by
  refine h0.trans ?_; clear h0; unfold landSector
  repeat' (first | with_reducible exact HeadsOnly.refl _ | assumption | with_reducible apply spadPut_heads)

theorem landHeld_heads (c : Nat) : ∀ ls {σ s : State}, HeadsOnly σ s → HeadsOnly σ (landHeld c ls s) := by
  intro ls
  induction ls with
  | nil => intro σ s h; exact h
  | cons a l ih =>
    intro σ s h0
    refine h0.trans ?_; clear h0; unfold landHeld
    repeat' (first
      | with_reducible exact HeadsOnly.refl _ | with_reducible apply ih | assumption
      | ((with_reducible apply updStation_heads); · first | exact fun k hk => ⟨k, hk, rfl⟩ | (intro k hk; refine ⟨k, ?_, rfl⟩; revert hk; (try unfold feedDesc); (try dsimp only); (repeat' split) <;> exact id))
      | with_reducible apply landSector_heads | with_reducible apply HeadsOnly.ite
      | (with_reducible apply HeadsOnly.foldl; (intro _ _; try dsimp only))
      | with_reducible exact HeadsOnly.of_eq rfl rfl rfl | (split <;> try dsimp only))

theorem dropPins_heads {σ : State} (c : Nat) (p : Pin → Bool) (s : State) (h0 : HeadsOnly σ s) : HeadsOnly σ
    (dropPins c p s) := by
  refine h0.trans ?_; clear h0; unfold dropPins
  (try dsimp only)
  repeat' (first
    | with_reducible exact HeadsOnly.refl _ | assumption
    | ((with_reducible apply updStation_heads); · first | exact fun k hk => ⟨k, hk, rfl⟩ | (intro k hk; refine ⟨k, ?_, rfl⟩; revert hk; (try unfold feedDesc); (try dsimp only); (repeat' split) <;> exact id))
    | with_reducible apply landHeld_heads)

theorem kitInvalid_heads {σ : State} (id cause core : Nat) (s : State) (h0 : HeadsOnly σ s) : HeadsOnly σ
    (kitInvalid id cause core s) := by
  refine h0.trans ?_; clear h0; unfold kitInvalid
  exact occur_heads _ _ _ _ _ _ (mapStations_heads (fun t => { t with reh := dropKit id t.reh }) _ (fun _ => rfl) (updLed_heads _ _ (HeadsOnly.refl s)))

theorem skipSample_heads {σ : State} (c : Nat) (tag : Word) (cause : Nat) (s : State) (h0 : HeadsOnly σ s) :
    HeadsOnly σ (skipSample c tag cause s) := by
  refine h0.trans ?_; clear h0; unfold skipSample
  dsimp only
  refine occur_heads _ _ _ _ _ _ (updStation_heads _ _ _ (fun k hk => ⟨k, hk, rfl⟩) (freeCapsules_heads _ _ (updCapsule_heads _ _ _ (by intro; rfl) _ ?_)))
  have h := updCus_heads c (fun u => !u.inserted && u.tag == tag) (fun u => { u with reprise := false, capsule := false }) s (HeadsOnly.refl s)
  split
  · rename_i k hk
    refine writeCapsuleHead_heads _ _ _ ⟨k, ?_, rfl⟩ h
    have e : (station (updCus c (fun u => !u.inserted && u.tag == tag) (fun u => { u with reprise := false, capsule := false }) s) c).capsules =
        (station s c).capsules := by simp [updCus]
    rw [e]
    exact capsuleOf_mem hk
  · exact h

theorem giveReprise_heads {σ : State} (c : Nat) (tag : Word) (verdict : Nat) (s : State) (h0 : HeadsOnly σ s)
    : HeadsOnly σ (giveReprise c tag verdict s) := by
  refine h0.trans ?_; clear h0; unfold giveReprise
  (try dsimp only)
  repeat' (first
    | with_reducible exact HeadsOnly.refl _ | assumption | with_reducible apply updLed_heads
    | with_reducible apply freeCapsules_heads | ((with_reducible apply updCapsule_heads); · exact fun _ => rfl)
    | with_reducible apply HeadsOnly.ite | (with_reducible apply HeadsOnly.foldl; (intro _ _; try dsimp only))
    | with_reducible exact HeadsOnly.of_eq rfl rfl rfl | (split <;> try dsimp only))

theorem updAdjSlot_heads {σ : State} (i : Nat) (f : Adj → Adj) (s : State) (h0 : HeadsOnly σ s) : HeadsOnly σ
    (updAdjSlot i f s) := by
  refine h0.trans ?_; clear h0; unfold updAdjSlot
  repeat' (first
    | with_reducible exact HeadsOnly.refl _ | assumption | ((with_reducible apply updAdj_heads); · exact rfl))

theorem notify_heads {σ : State} (c : Nat) (n : Notice) (s : State) (h0 : HeadsOnly σ s) : HeadsOnly σ (notify
    c n s) := by
  refine h0.trans ?_; clear h0; unfold notify
  repeat' (first
    | with_reducible exact HeadsOnly.refl _ | assumption
    | ((with_reducible apply updStation_heads); · first | exact fun k hk => ⟨k, hk, rfl⟩ | (intro k hk; refine ⟨k, ?_, rfl⟩; revert hk; (try unfold feedDesc); (try dsimp only); (repeat' split) <;> exact id)))

theorem copySources_heads {σ : State} (c : Nat) (k : Capsule) (d : Nat) (s : State) (h0 : HeadsOnly σ s) :
    HeadsOnly σ (copySources c k d s) := by
  refine h0.trans ?_; clear h0; unfold copySources
  repeat' (first | with_reducible exact HeadsOnly.refl _ | assumption | with_reducible apply spadPut_heads)

theorem holdCapsuleOf_heads {σ : State} (c : Nat) (k : Capsule) (s : State) (h : ∃ k' ∈ (station s
    c).capsules, k'.pos = k.pos) (h0 : HeadsOnly σ s) : HeadsOnly σ (holdCapsuleOf c k s) := by
  refine h0.trans ?_
  unfold holdCapsuleOf
  refine writeCapsuleHead_heads _ _ _ ?_ (updCapsule_heads _ _ _ (by intro; rfl) _ (HeadsOnly.refl s))
  exact capsule_stays _ _ _ (by intro; rfl) _ h

theorem giveInputs_heads {σ : State} (i : Nat) (a : Adj) (s : State) (h0 : HeadsOnly σ s) : HeadsOnly σ
    (giveInputs i a s) := by
  refine h0.trans ?_; clear h0; unfold giveInputs
  split
  · rename_i k hk
    refine holdCapsuleOf_heads _ _ _ ⟨k, ?_, rfl⟩ (HeadsOnly.refl s)
    unfold inputCapsule at hk
    split at hk
    · exact capsuleOf_mem (Option.eq_some_of_filter_eq_some hk)
    · simp at hk
  · exact HeadsOnly.ite (HeadsOnly.refl s) (updAdjSlot_heads _ _ _ (HeadsOnly.refl s))

theorem startExec_heads {σ : State} (i : Nat) (w : ExecName) (d : Nat) (s : State) (h0 : HeadsOnly σ s) :
    HeadsOnly σ (startExec i w d s) := by
  refine h0.trans ?_; clear h0; unfold startExec
  repeat' (first
    | with_reducible exact HeadsOnly.refl _ | assumption | with_reducible apply notify_heads
    | with_reducible apply giveInputs_heads | with_reducible apply HeadsOnly.ite
    | (with_reducible apply HeadsOnly.foldl; (intro _ _; try dsimp only))
    | with_reducible exact HeadsOnly.of_eq rfl rfl rfl | (split <;> try dsimp only))

theorem assignU_heads {σ : State} (i : Nat) (c : Core) (s : State) (h0 : HeadsOnly σ s) : HeadsOnly σ (assignU
    i c s) := by
  refine h0.trans ?_; clear h0; unfold assignU
  repeat' (first
    | with_reducible exact HeadsOnly.refl _ | assumption | with_reducible apply startExec_heads
    | with_reducible apply updAdjSlot_heads)

theorem assignV_heads {σ : State} (i : Nat) (c : Core) (s : State) (h0 : HeadsOnly σ s) : HeadsOnly σ (assignV
    i c s) := by
  refine h0.trans ?_; clear h0; unfold assignV
  repeat' (first
    | with_reducible exact HeadsOnly.refl _ | assumption | with_reducible apply startExec_heads
    | with_reducible apply updAdjSlot_heads)

theorem lookFor_heads {σ : State} (i : Nat) (s : State) (h0 : HeadsOnly σ s) : HeadsOnly σ (lookFor i s) := by
  refine h0.trans ?_; clear h0; unfold lookFor
  (try dsimp only)
  repeat' (first
    | with_reducible exact HeadsOnly.refl _ | assumption | with_reducible apply assignU_heads
    | with_reducible apply assignV_heads | with_reducible apply HeadsOnly.ite
    | (with_reducible apply HeadsOnly.foldl; (intro _ _; try dsimp only))
    | with_reducible exact HeadsOnly.of_eq rfl rfl rfl | (split <;> try dsimp only))

theorem wantH_heads {σ : State} (i : Nat) (s : State) (h0 : HeadsOnly σ s) : HeadsOnly σ (wantH i s) := by
  refine h0.trans ?_; clear h0; unfold wantH
  (try dsimp only)
  repeat' (first
    | with_reducible exact HeadsOnly.refl _ | assumption | with_reducible apply updAdjSlot_heads
    | with_reducible apply startExec_heads | with_reducible apply HeadsOnly.ite
    | (with_reducible apply HeadsOnly.foldl; (intro _ _; try dsimp only))
    | with_reducible exact HeadsOnly.of_eq rfl rfl rfl | (split <;> try dsimp only))

theorem startHomes_heads (c : Nat) : ∀ ls {σ s : State}, HeadsOnly σ s → HeadsOnly σ (startHomes c ls s) := by
  intro ls
  induction ls with
  | nil => intro σ s h; exact h
  | cons a l ih =>
    intro σ s h0
    refine h0.trans ?_; clear h0; unfold startHomes
    repeat' (first
      | with_reducible exact HeadsOnly.refl _ | with_reducible apply ih | assumption
      | with_reducible apply startExec_heads | with_reducible apply HeadsOnly.ite
      | (with_reducible apply HeadsOnly.foldl; (intro _ _; try dsimp only))
      | with_reducible exact HeadsOnly.of_eq rfl rfl rfl | (split <;> try dsimp only))

theorem releaseStop_heads {σ : State} (c : Nat) (s : State) (h0 : HeadsOnly σ s) : HeadsOnly σ (releaseStop c
    s) := by
  refine h0.trans ?_; clear h0; unfold releaseStop
  repeat' (first
    | with_reducible exact HeadsOnly.refl _ | assumption
    | ((with_reducible apply updStation_heads); · first | exact fun k hk => ⟨k, hk, rfl⟩ | (intro k hk; refine ⟨k, ?_, rfl⟩; revert hk; (try unfold feedDesc); (try dsimp only); (repeat' split) <;> exact id))
    | with_reducible apply HeadsOnly.ite)

theorem unholdCapsule_heads {σ : State} (a : Adj) (s : State) (h0 : HeadsOnly σ s) : HeadsOnly σ
    (unholdCapsule a s) := by
  refine h0.trans ?_; clear h0; unfold unholdCapsule
  dsimp only
  split
  · rename_i k hk
    split
    · refine freeCapsules_heads _ _ (writeCapsuleHead_heads _ _ _ ?_ (updCapsule_heads _ _ _ (by intro; rfl) _ (HeadsOnly.refl s)))
      exact capsule_stays _ _ _ (by intro; rfl) _ ⟨k, capsuleOf_mem hk, rfl⟩
    · exact HeadsOnly.refl s
  · exact HeadsOnly.refl s

theorem endExecs_heads {σ : State} (a : Adj) (s : State) (h0 : HeadsOnly σ s) : HeadsOnly σ (endExecs a s) := by
  refine h0.trans ?_; clear h0; unfold endExecs
  exact mapStations_heads (fun t => sweepSlots (heldFigs s) { t with notices := t.notices.filter fun n => !isExecOf a n.use }) s (fun _ => rfl) (HeadsOnly.refl s)

theorem finishClose_heads {σ : State} (a : Adj) (s : State) (h0 : HeadsOnly σ s) : HeadsOnly σ (finishClose a
    s) := by
  refine h0.trans ?_; clear h0; unfold finishClose
  (try dsimp only)
  repeat' (first
    | with_reducible exact HeadsOnly.refl _ | assumption | with_reducible apply endExecs_heads
    | with_reducible apply unholdCapsule_heads | with_reducible apply dropPins_heads
    | with_reducible apply releaseStop_heads | with_reducible apply HeadsOnly.ite)

theorem countClass_heads {σ : State} (a : Adj) (cls : Nat) (charged : Option Core) (s : State) (h0 : HeadsOnly
    σ s) : HeadsOnly σ (countClass a cls charged s) := by
  refine h0.trans ?_; clear h0; unfold countClass
  (try dsimp only)
  repeat' (first
    | with_reducible exact HeadsOnly.refl _ | assumption | with_reducible apply backoffCore_heads
    | with_reducible apply chargeEngine_heads | with_reducible apply countConfirmed_heads
    | with_reducible apply countDet_heads | with_reducible apply windowPut_heads | with_reducible apply suspect_heads
    | with_reducible apply stationFault_heads | with_reducible apply updDomain_heads
    | with_reducible apply HeadsOnly.ite | (with_reducible apply HeadsOnly.foldl; (intro _ _; try dsimp only))
    | with_reducible exact HeadsOnly.of_eq rfl rfl rfl | (split <;> try dsimp only))

theorem closeCore_heads {σ : State} (deferred : Bool) (a : Adj) (cls : Nat) (charged : Option Core) (row :
    Nat) (s : State) (h0 : HeadsOnly σ s) : HeadsOnly σ (closeCore deferred a cls charged row s).1 := by
  refine h0.trans ?_; clear h0; unfold closeCore
  (try dsimp only)
  repeat' (first
    | with_reducible exact HeadsOnly.refl _ | assumption | with_reducible apply occurDeferred_heads
    | with_reducible apply occur_heads | with_reducible apply setDisp_heads
    | ((with_reducible apply updAdj_heads); · exact rfl)
    | ((with_reducible apply updStation_heads); · first | exact fun k hk => ⟨k, hk, rfl⟩ | (intro k hk; refine ⟨k, ?_, rfl⟩; revert hk; (try unfold feedDesc); (try dsimp only); (repeat' split) <;> exact id))
    | with_reducible apply countClass_heads | with_reducible apply closeAdjIncident_heads
    | with_reducible apply contain_heads | with_reducible apply settleCu_heads | with_reducible apply HeadsOnly.ite
    | (with_reducible apply HeadsOnly.foldl; (intro _ _; try dsimp only))
    | with_reducible exact HeadsOnly.of_eq rfl rfl rfl | (split <;> try dsimp only))

theorem standIn_heads {σ : State} (i : Nat) (s : State) (h0 : HeadsOnly σ s) : HeadsOnly σ (standIn i s) := by
  refine h0.trans ?_; clear h0; unfold standIn
  repeat' (first
    | with_reducible exact HeadsOnly.refl _ | assumption | with_reducible apply wantH_heads
    | with_reducible apply updAdjSlot_heads | with_reducible apply HeadsOnly.ite
    | (with_reducible apply HeadsOnly.foldl; (intro _ _; try dsimp only))
    | with_reducible exact HeadsOnly.of_eq rfl rfl rfl | (split <;> try dsimp only))

theorem takeQueued_heads {σ : State} (s : State) (h0 : HeadsOnly σ s) : HeadsOnly σ (takeQueued s) := by
  refine h0.trans ?_; clear h0; unfold takeQueued
  (try dsimp only)
  repeat' (first
    | with_reducible exact HeadsOnly.refl _ | assumption | with_reducible apply standIn_heads
    | with_reducible apply lookFor_heads | ((with_reducible apply updAdj_heads); · exact rfl)
    | with_reducible apply HeadsOnly.ite | (with_reducible apply HeadsOnly.foldl; (intro _ _; try dsimp only))
    | with_reducible exact HeadsOnly.of_eq rfl rfl rfl | (split <;> try dsimp only))

theorem freeAdjSlot_heads {σ : State} (i : Nat) (s : State) (h0 : HeadsOnly σ s) : HeadsOnly σ (freeAdjSlot i
    s) := by
  refine h0.trans ?_; clear h0; unfold freeAdjSlot
  repeat' (first
    | with_reducible exact HeadsOnly.refl _ | assumption | with_reducible apply takeQueued_heads
    | with_reducible apply finishClose_heads | ((with_reducible apply updAdj_heads); · exact rfl)
    | with_reducible apply HeadsOnly.ite | (with_reducible apply HeadsOnly.foldl; (intro _ _; try dsimp only))
    | with_reducible exact HeadsOnly.of_eq rfl rfl rfl | (split <;> try dsimp only))

theorem closeSlot_heads {σ : State} (i cls : Nat) (charged : Option Core) (row : Nat) (s : State) (h0 :
    HeadsOnly σ s) : HeadsOnly σ (closeSlot i cls charged row s) := by
  refine h0.trans ?_; clear h0; unfold closeSlot
  (try dsimp only)
  repeat' (first
    | with_reducible exact HeadsOnly.refl _ | assumption | with_reducible apply closeCore_heads
    | with_reducible apply updAdjSlot_heads | with_reducible apply freeAdjSlot_heads
    | with_reducible apply HeadsOnly.ite | (with_reducible apply HeadsOnly.foldl; (intro _ _; try dsimp only))
    | with_reducible exact HeadsOnly.of_eq rfl rfl rfl | (split <;> try dsimp only))

theorem closeUnslotted_heads {σ : State} (deferred : Bool) (a : Adj) (s : State) (h0 : HeadsOnly σ s) :
    HeadsOnly σ (closeUnslotted deferred a s) := by
  refine h0.trans ?_; clear h0; unfold closeUnslotted
  (try dsimp only)
  repeat' (first
    | with_reducible exact HeadsOnly.refl _ | assumption | with_reducible apply closeCore_heads
    | ((with_reducible apply updAdj_heads); · exact rfl) | with_reducible apply finishClose_heads
    | with_reducible apply HeadsOnly.ite)

theorem assertStop_heads {σ : State} (c : Nat) (s : State) (h0 : HeadsOnly σ s) : HeadsOnly σ (assertStop c s) := by
  refine h0.trans ?_; clear h0; unfold assertStop
  repeat' (first
    | with_reducible exact HeadsOnly.refl _ | assumption
    | ((with_reducible apply updStation_heads); · first | exact fun k hk => ⟨k, hk, rfl⟩ | (intro k hk; refine ⟨k, ?_, rfl⟩; revert hk; (try unfold feedDesc); (try dsimp only); (repeat' split) <;> exact id)))

theorem openAdj_heads {σ : State} (a : Adj) (s : State) (h0 : HeadsOnly σ s) : HeadsOnly σ (openAdj a s) := by
  refine h0.trans ?_; clear h0; unfold openAdj
  (try dsimp only)
  repeat' (first
    | with_reducible exact HeadsOnly.refl _ | assumption | with_reducible apply openIncident_heads
    | with_reducible apply assertStop_heads | with_reducible apply takeQueued_heads
    | ((with_reducible apply updAdj_heads); · exact rfl) | with_reducible apply closeUnslotted_heads
    | with_reducible apply HeadsOnly.ite)

theorem understudyFault_heads {σ : State} (a : Adj) (u : Core) (s : State) (h0 : HeadsOnly σ s) : HeadsOnly σ
    (understudyFault a u s) := by
  refine h0.trans ?_; clear h0; unfold understudyFault
  (try dsimp only)
  repeat' (first
    | with_reducible exact HeadsOnly.refl _ | assumption | with_reducible apply occur_heads
    | with_reducible apply backoffCore_heads | with_reducible apply chargeEngine_heads
    | with_reducible apply countConfirmed_heads)

theorem makeMove_heads {σ : State} (i : Nat) (m : AdjMove) (s : State) (h0 : HeadsOnly σ s) : HeadsOnly σ
    (makeMove i m s) := by
  refine h0.trans ?_; clear h0; unfold makeMove
  repeat' (first
    | with_reducible exact HeadsOnly.refl _ | assumption | with_reducible apply closeSlot_heads
    | with_reducible apply wantH_heads | with_reducible apply HeadsOnly.ite
    | (with_reducible apply HeadsOnly.foldl; (intro _ _; try dsimp only))
    | with_reducible exact HeadsOnly.of_eq rfl rfl rfl | (split <;> try dsimp only))

theorem replaceFailing_heads {σ : State} (i : Nat) (a : Adj) (uFails : Bool) (u v : ExecOutcome) (s : State)
    (h0 : HeadsOnly σ s) : HeadsOnly σ (replaceFailing i a uFails u v s) := by
  refine h0.trans ?_; clear h0; unfold replaceFailing
  (try dsimp only)
  repeat' (first
    | with_reducible exact HeadsOnly.refl _ | assumption | with_reducible apply understudyFault_heads
    | with_reducible apply updAdjSlot_heads | with_reducible apply assignU_heads | with_reducible apply assignV_heads
    | with_reducible apply makeMove_heads | with_reducible apply HeadsOnly.ite
    | (with_reducible apply HeadsOnly.foldl; (intro _ _; try dsimp only))
    | with_reducible exact HeadsOnly.of_eq rfl rfl rfl | (split <;> try dsimp only))

theorem evaluate_heads {σ : State} (i : Nat) (s : State) (h0 : HeadsOnly σ s) : HeadsOnly σ (evaluate i s) := by
  refine h0.trans ?_; clear h0; unfold evaluate
  (try dsimp only)
  repeat' (first
    | with_reducible exact HeadsOnly.refl _ | assumption | with_reducible apply replaceFailing_heads
    | with_reducible apply makeMove_heads | with_reducible apply updAdjSlot_heads | with_reducible apply HeadsOnly.ite
    | (with_reducible apply HeadsOnly.foldl; (intro _ _; try dsimp only))
    | with_reducible exact HeadsOnly.of_eq rfl rfl rfl | (split <;> try dsimp only))

theorem understudyLost_heads {σ : State} (i : Nat) (a : Adj) (isU : Bool) (s : State) (h0 : HeadsOnly σ s) :
    HeadsOnly σ (understudyLost i a isU s) := by
  refine h0.trans ?_; clear h0; unfold understudyLost
  (try dsimp only)
  repeat' (first
    | with_reducible exact HeadsOnly.refl _ | assumption | with_reducible apply assignU_heads
    | with_reducible apply assignV_heads | with_reducible apply updAdjSlot_heads | with_reducible apply evaluate_heads
    | with_reducible apply HeadsOnly.ite | (with_reducible apply HeadsOnly.foldl; (intro _ _; try dsimp only))
    | with_reducible exact HeadsOnly.of_eq rfl rfl rfl | (split <;> try dsimp only))

theorem takeOutcome_heads {σ : State} (i : Nat) (which : ExecName) (out : ExecOutcome) (a : Adj) (s : State)
    (h0 : HeadsOnly σ s) : HeadsOnly σ (takeOutcome i which out a s) := by
  refine h0.trans ?_; clear h0; unfold takeOutcome
  (try dsimp only)
  repeat' (first
    | with_reducible exact HeadsOnly.refl _ | assumption | with_reducible apply understudyLost_heads
    | with_reducible apply evaluate_heads | with_reducible apply updAdjSlot_heads | with_reducible apply HeadsOnly.ite
    | (with_reducible apply HeadsOnly.foldl; (intro _ _; try dsimp only))
    | with_reducible exact HeadsOnly.of_eq rfl rfl rfl | (split <;> try dsimp only))

theorem outcomeArrives_heads {σ : State} (i : Nat) (which : ExecName) (gave : Bool) (s : State) (h0 :
    HeadsOnly σ s) : HeadsOnly σ (outcomeArrives i which gave s) := by
  refine h0.trans ?_; clear h0; unfold outcomeArrives
  (try dsimp only)
  repeat' (first
    | with_reducible exact HeadsOnly.refl _ | assumption | with_reducible apply lookFor_heads
    | with_reducible apply takeOutcome_heads | with_reducible apply HeadsOnly.ite
    | (with_reducible apply HeadsOnly.foldl; (intro _ _; try dsimp only))
    | with_reducible exact HeadsOnly.of_eq rfl rfl rfl | (split <;> try dsimp only))

theorem adjTimeout_heads {σ : State} (i : Nat) (s : State) (h0 : HeadsOnly σ s) : HeadsOnly σ (adjTimeout i s) := by
  refine h0.trans ?_; clear h0; unfold adjTimeout
  repeat' (first
    | with_reducible exact HeadsOnly.refl _ | assumption | with_reducible apply closeSlot_heads
    | with_reducible apply HeadsOnly.ite | (with_reducible apply HeadsOnly.foldl; (intro _ _; try dsimp only))
    | with_reducible exact HeadsOnly.of_eq rfl rfl rfl | (split <;> try dsimp only))

theorem containedAll_heads (ctx tc : Nat) : ∀ ls {σ s : State}, HeadsOnly σ s → HeadsOnly σ (containedAll ctx
    tc ls s) := by
  intro ls
  induction ls with
  | nil => intro σ s h; exact h
  | cons a l ih =>
    intro σ s h0
    refine h0.trans ?_; clear h0; unfold containedAll
    repeat' (first
      | with_reducible exact HeadsOnly.refl _ | with_reducible apply ih | assumption
      | with_reducible apply occur_heads | with_reducible apply settleCu_heads)

theorem finishWaiting_heads (ctx : Nat) : ∀ ls {σ s : State}, HeadsOnly σ s → HeadsOnly σ (finishWaiting ctx
    ls s) := by
  intro ls
  induction ls with
  | nil => intro σ s h; exact h
  | cons a l ih =>
    intro σ s h0
    refine h0.trans ?_; clear h0; unfold finishWaiting
    repeat' (first
      | with_reducible exact HeadsOnly.refl _ | with_reducible apply ih | assumption
      | with_reducible apply freeAdjSlot_heads | with_reducible apply HeadsOnly.ite
      | (with_reducible apply HeadsOnly.foldl; (intro _ _; try dsimp only))
      | with_reducible exact HeadsOnly.of_eq rfl rfl rfl | (split <;> try dsimp only))

theorem finishUnslotted_heads {σ : State} (ctx : Nat) (s : State) (h0 : HeadsOnly σ s) : HeadsOnly σ
    (finishUnslotted ctx s) := by
  refine h0.trans ?_; clear h0; unfold finishUnslotted
  (try dsimp only)
  repeat' (first
    | with_reducible exact HeadsOnly.refl _ | assumption | with_reducible apply finishClose_heads
    | ((with_reducible apply updAdj_heads); · exact rfl) | with_reducible apply HeadsOnly.ite
    | (with_reducible apply HeadsOnly.foldl; (intro _ _; try dsimp only)))

theorem finishContext_heads {σ : State} (ctx : Nat) (s : State) (h0 : HeadsOnly σ s) : HeadsOnly σ
    (finishContext ctx s) := by
  refine h0.trans ?_; clear h0; unfold finishContext
  repeat' (first
    | with_reducible exact HeadsOnly.refl _ | assumption | with_reducible apply finishUnslotted_heads
    | with_reducible apply finishWaiting_heads)

theorem acksComplete_heads {σ : State} (ctx : Nat) (s : State) (h0 : HeadsOnly σ s) : HeadsOnly σ
    (acksComplete ctx s) := by
  refine h0.trans ?_; clear h0; unfold acksComplete
  (try dsimp only)
  repeat' (first
    | with_reducible exact HeadsOnly.refl _ | assumption | with_reducible apply finishContext_heads
    | with_reducible apply updContainment_heads | with_reducible apply containedAll_heads
    | with_reducible apply HeadsOnly.ite | (with_reducible apply HeadsOnly.foldl; (intro _ _; try dsimp only))
    | with_reducible exact HeadsOnly.of_eq rfl rfl rfl | (split <;> try dsimp only))

theorem execAdjExecutionOutcome_heads (t : Nat) (slot : Fin 8) (which : ExecName) (gave : Bool) (s : State) :
    ∃ s', execAdjExecutionOutcome t slot which gave s = .next s' ∧ HeadsOnly s s' := by
  refine ⟨_, rfl, ?_⟩
  repeat' (first
    | with_reducible exact HeadsOnly.refl _ | assumption | with_reducible apply outcomeArrives_heads
    | with_reducible apply atTime_heads)

theorem execAdjTimeout_heads (t : Nat) (slot : Fin 8) (s : State) : ∃ s', execAdjTimeout t slot s = .next s' ∧
    HeadsOnly s s' := by
  refine ⟨_, rfl, ?_⟩
  repeat' (first
    | with_reducible exact HeadsOnly.refl _ | assumption | with_reducible apply adjTimeout_heads
    | with_reducible apply atTime_heads)

theorem execContainmentAcksComplete_heads (t : Nat) (ctx : CtxId) (s : State) : ∃ s',
    execContainmentAcksComplete t ctx s = .next s' ∧ HeadsOnly s s' := by
  refine ⟨_, rfl, ?_⟩
  repeat' (first
    | with_reducible exact HeadsOnly.refl _ | assumption | with_reducible apply acksComplete_heads
    | with_reducible apply atTime_heads)

theorem recount_heads (gen : Nat) : ∀ ls {σ s : State}, HeadsOnly σ s → HeadsOnly σ (recount gen ls s) := by
  intro ls
  induction ls with
  | nil => intro σ s h; exact h
  | cons a l ih =>
    intro σ s h0
    refine h0.trans ?_; clear h0; unfold recount
    (try dsimp only)
    repeat' (first
      | with_reducible exact HeadsOnly.refl _ | with_reducible apply ih | assumption
      | with_reducible apply occur_heads | with_reducible apply change_heads | with_reducible apply HeadsOnly.ite)

theorem sendBreleases_heads (x : Barrier) : ∀ ls {σ s : State}, HeadsOnly σ s → HeadsOnly σ (sendBreleases x
    ls s) := by
  intro ls
  induction ls with
  | nil => intro σ s h; exact h
  | cons a l ih =>
    intro σ s h0
    refine h0.trans ?_; clear h0; unfold sendBreleases
    (try dsimp only)
    repeat' (first
      | with_reducible exact HeadsOnly.refl _ | with_reducible apply ih | assumption
      | with_reducible apply gateMsg_heads)

theorem completeGen_heads {σ : State} (b : Nat) (s : State) (h0 : HeadsOnly σ s) : HeadsOnly σ (completeGen b
    s) := by
  refine h0.trans ?_; clear h0; unfold completeGen
  (try dsimp only)
  repeat' (first
    | with_reducible exact HeadsOnly.refl _ | assumption | with_reducible apply recount_heads
    | with_reducible apply actOn_heads | with_reducible apply releaseBarWaiters_heads
    | with_reducible apply sendBreleases_heads | with_reducible apply updBarrier_heads
    | with_reducible apply HeadsOnly.ite | (with_reducible apply HeadsOnly.foldl; (intro _ _; try dsimp only))
    | with_reducible exact HeadsOnly.of_eq rfl rfl rfl | (split <;> try dsimp only))

theorem checkBarrier_heads (b : Nat) : ∀ ls {σ s : State}, HeadsOnly σ s → HeadsOnly σ (checkBarrier b ls s) := by
  intro ls
  induction ls with
  | zero => intro σ s h; exact h
  | succ a ih =>
    intro σ s h0
    refine h0.trans ?_; clear h0; unfold checkBarrier
    (try dsimp only)
    repeat' (first
      | with_reducible exact HeadsOnly.refl _ | with_reducible apply ih | assumption
      | with_reducible apply updBarrier_heads | with_reducible apply gateMsg_heads
      | with_reducible apply completeGen_heads | with_reducible apply HeadsOnly.ite
      | (with_reducible apply HeadsOnly.foldl; (intro _ _; try dsimp only))
      | with_reducible exact HeadsOnly.of_eq rfl rfl rfl | (split <;> try dsimp only))

theorem advance_heads {σ : State} (b : Nat) (s : State) (h0 : HeadsOnly σ s) : HeadsOnly σ (advance b s) := by
  refine h0.trans ?_; clear h0; unfold advance
  repeat' (first | with_reducible exact HeadsOnly.refl _ | assumption | with_reducible apply checkBarrier_heads)

theorem advanceSeals_heads (ctx : Nat) : ∀ ls {σ s : State}, HeadsOnly σ s → HeadsOnly σ (advanceSeals ctx ls
    s) := by
  intro ls
  induction ls with
  | nil => intro σ s h; exact h
  | cons a l ih =>
    intro σ s h0
    refine h0.trans ?_; clear h0; unfold advanceSeals
    (try dsimp only)
    repeat' (first
      | with_reducible exact HeadsOnly.refl _ | with_reducible apply ih | assumption
      | with_reducible apply advance_heads | with_reducible apply HeadsOnly.ite)

theorem sealChanged_heads {σ : State} (o : Nat) (s : State) (h0 : HeadsOnly σ s) : HeadsOnly σ (sealChanged o
    s) := by
  refine h0.trans ?_; clear h0; unfold sealChanged
  (try dsimp only)
  repeat' (first
    | with_reducible exact HeadsOnly.refl _ | assumption | with_reducible apply advanceSeals_heads
    | with_reducible apply HeadsOnly.ite | (with_reducible apply HeadsOnly.foldl; (intro _ _; try dsimp only))
    | with_reducible exact HeadsOnly.of_eq rfl rfl rfl | (split <;> try dsimp only))

theorem cancelSub_heads {σ : State} (o : Nat) (p : Word) (s : State) (h0 : HeadsOnly σ s) : HeadsOnly σ
    (cancelSub o p s) := by
  refine h0.trans ?_; clear h0; unfold cancelSub
  repeat' (first | with_reducible exact HeadsOnly.refl _ | assumption | with_reducible apply updObject_heads)

theorem subscribe_heads {σ : State} (o : Nat) (p : Word) (cond : Nat) (target : Word) (op : Nat) (s : State)
    (h0 : HeadsOnly σ s) : HeadsOnly σ (subscribe o p cond target op s) := by
  refine h0.trans ?_; clear h0; unfold subscribe
  (try dsimp only)
  repeat' (first
    | with_reducible exact HeadsOnly.refl _ | assumption | with_reducible apply occur_heads
    | with_reducible apply sendRelease_heads | with_reducible apply syncError_heads
    | with_reducible apply updObject_heads | with_reducible apply HeadsOnly.ite)

theorem updArrival_heads {σ : State} (p : Word) (f : Arrival → Arrival) (s : State) (h0 : HeadsOnly σ s) :
    HeadsOnly σ (updArrival p f s) := by
  refine h0.trans ?_; clear h0; unfold updArrival
  repeat' (first | with_reducible exact HeadsOnly.refl _ | assumption | with_reducible apply updSync_heads)

theorem applySignal_heads {σ : State} (m : SyncMsg) (s : State) (h0 : HeadsOnly σ s) : HeadsOnly σ
    (applySignal m s) := by
  refine h0.trans ?_; clear h0; unfold applySignal
  (try dsimp only)
  repeat' (first
    | with_reducible exact HeadsOnly.refl _ | assumption | with_reducible apply syncError_heads
    | with_reducible apply sealChanged_heads | with_reducible apply actOn_heads | with_reducible apply HeadsOnly.ite)

theorem applySubscribe_heads {σ : State} (m : SyncMsg) (s : State) (h0 : HeadsOnly σ s) : HeadsOnly σ
    (applySubscribe m s) := by
  refine h0.trans ?_; clear h0; unfold applySubscribe
  (try dsimp only)
  repeat' (first
    | with_reducible exact HeadsOnly.refl _ | assumption | with_reducible apply sendMsg_heads
    | with_reducible apply syncError_heads | with_reducible apply subscribe_heads
    | with_reducible apply HeadsOnly.ite)

theorem applyCancel_heads {σ : State} (m : SyncMsg) (s : State) (h0 : HeadsOnly σ s) : HeadsOnly σ
    (applyCancel m s) := by
  refine h0.trans ?_; clear h0; unfold applyCancel
  (try dsimp only)
  repeat' (first
    | with_reducible exact HeadsOnly.refl _ | assumption | with_reducible apply cancelSub_heads
    | with_reducible apply sendMsg_heads | with_reducible apply HeadsOnly.ite)

theorem applyCarry_heads {σ : State} (m : SyncMsg) (s : State) (h0 : HeadsOnly σ s) : HeadsOnly σ (applyCarry
    m s) := by
  refine h0.trans ?_; clear h0; unfold applyCarry
  repeat' (first | with_reducible exact HeadsOnly.refl _ | assumption | with_reducible apply updArrival_heads)

theorem drainHeld_heads (p : Word) : ∀ ls  {σ s : State}, HeadsOnly σ s → HeadsOnly σ (drainHeld p ls  s).2 := by
  intro ls
  induction ls with
  | nil => intro  σ s h; exact h
  | cons a l ih =>
    intro  σ s h0
    refine h0.trans ?_; clear h0; unfold drainHeld
    (try dsimp only)
    repeat' (first
      | with_reducible exact HeadsOnly.refl _ | with_reducible apply ih | assumption
      | with_reducible apply applySignal_heads | with_reducible apply updArrival_heads
      | with_reducible apply applySubscribe_heads | with_reducible apply applyCancel_heads
      | with_reducible apply applyCarry_heads | with_reducible apply HeadsOnly.ite
      | (with_reducible apply HeadsOnly.foldl; (intro _ _; try dsimp only))
      | with_reducible exact HeadsOnly.of_eq rfl rfl rfl | (split <;> try dsimp only))

theorem recordVerdict_heads {σ : State} (c : Nat) (u : Cu) (k : Nat × Nat) (outs : List (Nat × Nat)) (cycles :
    Nat) (s : State) (h0 : HeadsOnly σ s) : HeadsOnly σ (recordVerdict c u k outs cycles s) := by
  refine h0.trans ?_; clear h0; unfold recordVerdict
  (try dsimp only)
  repeat' (first
    | with_reducible exact HeadsOnly.refl _ | assumption
    | ((with_reducible apply updStation_heads); · first | exact fun k hk => ⟨k, hk, rfl⟩ | (intro k hk; refine ⟨k, ?_, rfl⟩; revert hk; (try unfold feedDesc); (try dsimp only); (repeat' split) <;> exact id))
    | with_reducible apply traceRec_heads | with_reducible apply HeadsOnly.ite)

theorem signalNumerics_heads {σ : State} (ctx : Nat) (s : State) (h0 : HeadsOnly σ s) : HeadsOnly σ
    (signalNumerics ctx s) := by
  refine h0.trans ?_; clear h0; unfold signalNumerics
  repeat' (first
    | with_reducible exact HeadsOnly.refl _ | assumption | with_reducible apply actOn_heads
    | with_reducible apply HeadsOnly.ite | (with_reducible apply HeadsOnly.foldl; (intro _ _; try dsimp only))
    | with_reducible exact HeadsOnly.of_eq rfl rfl rfl | (split <;> try dsimp only))

theorem takeCensus_heads {σ : State} (c : Nat) (u : Cu) (s : State) (h0 : HeadsOnly σ s) : HeadsOnly σ
    (takeCensus c u s) := by
  refine h0.trans ?_; clear h0; unfold takeCensus
  (try dsimp only)
  repeat' (first
    | with_reducible exact HeadsOnly.refl _ | assumption
    | ((with_reducible apply updStation_heads); · first | exact fun k hk => ⟨k, hk, rfl⟩ | (intro k hk; refine ⟨k, ?_, rfl⟩; revert hk; (try unfold feedDesc); (try dsimp only); (repeat' split) <;> exact id))
    | with_reducible apply signalNumerics_heads | with_reducible apply occur_heads
    | with_reducible apply HeadsOnly.ite | (with_reducible apply HeadsOnly.foldl; (intro _ _; try dsimp only))
    | with_reducible exact HeadsOnly.of_eq rfl rfl rfl | (split <;> try dsimp only))

theorem countChecked_heads {σ : State} (c : Nat) (u : Cu) (s : State) (h0 : HeadsOnly σ s) : HeadsOnly σ
    (countChecked c u s) := by
  refine h0.trans ?_; clear h0; unfold countChecked
  (try dsimp only)
  repeat' (first
    | with_reducible exact HeadsOnly.refl _ | assumption | with_reducible apply updLed_heads
    | ((with_reducible apply updCapsule_heads); · exact fun _ => rfl) | with_reducible apply HeadsOnly.ite
    | (with_reducible apply HeadsOnly.foldl; (intro _ _; try dsimp only))
    | with_reducible exact HeadsOnly.of_eq rfl rfl rfl | (split <;> try dsimp only))

theorem checkFail_heads {σ : State} (c : Nat) (u : Cu) (slot : Nat) (s : State) (h0 : HeadsOnly σ s) :
    HeadsOnly σ (checkFail c u slot s) := by
  refine h0.trans ?_; clear h0; unfold checkFail
  (try dsimp only)
  repeat' (first
    | with_reducible exact HeadsOnly.refl _ | assumption | with_reducible apply occur_heads
    | with_reducible apply HeadsOnly.ite | (with_reducible apply HeadsOnly.foldl; (intro _ _; try dsimp only))
    | with_reducible exact HeadsOnly.of_eq rfl rfl rfl | (split <;> try dsimp only))

theorem checkFails_heads (c : Nat) (u : Cu) : ∀ ls {σ s : State}, HeadsOnly σ s → HeadsOnly σ (checkFails c u
    ls s) := by
  intro ls
  induction ls with
  | nil => intro σ s h; exact h
  | cons a l ih =>
    intro σ s h0
    refine h0.trans ?_; clear h0; unfold checkFails
    repeat' (first
      | with_reducible exact HeadsOnly.refl _ | with_reducible apply ih | assumption
      | with_reducible apply checkFail_heads)

theorem checkForced_heads {σ : State} (c : Nat) (u : Cu) (s : State) (h0 : HeadsOnly σ s) : HeadsOnly σ
    (checkForced c u s) := by
  refine h0.trans ?_; clear h0; unfold checkForced
  repeat' (first | with_reducible exact HeadsOnly.refl _ | assumption | with_reducible apply occur_heads)

theorem checkPoisoned_heads (c : Nat) (u : Cu) : ∀ ls {σ s : State}, HeadsOnly σ s → HeadsOnly σ
    (checkPoisoned c u ls s) := by
  intro ls
  induction ls with
  | nil => intro σ s h; exact h
  | cons a l ih =>
    intro σ s h0
    refine h0.trans ?_; clear h0; unfold checkPoisoned
    repeat' (first
      | with_reducible exact HeadsOnly.refl _ | with_reducible apply ih | assumption
      | with_reducible apply occur_heads)

theorem afterPass_heads {σ : State} (c : Nat) (u : Cu) (s : State) (h0 : HeadsOnly σ s) : HeadsOnly σ
    (afterPass c u s) := by
  refine h0.trans ?_; clear h0; unfold afterPass
  repeat' (first
    | with_reducible exact HeadsOnly.refl _ | assumption | with_reducible apply countChecked_heads
    | with_reducible apply updDomain_heads)

theorem afterFail_heads {σ : State} (c : Nat) (u : Cu) (outs : List (Nat × Nat)) (s : State) (h0 : HeadsOnly σ
    s) : HeadsOnly σ (afterFail c u outs s) := by
  refine h0.trans ?_; clear h0; unfold afterFail
  (try dsimp only)
  repeat' (first
    | with_reducible exact HeadsOnly.refl _ | assumption | with_reducible apply checkForced_heads
    | with_reducible apply checkFails_heads | with_reducible apply countChecked_heads
    | with_reducible apply loadPin_heads | with_reducible apply updDomain_heads | with_reducible apply openAdj_heads
    | with_reducible apply HeadsOnly.ite)

theorem afterPoison_heads {σ : State} (c : Nat) (u : Cu) (outs : List (Nat × Nat)) (s : State) (h0 : HeadsOnly
    σ s) : HeadsOnly σ (afterPoison c u outs s) := by
  refine h0.trans ?_; clear h0; unfold afterPoison
  (try dsimp only)
  repeat' (first
    | with_reducible exact HeadsOnly.refl _ | assumption | with_reducible apply occur_heads
    | with_reducible apply checkPoisoned_heads | with_reducible apply openIncident_heads
    | with_reducible apply skipSample_heads | with_reducible apply HeadsOnly.ite)

theorem releaseBanks_heads {σ : State} (c : Nat) (u : Cu) (s : State) (h0 : HeadsOnly σ s) : HeadsOnly σ
    (releaseBanks c u s) := by
  refine h0.trans ?_; clear h0; unfold releaseBanks
  repeat' (first
    | with_reducible exact HeadsOnly.refl _ | assumption
    | ((with_reducible apply updStation_heads); · first | exact fun k hk => ⟨k, hk, rfl⟩ | (intro k hk; refine ⟨k, ?_, rfl⟩; revert hk; (try unfold feedDesc); (try dsimp only); (repeat' split) <;> exact id)))

theorem giveVerdict_heads {σ : State} (c : Nat) (u : Cu) (outs : List (Nat × Nat)) (cycles : Nat) (s : State)
    (h0 : HeadsOnly σ s) : HeadsOnly σ (giveVerdict c u outs cycles s) := by
  refine h0.trans ?_; clear h0; unfold giveVerdict
  (try dsimp only)
  repeat' (first
    | with_reducible exact HeadsOnly.refl _ | assumption | with_reducible apply updCus_heads
    | ((with_reducible apply updStation_heads); · first | exact fun k hk => ⟨k, hk, rfl⟩ | (intro k hk; refine ⟨k, ?_, rfl⟩; revert hk; (try unfold feedDesc); (try dsimp only); (repeat' split) <;> exact id))
    | with_reducible apply takeCensus_heads | with_reducible apply recordVerdict_heads
    | with_reducible apply afterPass_heads | with_reducible apply afterFail_heads
    | with_reducible apply afterPoison_heads | with_reducible apply releaseBanks_heads
    | with_reducible apply settleCu_heads | with_reducible apply HeadsOnly.ite
    | (with_reducible apply HeadsOnly.foldl; (intro _ _; try dsimp only))
    | with_reducible exact HeadsOnly.of_eq rfl rfl rfl | (split <;> try dsimp only))

theorem noteLate_heads {σ : State} (c : Nat) (u : Cu) (s : State) (h0 : HeadsOnly σ s) : HeadsOnly σ (noteLate
    c u s) := by
  refine h0.trans ?_; clear h0; unfold noteLate
  (try dsimp only)
  repeat' (first
    | with_reducible exact HeadsOnly.refl _ | assumption | with_reducible apply occur_heads
    | with_reducible apply backoffCore_heads | with_reducible apply stationFault_heads
    | with_reducible apply updCus_heads | with_reducible apply HeadsOnly.ite)

theorem verdictArrives_heads {σ : State} (c : Nat) (tag : Word) (cycles : Nat) (s : State) (h0 : HeadsOnly σ
    s) : HeadsOnly σ (verdictArrives c tag cycles s) := by
  refine h0.trans ?_; clear h0; unfold verdictArrives
  (try dsimp only)
  repeat' (first
    | with_reducible exact HeadsOnly.refl _ | assumption | with_reducible apply noteLate_heads
    | with_reducible apply giveVerdict_heads | with_reducible apply HeadsOnly.ite
    | (with_reducible apply HeadsOnly.foldl; (intro _ _; try dsimp only))
    | with_reducible exact HeadsOnly.of_eq rfl rfl rfl | (split <;> try dsimp only))

theorem forceVerdict_heads {σ : State} (c : Nat) (tag : Word) (cycles : Nat) (s : State) (h0 : HeadsOnly σ s)
    : HeadsOnly σ (forceVerdict c tag cycles s) := by
  refine h0.trans ?_; clear h0; unfold forceVerdict
  (try dsimp only)
  repeat' (first
    | with_reducible exact HeadsOnly.refl _ | assumption | with_reducible apply noteLate_heads
    | with_reducible apply giveVerdict_heads | with_reducible apply HeadsOnly.ite
    | (with_reducible apply HeadsOnly.foldl; (intro _ _; try dsimp only))
    | with_reducible exact HeadsOnly.of_eq rfl rfl rfl | (split <;> try dsimp only))

theorem coreStops_heads {σ : State} (c : Nat) (s : State) (h0 : HeadsOnly σ s) : HeadsOnly σ (coreStops c s) := by
  refine h0.trans ?_; clear h0; unfold coreStops
  repeat' (first
    | with_reducible exact HeadsOnly.refl _ | assumption | with_reducible apply startHomes_heads
    | ((with_reducible apply updStation_heads); · first | exact fun k hk => ⟨k, hk, rfl⟩ | (intro k hk; refine ⟨k, ?_, rfl⟩; revert hk; (try unfold feedDesc); (try dsimp only); (repeat' split) <;> exact id))
    | with_reducible apply HeadsOnly.ite)

theorem execVerdictGiven_heads (t : Nat) (core : Core) (tag : Word) (cycles : Nat) (s : State) : ∃ s',
    execVerdictGiven t core tag cycles s = .next s' ∧ HeadsOnly s s' := by
  refine ⟨_, rfl, ?_⟩
  repeat' (first
    | with_reducible exact HeadsOnly.refl _ | assumption | with_reducible apply verdictArrives_heads
    | with_reducible apply atTime_heads)

theorem execVerdictForcedFail_heads (t : Nat) (core : Core) (tag : Word) (cycles : Nat) (s : State) : ∃ s',
    execVerdictForcedFail t core tag cycles s = .next s' ∧ HeadsOnly s s' := by
  refine ⟨_, rfl, ?_⟩
  repeat' (first
    | with_reducible exact HeadsOnly.refl _ | assumption | with_reducible apply forceVerdict_heads
    | with_reducible apply atTime_heads)

theorem execCoreStopped_heads (t : Nat) (core : Core) (s : State) : ∃ s', execCoreStopped t core s = .next s'
    ∧ HeadsOnly s s' := by
  refine ⟨_, rfl, ?_⟩
  repeat' (first
    | with_reducible exact HeadsOnly.refl _ | assumption | with_reducible apply coreStops_heads
    | with_reducible apply atTime_heads)

theorem straddle_heads {σ : State} (c : Nat) (k : Capsule) (r : Replay) (s : State) (h0 : HeadsOnly σ s) :
    HeadsOnly σ (straddle c k r s) := by
  refine h0.trans ?_; clear h0; unfold straddle
  repeat' (first
    | with_reducible exact HeadsOnly.refl _ | assumption | with_reducible apply giveReprise_heads
    | with_reducible apply occur_heads)

theorem mismatch_heads {σ : State} (c : Nat) (k : Capsule) (r : Replay) (results : List Byte) (bad : List Nat)
    (s : State) (h : ∃ k' ∈ (station s c).capsules, k'.pos = k.pos) (h0 : HeadsOnly σ s) : HeadsOnly σ
    (mismatch c k r results bad s) := by
  refine h0.trans ?_
  unfold mismatch
  dsimp only
  refine giveReprise_heads _ _ _ _ (openAdj_heads _ _ (holdCapsuleOf_heads _ _ _ ?_ (occur_heads _ _ _ _ _ _ (HeadsOnly.refl s))))
  simpa [station] using h

theorem dropReplay_heads {σ : State} (r : Replay) (s : State) (h0 : HeadsOnly σ s) : HeadsOnly σ (dropReplay r
    s) := by
  refine h0.trans ?_; clear h0; unfold dropReplay
  repeat' (first
    | with_reducible exact HeadsOnly.refl _ | assumption | ((with_reducible apply updAdj_heads); · exact rfl))

theorem compareReplay_heads {σ : State} (c : Nat) (r : Replay) (results : List Byte) (s : State) (h0 :
    HeadsOnly σ s) : HeadsOnly σ (compareReplay c r results s) := by
  refine h0.trans ?_; clear h0; unfold compareReplay
  split
  · exact HeadsOnly.refl s
  · rename_i k hk
    split
    · exact HeadsOnly.refl s
    · split
      · exact straddle_heads _ _ _ _ (HeadsOnly.refl s)
      · dsimp only
        split
        · exact giveReprise_heads _ _ _ _ (HeadsOnly.refl s)
        · exact mismatch_heads _ _ _ _ _ _ ⟨k, capsuleOf_mem hk, rfl⟩ (HeadsOnly.refl s)

theorem compareDone_heads {σ : State} (c : Nat) (tag : Word) (s : State) (h0 : HeadsOnly σ s) : HeadsOnly σ
    (compareDone c tag s) := by
  refine h0.trans ?_; clear h0; unfold compareDone
  repeat' (first
    | with_reducible exact HeadsOnly.refl _ | assumption | with_reducible apply compareReplay_heads
    | with_reducible apply dropReplay_heads | with_reducible apply HeadsOnly.ite
    | (with_reducible apply HeadsOnly.foldl; (intro _ _; try dsimp only))
    | with_reducible exact HeadsOnly.of_eq rfl rfl rfl | (split <;> try dsimp only))

theorem execRepriseCompareDone_heads (t : Nat) (core : Core) (tag : Word) (results : List Byte) (redLen : Nat)
    (sums : List Dy) (s : State) : ∃ s', execRepriseCompareDone t core tag results redLen sums s = .next s' ∧
    HeadsOnly s s' := by
  refine ⟨_, rfl, ?_⟩
  repeat' (first
    | with_reducible exact HeadsOnly.refl _ | assumption | with_reducible apply compareDone_heads
    | with_reducible apply atTime_heads)

theorem touchGap_heads {σ : State} (c cause : Nat) (u : Cu) (s : State) (h0 : HeadsOnly σ s) : HeadsOnly σ
    (touchGap c cause u s) := by
  refine h0.trans ?_; clear h0; unfold touchGap
  (try dsimp only)
  repeat' (first
    | with_reducible exact HeadsOnly.refl _ | assumption | with_reducible apply updCus_heads
    | with_reducible apply skipSample_heads | with_reducible apply giveVerdict_heads
    | with_reducible apply HeadsOnly.ite)

theorem touchAll_heads (c cause : Nat) : ∀ ls {σ s : State}, HeadsOnly σ s → HeadsOnly σ (touchAll c cause ls
    s) := by
  intro ls
  induction ls with
  | nil => intro σ s h; exact h
  | cons a l ih =>
    intro σ s h0
    refine h0.trans ?_; clear h0; unfold touchAll
    repeat' (first
      | with_reducible exact HeadsOnly.refl _ | with_reducible apply ih | assumption
      | with_reducible apply touchGap_heads)

theorem recordGap_heads {σ : State} (c port cause : Nat) (tag : Word) (type opid lost : Nat) (s : State) (h0 :
    HeadsOnly σ s) : HeadsOnly σ (recordGap c port cause tag type opid lost s) := by
  refine h0.trans ?_; clear h0; unfold recordGap
  repeat' (first | with_reducible exact HeadsOnly.refl _ | assumption | with_reducible apply occur_heads)

theorem gapOf_heads {σ : State} (c port cause type lost : Nat) (u : Cu) (s : State) (h0 : HeadsOnly σ s) :
    HeadsOnly σ (gapOf c port cause type lost u s) := by
  refine h0.trans ?_; clear h0; unfold gapOf
  repeat' (first
    | with_reducible exact HeadsOnly.refl _ | assumption | with_reducible apply touchGap_heads
    | with_reducible apply recordGap_heads)

theorem gapUntied_heads {σ : State} (c port cause q type opid lost : Nat) (s : State) (h0 : HeadsOnly σ s) :
    HeadsOnly σ (gapUntied c port cause q type opid lost s) := by
  refine h0.trans ?_; clear h0; unfold gapUntied
  (try dsimp only)
  repeat' (first
    | with_reducible exact HeadsOnly.refl _ | assumption | with_reducible apply recordGap_heads
    | with_reducible apply touchAll_heads | with_reducible apply updQueue_heads)

theorem overflowFault_heads {σ : State} (c : Nat) (tag : Word) (s : State) (h0 : HeadsOnly σ s) : HeadsOnly σ
    (overflowFault c tag s) := by
  refine h0.trans ?_; clear h0; unfold overflowFault
  repeat' (first
    | with_reducible exact HeadsOnly.refl _ | assumption | with_reducible apply stationFault_heads
    | with_reducible apply HeadsOnly.ite)

theorem recordFails_heads {σ : State} (c port cause q type opid : Nat) (s : State) (h0 : HeadsOnly σ s) :
    HeadsOnly σ (recordFails c port cause q type opid s) := by
  refine h0.trans ?_; clear h0; unfold recordFails
  repeat' (first
    | with_reducible exact HeadsOnly.refl _ | assumption | with_reducible apply gapOf_heads
    | with_reducible apply gapUntied_heads | with_reducible apply HeadsOnly.ite
    | (with_reducible apply HeadsOnly.foldl; (intro _ _; try dsimp only))
    | with_reducible exact HeadsOnly.of_eq rfl rfl rfl | (split <;> try dsimp only))

theorem recordError_heads {σ : State} (c port q type opid : Nat) (s : State) (h0 : HeadsOnly σ s) : HeadsOnly
    σ (recordError c port q type opid s) := by
  refine h0.trans ?_; clear h0; unfold recordError
  repeat' (first | with_reducible exact HeadsOnly.refl _ | assumption | with_reducible apply recordFails_heads)

theorem withRoom_heads {σ : State} (c port q type opid fill : Nat) (act : State → State) (s : State) (hact : ∀
     {σ s : State}, HeadsOnly σ s → HeadsOnly σ (act  s)) (h0 : HeadsOnly σ s) : HeadsOnly σ (withRoom c port
    q type opid fill act s) := by
  refine h0.trans ?_; clear h0; unfold withRoom
  (try dsimp only)
  repeat' (first
    | with_reducible exact HeadsOnly.refl _ | assumption | with_reducible apply overflowFault_heads
    | with_reducible apply recordFails_heads | with_reducible apply hact | with_reducible apply HeadsOnly.ite)

theorem descArrives_heads {σ : State} (c : Nat) (q : Queue) (opid : BitVec 16) (d : OpDesc) (s : State) (h0 :
    HeadsOnly σ s) : HeadsOnly σ (descArrives c q opid d s) := by
  refine h0.trans ?_; clear h0; unfold descArrives
  (try dsimp only)
  repeat' (first
    | with_reducible exact HeadsOnly.refl _ | assumption | with_reducible apply gapUntied_heads
    | with_reducible apply gapOf_heads
    | ((with_reducible apply updStation_heads); · first | exact fun k hk => ⟨k, hk, rfl⟩ | (intro k hk; refine ⟨k, ?_, rfl⟩; revert hk; (try unfold feedDesc); (try dsimp only); (repeat' split) <;> exact id))
    | with_reducible apply updCus_heads | with_reducible apply kitInvalid_heads | with_reducible apply HeadsOnly.ite
    | (with_reducible apply HeadsOnly.foldl; (intro _ _; try dsimp only))
    | with_reducible exact HeadsOnly.of_eq rfl rfl rfl | (split <;> try dsimp only))

theorem feedArrives_heads {σ : State} (c : Nat) (q : Queue) (opid fed : BitVec 16) (role : Nat) (s : State)
    (h0 : HeadsOnly σ s) : HeadsOnly σ (feedArrives c q opid fed role s) := by
  refine h0.trans ?_; clear h0; unfold feedArrives
  (try dsimp only)
  repeat' (first
    | with_reducible exact HeadsOnly.refl _ | assumption | with_reducible apply recordError_heads
    | with_reducible apply gapUntied_heads
    | ((with_reducible apply updStation_heads); · first | exact fun k hk => ⟨k, hk, rfl⟩ | (intro k hk; refine ⟨k, ?_, rfl⟩; revert hk; (try unfold feedDesc); (try dsimp only); (repeat' split) <;> exact id))
    | with_reducible apply HeadsOnly.ite | (with_reducible apply HeadsOnly.foldl; (intro _ _; try dsimp only))
    | with_reducible exact HeadsOnly.of_eq rfl rfl rfl | (split <;> try dsimp only))

theorem execOpdesc_heads (t : Nat) (tap : Intake) (queue : Queue) (opid : BitVec 16) (d : OpDesc) (s : State)
    : ∃ s', execOpdesc t tap queue opid d s = .next s' ∧ HeadsOnly s s' := by
  refine ⟨_, rfl, ?_⟩
  repeat' (first
    | with_reducible exact HeadsOnly.refl _ | assumption | with_reducible apply withRoom_heads
    | with_reducible apply descArrives_heads | with_reducible apply atTime_heads | with_reducible apply HeadsOnly.ite
    | (with_reducible apply HeadsOnly.foldl; (intro _ _; try dsimp only))
    | with_reducible exact HeadsOnly.of_eq rfl rfl rfl | (intro _; try dsimp only))

theorem execFeed_heads (t : Nat) (tap : Intake) (queue : Queue) (opid fed : BitVec 16) (role : Byte) (s :
    State) : ∃ s', execFeed t tap queue opid fed role s = .next s' ∧ HeadsOnly s s' := by
  refine ⟨_, rfl, ?_⟩
  repeat' (first
    | with_reducible exact HeadsOnly.refl _ | assumption | with_reducible apply withRoom_heads
    | with_reducible apply feedArrives_heads | with_reducible apply atTime_heads | with_reducible apply HeadsOnly.ite
    | (with_reducible apply HeadsOnly.foldl; (intro _ _; try dsimp only))
    | with_reducible exact HeadsOnly.of_eq rfl rfl rfl | (intro _; try dsimp only))

theorem answer_heads {σ : State} (result : Nat) (data : List Byte) (s : State) (h0 : HeadsOnly σ s) :
    HeadsOnly σ (answer result data s) := by
  refine h0.trans ?_; clear h0; unfold answer
  repeat' (first | with_reducible exact HeadsOnly.refl _ | assumption | with_reducible apply updI3c_heads)

end Sys2Proof.Laws
end

