-- ==== Sys2Proof/Laws/Kept.lean ====
section
/-! SUPPORT. What every command keeps, as a relation between the state before and after (`Kept`), and the shared operations that the later files build on. Power loss keeps less: `Stored`. -/

namespace Sys2Proof.Laws
open Sys2Proof.Machine Sys2Proof.Safety



/-- What a command keeps, power loss among them: the queue of commands, the canonical form of memory, the ones in OTP, the
bounds of the recorder's FIFOs and of the out-of-band queue, and the cap on the set-points. -/
structure Stored (s t : State) : Prop where
  pending : t.pending = s.pending
  mem : Memory.wf s.mem = true → Memory.wf t.mem = true
  otp : otpGrows s.boot t.boot
  evt : fifosFit s.evt → fifosFit t.evt
  i3c : queueFits s.i3c → queueFits t.i3c
  tempo : atMostNominal s.tempo → atMostNominal t.tempo

/-- What a command keeps while the power stays on: also the horizon at each gate point, and what may leave. -/
structure Kept (s t : State) : Prop extends Stored s t where
  vh : gatesOnward s.hz t.hz
  items : leftBehindHorizon s t

theorem Stored.refl (s : State) : Stored s s := ⟨rfl, id, fun _ _ => id, id, id, id⟩
theorem Kept.refl (s : State) : Kept s s := ⟨Stored.refl s, fun _ => Nat.le_refl _, [], rfl, by simp⟩
theorem Stored.trans {s t u : State} (h : Stored s t) (k : Stored t u) : Stored s u :=
  ⟨k.1.trans h.1, fun x => k.2 (h.2 x), fun a i x => k.3 a i (h.3 a i x), fun x => k.4 (h.4 x), fun x => k.5 (h.5 x),
   fun x => k.6 (h.6 x)⟩
theorem Kept.trans {s t u : State} (h : Kept s t) (k : Kept t u) : Kept s u := by
  refine ⟨h.toStored.trans k.toStored, fun g => (h.vh g).trans (k.vh g), ?_⟩
  obtain ⟨n, hn, hp⟩ := h.items
  obtain ⟨m, hm, hq⟩ := k.items
  refine ⟨m ++ n, by rw [hm, hn, List.append_assoc], fun x hx hg => ?_⟩
  rcases List.mem_append.1 hx with hx | hx
  · exact hq x hx hg
  · exact (hp x hx hg).trans (k.vh x.1)
theorem Kept.of_eq {s t : State} (p : t.pending = s.pending) (m : t.mem = s.mem) (o : t.boot.otp = s.boot.otp)
    (q : t.out.items = s.out.items) (e : fifosFit s.evt → fifosFit t.evt) (i : queueFits s.i3c → queueFits t.i3c)
    (w : atMostNominal s.tempo → atMostNominal t.tempo) (g : t.hz.gates = s.hz.gates) : Kept s t :=
  ⟨⟨p, fun h => by rw [m]; exact h, fun a i h => by rw [o]; exact h, e, i, w⟩,
   fun x => by rw [g], [], by simpa using q, by simp⟩
theorem Kept.ite {c : Prop} [Decidable c] {s a b : State} (ha : Kept s a) (hb : Kept s b) : Kept s (if c then a else b) := by
  split <;> assumption
theorem Kept.foldl {α : Type} {r : State} {f : State → α → State} (h : ∀ s x, Kept s (f s x)) (l : List α) (s : State)
    (h0 : Kept r s) : Kept r (l.foldl f s) := by
  refine h0.trans ?_
  clear h0
  induction l generalizing s with
  | nil => exact Kept.refl s
  | cons a l ih => exact (h s a).trans (ih _)

theorem updEvt_kept {r} (f s) (h : fifosFit s.evt → fifosFit (f s.evt)) (h0 : Kept r s) : Kept r (updEvt f s) :=
  h0.trans (Kept.of_eq rfl rfl rfl rfl h id id rfl)
theorem updCrash_kept {r} (f s) (h : Kept r s) : Kept r (updCrash f s) := h.trans (Kept.of_eq rfl rfl rfl rfl id id id rfl)
theorem updCfg_kept {r} (f s) (h : Kept r s) : Kept r (updCfg f s) := h.trans (Kept.of_eq rfl rfl rfl rfl id id id rfl)
theorem updHz_kept {r} (f s) (h : gatesOnward s.hz (f s.hz)) (h0 : Kept r s) : Kept r (updHz f s) :=
  h0.trans ⟨⟨rfl, id, fun _ _ => id, id, id, id⟩, h, [], rfl, by simp⟩
theorem updAdj_kept {r} (f s) (h : Kept r s) : Kept r (updAdj f s) := h.trans (Kept.of_eq rfl rfl rfl rfl id id id rfl)
theorem updLed_kept {r} (f s) (h : Kept r s) : Kept r (updLed f s) := h.trans (Kept.of_eq rfl rfl rfl rfl id id id rfl)
theorem updTempo_kept {r} (f s) (h : atMostNominal s.tempo → atMostNominal (f s.tempo)) (h0 : Kept r s) : Kept r (updTempo f s) :=
  h0.trans (Kept.of_eq rfl rfl rfl rfl id id h rfl)
theorem updDomain_kept {r} (d f) (s : State) (h : (domain s d).setpoint ≤ 1500 → (f (domain s d)).setpoint ≤ 1500) (h0 : Kept r s) :
    Kept r (updDomain d f s) := by
  refine updTempo_kept _ _ (fun hs x => ?_) h0
  dsimp only
  rw [tget_tput]
  split
  · exact h (hs d)
  · exact hs x
theorem updSync_kept {r} (f s) (h : Kept r s) : Kept r (updSync f s) := h.trans (Kept.of_eq rfl rfl rfl rfl id id id rfl)
theorem updRst_kept {r} (f s) (h : Kept r s) : Kept r (updRst f s) := h.trans (Kept.of_eq rfl rfl rfl rfl id id id rfl)
theorem updTab_kept {r} (f s) (h : Kept r s) : Kept r (updTab f s) := h.trans (Kept.of_eq rfl rfl rfl rfl id id id rfl)
theorem updTrace_kept {r} (f s) (h : Kept r s) : Kept r (updTrace f s) := h.trans (Kept.of_eq rfl rfl rfl rfl id id id rfl)
theorem updI3c_kept {r} (f s) (h : queueFits s.i3c → queueFits (f s.i3c)) (h0 : Kept r s) : Kept r (updI3c f s) :=
  h0.trans (Kept.of_eq rfl rfl rfl rfl id h id rfl)
theorem updOut_kept {r} (f s) (h : (f s.out).items = s.out.items) (h0 : Kept r s) : Kept r (updOut f s) :=
  h0.trans (Kept.of_eq rfl rfl rfl h id id id rfl)
theorem updGate_kept {r} (g f) (s : State) (h : (gate s g).vh ≤ (f (gate s g)).vh) (h0 : Kept r s) : Kept r (updGate g f s) := by
  refine updHz_kept _ _ (fun x => ?_) h0
  dsimp only
  rw [tget_tput]
  split
  · subst_vars; exact h
  · exact Nat.le_refl _
theorem updBoot_kept {r} (f s) (h : (f s.boot).otp = s.boot.otp) (h0 : Kept r s) : Kept r (updBoot f s) :=
  h0.trans (Kept.of_eq rfl rfl h rfl id id id rfl)
theorem dropFirst_length {α : Type} (p : α → Bool) (l : List α) : (dropFirst p l).length ≤ l.length := by
  induction l with
  | nil => simp [dropFirst]
  | cons a l ih => simp only [dropFirst]; split <;> simp <;> omega
theorem dropFirst_lt {α : Type} (p : α → Bool) (l : List α) (h : l.any p = true) : (dropFirst p l).length < l.length := by
  induction l with
  | nil => simp at h
  | cons a l ih =>
    simp only [dropFirst]
    split
    · simp
    · simp only [List.any_cons, Bool.or_eq_true] at h
      have := ih (by grind)
      simp; omega
theorem oobRoom_length (q : List Oob) (k : Nat) (h : q.length ≤ 64) :
    (oobRoom q k).1.length ≤ 64 ∧ ((oobRoom q k).2.2 = true → (oobRoom q k).1.length < 64) := by
  unfold oobRoom
  have hq : (if 3 ≤ k then q.filter (fun e => e.kind != k) else q).length ≤ 64 := by
    split
    · exact (List.length_filter_le _ _).trans h
    · exact h
  generalize (if 3 ≤ k then q.filter (fun e => e.kind != k) else q) = q' at hq ⊢
  dsimp only
  split
  · simp; omega
  · split
    · rename_i h1 h2
      have := dropFirst_lt _ _ h2
      simp; omega
    · split
      · simp [hq]
      · split
        · rename_i h1 h2 h3 h4
          have := dropFirst_lt _ _ h4
          simp; omega
        · simp [hq]
theorem updBucket_evt (c f e) (h : fifosFit e) : fifosFit (updBucket c f e) := h
theorem setLimits_evt (n l e) (h : fifosFit e) : fifosFit (setLimits n l e) := h
theorem countUp_evt (c e) (h : fifosFit e) : fifosFit (countUp c e) := h
theorem dropNonce_evt (c e) (h : fifosFit e) : fifosFit (dropNonce c e) := h
theorem consumeTag_evt (e) (h : fifosFit e) : fifosFit (consumeTag e) := h
theorem ringPut_evt (c e) (h : fifosFit e) : fifosFit (ringPut c e) := h
theorem latchRead_evt (a b c e) (h : fifosFit e) : fifosFit (latchRead a b c e) := h
theorem fifoPut_evt (n ev e) (h : fifosFit e) : fifosFit (fifoPut n ev e) := by
  unfold fifoPut
  unfold fifosFit at *
  split <;> split
  · simp; omega
  · exact h
  · simp; omega
  · exact h
  · simp; omega
  · exact h
theorem admitEv_evt (n ev e) (h : fifosFit e) : fifosFit (admitEv n ev e) := by
  unfold admitEv
  split
  · split
    · exact h
    · exact fifoPut_evt _ _ _ h
  · exact fifoPut_evt _ _ _ h
theorem admitWaiters_evt (may e) (h : fifosFit e) : fifosFit (admitWaiters may e) := by
  unfold admitWaiters
  unfold fifosFit at *
  split
  · exact h
  · simp; omega
theorem popFifo_evt (i e) (h : fifosFit e) (x) (hx : popFifo i e = some x) : fifosFit x.2 := by
  unfold popFifo at hx
  unfold fifosFit at *
  split at hx <;> split at hx <;> simp at hx <;> subst hx <;> simp_all <;> omega
theorem popTurn_evt (ok e) (h : fifosFit e) (x) (hx : popTurn ok e = some x) : fifosFit x.2 := by
  obtain ⟨i, -, hi⟩ := List.exists_of_findSome?_eq_some hx
  split at hi
  · exact popFifo_evt _ _ h _ hi
  · simp at hi
theorem nextRecord_evt (e) (h : fifosFit e) (x) (hx : nextRecord e = some x) : fifosFit x.2 := by
  unfold nextRecord at hx
  split at hx
  · split at hx
    · simp at hx; subst hx; exact popTurn_evt _ _ h _ ‹_›
    · simp at hx; subst hx; exact h
  · exact popTurn_evt _ _ h _ hx
theorem foldl2_kept {α β : Type} {f : β × State → α → β × State}
    (h : ∀ x p σ, Kept σ x.2 → Kept σ (f x p).2) (l : List α) (x : β × State) {σ : State} (h0 : Kept σ x.2) :
    Kept σ (l.foldl f x).2 := by
  induction l generalizing x with
  | nil => exact h0
  | cons a l ih => exact ih _ (h x a σ h0)
theorem memPut_kept {r} (p a bs) (s : State) (h0 : Kept r s) : Kept r (memPut p a bs s) :=
  h0.trans ⟨⟨rfl, fun h => twf_tputs a bs h, fun _ _ => id, id, id, id⟩, fun _ => Nat.le_refl _, [], rfl, by simp⟩
theorem memWrite_kept {r} (a bs) (s : State) (h0 : Kept r s) : Kept r (memWrite a bs s) := memPut_kept false a bs s h0
theorem otpBurn_kept {r} (a bs) (s : State) (h0 : Kept r s) : Kept r (otpBurn a bs s) := by
  refine h0.trans ⟨⟨rfl, id, fun b i hb => ?_, id, id, id⟩, fun _ => Nat.le_refl _, [], rfl, by simp⟩
  show (tget 0 b (tputs 0 a _ s.boot.otp)).getLsbD i = true
  rw [tget_tputs]
  split
  · rename_i hc
    simp only [List.length_map, List.length_range] at hc
    have hlt : b - a < bs.length := by omega
    simp only [List.getD_eq_getElem?_getD, List.getElem?_map, List.getElem?_range hlt, Option.map_some, Option.getD_some]
    have : a + (b - a) = b := by omega
    rw [this]
    exact BitVec.getLsbD_or.trans (by rw [hb]; rfl)
  · exact hb
end Sys2Proof.Laws
end

