-- ==== Sys2Proof/Laws/KeptUnits.lean ====
section
/-! SUPPORT. `Kept` for every operation and meaning of the shared operations, the gate, objects, tempo, the ledger and the stations: one lemma each, from those of the operations it calls. -/

namespace Sys2Proof.Laws

open Sys2Proof Sys2Proof.Machine Sys2Proof.Safety

theorem updStation_kept {σ : State} (c : Nat) (f : Station → Station) (s : State) (h0 : Kept σ s) : Kept σ
    (updStation c f s) := by
  refine h0.trans ?_; clear h0; unfold updStation
  repeat' (first
    | with_reducible exact Kept.refl _ | assumption | with_reducible apply Kept.ite
    | with_reducible exact Kept.of_eq rfl rfl rfl rfl (fun h => h) (fun h => h) (fun h => h) rfl)

theorem updObject_kept {σ : State} (o : Nat) (f : Obj → Obj) (s : State) (h0 : Kept σ s) : Kept σ (updObject o
    f s) := by
  refine h0.trans ?_; clear h0; unfold updObject
  repeat' (first | with_reducible exact Kept.refl _ | assumption | with_reducible apply updSync_kept)

theorem updBarrier_kept {σ : State} (b : Nat) (f : Barrier → Barrier) (s : State) (h0 : Kept σ s) : Kept σ
    (updBarrier b f s) := by
  refine h0.trans ?_; clear h0; unfold updBarrier
  repeat' (first | with_reducible exact Kept.refl _ | assumption | with_reducible apply updSync_kept)

theorem updFPort_kept {σ : State} (p : Nat) (f : FPort → FPort) (s : State) (h0 : Kept σ s) : Kept σ (updFPort
    p f s) := by
  refine h0.trans ?_; clear h0; unfold updFPort
  repeat' (first | with_reducible exact Kept.refl _ | assumption | with_reducible apply updSync_kept)

theorem updCtx_kept {σ : State} (c : Nat) (f : Ctx → Ctx) (s : State) (h0 : Kept σ s) : Kept σ (updCtx c f s) := by
  refine h0.trans ?_; clear h0; unfold updCtx
  repeat' (first
    | with_reducible exact Kept.refl _ | assumption | with_reducible apply Kept.ite
    | with_reducible exact Kept.of_eq rfl rfl rfl rfl (fun h => h) (fun h => h) (fun h => h) rfl
    | (split <;> try dsimp only))

theorem atTime_kept {σ : State} (t : Nat) (s : State) (h0 : Kept σ s) : Kept σ (atTime t s) := by
  refine h0.trans ?_; clear h0; unfold atTime
  repeat' (first
    | with_reducible exact Kept.refl _ | assumption | with_reducible apply Kept.ite
    | with_reducible exact Kept.of_eq rfl rfl rfl rfl (fun h => h) (fun h => h) (fun h => h) rfl)

theorem fresh_kept {σ : State} (s : State) (h0 : Kept σ s) : Kept σ (fresh s).2 := by
  refine h0.trans ?_; clear h0; unfold fresh
  (try dsimp only)
  repeat' (first
    | with_reducible exact Kept.refl _ | assumption | with_reducible apply Kept.ite
    | with_reducible exact Kept.of_eq rfl rfl rfl rfl (fun h => h) (fun h => h) (fun h => h) rfl)

theorem memStore_kept {σ : State} (poison : Bool) (a : Nat) (bs : List Byte) (s : State) (h0 : Kept σ s) :
    Kept σ (memStore poison a bs s) := by
  refine h0.trans ?_; clear h0; unfold memStore
  repeat' (first
    | with_reducible exact Kept.refl _ | assumption | with_reducible apply memPut_kept
    | with_reducible apply Kept.ite)

theorem setResult_kept {σ : State} (reg : Nat) (r : Requester) (v : Nat) (s : State) (h0 : Kept σ s) : Kept σ
    (setResult reg r v s) := by
  refine h0.trans ?_; clear h0; unfold setResult
  repeat' (first | with_reducible exact Kept.refl _ | assumption | with_reducible apply updCfg_kept)

theorem lineAligns_kept {σ : State} (p n d : Nat) (tseq : Word) (s : State) (h0 : Kept σ s) : Kept σ
    (lineAligns p n d tseq s) := by
  refine h0.trans ?_; clear h0; unfold lineAligns
  (try dsimp only)
  repeat' (first
    | with_reducible exact Kept.refl _ | assumption | with_reducible apply updTrace_kept
    | ((with_reducible apply updOut_kept); · first | (with_reducible exact rfl) | exact rfl))

theorem lineIdle_kept {σ : State} (p : Nat) (tseq : Word) (s : State) (h0 : Kept σ s) : Kept σ (lineIdle p
    tseq s) := by
  refine h0.trans ?_; clear h0; unfold lineIdle
  (try dsimp only)
  repeat' (first
    | with_reducible exact Kept.refl _ | assumption | with_reducible apply lineAligns_kept
    | with_reducible apply Kept.ite)

theorem linePut_kept {σ : State} (p : Nat) (us : List (BitVec 256)) (s : State) (h0 : Kept σ s) : Kept σ
    (linePut p us s) := by
  refine h0.trans ?_; clear h0; unfold linePut
  (try dsimp only)
  repeat' (first
    | with_reducible exact Kept.refl _ | assumption | with_reducible apply lineIdle_kept
    | with_reducible apply lineAligns_kept | with_reducible apply updTrace_kept
    | ((with_reducible apply updOut_kept); · first | (with_reducible exact rfl) | exact rfl)
    | with_reducible apply Kept.ite)

theorem startFlush_kept {σ : State} (s : State) (h0 : Kept σ s) : Kept σ (startFlush s) := by
  refine h0.trans ?_; clear h0; unfold startFlush
  (try dsimp only)
  repeat' (first | with_reducible exact Kept.refl _ | assumption | with_reducible apply updTrace_kept)

theorem routeSend_kept {σ : State} (us : List (BitVec 256)) (s : State) (h0 : Kept σ s) : Kept σ (routeSend us
    s) := by
  refine h0.trans ?_; clear h0; unfold routeSend
  repeat' (first
    | with_reducible exact Kept.refl _ | assumption | with_reducible apply linePut_kept
    | with_reducible apply startFlush_kept | with_reducible apply updTrace_kept | with_reducible apply Kept.ite)

theorem traceDrop_kept {σ : State} (port : Bool) (time : Nat) (tseq : Word) (s : State) (h0 : Kept σ s) : Kept
    σ (traceDrop port time tseq s) := by
  refine h0.trans ?_; clear h0; unfold traceDrop
  repeat' (first | with_reducible exact Kept.refl _ | assumption | with_reducible apply updTrace_kept)

theorem traceVia_kept {σ : State} (port : Bool) (room : Nat → Bool) (send : List (BitVec 256) → State → State)
    (type : Nat) (source : BitVec 16) (time units : Nat) (body : List Byte) (s : State) (hsend : ∀ x0 {σ s :
    State}, Kept σ s → Kept σ (send x0 s)) (h0 : Kept σ s) : Kept σ (traceVia port room send type source time
    units body s).1 := by
  refine h0.trans ?_; clear h0; unfold traceVia
  (try dsimp only)
  repeat' (first
    | with_reducible exact Kept.refl _ | assumption | with_reducible apply updTrace_kept
    | with_reducible apply traceDrop_kept | with_reducible apply hsend | with_reducible apply Kept.ite
    | with_reducible exact Kept.of_eq rfl rfl rfl rfl (fun h => h) (fun h => h) (fun h => h) rfl
    | (split <;> try dsimp only))

theorem traceEmit_kept {σ : State} (type : Nat) (source : BitVec 16) (time units : Nat) (body : List Byte) (s
    : State) (h0 : Kept σ s) : Kept σ (traceEmit type source time units body s).1 := by
  refine h0.trans ?_; clear h0; unfold traceEmit
  repeat' (first
    | with_reducible exact Kept.refl _ | assumption | with_reducible apply traceVia_kept
    | with_reducible apply routeSend_kept | with_reducible apply Kept.ite
    | with_reducible exact Kept.of_eq rfl rfl rfl rfl (fun h => h) (fun h => h) (fun h => h) rfl
    | (intro _; try dsimp only))

theorem linesUp_kept {σ : State} (s : State) (h0 : Kept σ s) : Kept σ (linesUp s) := by
  refine h0.trans ?_; clear h0; unfold linesUp
  (try dsimp only)
  repeat' (first
    | with_reducible exact Kept.refl _ | assumption | with_reducible apply lineAligns_kept
    | with_reducible apply lineIdle_kept | with_reducible apply updTrace_kept | with_reducible apply Kept.ite)

theorem linesLock_kept {σ : State} (pll : Bool) (s : State) (h0 : Kept σ s) : Kept σ (linesLock pll s) := by
  refine h0.trans ?_; clear h0; unfold linesLock
  (try dsimp only)
  repeat' (first
    | with_reducible exact Kept.refl _ | assumption | with_reducible apply updTrace_kept
    | with_reducible apply linesUp_kept | with_reducible apply Kept.ite)

theorem traceDropAll_kept  : ∀ ls {σ s : State}, Kept σ s → Kept σ (traceDropAll  ls s) := by
  intro ls
  induction ls with
  | nil => intro σ s h; exact h
  | cons a l ih =>
    intro σ s h0
    cases a with
    | aligns => exact ih h0
    | record => exact ih (traceDrop_kept _ _ _ _ h0)

theorem linesDown_kept {σ : State} (s : State) (h0 : Kept σ s) : Kept σ (linesDown s) := by
  refine h0.trans ?_; clear h0; unfold linesDown
  (try dsimp only)
  repeat' (first
    | with_reducible exact Kept.refl _ | assumption | with_reducible apply updTrace_kept
    | ((with_reducible apply updOut_kept); · first | (with_reducible exact rfl) | exact rfl)
    | with_reducible apply traceDropAll_kept)

theorem msix_kept {σ : State} (v : Nat) (s : State) (h0 : Kept σ s) : Kept σ (msix v s) := by
  refine h0.trans ?_; clear h0; unfold msix
  repeat' (first
    | with_reducible exact Kept.refl _ | assumption
    | ((with_reducible apply updOut_kept); · first | (with_reducible exact rfl) | exact rfl))

theorem raiseIbi_kept {σ : State} (s : State) (h0 : Kept σ s) : Kept σ (raiseIbi s) := by
  refine h0.trans ?_; clear h0; unfold raiseIbi
  (try dsimp only)
  repeat' (first
    | with_reducible exact Kept.refl _ | assumption | with_reducible apply Kept.ite
    | with_reducible exact Kept.of_eq rfl rfl rfl rfl (fun h => h) (fun h => h) (fun h => h) rfl
    | (split <;> try dsimp only))

theorem oobAdd_kept {σ : State} (kind : Nat) (body : List Byte) (s : State) (h0 : Kept σ s) : Kept σ (oobAdd
    kind body s) := by
  refine h0.trans ?_; clear h0; unfold oobAdd
  have hl := oobRoom_length s.i3c.queue kind
  rcases hx : oobRoom s.i3c.queue kind with ⟨q, lost, _ | _⟩
  · dsimp only
    rw [hx] at hl
    exact updI3c_kept _ _ (fun h => (hl h).1) (Kept.refl s)
  · dsimp only
    rw [hx] at hl
    have hk := updI3c_kept (fun i => { i with
        queue := q ++ [{ oseq := s.i3c.oseq, kind := kind, body := body }], oseq := i.oseq + 1, dropped := satAdd 0xFFFF i.dropped lost })
      s (fun h => by have := (hl h).2 rfl; simp; omega) (Kept.refl s)
    split
    · exact hk
    · exact raiseIbi_kept _ hk

theorem tableauTrigger_kept {σ : State} (source : Nat) (s : State) (h0 : Kept σ s) : Kept σ (tableauTrigger
    source s) := by
  refine h0.trans ?_; clear h0; unfold tableauTrigger
  repeat' (first
    | with_reducible exact Kept.refl _ | assumption | with_reducible apply updTab_kept
    | with_reducible apply Kept.ite)

theorem eventTrigger_kept {σ : State} (code : BitVec 16) (s : State) (h0 : Kept σ s) : Kept σ (eventTrigger
    code s) := by
  refine h0.trans ?_; clear h0; unfold eventTrigger
  repeat' (first
    | with_reducible exact Kept.refl _ | assumption | with_reducible apply tableauTrigger_kept
    | with_reducible apply updTab_kept | with_reducible apply Kept.ite)

theorem occurEv_kept {σ : State} (ev : Ev) (s : State) (h0 : Kept σ s) : Kept σ (occurEv ev s) := by
  refine h0.trans ?_; clear h0; unfold occurEv
  repeat' (first
    | with_reducible exact Kept.refl _ | assumption | with_reducible apply eventTrigger_kept
    | ((with_reducible apply updEvt_kept); · first | (with_reducible exact fun h => h) | exact fun h => setLimits_evt _ _ _ h | exact fun h => admitEv_evt _ _ _ (countUp_evt _ _ h) | exact fun h => admitWaiters_evt _ _ h | exact fun h => h))

theorem occur_kept {σ : State} (code : BitVec 16) (src : BitVec 16) (p1 p2 p3 : Nat) (s : State) (h0 : Kept σ
    s) : Kept σ (occur code src p1 p2 p3 s) := by
  refine h0.trans ?_; clear h0; unfold occur
  repeat' (first | with_reducible exact Kept.refl _ | assumption | with_reducible apply occurEv_kept)

theorem occurDeferred_kept {σ : State} (code : BitVec 16) (src : BitVec 16) (p1 p2 p3 : Nat) (s : State) (h0 :
    Kept σ s) : Kept σ (occurDeferred code src p1 p2 p3 s) := by
  refine h0.trans ?_; clear h0; unfold occurDeferred
  repeat' (first | with_reducible exact Kept.refl _ | assumption | with_reducible apply occurEv_kept)

theorem noteGap_kept {σ : State} (d : Option (Word × Word × Word)) (s : State) (h0 : Kept σ s) : Kept σ
    (noteGap d s) := by
  refine h0.trans ?_; clear h0; unfold noteGap
  repeat' (first
    | with_reducible exact Kept.refl _ | assumption | with_reducible apply occurEv_kept
    | with_reducible apply Kept.ite
    | with_reducible exact Kept.of_eq rfl rfl rfl rfl (fun h => h) (fun h => h) (fun h => h) rfl
    | (split <;> try dsimp only))

theorem traceAlways_kept {σ : State} (type : Nat) (source : BitVec 16) (time units : Nat) (body : List Byte)
    (s : State) (h0 : Kept σ s) : Kept σ (traceAlways type source time units body s) := by
  refine h0.trans ?_; clear h0; unfold traceAlways
  (try dsimp only)
  repeat' (first
    | with_reducible exact Kept.refl _ | assumption | with_reducible apply traceEmit_kept
    | with_reducible apply noteGap_kept)

theorem traceRec_kept {σ : State} (type : Nat) (source : BitVec 16) (time units : Nat) (body : List Byte) (s :
    State) (h0 : Kept σ s) : Kept σ (traceRec type source time units body s) := by
  refine h0.trans ?_; clear h0; unfold traceRec
  repeat' (first
    | with_reducible exact Kept.refl _ | assumption | with_reducible apply traceAlways_kept
    | with_reducible apply Kept.ite)

theorem updQueue_kept {σ : State} (c q : Nat) (f : QState → QState) (s : State) (h0 : Kept σ s) : Kept σ
    (updQueue c q f s) := by
  refine h0.trans ?_; clear h0; unfold updQueue
  repeat' (first | with_reducible exact Kept.refl _ | assumption | with_reducible apply updStation_kept)

theorem startSync_kept {σ : State} (c q op deadline : Nat) (s : State) (h0 : Kept σ s) : Kept σ (startSync c q
    op deadline s) := by
  refine h0.trans ?_; clear h0; unfold startSync
  repeat' (first | with_reducible exact Kept.refl _ | assumption | with_reducible apply updQueue_kept)

theorem retireSync_kept {σ : State} (c q : Nat) (opid : BitVec 16) (status : Nat) (value : Word) (s : State)
    (h0 : Kept σ s) : Kept σ (retireSync c q opid status value s) := by
  refine h0.trans ?_; clear h0; unfold retireSync
  repeat' (first
    | with_reducible exact Kept.refl _ | assumption
    | ((with_reducible apply updOut_kept); · first | (with_reducible exact rfl) | exact rfl)
    | with_reducible apply updQueue_kept)

theorem retireWait_kept {σ : State} (c q w : Nat) (opid : BitVec 16) (status : Nat) (value : Word) (s : State)
    (h0 : Kept σ s) : Kept σ (retireWait c q w opid status value s) := by
  refine h0.trans ?_; clear h0; unfold retireWait
  repeat' (first
    | with_reducible exact Kept.refl _ | assumption | with_reducible apply retireSync_kept
    | with_reducible apply updQueue_kept)

theorem freeWatch_kept {σ : State} (c w : Nat) (s : State) (h0 : Kept σ s) : Kept σ (freeWatch c w s) := by
  refine h0.trans ?_; clear h0; unfold freeWatch
  repeat' (first
    | with_reducible exact Kept.refl _ | assumption | with_reducible apply updSync_kept
    | with_reducible apply updStation_kept)

theorem traceMsg_kept {σ : State} (trace : Nat) (port : Nat) (type : Nat) (chip : ChipId) (m : SyncMsg) (s :
    State) (h0 : Kept σ s) : Kept σ (traceMsg trace port type chip m s) := by
  refine h0.trans ?_; clear h0; unfold traceMsg
  repeat' (first
    | with_reducible exact Kept.refl _ | assumption | with_reducible apply traceRec_kept
    | with_reducible apply Kept.ite)

theorem sendMsg_kept {σ : State} (type : Nat) (chip : ChipId) (m : SyncMsg) (s : State) (h0 : Kept σ s) : Kept
    σ (sendMsg type chip m s) := by
  refine h0.trans ?_; clear h0; unfold sendMsg
  repeat' (first
    | with_reducible exact Kept.refl _ | assumption | with_reducible apply traceMsg_kept
    | ((with_reducible apply updOut_kept); · first | (with_reducible exact rfl) | exact rfl)
    | with_reducible apply updFPort_kept | with_reducible apply Kept.ite)

theorem sendWaiting_kept  : ∀ ls {σ s : State}, Kept σ s → Kept σ (sendWaiting  ls s) := by
  intro ls
  induction ls with
  | nil => intro σ s h; exact h
  | cons a l ih =>
    intro σ s h0
    refine h0.trans ?_; clear h0; unfold sendWaiting
    repeat' (first
      | with_reducible exact Kept.refl _ | with_reducible apply ih | assumption | with_reducible apply sendMsg_kept)

theorem updContainment_kept {σ : State} (ctx : Nat) (f : Containment → Containment) (s : State) (h0 : Kept σ
    s) : Kept σ (updContainment ctx f s) := by
  refine h0.trans ?_; clear h0; unfold updContainment
  repeat' (first
    | with_reducible exact Kept.refl _ | assumption
    | ((with_reducible apply updHz_kept); · first | (with_reducible exact Nat.le_refl _) | (with_reducible exact fun _ => Nat.le_refl _) | exact Nat.le_refl _ | exact fun _ => Nat.le_refl _ | exact Nat.le_max_left _ _))

theorem contain_kept {σ : State} (ctx tc : Nat) (cu : Option (Nat × Word)) (reset : Option Word) (s : State)
    (h0 : Kept σ s) : Kept σ (contain ctx tc cu reset s) := by
  refine h0.trans ?_; clear h0; unfold contain
  (try dsimp only)
  repeat' (first | with_reducible exact Kept.refl _ | assumption | with_reducible apply updContainment_kept)

theorem updTallies_kept {σ : State} (c q : Nat) (f : List Tally → List Tally) (s : State) (h0 : Kept σ s) :
    Kept σ (updTallies c q f s) := by
  refine h0.trans ?_; clear h0; unfold updTallies
  repeat' (first | with_reducible exact Kept.refl _ | assumption | with_reducible apply updStation_kept)

theorem updUnacked_kept {σ : State} (c q : Nat) (chip : ChipId) (f : Nat → Nat) (s : State) (h0 : Kept σ s) :
    Kept σ (updUnacked c q chip f s) := by
  refine h0.trans ?_; clear h0; unfold updUnacked
  repeat' (first | with_reducible exact Kept.refl _ | assumption | with_reducible apply updStation_kept)

theorem traceGate_kept {σ : State} (g : Nat) (i : GItem) (s : State) (h0 : Kept σ s) : Kept σ (traceGate g i
    s) := by
  refine h0.trans ?_; clear h0; unfold traceGate
  (try dsimp only)
  repeat' (first | with_reducible exact Kept.refl _ | assumption | with_reducible apply traceRec_kept)

theorem retireSignal_kept {σ : State} (i : GItem) (s : State) (h0 : Kept σ s) : Kept σ (retireSignal i s) := by
  refine h0.trans ?_; clear h0; unfold retireSignal
  (try dsimp only)
  repeat' (first
    | with_reducible exact Kept.refl _ | assumption | with_reducible apply retireSync_kept
    | with_reducible apply Kept.ite
    | with_reducible exact Kept.of_eq rfl rfl rfl rfl (fun h => h) (fun h => h) (fun h => h) rfl
    | (split <;> try dsimp only))

theorem leave_kept {σ : State} (g : Nat) (i : GItem) (s : State)
    (h : i.gated = true → i.start + 4 ≤ (gate s g).vh) (h0 : Kept σ s) : Kept σ (leave g i s) := by
  refine h0.trans ?_
  clear h0
  have ht := traceGate_kept g i s (Kept.refl s)
  have hout : Kept s (updOut (fun o => { o with items := (g, i) :: o.items }) (traceGate g i s)) := by
    refine ht.trans ⟨⟨rfl, id, fun _ _ => id, id, id, id⟩, fun _ => Nat.le_refl _, [(g, i)], rfl, fun x hx hg => ?_⟩
    obtain rfl := List.mem_singleton.1 hx
    exact (h hg).trans (ht.vh g)
  unfold leave
  dsimp only
  split
  · split
    · exact retireSignal_kept _ _ ht
    · exact retireSignal_kept _ _ (traceMsg_kept _ _ _ _ _ _ hout)
  · exact retireSignal_kept _ _ hout

theorem scanRelease_kept (g : Nat) : ∀ ls v0 {σ s : State}, Kept σ s → Kept σ (scanRelease g ls v0 s).2 := by
  intro ls
  induction ls with
  | nil => intro v0 σ s h; exact h
  | cons a l ih =>
    intro v0 σ s h0
    unfold scanRelease
    dsimp only
    split
    · rename_i hc
      refine ih _ (leave_kept _ _ _ (fun hg => ?_) h0)
      simp only [eligible, hg, Bool.and_eq_true, Bool.not_true, Bool.false_or, decide_eq_true_eq] at hc
      exact hc.2.1.1.2
    · exact ih _ h0

theorem release0_kept {σ : State} (g : Nat) (s : State) (h0 : Kept σ s) : Kept σ (release0 g s) := by
  refine h0.trans ?_; clear h0; unfold release0
  (try dsimp only)
  repeat' (first
    | with_reducible exact Kept.refl _ | assumption | with_reducible apply scanRelease_kept
    | ((with_reducible apply updGate_kept); · first | (with_reducible exact Nat.le_refl _) | (with_reducible exact fun _ => Nat.le_refl _) | exact Nat.le_refl _ | exact fun _ => Nat.le_refl _ | exact Nat.le_max_left _ _))

theorem dropAtProducer_kept {σ : State} (i : GItem) (s : State) (h0 : Kept σ s) : Kept σ (dropAtProducer i s) := by
  refine h0.trans ?_; clear h0; unfold dropAtProducer
  repeat' (first
    | with_reducible exact Kept.refl _ | assumption | with_reducible apply updStation_kept
    | with_reducible apply retireSignal_kept | with_reducible apply Kept.ite)

theorem dropContained_kept {σ : State} (i : GItem) (s : State) (h0 : Kept σ s) : Kept σ (dropContained i s) := by
  refine h0.trans ?_; clear h0; unfold dropContained
  (try dsimp only)
  repeat' (first
    | with_reducible exact Kept.refl _ | assumption
    | ((with_reducible apply updHz_kept); · first | (with_reducible exact Nat.le_refl _) | (with_reducible exact fun _ => Nat.le_refl _) | exact Nat.le_refl _ | exact fun _ => Nat.le_refl _ | exact Nat.le_max_left _ _)
    | with_reducible apply updContainment_kept | with_reducible apply dropAtProducer_kept)

theorem dropAll_kept  : ∀ ls {σ s : State}, Kept σ s → Kept σ (dropAll  ls s) := by
  intro ls
  induction ls with
  | nil => intro σ s h; exact h
  | cons a l ih =>
    intro σ s h0
    refine h0.trans ?_; clear h0; unfold dropAll
    repeat' (first
      | with_reducible exact Kept.refl _ | with_reducible apply ih | assumption
      | with_reducible apply dropContained_kept)

theorem takePlace_kept {σ : State} (g : Nat) (i : GItem) (s : State) (h0 : Kept σ s) : Kept σ (takePlace g i
    s) := by
  refine h0.trans ?_; clear h0; unfold takePlace
  repeat' (first
    | with_reducible exact Kept.refl _ | assumption | with_reducible apply dropContained_kept
    | with_reducible apply release0_kept
    | ((with_reducible apply updGate_kept); · first | (with_reducible exact Nat.le_refl _) | (with_reducible exact fun _ => Nat.le_refl _) | exact Nat.le_refl _ | exact fun _ => Nat.le_refl _ | exact Nat.le_max_left _ _)
    | with_reducible apply Kept.ite)

theorem giveCredit_kept (g : Nat) : ∀ ls {σ s : State}, Kept σ s → Kept σ (giveCredit g ls s) := by
  intro ls
  induction ls with
  | nil => intro σ s h; exact h
  | cons a l ih =>
    intro σ s h0
    refine h0.trans ?_; clear h0; unfold giveCredit
    repeat' (first
      | with_reducible exact Kept.refl _ | with_reducible apply ih | assumption | with_reducible apply takePlace_kept
      | ((with_reducible apply updGate_kept); · first | (with_reducible exact Nat.le_refl _) | (with_reducible exact fun _ => Nat.le_refl _) | exact Nat.le_refl _ | exact fun _ => Nat.le_refl _ | exact Nat.le_max_left _ _)
      | with_reducible apply Kept.ite)

theorem putItem_kept {σ : State} (g : Nat) (i : GItem) (s : State) (h0 : Kept σ s) : Kept σ (putItem g i s) := by
  refine h0.trans ?_; clear h0; unfold putItem
  (try dsimp only)
  repeat' (first
    | with_reducible exact Kept.refl _ | assumption
    | ((with_reducible apply updGate_kept); · first | (with_reducible exact Nat.le_refl _) | (with_reducible exact fun _ => Nat.le_refl _) | exact Nat.le_refl _ | exact fun _ => Nat.le_refl _ | exact Nat.le_max_left _ _)
    | with_reducible apply giveCredit_kept)

theorem tallyUp_kept {σ : State} (i : GItem) (s : State) (h0 : Kept σ s) : Kept σ (tallyUp i s) := by
  refine h0.trans ?_; clear h0; unfold tallyUp
  (try dsimp only)
  repeat' (first
    | with_reducible exact Kept.refl _ | assumption | with_reducible apply updSync_kept
    | with_reducible apply updUnacked_kept | with_reducible apply fresh_kept | with_reducible apply updTallies_kept
    | with_reducible apply putItem_kept | with_reducible apply Kept.ite
    | with_reducible exact Kept.of_eq rfl rfl rfl rfl (fun h => h) (fun h => h) (fun h => h) rfl
    | (split <;> try dsimp only))

theorem scanTally_kept  : ∀ ls {σ s : State}, Kept σ s → Kept σ (scanTally  ls s) := by
  intro ls
  induction ls with
  | nil => intro σ s h; exact h
  | cons a l ih =>
    intro σ s h0
    refine h0.trans ?_; clear h0; unfold scanTally
    repeat' (first
      | with_reducible exact Kept.refl _ | with_reducible apply ih | assumption | with_reducible apply tallyUp_kept
      | with_reducible apply Kept.ite)

theorem releaseItems_kept {σ : State} (g : Nat) (s : State) (h0 : Kept σ s) : Kept σ (releaseItems g s) := by
  refine h0.trans ?_; clear h0; unfold releaseItems
  (try dsimp only)
  repeat' (first
    | with_reducible exact Kept.refl _ | assumption | with_reducible apply release0_kept
    | with_reducible apply scanTally_kept | with_reducible apply giveCredit_kept)

theorem sweepContained_kept {σ : State} (g : Nat) (s : State) (h0 : Kept σ s) : Kept σ (sweepContained g s) := by
  refine h0.trans ?_; clear h0; unfold sweepContained
  (try dsimp only)
  repeat' (first
    | with_reducible exact Kept.refl _ | assumption | with_reducible apply dropAll_kept
    | ((with_reducible apply updGate_kept); · first | (with_reducible exact Nat.le_refl _) | (with_reducible exact fun _ => Nat.le_refl _) | exact Nat.le_refl _ | exact fun _ => Nat.le_refl _ | exact Nat.le_max_left _ _))

theorem noteGating_kept {σ : State} (s : State) (h0 : Kept σ s) : Kept σ (noteGating s) := by
  refine h0.trans ?_; clear h0; unfold noteGating
  repeat' (first | with_reducible exact Kept.refl _ | assumption | with_reducible apply updCfg_kept)

theorem gateMsg_kept {σ : State} (type : Nat) (core : Core) (queue : Queue) (opid : BitVec 16) (gated : Bool)
    (start ackNeed : Nat) (chip : ChipId) (m : SyncMsg) (s : State) (h0 : Kept σ s) : Kept σ (gateMsg type
    core queue opid gated start ackNeed chip m s) := by
  refine h0.trans ?_; clear h0; unfold gateMsg
  (try dsimp only)
  repeat' (first | with_reducible exact Kept.refl _ | assumption | with_reducible apply putItem_kept)

theorem withhold_kept (ctx : Nat) : ∀ ls v0 v1 {σ s : State}, Kept σ s → Kept σ (withhold ctx ls v0 v1 s).2 := by
  intro ls
  induction ls with
  | nil => intro v0 v1 σ s h; exact h
  | cons a l ih =>
    intro v0 v1 σ s h0
    refine h0.trans ?_; clear h0; unfold withhold
    (try dsimp only)
    repeat' (first
      | with_reducible exact Kept.refl _ | with_reducible apply ih | assumption | with_reducible apply occur_kept
      | with_reducible apply Kept.ite
      | with_reducible exact Kept.of_eq rfl rfl rfl rfl (fun h => h) (fun h => h) (fun h => h) rfl
      | (split <;> try dsimp only))

theorem reportWithheld_kept {σ : State} (ctx : Nat) (s : State) (h0 : Kept σ s) : Kept σ (reportWithheld ctx
    s) := by
  refine h0.trans ?_; clear h0; unfold reportWithheld
  (try dsimp only)
  repeat' (first
    | with_reducible exact Kept.refl _ | assumption | with_reducible apply withhold_kept
    | with_reducible apply updCtx_kept | with_reducible apply Kept.ite
    | with_reducible exact Kept.of_eq rfl rfl rfl rfl (fun h => h) (fun h => h) (fun h => h) rfl
    | (split <;> try dsimp only))

theorem openIncident_kept {σ : State} (ctx reason step : Nat) (tag : Word) (s : State) (h0 : Kept σ s) : Kept
    σ (openIncident ctx reason step tag s) := by
  refine h0.trans ?_; clear h0; unfold openIncident
  repeat' (first
    | with_reducible exact Kept.refl _ | assumption | with_reducible apply reportWithheld_kept
    | with_reducible apply updCtx_kept)

theorem openAtUnsealed_kept {σ : State} (ctx reason : Nat) (s : State) (h0 : Kept σ s) : Kept σ
    (openAtUnsealed ctx reason s) := by
  refine h0.trans ?_; clear h0; unfold openAtUnsealed
  repeat' (first
    | with_reducible exact Kept.refl _ | assumption | with_reducible apply openIncident_kept
    | with_reducible apply Kept.ite
    | with_reducible exact Kept.of_eq rfl rfl rfl rfl (fun h => h) (fun h => h) (fun h => h) rfl
    | (split <;> try dsimp only))

theorem closeAdjIncident_kept {σ : State} (ctx reason : Nat) (tag : Word) (confirmed : Bool) (s : State) (h0 :
    Kept σ s) : Kept σ (closeAdjIncident ctx reason tag confirmed s) := by
  refine h0.trans ?_; clear h0; unfold closeAdjIncident
  repeat' (first | with_reducible exact Kept.refl _ | assumption | with_reducible apply updCtx_kept)

theorem sendRelease_kept {σ : State} (o : Nat) (p : Word) (status : Nat) (value : Word) (start : Nat) (s :
    State) (h0 : Kept σ s) : Kept σ (sendRelease o p status value start s) := by
  refine h0.trans ?_; clear h0; unfold sendRelease
  (try dsimp only)
  repeat' (first
    | with_reducible exact Kept.refl _ | assumption | with_reducible apply updSync_kept
    | with_reducible apply gateMsg_kept | with_reducible apply sendMsg_kept | with_reducible apply Kept.ite)

theorem sendReleases_kept (o status : Nat) (value : Word) (start : Nat) : ∀ ls {σ s : State}, Kept σ s → Kept
    σ (sendReleases o status value start ls s) := by
  intro ls
  induction ls with
  | nil => intro σ s h; exact h
  | cons a l ih =>
    intro σ s h0
    refine h0.trans ?_; clear h0; unfold sendReleases
    repeat' (first
      | with_reducible exact Kept.refl _ | with_reducible apply ih | assumption
      | with_reducible apply sendRelease_kept)

theorem evalSubs_kept {σ : State} (o start : Nat) (s : State) (h0 : Kept σ s) : Kept σ (evalSubs o start s) := by
  refine h0.trans ?_; clear h0; unfold evalSubs
  (try dsimp only)
  repeat' (first
    | with_reducible exact Kept.refl _ | assumption | with_reducible apply sendReleases_kept
    | with_reducible apply updObject_kept)

theorem releaseAllSubs_kept {σ : State} (o status : Nat) (s : State) (h0 : Kept σ s) : Kept σ (releaseAllSubs
    o status s) := by
  refine h0.trans ?_; clear h0; unfold releaseAllSubs
  (try dsimp only)
  repeat' (first
    | with_reducible exact Kept.refl _ | assumption | with_reducible apply sendReleases_kept
    | with_reducible apply updObject_kept)

theorem hostWrite_kept {σ : State} (o : Nat) (p : Word) (start : Nat) (s : State) (h0 : Kept σ s) : Kept σ
    (hostWrite o p start s) := by
  refine h0.trans ?_; clear h0; unfold hostWrite
  (try dsimp only)
  repeat' (first
    | with_reducible exact Kept.refl _ | assumption | with_reducible apply putItem_kept
    | ((with_reducible apply updGate_kept); · first | (with_reducible exact Nat.le_refl _) | (with_reducible exact fun _ => Nat.le_refl _) | exact Nat.le_refl _ | exact fun _ => Nat.le_refl _ | exact Nat.le_max_left _ _)
    | with_reducible apply Kept.ite)

theorem change_kept {σ : State} (o : Nat) (v : Word) (op : Nat) (p : Word) (start : Nat) (s : State) (h0 :
    Kept σ s) : Kept σ (change o v op p start s) := by
  refine h0.trans ?_; clear h0; unfold change
  (try dsimp only)
  repeat' (first
    | with_reducible exact Kept.refl _ | assumption | with_reducible apply updObject_kept
    | with_reducible apply hostWrite_kept | with_reducible apply evalSubs_kept)

theorem releaseBarWaiters_kept {σ : State} (b status : Nat) (s : State) (h0 : Kept σ s) : Kept σ
    (releaseBarWaiters b status s) := by
  refine h0.trans ?_; clear h0; unfold releaseBarWaiters
  (try dsimp only)
  repeat' (first
    | with_reducible exact Kept.refl _ | assumption | with_reducible apply updSync_kept
    | with_reducible apply updBarrier_kept)

theorem disarmOwned_kept (ctx : Nat) : ∀ ls {σ s : State}, Kept σ s → Kept σ (disarmOwned ctx ls s) := by
  intro ls
  induction ls with
  | nil => intro σ s h; exact h
  | cons a l ih =>
    intro σ s h0
    refine h0.trans ?_; clear h0; unfold disarmOwned
    (try dsimp only)
    repeat' (first
      | with_reducible exact Kept.refl _ | with_reducible apply ih | assumption | with_reducible apply updBarrier_kept
      | with_reducible apply releaseBarWaiters_kept | with_reducible apply Kept.ite)

theorem clearObjects_kept  : ∀ ls {σ s : State}, Kept σ s → Kept σ (clearObjects  ls s) := by
  intro ls
  induction ls with
  | nil => intro σ s h; exact h
  | cons a l ih =>
    intro σ s h0
    refine h0.trans ?_; clear h0; unfold clearObjects
    repeat' (first
      | with_reducible exact Kept.refl _ | with_reducible apply ih | assumption | with_reducible apply updObject_kept)

theorem releaseWatches_kept (status : Nat) : ∀ ls {σ s : State}, Kept σ s → Kept σ (releaseWatches status ls
    s) := by
  intro ls
  induction ls with
  | nil => intro σ s h; exact h
  | cons a l ih =>
    intro σ s h0
    refine h0.trans ?_; clear h0; unfold releaseWatches
    (try dsimp only)
    repeat' (first
      | with_reducible exact Kept.refl _ | with_reducible apply ih | assumption | with_reducible apply updSync_kept
      | with_reducible apply updStation_kept | with_reducible apply updObject_kept | with_reducible apply Kept.ite)

theorem releaseObjectSubs_kept (status : Nat) : ∀ ls {σ s : State}, Kept σ s → Kept σ (releaseObjectSubs
    status ls s) := by
  intro ls
  induction ls with
  | nil => intro σ s h; exact h
  | cons a l ih =>
    intro σ s h0
    refine h0.trans ?_; clear h0; unfold releaseObjectSubs
    repeat' (first
      | with_reducible exact Kept.refl _ | with_reducible apply ih | assumption
      | with_reducible apply releaseAllSubs_kept)

theorem settleCu_kept {σ : State} (c : Nat) (tag : Word) (s : State) (h0 : Kept σ s) : Kept σ (settleCu c tag
    s) := by
  refine h0.trans ?_; clear h0; unfold settleCu
  repeat' (first | with_reducible exact Kept.refl _ | assumption | with_reducible apply updStation_kept)

theorem settleAll_kept  : ∀ ls {σ s : State}, Kept σ s → Kept σ (settleAll  ls s) := by
  intro ls
  induction ls with
  | nil => intro σ s h; exact h
  | cons a l ih =>
    intro σ s h0
    refine h0.trans ?_; clear h0; unfold settleAll
    repeat' (first
      | with_reducible exact Kept.refl _ | with_reducible apply ih | assumption | with_reducible apply settleCu_kept)

theorem endContext_kept {σ : State} (ctx cause : Nat) (s : State) (h0 : Kept σ s) : Kept σ (endContext ctx
    cause s) := by
  refine h0.trans ?_; clear h0; unfold endContext
  (try dsimp only)
  repeat' (first
    | with_reducible exact Kept.refl _ | assumption | with_reducible apply updSync_kept
    | with_reducible apply releaseWatches_kept | with_reducible apply releaseObjectSubs_kept
    | with_reducible apply disarmOwned_kept | with_reducible apply clearObjects_kept
    | with_reducible apply settleAll_kept | with_reducible apply updContainment_kept | with_reducible apply occur_kept
    | with_reducible apply Kept.ite
    | with_reducible exact Kept.of_eq rfl rfl rfl rfl (fun h => h) (fun h => h) (fun h => h) rfl
    | (split <;> try dsimp only))

theorem raiseSteps_kept (step : Nat) : ∀ ls {σ s : State}, Kept σ s → Kept σ (raiseSteps step ls s) := by
  intro ls
  induction ls with
  | nil => intro σ s h; exact h
  | cons a l ih =>
    intro σ s h0
    refine h0.trans ?_; clear h0; unfold raiseSteps
    (try dsimp only)
    repeat' (first
      | with_reducible exact Kept.refl _ | with_reducible apply ih | assumption
      | with_reducible apply updStation_kept)

theorem observeStep_kept {σ : State} (ctx : Nat) (s : State) (h0 : Kept σ s) : Kept σ (observeStep ctx s) := by
  refine h0.trans ?_; clear h0; unfold observeStep
  repeat' (first
    | with_reducible exact Kept.refl _ | assumption | with_reducible apply updCtx_kept | with_reducible apply Kept.ite
    | with_reducible exact Kept.of_eq rfl rfl rfl rfl (fun h => h) (fun h => h) (fun h => h) rfl
    | (split <;> try dsimp only))

theorem atBoundary_kept {σ : State} (ctx : Nat) (s : State) (h0 : Kept σ s) : Kept σ (atBoundary ctx s) := by
  refine h0.trans ?_; clear h0; unfold atBoundary
  repeat' (first
    | with_reducible exact Kept.refl _ | assumption | with_reducible apply endContext_kept
    | with_reducible apply Kept.ite)

theorem sealRequest_kept {σ : State} (o n start : Nat) (s : State) (h0 : Kept σ s) : Kept σ (sealRequest o n
    start s) := by
  refine h0.trans ?_; clear h0; unfold sealRequest
  (try dsimp only)
  repeat' (first
    | with_reducible exact Kept.refl _ | assumption | with_reducible apply updCtx_kept
    | with_reducible apply raiseSteps_kept | with_reducible apply atBoundary_kept
    | with_reducible apply observeStep_kept | with_reducible apply reportWithheld_kept | with_reducible apply Kept.ite
    | with_reducible exact Kept.of_eq rfl rfl rfl rfl (fun h => h) (fun h => h) (fun h => h) rfl
    | (split <;> try dsimp only))

theorem applyOp_kept {σ : State} (o op : Nat) (n : Word) (p : Word) (start : Nat) (s : State) (h0 : Kept σ s)
    : Kept σ (applyOp o op n p start s).2 := by
  refine h0.trans ?_; clear h0; unfold applyOp
  (try dsimp only)
  repeat' (first
    | with_reducible exact Kept.refl _ | assumption | with_reducible apply change_kept
    | with_reducible apply sealRequest_kept | with_reducible apply occur_kept | with_reducible apply Kept.ite
    | with_reducible exact Kept.of_eq rfl rfl rfl rfl (fun h => h) (fun h => h) (fun h => h) rfl
    | (split <;> try dsimp only))

theorem syncError_kept {σ : State} (src : BitVec 16) (name p : Word) (status op : Nat) (s : State) (h0 : Kept
    σ s) : Kept σ (syncError src name p status op s) := by
  refine h0.trans ?_; clear h0; unfold syncError
  repeat' (first | with_reducible exact Kept.refl _ | assumption | with_reducible apply occur_kept)

theorem actOn_kept {σ : State} (o op : Nat) (n : Word) (p : Word) (start : Nat) (s : State) (h0 : Kept σ s) :
    Kept σ (actOn o op n p start s).2 := by
  refine h0.trans ?_; clear h0; unfold actOn
  dsimp only
  split
  · exact syncError_kept _ _ _ _ _ _ (Kept.refl s)
  · have h := applyOp_kept o op n p start s (Kept.refl s)
    rcases hx : applyOp o op n p start s with ⟨k, x⟩
    rw [hx] at h
    split
    · rename_i heq
      obtain ⟨rfl, rfl⟩ := Prod.mk.inj heq
      exact syncError_kept _ _ _ _ _ _ h
    · exact h

theorem raiseNeed_kept {σ : State} (s : State) (h0 : Kept σ s) : Kept σ (raiseNeed s) := by
  refine h0.trans ?_; clear h0; unfold raiseNeed
  repeat' (first
    | with_reducible exact Kept.refl _ | assumption | with_reducible apply oobAdd_kept
    | ((with_reducible apply updI3c_kept); · first | (with_reducible exact fun h => h))
    | with_reducible apply Kept.ite
    | with_reducible exact Kept.of_eq rfl rfl rfl rfl (fun h => h) (fun h => h) (fun h => h) rfl
    | (split <;> try dsimp only))

theorem wantObjects_kept {σ : State} (os : List Nat) (s : State) (h0 : Kept σ s) : Kept σ (wantObjects os s) := by
  refine h0.trans ?_; clear h0; unfold wantObjects
  repeat' (first
    | with_reducible exact Kept.refl _ | assumption | with_reducible apply raiseNeed_kept
    | ((with_reducible apply updI3c_kept); · first | (with_reducible exact fun h => h)))

theorem needSettled_kept {σ : State} (bytes : Option (List Byte)) (s : State) (h0 : Kept σ s) : Kept σ
    (needSettled bytes s) := by
  refine h0.trans ?_; clear h0; unfold needSettled
  (try dsimp only)
  repeat' (first
    | with_reducible exact Kept.refl _ | assumption
    | ((with_reducible apply updBoot_kept); · first | (with_reducible rfl) | (dsimp only; done) | ((repeat' split) <;> with_reducible rfl))
    | with_reducible apply raiseNeed_kept
    | ((with_reducible apply updI3c_kept); · first | (with_reducible exact fun h => h))
    | with_reducible apply Kept.ite
    | with_reducible exact Kept.of_eq rfl rfl rfl rfl (fun h => h) (fun h => h) (fun h => h) rfl
    | (split <;> try dsimp only))

theorem startOffer_kept {σ : State} (obj : Nat) (bytes : List Byte) (s : State) (h0 : Kept σ s) : Kept σ
    (startOffer obj bytes s) := by
  refine h0.trans ?_; clear h0; unfold startOffer
  repeat' (first
    | with_reducible exact Kept.refl _ | assumption | with_reducible apply oobAdd_kept
    | ((with_reducible apply updI3c_kept); · first | (with_reducible exact fun h => h)))

theorem offerObject_kept {σ : State} (obj : Nat) (bytes : List Byte) (s : State) (h0 : Kept σ s) : Kept σ
    (offerObject obj bytes s) := by
  refine h0.trans ?_; clear h0; unfold offerObject
  repeat' (first
    | with_reducible exact Kept.refl _ | assumption
    | ((with_reducible apply updI3c_kept); · first | (with_reducible exact fun h => h))
    | with_reducible apply startOffer_kept | with_reducible apply Kept.ite)

theorem nextOffer_kept {σ : State} (s : State) (h0 : Kept σ s) : Kept σ (nextOffer s) := by
  refine h0.trans ?_; clear h0; unfold nextOffer
  (try dsimp only)
  repeat' (first
    | with_reducible exact Kept.refl _ | assumption
    | ((with_reducible apply updI3c_kept); · first | (with_reducible exact fun h => h))
    | with_reducible apply startOffer_kept | with_reducible apply Kept.ite
    | with_reducible exact Kept.of_eq rfl rfl rfl rfl (fun h => h) (fun h => h) (fun h => h) rfl
    | (split <;> try dsimp only))

theorem dropShutRecord_kept {σ : State} (s : State) (h0 : Kept σ s) : Kept σ (dropShutRecord s) := by
  refine h0.trans ?_; clear h0; unfold dropShutRecord
  (try dsimp only)
  repeat' (first
    | with_reducible exact Kept.refl _ | assumption
    | ((with_reducible apply updI3c_kept); · first | (with_reducible exact fun h => h))
    | with_reducible apply nextOffer_kept | with_reducible apply Kept.ite
    | with_reducible exact Kept.of_eq rfl rfl rfl rfl (fun h => h) (fun h => h) (fun h => h) rfl
    | (split <;> try dsimp only))

theorem offerImage_kept {σ : State} (type : Nat) (img : List Byte) (s : State) (h0 : Kept σ s) : Kept σ
    (offerImage type img s) := by
  refine h0.trans ?_; clear h0; unfold offerImage
  repeat' (first | with_reducible exact Kept.refl _ | assumption | with_reducible apply offerObject_kept)

theorem setPoint_kept {σ : State} (d v : Nat) (s : State) (hv : (domain s d).setpoint ≤ 1500 → v ≤ 1500) (h0 : Kept σ s) :
    Kept σ (setPoint d v s) := updDomain_kept _ _ _ hv h0

theorem avsCommand_kept {σ : State} (d kind old cause : Nat) (p2 : Word) (s : State) (h0 : Kept σ s) : Kept σ
    (avsCommand d kind old cause p2 s) := by
  refine h0.trans ?_; clear h0; unfold avsCommand
  (try dsimp only)
  repeat' (first
    | with_reducible exact Kept.refl _ | assumption
    | ((with_reducible apply updOut_kept); · first | (with_reducible exact rfl) | exact rfl)
    | ((with_reducible apply updDomain_kept); · first | (with_reducible exact fun h => h) | exact fun h => h))

theorem recordStep_kept {σ : State} (rise : Bool) (d old : Nat) (s : State) (h0 : Kept σ s) : Kept σ
    (recordStep rise d old s) := by
  refine h0.trans ?_; clear h0; unfold recordStep
  (try dsimp only)
  repeat' (first | with_reducible exact Kept.refl _ | assumption | with_reducible apply occur_kept)

theorem recordReplaced_kept {σ : State} (steps : Bool) (d : Nat) (s : State) (h0 : Kept σ s) : Kept σ
    (recordReplaced steps d s) := by
  refine h0.trans ?_; clear h0; unfold recordReplaced
  repeat' (first
    | with_reducible exact Kept.refl _ | assumption | with_reducible apply recordStep_kept
    | with_reducible apply Kept.ite
    | with_reducible exact Kept.of_eq rfl rfl rfl rfl (fun h => h) (fun h => h) (fun h => h) rfl
    | (split <;> try dsimp only))

theorem toNominal_kept {σ : State} (d : Nat) (s : State) (h0 : Kept σ s) : Kept σ (toNominal d s) := by
  refine h0.trans ?_; clear h0; unfold toNominal
  (try dsimp only)
  repeat' (first
    | with_reducible exact Kept.refl _ | assumption
    | ((with_reducible apply updDomain_kept); · first | (with_reducible exact fun h => h) | exact fun h => h)
    | with_reducible apply recordReplaced_kept | with_reducible apply avsCommand_kept
    | ((with_reducible apply setPoint_kept); · first | exact fun _ => Nat.min_le_left _ _ | exact fun _ => Nat.le_refl _ | exact fun h => (Nat.sub_le _ _).trans h)
    | with_reducible apply Kept.ite)

theorem allNominal_kept  : ∀ ls {σ s : State}, Kept σ s → Kept σ (allNominal  ls s) := by
  intro ls
  induction ls with
  | nil => intro σ s h; exact h
  | cons a l ih =>
    intro σ s h0
    refine h0.trans ?_; clear h0; unfold allNominal
    repeat' (first
      | with_reducible exact Kept.refl _ | with_reducible apply ih | assumption | with_reducible apply toNominal_kept)

theorem leaveServing_kept {σ : State} (s : State) (h0 : Kept σ s) : Kept σ (leaveServing s) := by
  refine h0.trans ?_; clear h0; unfold leaveServing
  repeat' (first | with_reducible exact Kept.refl _ | assumption | with_reducible apply allNominal_kept)

theorem lockDomain_kept {σ : State} (d : Nat) (p : TempoPolicy) (s : State) (h0 : Kept σ s) : Kept σ
    (lockDomain d p s) := by
  refine h0.trans ?_; clear h0; unfold lockDomain
  (try dsimp only)
  repeat' (first
    | with_reducible exact Kept.refl _ | assumption
    | ((with_reducible apply setPoint_kept); · first | exact fun _ => Nat.min_le_left _ _ | exact fun _ => Nat.le_refl _ | exact fun h => (Nat.sub_le _ _).trans h)
    | ((with_reducible apply updOut_kept); · first | (with_reducible exact rfl) | exact rfl)
    | ((with_reducible apply updDomain_kept); · first | (with_reducible exact fun h => h) | exact fun h => h)
    | with_reducible apply occur_kept | with_reducible apply Kept.ite)

theorem cancelStep_kept {σ : State} (d : Nat) (s : State) (h0 : Kept σ s) : Kept σ (cancelStep d s) := by
  refine h0.trans ?_; clear h0; unfold cancelStep
  split
  · exact Kept.refl s
  · split
    · exact updOut_kept _ _ rfl (updTempo_kept _ _ id (updDomain_kept _ _ _ (fun _ => Nat.min_le_left _ _) (Kept.refl s)))
    · exact Kept.refl s

theorem startBackoff_kept {σ : State} (d cause : Nat) (p2 : Word) (p : TempoPolicy) (s : State) (h0 : Kept σ
    s) : Kept σ (startBackoff d cause p2 p s) := by
  refine h0.trans ?_; clear h0; unfold startBackoff
  (try dsimp only)
  repeat' (first
    | with_reducible exact Kept.refl _ | assumption | with_reducible apply recordReplaced_kept
    | ((with_reducible apply setPoint_kept); · first | exact fun _ => Nat.min_le_left _ _ | exact fun _ => Nat.le_refl _ | exact fun h => (Nat.sub_le _ _).trans h)
    | ((with_reducible apply updDomain_kept); · first | (with_reducible exact fun h => h) | exact fun h => h)
    | with_reducible apply lockDomain_kept | with_reducible apply avsCommand_kept)

theorem backoff_kept {σ : State} (d cause : Nat) (p2 : Word) (s : State) (h0 : Kept σ s) : Kept σ (backoff d
    cause p2 s) := by
  refine h0.trans ?_; clear h0; unfold backoff
  (try dsimp only)
  repeat' (first
    | with_reducible exact Kept.refl _ | assumption
    | ((with_reducible apply updDomain_kept); · first | (with_reducible exact fun h => h) | exact fun h => h)
    | with_reducible apply cancelStep_kept | with_reducible apply lockDomain_kept
    | with_reducible apply startBackoff_kept | with_reducible apply Kept.ite
    | with_reducible exact Kept.of_eq rfl rfl rfl rfl (fun h => h) (fun h => h) (fun h => h) rfl
    | (split <;> try dsimp only))

theorem backoffCore_kept {σ : State} (c cause : Nat) (p2 : Word) (s : State) (h0 : Kept σ s) : Kept σ
    (backoffCore c cause p2 s) := by
  refine h0.trans ?_; clear h0; unfold backoffCore
  repeat' (first | with_reducible exact Kept.refl _ | assumption | with_reducible apply backoff_kept)

theorem evalDomains_kept  : ∀ ls {σ s : State}, Kept σ s → Kept σ (evalDomains  ls s) := by
  intro ls
  induction ls with
  | nil => intro σ s h; exact h
  | cons a l ih =>
    intro σ s h0
    refine h0.trans ?_; clear h0; unfold evalDomains
    (try dsimp only)
    repeat' (first
      | with_reducible exact Kept.refl _ | with_reducible apply ih | assumption
      | ((with_reducible apply updDomain_kept); · first | (with_reducible exact fun h => h) | exact fun h => h))

theorem tempoEvaluate_kept {σ : State} (s : State) (h0 : Kept σ s) : Kept σ (tempoEvaluate s) := by
  refine h0.trans ?_; clear h0; unfold tempoEvaluate
  repeat' (first
    | with_reducible exact Kept.refl _ | assumption
    | ((with_reducible apply updTempo_kept); · first | (with_reducible exact fun h => h) | exact fun h => h)
    | with_reducible apply evalDomains_kept | with_reducible apply Kept.ite
    | with_reducible exact Kept.of_eq rfl rfl rfl rfl (fun h => h) (fun h => h) (fun h => h) rfl
    | (split <;> try dsimp only))

theorem tempoDescend_kept {σ : State} (d : Nat) (s : State) (h0 : Kept σ s) : Kept σ (tempoDescend d s) := by
  refine h0.trans ?_; clear h0; unfold tempoDescend
  (try dsimp only)
  repeat' (first
    | with_reducible exact Kept.refl _ | assumption
    | ((with_reducible apply updDomain_kept); · first | (with_reducible exact fun h => h) | exact fun h => h)
    | ((with_reducible apply setPoint_kept); · first | exact fun _ => Nat.min_le_left _ _ | exact fun _ => Nat.le_refl _ | exact fun h => (Nat.sub_le _ _).trans h)
    | ((with_reducible apply updTempo_kept); · first | (with_reducible exact fun h => h) | exact fun h => h)
    | with_reducible apply avsCommand_kept | with_reducible apply Kept.ite
    | with_reducible exact Kept.of_eq rfl rfl rfl rfl (fun h => h) (fun h => h) (fun h => h) rfl
    | (split <;> try dsimp only))

theorem riseToFloor_kept {σ : State} (d : Nat) (s : State) (h0 : Kept σ s) : Kept σ (riseToFloor d s) := by
  refine h0.trans ?_; clear h0; unfold riseToFloor
  (try dsimp only)
  repeat' (first
    | with_reducible exact Kept.refl _ | assumption | with_reducible apply recordReplaced_kept
    | with_reducible apply avsCommand_kept
    | ((with_reducible apply setPoint_kept); · first | exact fun _ => Nat.min_le_left _ _ | exact fun _ => Nat.le_refl _ | exact fun h => (Nat.sub_le _ _).trans h)
    | with_reducible apply recordStep_kept | with_reducible apply Kept.ite)

theorem applyPolicy_kept (unlock : Bool) : ∀ ls {σ s : State}, Kept σ s → Kept σ (applyPolicy unlock ls s) := by
  intro ls
  induction ls with
  | nil => intro σ s h; exact h
  | cons a l ih =>
    intro σ s h0
    refine h0.trans ?_; clear h0; unfold applyPolicy
    (try dsimp only)
    repeat' (first
      | with_reducible exact Kept.refl _ | with_reducible apply ih | assumption
      | ((with_reducible apply updDomain_kept); · first | (with_reducible exact fun h => h) | exact fun h => h)
      | with_reducible apply toNominal_kept | with_reducible apply riseToFloor_kept | with_reducible apply Kept.ite)

theorem recordBackoff_kept {σ : State} (d : Nat) (c : AvsCmd) (s : State) (h0 : Kept σ s) : Kept σ
    (recordBackoff d c s) := by
  refine h0.trans ?_; clear h0; unfold recordBackoff
  (try dsimp only)
  repeat' (first | with_reducible exact Kept.refl _ | assumption | with_reducible apply occur_kept)

theorem avsFault_kept {σ : State} (d kind written readBack : Nat) (s : State) (h0 : Kept σ s) : Kept σ
    (avsFault d kind written readBack s) := by
  refine h0.trans ?_; clear h0; unfold avsFault
  (try dsimp only)
  repeat' (first
    | with_reducible exact Kept.refl _ | assumption | with_reducible apply occur_kept
    | ((with_reducible apply updTempo_kept); · first | (with_reducible exact fun h => h) | exact fun h => h)
    | with_reducible apply recordReplaced_kept | with_reducible apply recordBackoff_kept
    | ((with_reducible apply updDomain_kept); · first | (with_reducible exact fun h => h) | exact fun h => h)
    | with_reducible apply applyPolicy_kept | with_reducible apply Kept.ite
    | with_reducible exact Kept.of_eq rfl rfl rfl rfl (fun h => h) (fun h => h) (fun h => h) rfl
    | (split <;> try dsimp only))

theorem avsSend_kept {σ : State} (d : Nat) (fs : List AvsFrame) (s : State) (h0 : Kept σ s) : Kept σ (avsSend
    d fs s) := by
  refine h0.trans ?_; clear h0; unfold avsSend
  repeat' (first
    | with_reducible exact Kept.refl _ | assumption
    | ((with_reducible apply updOut_kept); · first | (with_reducible exact rfl) | exact rfl))

theorem avsComplete_kept {σ : State} (d vout : Nat) (c : AvsCmd) (s : State) (h0 : Kept σ s) : Kept σ
    (avsComplete d vout c s) := by
  refine h0.trans ?_; clear h0; unfold avsComplete
  (try dsimp only)
  repeat' (first
    | with_reducible exact Kept.refl _ | assumption
    | ((with_reducible apply updDomain_kept); · first | (with_reducible exact fun h => h) | exact fun h => h)
    | with_reducible apply recordStep_kept | with_reducible apply recordBackoff_kept | with_reducible apply Kept.ite
    | with_reducible exact Kept.of_eq rfl rfl rfl rfl (fun h => h) (fun h => h) (fun h => h) rfl
    | (split <;> try dsimp only))

theorem avsSettled_kept {σ : State} (d vout : Nat) (s : State) (h0 : Kept σ s) : Kept σ (avsSettled d vout s) := by
  refine h0.trans ?_; clear h0; unfold avsSettled
  (try dsimp only)
  repeat' (first
    | with_reducible exact Kept.refl _ | assumption | with_reducible apply avsSend_kept
    | with_reducible apply avsComplete_kept
    | ((with_reducible apply updDomain_kept); · first | (with_reducible exact fun h => h) | exact fun h => h)
    | with_reducible apply avsFault_kept | with_reducible apply Kept.ite
    | with_reducible exact Kept.of_eq rfl rfl rfl rfl (fun h => h) (fun h => h) (fun h => h) rfl
    | (split <;> try dsimp only))

theorem avsFrameFailed_kept {σ : State} (d : Nat) (k : FrameFailure) (s : State) (h0 : Kept σ s) : Kept σ
    (avsFrameFailed d k s) := by
  refine h0.trans ?_; clear h0; unfold avsFrameFailed
  (try dsimp only)
  repeat' (first
    | with_reducible exact Kept.refl _ | assumption
    | ((with_reducible apply updDomain_kept); · first | (with_reducible exact fun h => h) | exact fun h => h)
    | with_reducible apply avsFault_kept | with_reducible apply Kept.ite)

theorem canaryReports_kept {σ : State} (d canary : Nat) (slack : Int) (s : State) (h0 : Kept σ s) : Kept σ
    (canaryReports d canary slack s) := by
  refine h0.trans ?_; clear h0; unfold canaryReports
  (try dsimp only)
  repeat' (first
    | with_reducible exact Kept.refl _ | assumption
    | ((with_reducible apply updDomain_kept); · first | (with_reducible exact fun h => h) | exact fun h => h)
    | with_reducible apply backoff_kept | with_reducible apply Kept.ite
    | with_reducible exact Kept.of_eq rfl rfl rfl rfl (fun h => h) (fun h => h) (fun h => h) rfl
    | (split <;> try dsimp only))

theorem execLimitActiveChange_kept (t : Nat) (active : Bool) (s : State) : ∃ s', execLimitActiveChange t
    active s = .next s' ∧ Kept s s' := by
  refine ⟨_, rfl, ?_⟩
  repeat' (first
    | with_reducible exact Kept.refl _ | assumption
    | ((with_reducible apply updTempo_kept); · first | (with_reducible exact fun h => h) | exact fun h => h)
    | with_reducible apply atTime_kept)

theorem changeFreq_kept {σ : State} (k mhz at_ : Nat) (s : State) (h0 : Kept σ s) : Kept σ (changeFreq k mhz
    at_ s) := by
  refine h0.trans ?_; clear h0; unfold changeFreq
  (try dsimp only)
  repeat' (first
    | with_reducible exact Kept.refl _ | assumption
    | ((with_reducible apply updTempo_kept); · first | (with_reducible exact fun h => h) | exact fun h => h))

theorem execFrequencyChangeNotice_kept (t : Nat) (cluster : Cluster) (mhz : Nat) (at_ : Nat) (s : State) : ∃
    s', execFrequencyChangeNotice t cluster mhz at_ s = .next s' ∧ Kept s s' := by
  refine ⟨_, rfl, ?_⟩
  repeat' (first
    | with_reducible exact Kept.refl _ | assumption | with_reducible apply changeFreq_kept
    | with_reducible apply atTime_kept)

theorem execCanaryReport_kept (t : Nat) (domain : Cluster) (canary : Nat) (slack : Int) (s : State) : ∃ s',
    execCanaryReport t domain canary slack s = .next s' ∧ Kept s s' := by
  refine ⟨_, rfl, ?_⟩
  repeat' (first
    | with_reducible exact Kept.refl _ | assumption | with_reducible apply canaryReports_kept
    | with_reducible apply atTime_kept)

theorem execTempoEvaluation_kept (t : Nat) (s : State) : ∃ s', execTempoEvaluation t s = .next s' ∧ Kept s s' := by
  refine ⟨_, rfl, ?_⟩
  repeat' (first
    | with_reducible exact Kept.refl _ | assumption | with_reducible apply tempoEvaluate_kept
    | with_reducible apply atTime_kept)

theorem execTempoStep_kept (t : Nat) (domain : Cluster) (s : State) : ∃ s', execTempoStep t domain s = .next
    s' ∧ Kept s s' := by
  refine ⟨_, rfl, ?_⟩
  repeat' (first
    | with_reducible exact Kept.refl _ | assumption | with_reducible apply tempoDescend_kept
    | with_reducible apply atTime_kept)

theorem execTempoHoldEnd_kept (t : Nat) (d : Cluster) (s : State) : ∃ s', execTempoHoldEnd t d s = .next s' ∧
    Kept s s' := by
  refine ⟨_, rfl, ?_⟩
  repeat' (first
    | with_reducible exact Kept.refl _ | assumption | with_reducible apply atTime_kept
    | ((with_reducible apply updDomain_kept); · first | (with_reducible exact fun h => h) | exact fun h => h)
    | with_reducible apply Kept.ite)

theorem execLearnedFloorExpiry_kept (t : Nat) (d : Cluster) (s : State) : ∃ s', execLearnedFloorExpiry t d s =
    .next s' ∧ Kept s s' := by
  refine ⟨_, rfl, ?_⟩
  repeat' (first
    | with_reducible exact Kept.refl _ | assumption | with_reducible apply atTime_kept
    | ((with_reducible apply updDomain_kept); · first | (with_reducible exact fun h => h) | exact fun h => h)
    | with_reducible apply Kept.ite)

theorem execAvsSettleExpiry_kept (t : Nat) (domain : Cluster) (vout : Nat) (s : State) : ∃ s',
    execAvsSettleExpiry t domain vout s = .next s' ∧ Kept s s' := by
  refine ⟨_, rfl, ?_⟩
  repeat' (first
    | with_reducible exact Kept.refl _ | assumption | with_reducible apply avsSettled_kept
    | with_reducible apply atTime_kept)

theorem execAvsFrameFail_kept (t : Nat) (domain : Cluster) (failure : FrameFailure) (s : State) : ∃ s',
    execAvsFrameFail t domain failure s = .next s' ∧ Kept s s' := by
  refine ⟨_, rfl, ?_⟩
  repeat' (first
    | with_reducible exact Kept.refl _ | assumption | with_reducible apply avsFrameFailed_kept
    | with_reducible apply atTime_kept)

theorem sendMgmt_kept {σ : State} (bytes : List Byte) (s : State) (h0 : Kept σ s) : Kept σ (sendMgmt bytes s) := by
  refine h0.trans ?_; clear h0; unfold sendMgmt
  repeat' (first
    | with_reducible exact Kept.refl _ | assumption
    | ((with_reducible apply updOut_kept); · first | (with_reducible exact rfl) | exact rfl)
    | with_reducible apply Kept.ite
    | with_reducible exact Kept.of_eq rfl rfl rfl rfl (fun h => h) (fun h => h) (fun h => h) rfl
    | (split <;> try dsimp only))

theorem makeReport_kept {σ : State} (unscheduled : Bool) (p : LedgerPolicy) (b : Bound) (s : State) (h0 : Kept
    σ s) : Kept σ (makeReport unscheduled p b s) := by
  refine h0.trans ?_; clear h0; unfold makeReport
  (try dsimp only)
  repeat' (first
    | with_reducible exact Kept.refl _ | assumption | with_reducible apply updLed_kept
    | ((with_reducible apply updTempo_kept); · first | (with_reducible exact fun h => h) | exact fun h => h)
    | with_reducible apply sendMgmt_kept | with_reducible apply oobAdd_kept | with_reducible apply occur_kept
    | with_reducible apply Kept.ite)

theorem unscheduledReport_kept {σ : State} (s : State) (h0 : Kept σ s) : Kept σ (unscheduledReport s) := by
  refine h0.trans ?_; clear h0; unfold unscheduledReport
  repeat' (first
    | with_reducible exact Kept.refl _ | assumption | with_reducible apply makeReport_kept
    | with_reducible apply Kept.ite
    | with_reducible exact Kept.of_eq rfl rfl rfl rfl (fun h => h) (fun h => h) (fun h => h) rfl
    | (split <;> try dsimp only))

theorem intervalEnds_kept {σ : State} (s : State) (h0 : Kept σ s) : Kept σ (intervalEnds s) := by
  refine h0.trans ?_; clear h0; unfold intervalEnds
  (try dsimp only)
  repeat' (first
    | with_reducible exact Kept.refl _ | assumption | with_reducible apply makeReport_kept
    | with_reducible apply updLed_kept | with_reducible apply Kept.ite
    | with_reducible exact Kept.of_eq rfl rfl rfl rfl (fun h => h) (fun h => h) (fun h => h) rfl
    | (split <;> try dsimp only))

theorem setState_kept {σ : State} (v : Nat) (s : State) (h0 : Kept σ s) : Kept σ (setState v s) := by
  refine h0.trans ?_; clear h0; unfold setState
  (try dsimp only)
  repeat' (first
    | with_reducible exact Kept.refl _ | assumption | with_reducible apply leaveServing_kept
    | with_reducible apply updLed_kept
    | ((with_reducible apply updTempo_kept); · first | (with_reducible exact fun h => h) | exact fun h => h)
    | with_reducible apply msix_kept | with_reducible apply Kept.ite)

theorem openAll_kept (reason : Nat) : ∀ ls {σ s : State}, Kept σ s → Kept σ (openAll reason ls s) := by
  intro ls
  induction ls with
  | nil => intro σ s h; exact h
  | cons a l ih =>
    intro σ s h0
    refine h0.trans ?_; clear h0; unfold openAll
    repeat' (first
      | with_reducible exact Kept.refl _ | with_reducible apply ih | assumption
      | with_reducible apply openAtUnsealed_kept)

theorem endAll_kept (cause : Nat) : ∀ ls {σ s : State}, Kept σ s → Kept σ (endAll cause ls s) := by
  intro ls
  induction ls with
  | nil => intro σ s h; exact h
  | cons a l ih =>
    intro σ s h0
    refine h0.trans ?_; clear h0; unfold endAll
    repeat' (first
      | with_reducible exact Kept.refl _ | with_reducible apply ih | assumption
      | with_reducible apply endContext_kept)

theorem drainBegins_kept {σ : State} (s : State) (h0 : Kept σ s) : Kept σ (drainBegins s) := by
  refine h0.trans ?_; clear h0; unfold drainBegins
  (try dsimp only)
  repeat' (first
    | with_reducible exact Kept.refl _ | assumption | with_reducible apply oobAdd_kept
    | with_reducible apply unscheduledReport_kept | with_reducible apply endAll_kept)

theorem suspect_kept {σ : State} (cause unit core mask : Nat) (p3 : Word) (s : State) (h0 : Kept σ s) : Kept σ
    (suspect cause unit core mask p3 s) := by
  refine h0.trans ?_; clear h0; unfold suspect
  (try dsimp only)
  repeat' (first
    | with_reducible exact Kept.refl _ | assumption | with_reducible apply updLed_kept
    | with_reducible apply occur_kept | with_reducible apply setState_kept | with_reducible apply openAll_kept
    | with_reducible apply drainBegins_kept | with_reducible apply Kept.ite)

theorem outOfService_kept {σ : State} (count windowS : Nat) (seq : Word) (s : State) (h0 : Kept σ s) : Kept σ
    (outOfService count windowS seq s) := by
  refine h0.trans ?_; clear h0; unfold outOfService
  (try dsimp only)
  repeat' (first
    | with_reducible exact Kept.refl _ | assumption | with_reducible apply occur_kept
    | with_reducible apply setState_kept | with_reducible apply updLed_kept | with_reducible apply openAll_kept
    | with_reducible apply drainBegins_kept | with_reducible apply unscheduledReport_kept
    | with_reducible apply Kept.ite)

theorem windowPut_kept {σ : State} (core unit : Nat) (s : State) (h0 : Kept σ s) : Kept σ (windowPut core unit
    s) := by
  refine h0.trans ?_; clear h0; unfold windowPut
  repeat' (first | with_reducible exact Kept.refl _ | assumption | with_reducible apply updLed_kept)

theorem countDet_kept {σ : State} (i : Nat) (s : State) (h0 : Kept σ s) : Kept σ (countDet i s) := by
  refine h0.trans ?_; clear h0; unfold countDet
  repeat' (first | with_reducible exact Kept.refl _ | assumption | with_reducible apply updLed_kept)

theorem countConfirmed_kept {σ : State} (s : State) (h0 : Kept σ s) : Kept σ (countConfirmed s) := by
  refine h0.trans ?_; clear h0; unfold countConfirmed
  repeat' (first | with_reducible exact Kept.refl _ | assumption | with_reducible apply updLed_kept)

theorem chargeEngine_kept {σ : State} (core q : Nat) (tag : Word) (s : State) (h0 : Kept σ s) : Kept σ
    (chargeEngine core q tag s) := by
  refine h0.trans ?_; clear h0; unfold chargeEngine
  (try dsimp only)
  repeat' (first
    | with_reducible exact Kept.refl _ | assumption | with_reducible apply windowPut_kept
    | with_reducible apply suspect_kept | with_reducible apply Kept.ite
    | with_reducible exact Kept.of_eq rfl rfl rfl rfl (fun h => h) (fun h => h) (fun h => h) rfl
    | (split <;> try dsimp only))

theorem stationFault_kept {σ : State} (core : Nat) (tag : Word) (s : State) (h0 : Kept σ s) : Kept σ
    (stationFault core tag s) := by
  refine h0.trans ?_; clear h0; unfold stationFault
  (try dsimp only)
  repeat' (first
    | with_reducible exact Kept.refl _ | assumption | with_reducible apply countDet_kept
    | with_reducible apply updLed_kept | with_reducible apply windowPut_kept | with_reducible apply suspect_kept
    | with_reducible apply Kept.ite
    | with_reducible exact Kept.of_eq rfl rfl rfl rfl (fun h => h) (fun h => h) (fun h => h) rfl
    | (split <;> try dsimp only))

theorem recheckUnits_kept (p : LedgerPolicy) : ∀ ls {σ s : State}, Kept σ s → Kept σ (recheckUnits p ls s) := by
  intro ls
  induction ls with
  | nil => intro σ s h; exact h
  | cons a l ih =>
    intro σ s h0
    refine h0.trans ?_; clear h0; unfold recheckUnits
    (try dsimp only)
    repeat' (first
      | with_reducible exact Kept.refl _ | with_reducible apply ih | assumption | with_reducible apply suspect_kept
      | with_reducible apply Kept.ite)

theorem drainLimit_kept {σ : State} (s : State) (h0 : Kept σ s) : Kept σ (drainLimit s) := by
  refine h0.trans ?_; clear h0; unfold drainLimit
  (try dsimp only)
  repeat' (first
    | with_reducible exact Kept.refl _ | assumption | with_reducible apply updLed_kept
    | with_reducible apply endAll_kept | with_reducible apply Kept.ite
    | with_reducible exact Kept.of_eq rfl rfl rfl rfl (fun h => h) (fun h => h) (fun h => h) rfl
    | (split <;> try dsimp only))

theorem writeFlag_kept {σ : State} (s : State) (h0 : Kept σ s) : Kept σ (writeFlag s) := by
  refine h0.trans ?_; clear h0; unfold writeFlag
  (try dsimp only)
  repeat' (first
    | with_reducible exact Kept.refl _ | assumption | with_reducible apply updLed_kept
    | with_reducible apply otpBurn_kept | with_reducible apply offerImage_kept | with_reducible apply Kept.ite)

theorem becomeDrained_kept {σ : State} (s : State) (h0 : Kept σ s) : Kept σ (becomeDrained s) := by
  refine h0.trans ?_; clear h0; unfold becomeDrained
  (try dsimp only)
  repeat' (first
    | with_reducible exact Kept.refl _ | assumption | with_reducible apply writeFlag_kept
    | with_reducible apply occur_kept | with_reducible apply updLed_kept | with_reducible apply unscheduledReport_kept
    | with_reducible apply setState_kept | with_reducible apply Kept.ite)

theorem execLedgerIntervalEnd_kept (t : Nat) (s : State) : ∃ s', execLedgerIntervalEnd t s = .next s' ∧ Kept s
    s' := by
  refine ⟨_, rfl, ?_⟩
  repeat' (first
    | with_reducible exact Kept.refl _ | assumption | with_reducible apply intervalEnds_kept
    | with_reducible apply atTime_kept)

theorem execDrainLimitExpiry_kept (t : Nat) (s : State) : ∃ s', execDrainLimitExpiry t s = .next s' ∧ Kept s
    s' := by
  refine ⟨_, rfl, ?_⟩
  repeat' (first
    | with_reducible exact Kept.refl _ | assumption | with_reducible apply drainLimit_kept
    | with_reducible apply atTime_kept)

theorem execDrained_kept (t : Nat) (s : State) : ∃ s', execDrained t s = .next s' ∧ Kept s s' := by
  refine ⟨_, rfl, ?_⟩
  repeat' (first
    | with_reducible exact Kept.refl _ | assumption | with_reducible apply becomeDrained_kept
    | with_reducible apply atTime_kept)

theorem updCus_kept {σ : State} (c : Nat) (p : Cu → Bool) (f : Cu → Cu) (s : State) (h0 : Kept σ s) : Kept σ
    (updCus c p f s) := by
  refine h0.trans ?_; clear h0; unfold updCus
  repeat' (first | with_reducible exact Kept.refl _ | assumption | with_reducible apply updStation_kept)

theorem setDisp_kept {σ : State} (c : Nat) (tag : Word) (retire disp : Nat) (s : State) (h0 : Kept σ s) : Kept
    σ (setDisp c tag retire disp s) := by
  refine h0.trans ?_; clear h0; unfold setDisp
  (try dsimp only)
  repeat' (first | with_reducible exact Kept.refl _ | assumption | with_reducible apply updStation_kept)

theorem loadPin_kept {σ : State} (c : Nat) (u : Cu) (s : State) (h0 : Kept σ s) : Kept σ (loadPin c u s) := by
  refine h0.trans ?_; clear h0; unfold loadPin
  (try dsimp only)
  repeat' (first
    | with_reducible exact Kept.refl _ | assumption | with_reducible apply updStation_kept
    | with_reducible apply Kept.ite)

theorem spadPut_kept {σ : State} (c : Nat) (poison : Bool) (a : Nat) (bs : List Byte) (s : State) (h0 : Kept σ
    s) : Kept σ (spadPut c poison a bs s) := by
  refine h0.trans ?_; clear h0; unfold spadPut
  repeat' (first | with_reducible exact Kept.refl _ | assumption | with_reducible apply updStation_kept)

theorem landSector_kept {σ : State} (c a : Nat) (w : InbWrite) (s : State) (h0 : Kept σ s) : Kept σ
    (landSector c a w s) := by
  refine h0.trans ?_; clear h0; unfold landSector
  repeat' (first | with_reducible exact Kept.refl _ | assumption | with_reducible apply spadPut_kept)

theorem landHeld_kept (c : Nat) : ∀ ls {σ s : State}, Kept σ s → Kept σ (landHeld c ls s) := by
  intro ls
  induction ls with
  | nil => intro σ s h; exact h
  | cons a l ih =>
    intro σ s h0
    refine h0.trans ?_; clear h0; unfold landHeld
    repeat' (first
      | with_reducible exact Kept.refl _ | with_reducible apply ih | assumption | with_reducible apply updStation_kept
      | with_reducible apply landSector_kept | with_reducible apply Kept.ite
      | with_reducible exact Kept.of_eq rfl rfl rfl rfl (fun h => h) (fun h => h) (fun h => h) rfl
      | (split <;> try dsimp only))

theorem dropPins_kept {σ : State} (c : Nat) (p : Pin → Bool) (s : State) (h0 : Kept σ s) : Kept σ (dropPins c
    p s) := by
  refine h0.trans ?_; clear h0; unfold dropPins
  (try dsimp only)
  repeat' (first
    | with_reducible exact Kept.refl _ | assumption | with_reducible apply updStation_kept
    | with_reducible apply landHeld_kept)

theorem updReh_kept {σ : State} (c : Nat) (f : Rehearsal → Rehearsal) (s : State) (h0 : Kept σ s) : Kept σ
    (updReh c f s) := by
  refine h0.trans ?_; clear h0; unfold updReh
  repeat' (first | with_reducible exact Kept.refl _ | assumption | with_reducible apply updStation_kept)

theorem kitInvalid_kept {σ : State} (id cause core : Nat) (s : State) (h0 : Kept σ s) : Kept σ (kitInvalid id
    cause core s) := by
  refine h0.trans ?_; clear h0; unfold kitInvalid
  have hk := updLed_kept (fun l => { l with badKits := if l.badKits.contains id then l.badKits else id :: l.badKits }) s (Kept.refl s)
  exact occur_kept _ _ _ _ _ _ (hk.trans (Kept.of_eq rfl rfl rfl rfl (fun h => h) (fun h => h) (fun h => h) rfl))

theorem writeCapsuleHead_kept {σ : State} (c : Nat) (k : Capsule) (s : State) (h0 : Kept σ s) : Kept σ
    (writeCapsuleHead c k s) := by
  refine h0.trans ?_; clear h0; unfold writeCapsuleHead
  (try dsimp only)
  repeat' (first | with_reducible exact Kept.refl _ | assumption | with_reducible apply memWrite_kept)

theorem freeCapsules_kept {σ : State} (c : Nat) (s : State) (h0 : Kept σ s) : Kept σ (freeCapsules c s) := by
  refine h0.trans ?_; clear h0; unfold freeCapsules
  repeat' (first | with_reducible exact Kept.refl _ | assumption | with_reducible apply updStation_kept)

theorem updCapsule_kept {σ : State} (c : Nat) (tag : Word) (f : Capsule → Capsule) (s : State) (h0 : Kept σ s)
    : Kept σ (updCapsule c tag f s) := by
  refine h0.trans ?_; clear h0; unfold updCapsule
  repeat' (first | with_reducible exact Kept.refl _ | assumption | with_reducible apply updStation_kept)

theorem claimCapsule_kept (c : Nat) (k : Capsule) (s t : State) (h : claimCapsule c k s = some t) : Kept s t := by
  unfold claimCapsule at h
  dsimp only at h
  split at h
  · simp at h
  · obtain rfl := Option.some.inj h
    refine writeCapsuleHead_kept _ _ _ (freeCapsules_kept _ _ (updStation_kept _ _ _ ?_))
    split
    · exact Kept.refl s
    · exact writeCapsuleHead_kept _ _ _ (updStation_kept _ _ _ (Kept.refl s))

theorem skipSample_kept {σ : State} (c : Nat) (tag : Word) (cause : Nat) (s : State) (h0 : Kept σ s) : Kept σ
    (skipSample c tag cause s) := by
  refine h0.trans ?_; clear h0; unfold skipSample
  (try dsimp only)
  repeat' (first
    | with_reducible exact Kept.refl _ | assumption | with_reducible apply updCus_kept
    | with_reducible apply writeCapsuleHead_kept | with_reducible apply freeCapsules_kept
    | with_reducible apply updCapsule_kept | with_reducible apply updStation_kept | with_reducible apply occur_kept
    | with_reducible apply Kept.ite
    | with_reducible exact Kept.of_eq rfl rfl rfl rfl (fun h => h) (fun h => h) (fun h => h) rfl
    | (split <;> try dsimp only))

theorem giveReprise_kept {σ : State} (c : Nat) (tag : Word) (verdict : Nat) (s : State) (h0 : Kept σ s) : Kept
    σ (giveReprise c tag verdict s) := by
  refine h0.trans ?_; clear h0; unfold giveReprise
  (try dsimp only)
  repeat' (first
    | with_reducible exact Kept.refl _ | assumption | with_reducible apply updLed_kept
    | with_reducible apply freeCapsules_kept | with_reducible apply updCapsule_kept | with_reducible apply Kept.ite
    | with_reducible exact Kept.of_eq rfl rfl rfl rfl (fun h => h) (fun h => h) (fun h => h) rfl
    | (split <;> try dsimp only))

theorem abandonReprise_kept {σ : State} (deferred : Bool) (c : Nat) (tag : Word) (cause : Nat) (s : State) (h0
    : Kept σ s) : Kept σ (abandonReprise deferred c tag cause s) := by
  refine h0.trans ?_; clear h0; unfold abandonReprise
  (try dsimp only)
  repeat' (first
    | with_reducible exact Kept.refl _ | assumption | with_reducible apply updAdj_kept
    | with_reducible apply giveReprise_kept | with_reducible apply occurDeferred_kept
    | with_reducible apply occur_kept | with_reducible apply Kept.ite
    | with_reducible exact Kept.of_eq rfl rfl rfl rfl (fun h => h) (fun h => h) (fun h => h) rfl
    | (split <;> try dsimp only))

end Sys2Proof.Laws
end

