-- ==== Sys2Proof/Laws/KeptWork.lean ====
section
/-! SUPPORT. `Kept` for every operation and meaning of adjudication, barriers, the recorder, snapshots, sync operations, messages, residency, verdicts, rehearsal, reprise and taps: one lemma each, from those of the operations it calls. -/

namespace Sys2Proof.Laws

open Sys2Proof Sys2Proof.Machine Sys2Proof.Safety

theorem updAdjSlot_kept {σ : State} (i : Nat) (f : Adj → Adj) (s : State) (h0 : Kept σ s) : Kept σ (updAdjSlot
    i f s) := by
  refine h0.trans ?_; clear h0; unfold updAdjSlot
  repeat' (first | with_reducible exact Kept.refl _ | assumption | with_reducible apply updAdj_kept)

theorem mapAdjs_kept {σ : State} (p : Adj → Bool) (f : Adj → Adj) (s : State) (h0 : Kept σ s) : Kept σ
    (mapAdjs p f s) := by
  refine h0.trans ?_; clear h0; unfold mapAdjs
  repeat' (first | with_reducible exact Kept.refl _ | assumption | with_reducible apply updAdj_kept)

theorem notify_kept {σ : State} (c : Nat) (n : Notice) (s : State) (h0 : Kept σ s) : Kept σ (notify c n s) := by
  refine h0.trans ?_; clear h0; unfold notify
  repeat' (first | with_reducible exact Kept.refl _ | assumption | with_reducible apply updStation_kept)

theorem copySources_kept {σ : State} (c : Nat) (k : Capsule) (d : Nat) (s : State) (h0 : Kept σ s) : Kept σ
    (copySources c k d s) := by
  refine h0.trans ?_; clear h0; unfold copySources
  repeat' (first | with_reducible exact Kept.refl _ | assumption | with_reducible apply spadPut_kept)

theorem holdCapsuleOf_kept {σ : State} (c : Nat) (k : Capsule) (s : State) (h0 : Kept σ s) : Kept σ
    (holdCapsuleOf c k s) := by
  refine h0.trans ?_; clear h0; unfold holdCapsuleOf
  repeat' (first
    | with_reducible exact Kept.refl _ | assumption | with_reducible apply writeCapsuleHead_kept
    | with_reducible apply updCapsule_kept)

theorem giveInputs_kept {σ : State} (i : Nat) (a : Adj) (s : State) (h0 : Kept σ s) : Kept σ (giveInputs i a
    s) := by
  refine h0.trans ?_; clear h0; unfold giveInputs
  repeat' (first
    | with_reducible exact Kept.refl _ | assumption | with_reducible apply holdCapsuleOf_kept
    | with_reducible apply updAdjSlot_kept | with_reducible apply Kept.ite
    | with_reducible exact Kept.of_eq rfl rfl rfl rfl (fun h => h) (fun h => h) (fun h => h) rfl
    | (split <;> try dsimp only))

theorem startExec_kept {σ : State} (i : Nat) (w : ExecName) (d : Nat) (s : State) (h0 : Kept σ s) : Kept σ
    (startExec i w d s) := by
  refine h0.trans ?_; clear h0; unfold startExec
  repeat' (first
    | with_reducible exact Kept.refl _ | assumption | with_reducible apply notify_kept
    | with_reducible apply giveInputs_kept | with_reducible apply Kept.ite
    | with_reducible exact Kept.of_eq rfl rfl rfl rfl (fun h => h) (fun h => h) (fun h => h) rfl
    | (split <;> try dsimp only))

theorem assignU_kept {σ : State} (i : Nat) (c : Core) (s : State) (h0 : Kept σ s) : Kept σ (assignU i c s) := by
  refine h0.trans ?_; clear h0; unfold assignU
  repeat' (first
    | with_reducible exact Kept.refl _ | assumption | with_reducible apply startExec_kept
    | with_reducible apply updAdjSlot_kept)

theorem assignV_kept {σ : State} (i : Nat) (c : Core) (s : State) (h0 : Kept σ s) : Kept σ (assignV i c s) := by
  refine h0.trans ?_; clear h0; unfold assignV
  repeat' (first
    | with_reducible exact Kept.refl _ | assumption | with_reducible apply startExec_kept
    | with_reducible apply updAdjSlot_kept)

theorem lookFor_kept {σ : State} (i : Nat) (s : State) (h0 : Kept σ s) : Kept σ (lookFor i s) := by
  refine h0.trans ?_; clear h0; unfold lookFor
  (try dsimp only)
  repeat' (first
    | with_reducible exact Kept.refl _ | assumption | with_reducible apply assignU_kept
    | with_reducible apply assignV_kept | with_reducible apply Kept.ite
    | with_reducible exact Kept.of_eq rfl rfl rfl rfl (fun h => h) (fun h => h) (fun h => h) rfl
    | (split <;> try dsimp only))

theorem wantH_kept {σ : State} (i : Nat) (s : State) (h0 : Kept σ s) : Kept σ (wantH i s) := by
  refine h0.trans ?_; clear h0; unfold wantH
  (try dsimp only)
  repeat' (first
    | with_reducible exact Kept.refl _ | assumption | with_reducible apply updAdjSlot_kept
    | with_reducible apply startExec_kept | with_reducible apply Kept.ite
    | with_reducible exact Kept.of_eq rfl rfl rfl rfl (fun h => h) (fun h => h) (fun h => h) rfl
    | (split <;> try dsimp only))

theorem startHomes_kept (c : Nat) : ∀ ls {σ s : State}, Kept σ s → Kept σ (startHomes c ls s) := by
  intro ls
  induction ls with
  | nil => intro σ s h; exact h
  | cons a l ih =>
    intro σ s h0
    refine h0.trans ?_; clear h0; unfold startHomes
    repeat' (first
      | with_reducible exact Kept.refl _ | with_reducible apply ih | assumption | with_reducible apply startExec_kept
      | with_reducible apply Kept.ite
      | with_reducible exact Kept.of_eq rfl rfl rfl rfl (fun h => h) (fun h => h) (fun h => h) rfl
      | (split <;> try dsimp only))

theorem releaseStop_kept {σ : State} (c : Nat) (s : State) (h0 : Kept σ s) : Kept σ (releaseStop c s) := by
  refine h0.trans ?_; clear h0; unfold releaseStop
  repeat' (first
    | with_reducible exact Kept.refl _ | assumption | with_reducible apply updStation_kept
    | with_reducible apply Kept.ite)

theorem unholdCapsule_kept {σ : State} (a : Adj) (s : State) (h0 : Kept σ s) : Kept σ (unholdCapsule a s) := by
  refine h0.trans ?_; clear h0; unfold unholdCapsule
  (try dsimp only)
  repeat' (first
    | with_reducible exact Kept.refl _ | assumption | with_reducible apply freeCapsules_kept
    | with_reducible apply writeCapsuleHead_kept | with_reducible apply updCapsule_kept
    | with_reducible apply Kept.ite
    | with_reducible exact Kept.of_eq rfl rfl rfl rfl (fun h => h) (fun h => h) (fun h => h) rfl
    | (split <;> try dsimp only))

theorem endExecs_kept {σ : State} (a : Adj) (s : State) (h0 : Kept σ s) : Kept σ (endExecs a s) := by
  refine h0.trans ?_; clear h0; unfold endExecs
  (try dsimp only)
  repeat' (first
    | with_reducible exact Kept.refl _ | assumption | with_reducible apply Kept.ite
    | with_reducible exact Kept.of_eq rfl rfl rfl rfl (fun h => h) (fun h => h) (fun h => h) rfl)

theorem finishClose_kept {σ : State} (a : Adj) (s : State) (h0 : Kept σ s) : Kept σ (finishClose a s) := by
  refine h0.trans ?_; clear h0; unfold finishClose
  (try dsimp only)
  repeat' (first
    | with_reducible exact Kept.refl _ | assumption | with_reducible apply endExecs_kept
    | with_reducible apply unholdCapsule_kept | with_reducible apply dropPins_kept
    | with_reducible apply releaseStop_kept | with_reducible apply Kept.ite)

theorem countClass_kept {σ : State} (a : Adj) (cls : Nat) (charged : Option Core) (s : State) (h0 : Kept σ s)
    : Kept σ (countClass a cls charged s) := by
  refine h0.trans ?_; clear h0; unfold countClass
  (try dsimp only)
  repeat' (first
    | with_reducible exact Kept.refl _ | assumption | with_reducible apply backoffCore_kept
    | with_reducible apply chargeEngine_kept | with_reducible apply countConfirmed_kept
    | with_reducible apply countDet_kept | with_reducible apply windowPut_kept | with_reducible apply suspect_kept
    | with_reducible apply stationFault_kept
    | ((with_reducible apply updDomain_kept); · first | (with_reducible exact fun h => h) | exact fun h => h)
    | with_reducible apply Kept.ite
    | with_reducible exact Kept.of_eq rfl rfl rfl rfl (fun h => h) (fun h => h) (fun h => h) rfl
    | (split <;> try dsimp only))

theorem closeCore_kept {σ : State} (deferred : Bool) (a : Adj) (cls : Nat) (charged : Option Core) (row : Nat)
    (s : State) (h0 : Kept σ s) : Kept σ (closeCore deferred a cls charged row s).1 := by
  refine h0.trans ?_; clear h0; unfold closeCore
  (try dsimp only)
  repeat' (first
    | with_reducible exact Kept.refl _ | assumption | with_reducible apply occurDeferred_kept
    | with_reducible apply occur_kept | with_reducible apply setDisp_kept | with_reducible apply updAdj_kept
    | with_reducible apply updStation_kept | with_reducible apply countClass_kept
    | with_reducible apply closeAdjIncident_kept | with_reducible apply contain_kept
    | with_reducible apply settleCu_kept | with_reducible apply Kept.ite
    | with_reducible exact Kept.of_eq rfl rfl rfl rfl (fun h => h) (fun h => h) (fun h => h) rfl
    | (split <;> try dsimp only))

theorem standIn_kept {σ : State} (i : Nat) (s : State) (h0 : Kept σ s) : Kept σ (standIn i s) := by
  refine h0.trans ?_; clear h0; unfold standIn
  repeat' (first
    | with_reducible exact Kept.refl _ | assumption | with_reducible apply wantH_kept
    | with_reducible apply updAdjSlot_kept | with_reducible apply Kept.ite
    | with_reducible exact Kept.of_eq rfl rfl rfl rfl (fun h => h) (fun h => h) (fun h => h) rfl
    | (split <;> try dsimp only))

theorem takeQueued_kept {σ : State} (s : State) (h0 : Kept σ s) : Kept σ (takeQueued s) := by
  refine h0.trans ?_; clear h0; unfold takeQueued
  (try dsimp only)
  repeat' (first
    | with_reducible exact Kept.refl _ | assumption | with_reducible apply standIn_kept
    | with_reducible apply lookFor_kept | with_reducible apply updAdj_kept | with_reducible apply Kept.ite
    | with_reducible exact Kept.of_eq rfl rfl rfl rfl (fun h => h) (fun h => h) (fun h => h) rfl
    | (split <;> try dsimp only))

theorem freeAdjSlot_kept {σ : State} (i : Nat) (s : State) (h0 : Kept σ s) : Kept σ (freeAdjSlot i s) := by
  refine h0.trans ?_; clear h0; unfold freeAdjSlot
  repeat' (first
    | with_reducible exact Kept.refl _ | assumption | with_reducible apply takeQueued_kept
    | with_reducible apply finishClose_kept | with_reducible apply updAdj_kept | with_reducible apply Kept.ite
    | with_reducible exact Kept.of_eq rfl rfl rfl rfl (fun h => h) (fun h => h) (fun h => h) rfl
    | (split <;> try dsimp only))

theorem closeSlot_kept {σ : State} (i cls : Nat) (charged : Option Core) (row : Nat) (s : State) (h0 : Kept σ
    s) : Kept σ (closeSlot i cls charged row s) := by
  refine h0.trans ?_; clear h0; unfold closeSlot
  (try dsimp only)
  repeat' (first
    | with_reducible exact Kept.refl _ | assumption | with_reducible apply closeCore_kept
    | with_reducible apply updAdjSlot_kept | with_reducible apply freeAdjSlot_kept | with_reducible apply Kept.ite
    | with_reducible exact Kept.of_eq rfl rfl rfl rfl (fun h => h) (fun h => h) (fun h => h) rfl
    | (split <;> try dsimp only))

theorem closeUnslotted_kept {σ : State} (deferred : Bool) (a : Adj) (s : State) (h0 : Kept σ s) : Kept σ
    (closeUnslotted deferred a s) := by
  refine h0.trans ?_; clear h0; unfold closeUnslotted
  (try dsimp only)
  repeat' (first
    | with_reducible exact Kept.refl _ | assumption | with_reducible apply closeCore_kept
    | with_reducible apply updAdj_kept | with_reducible apply finishClose_kept | with_reducible apply Kept.ite)

theorem assertStop_kept {σ : State} (c : Nat) (s : State) (h0 : Kept σ s) : Kept σ (assertStop c s) := by
  refine h0.trans ?_; clear h0; unfold assertStop
  repeat' (first | with_reducible exact Kept.refl _ | assumption | with_reducible apply updStation_kept)

theorem openAdj_kept {σ : State} (a : Adj) (s : State) (h0 : Kept σ s) : Kept σ (openAdj a s) := by
  refine h0.trans ?_; clear h0; unfold openAdj
  (try dsimp only)
  repeat' (first
    | with_reducible exact Kept.refl _ | assumption | with_reducible apply openIncident_kept
    | with_reducible apply assertStop_kept | with_reducible apply takeQueued_kept | with_reducible apply updAdj_kept
    | with_reducible apply closeUnslotted_kept | with_reducible apply Kept.ite)

theorem understudyFault_kept {σ : State} (a : Adj) (u : Core) (s : State) (h0 : Kept σ s) : Kept σ
    (understudyFault a u s) := by
  refine h0.trans ?_; clear h0; unfold understudyFault
  (try dsimp only)
  repeat' (first
    | with_reducible exact Kept.refl _ | assumption | with_reducible apply occur_kept
    | with_reducible apply backoffCore_kept | with_reducible apply chargeEngine_kept
    | with_reducible apply countConfirmed_kept)

theorem makeMove_kept {σ : State} (i : Nat) (m : AdjMove) (s : State) (h0 : Kept σ s) : Kept σ (makeMove i m
    s) := by
  refine h0.trans ?_; clear h0; unfold makeMove
  repeat' (first
    | with_reducible exact Kept.refl _ | assumption | with_reducible apply closeSlot_kept
    | with_reducible apply wantH_kept | with_reducible apply Kept.ite
    | with_reducible exact Kept.of_eq rfl rfl rfl rfl (fun h => h) (fun h => h) (fun h => h) rfl
    | (split <;> try dsimp only))

theorem replaceFailing_kept {σ : State} (i : Nat) (a : Adj) (uFails : Bool) (u v : ExecOutcome) (s : State)
    (h0 : Kept σ s) : Kept σ (replaceFailing i a uFails u v s) := by
  refine h0.trans ?_; clear h0; unfold replaceFailing
  (try dsimp only)
  repeat' (first
    | with_reducible exact Kept.refl _ | assumption | with_reducible apply understudyFault_kept
    | with_reducible apply updAdjSlot_kept | with_reducible apply assignU_kept | with_reducible apply assignV_kept
    | with_reducible apply makeMove_kept | with_reducible apply Kept.ite
    | with_reducible exact Kept.of_eq rfl rfl rfl rfl (fun h => h) (fun h => h) (fun h => h) rfl
    | (split <;> try dsimp only))

theorem evaluate_kept {σ : State} (i : Nat) (s : State) (h0 : Kept σ s) : Kept σ (evaluate i s) := by
  refine h0.trans ?_; clear h0; unfold evaluate
  (try dsimp only)
  repeat' (first
    | with_reducible exact Kept.refl _ | assumption | with_reducible apply replaceFailing_kept
    | with_reducible apply makeMove_kept | with_reducible apply updAdjSlot_kept | with_reducible apply Kept.ite
    | with_reducible exact Kept.of_eq rfl rfl rfl rfl (fun h => h) (fun h => h) (fun h => h) rfl
    | (split <;> try dsimp only))

theorem understudyLost_kept {σ : State} (i : Nat) (a : Adj) (isU : Bool) (s : State) (h0 : Kept σ s) : Kept σ
    (understudyLost i a isU s) := by
  refine h0.trans ?_; clear h0; unfold understudyLost
  (try dsimp only)
  repeat' (first
    | with_reducible exact Kept.refl _ | assumption | with_reducible apply assignU_kept
    | with_reducible apply assignV_kept | with_reducible apply updAdjSlot_kept | with_reducible apply evaluate_kept
    | with_reducible apply Kept.ite
    | with_reducible exact Kept.of_eq rfl rfl rfl rfl (fun h => h) (fun h => h) (fun h => h) rfl
    | (split <;> try dsimp only))

theorem takeOutcome_kept {σ : State} (i : Nat) (which : ExecName) (out : ExecOutcome) (a : Adj) (s : State)
    (h0 : Kept σ s) : Kept σ (takeOutcome i which out a s) := by
  refine h0.trans ?_; clear h0; unfold takeOutcome
  (try dsimp only)
  repeat' (first
    | with_reducible exact Kept.refl _ | assumption | with_reducible apply understudyLost_kept
    | with_reducible apply evaluate_kept | with_reducible apply updAdjSlot_kept | with_reducible apply Kept.ite
    | with_reducible exact Kept.of_eq rfl rfl rfl rfl (fun h => h) (fun h => h) (fun h => h) rfl
    | (split <;> try dsimp only))

theorem outcomeArrives_kept {σ : State} (i : Nat) (which : ExecName) (gave : Bool) (s : State) (h0 : Kept σ s)
    : Kept σ (outcomeArrives i which gave s) := by
  refine h0.trans ?_; clear h0; unfold outcomeArrives
  (try dsimp only)
  repeat' (first
    | with_reducible exact Kept.refl _ | assumption | with_reducible apply lookFor_kept
    | with_reducible apply takeOutcome_kept | with_reducible apply Kept.ite
    | with_reducible exact Kept.of_eq rfl rfl rfl rfl (fun h => h) (fun h => h) (fun h => h) rfl
    | (split <;> try dsimp only))

theorem execEnds_kept {σ : State} (d : Nat) (core : Core) (tag : Word) (start : Nat) (mismatch : Bool) (w :
    ExecName) (o : ExecOutcome) (s : State) (h0 : Kept σ s) : Kept σ (execEnds d core tag start mismatch w o
    s) := by
  refine h0.trans ?_; clear h0; unfold execEnds
  (try dsimp only)
  repeat' (first
    | with_reducible exact Kept.refl _ | assumption | with_reducible apply updAdjSlot_kept
    | with_reducible apply notify_kept | with_reducible apply Kept.ite
    | with_reducible exact Kept.of_eq rfl rfl rfl rfl (fun h => h) (fun h => h) (fun h => h) rfl
    | (split <;> try dsimp only))

theorem replayEnds_kept {σ : State} (core : Core) (tag : Word) (bytes : List Byte) (s : State) (h0 : Kept σ s)
    : Kept σ (replayEnds core tag bytes s) := by
  refine h0.trans ?_; clear h0; unfold replayEnds
  repeat' (first | with_reducible exact Kept.refl _ | assumption | with_reducible apply updAdj_kept)

theorem adjTimeout_kept {σ : State} (i : Nat) (s : State) (h0 : Kept σ s) : Kept σ (adjTimeout i s) := by
  refine h0.trans ?_; clear h0; unfold adjTimeout
  repeat' (first
    | with_reducible exact Kept.refl _ | assumption | with_reducible apply closeSlot_kept
    | with_reducible apply Kept.ite
    | with_reducible exact Kept.of_eq rfl rfl rfl rfl (fun h => h) (fun h => h) (fun h => h) rfl
    | (split <;> try dsimp only))

theorem containedAll_kept (ctx tc : Nat) : ∀ ls {σ s : State}, Kept σ s → Kept σ (containedAll ctx tc ls s) := by
  intro ls
  induction ls with
  | nil => intro σ s h; exact h
  | cons a l ih =>
    intro σ s h0
    refine h0.trans ?_; clear h0; unfold containedAll
    repeat' (first
      | with_reducible exact Kept.refl _ | with_reducible apply ih | assumption | with_reducible apply occur_kept
      | with_reducible apply settleCu_kept)

theorem finishWaiting_kept (ctx : Nat) : ∀ ls {σ s : State}, Kept σ s → Kept σ (finishWaiting ctx ls s) := by
  intro ls
  induction ls with
  | nil => intro σ s h; exact h
  | cons a l ih =>
    intro σ s h0
    refine h0.trans ?_; clear h0; unfold finishWaiting
    repeat' (first
      | with_reducible exact Kept.refl _ | with_reducible apply ih | assumption
      | with_reducible apply freeAdjSlot_kept | with_reducible apply Kept.ite
      | with_reducible exact Kept.of_eq rfl rfl rfl rfl (fun h => h) (fun h => h) (fun h => h) rfl
      | (split <;> try dsimp only))

theorem finishUnslotted_kept {σ : State} (ctx : Nat) (s : State) (h0 : Kept σ s) : Kept σ (finishUnslotted ctx
    s) := by
  refine h0.trans ?_; clear h0; unfold finishUnslotted
  (try dsimp only)
  repeat' (first
    | with_reducible exact Kept.refl _ | assumption | with_reducible apply finishClose_kept
    | with_reducible apply updAdj_kept | with_reducible apply Kept.ite
    | (with_reducible apply Kept.foldl; (intro _ _; try dsimp only)))

theorem finishContext_kept {σ : State} (ctx : Nat) (s : State) (h0 : Kept σ s) : Kept σ (finishContext ctx s) := by
  refine h0.trans ?_; clear h0; unfold finishContext
  repeat' (first
    | with_reducible exact Kept.refl _ | assumption | with_reducible apply finishUnslotted_kept
    | with_reducible apply finishWaiting_kept)

theorem acksComplete_kept {σ : State} (ctx : Nat) (s : State) (h0 : Kept σ s) : Kept σ (acksComplete ctx s) := by
  refine h0.trans ?_; clear h0; unfold acksComplete
  (try dsimp only)
  repeat' (first
    | with_reducible exact Kept.refl _ | assumption | with_reducible apply finishContext_kept
    | with_reducible apply updContainment_kept | with_reducible apply containedAll_kept
    | with_reducible apply Kept.ite
    | with_reducible exact Kept.of_eq rfl rfl rfl rfl (fun h => h) (fun h => h) (fun h => h) rfl
    | (split <;> try dsimp only))

theorem losePin_kept {σ : State} (c : Nat) (tag : Word) (s : State) (h0 : Kept σ s) : Kept σ (losePin c tag s) := by
  refine h0.trans ?_; clear h0; unfold losePin
  repeat' (first | with_reducible exact Kept.refl _ | assumption | with_reducible apply mapAdjs_kept)

theorem withoutHomes_kept (c : Nat) : ∀ ls {σ s : State}, Kept σ s → Kept σ (withoutHomes c ls s) := by
  intro ls
  induction ls with
  | nil => intro σ s h; exact h
  | cons a l ih =>
    intro σ s h0
    refine h0.trans ?_; clear h0; unfold withoutHomes
    repeat' (first
      | with_reducible exact Kept.refl _ | with_reducible apply ih | assumption | with_reducible apply evaluate_kept
      | with_reducible apply Kept.ite
      | with_reducible exact Kept.of_eq rfl rfl rfl rfl (fun h => h) (fun h => h) (fun h => h) rfl
      | (split <;> try dsimp only))

theorem pinExpires_kept {σ : State} (c e : Nat) (s : State) (h0 : Kept σ s) : Kept σ (pinExpires c e s) := by
  refine h0.trans ?_; clear h0; unfold pinExpires
  (try dsimp only)
  repeat' (first
    | with_reducible exact Kept.refl _ | assumption | with_reducible apply dropPins_kept
    | with_reducible apply withoutHomes_kept | with_reducible apply occur_kept | with_reducible apply losePin_kept
    | with_reducible apply Kept.ite
    | with_reducible exact Kept.of_eq rfl rfl rfl rfl (fun h => h) (fun h => h) (fun h => h) rfl
    | (split <;> try dsimp only))

theorem execAdjExecutionOutcome_kept (t : Nat) (slot : Fin 8) (which : ExecName) (gave : Bool) (s : State) : ∃
    s', execAdjExecutionOutcome t slot which gave s = .next s' ∧ Kept s s' := by
  refine ⟨_, rfl, ?_⟩
  repeat' (first
    | with_reducible exact Kept.refl _ | assumption | with_reducible apply outcomeArrives_kept
    | with_reducible apply atTime_kept)

theorem execAdjTimeout_kept (t : Nat) (slot : Fin 8) (s : State) : ∃ s', execAdjTimeout t slot s = .next s' ∧
    Kept s s' := by
  refine ⟨_, rfl, ?_⟩
  repeat' (first
    | with_reducible exact Kept.refl _ | assumption | with_reducible apply adjTimeout_kept
    | with_reducible apply atTime_kept)

theorem execContainmentAcksComplete_kept (t : Nat) (ctx : CtxId) (s : State) : ∃ s',
    execContainmentAcksComplete t ctx s = .next s' ∧ Kept s s' := by
  refine ⟨_, rfl, ?_⟩
  repeat' (first
    | with_reducible exact Kept.refl _ | assumption | with_reducible apply acksComplete_kept
    | with_reducible apply atTime_kept)

theorem execPinExpired_kept (t : Nat) (core : Core) (entry : Fin 4) (s : State) : ∃ s', execPinExpired t core
    entry s = .next s' ∧ Kept s s' := by
  refine ⟨_, rfl, ?_⟩
  repeat' (first
    | with_reducible exact Kept.refl _ | assumption | with_reducible apply pinExpires_kept
    | with_reducible apply atTime_kept)

theorem recount_kept (gen : Nat) : ∀ ls {σ s : State}, Kept σ s → Kept σ (recount gen ls s) := by
  intro ls
  induction ls with
  | nil => intro σ s h; exact h
  | cons a l ih =>
    intro σ s h0
    refine h0.trans ?_; clear h0; unfold recount
    (try dsimp only)
    repeat' (first
      | with_reducible exact Kept.refl _ | with_reducible apply ih | assumption | with_reducible apply occur_kept
      | with_reducible apply change_kept | with_reducible apply Kept.ite)

theorem sendBreleases_kept (x : Barrier) : ∀ ls {σ s : State}, Kept σ s → Kept σ (sendBreleases x ls s) := by
  intro ls
  induction ls with
  | nil => intro σ s h; exact h
  | cons a l ih =>
    intro σ s h0
    refine h0.trans ?_; clear h0; unfold sendBreleases
    (try dsimp only)
    repeat' (first
      | with_reducible exact Kept.refl _ | with_reducible apply ih | assumption | with_reducible apply gateMsg_kept)

theorem completeGen_kept {σ : State} (b : Nat) (s : State) (h0 : Kept σ s) : Kept σ (completeGen b s) := by
  refine h0.trans ?_; clear h0; unfold completeGen
  (try dsimp only)
  repeat' (first
    | with_reducible exact Kept.refl _ | assumption | with_reducible apply recount_kept
    | with_reducible apply actOn_kept | with_reducible apply releaseBarWaiters_kept
    | with_reducible apply sendBreleases_kept | with_reducible apply updBarrier_kept | with_reducible apply Kept.ite
    | with_reducible exact Kept.of_eq rfl rfl rfl rfl (fun h => h) (fun h => h) (fun h => h) rfl
    | (split <;> try dsimp only))

theorem checkBarrier_kept (b : Nat) : ∀ ls {σ s : State}, Kept σ s → Kept σ (checkBarrier b ls s) := by
  intro ls
  induction ls with
  | zero => intro σ s h; exact h
  | succ a ih =>
    intro σ s h0
    refine h0.trans ?_; clear h0; unfold checkBarrier
    (try dsimp only)
    repeat' (first
      | with_reducible exact Kept.refl _ | with_reducible apply ih | assumption | with_reducible apply updBarrier_kept
      | with_reducible apply gateMsg_kept | with_reducible apply completeGen_kept | with_reducible apply Kept.ite
      | with_reducible exact Kept.of_eq rfl rfl rfl rfl (fun h => h) (fun h => h) (fun h => h) rfl
      | (split <;> try dsimp only))

theorem advance_kept {σ : State} (b : Nat) (s : State) (h0 : Kept σ s) : Kept σ (advance b s) := by
  refine h0.trans ?_; clear h0; unfold advance
  repeat' (first | with_reducible exact Kept.refl _ | assumption | with_reducible apply checkBarrier_kept)

theorem advanceSeals_kept (ctx : Nat) : ∀ ls {σ s : State}, Kept σ s → Kept σ (advanceSeals ctx ls s) := by
  intro ls
  induction ls with
  | nil => intro σ s h; exact h
  | cons a l ih =>
    intro σ s h0
    refine h0.trans ?_; clear h0; unfold advanceSeals
    (try dsimp only)
    repeat' (first
      | with_reducible exact Kept.refl _ | with_reducible apply ih | assumption | with_reducible apply advance_kept
      | with_reducible apply Kept.ite)

theorem sealChanged_kept {σ : State} (o : Nat) (s : State) (h0 : Kept σ s) : Kept σ (sealChanged o s) := by
  refine h0.trans ?_; clear h0; unfold sealChanged
  (try dsimp only)
  repeat' (first
    | with_reducible exact Kept.refl _ | assumption | with_reducible apply advanceSeals_kept
    | with_reducible apply Kept.ite
    | with_reducible exact Kept.of_eq rfl rfl rfl rfl (fun h => h) (fun h => h) (fun h => h) rfl
    | (split <;> try dsimp only))

theorem breakBarrier_kept {σ : State} (b : Nat) (s : State) (h0 : Kept σ s) : Kept σ (breakBarrier b s) := by
  refine h0.trans ?_; clear h0; unfold breakBarrier
  repeat' (first
    | with_reducible exact Kept.refl _ | assumption | with_reducible apply updBarrier_kept
    | with_reducible apply releaseBarWaiters_kept)

theorem breakBarriers_kept (p : Barrier → Bool) : ∀ ls {σ s : State}, Kept σ s → Kept σ (breakBarriers p ls s) := by
  intro ls
  induction ls with
  | nil => intro σ s h; exact h
  | cons a l ih =>
    intro σ s h0
    refine h0.trans ?_; clear h0; unfold breakBarriers
    (try dsimp only)
    repeat' (first
      | with_reducible exact Kept.refl _ | with_reducible apply ih | assumption
      | with_reducible apply breakBarrier_kept | with_reducible apply Kept.ite)

theorem armBarrier_kept {σ : State} (r : Requester) (b : Nat) (s : State) (h0 : Kept σ s) : Kept σ (armBarrier
    r b s) := by
  refine h0.trans ?_; clear h0; unfold armBarrier
  (try dsimp only)
  repeat' (first
    | with_reducible exact Kept.refl _ | assumption | with_reducible apply setResult_kept
    | with_reducible apply updCfg_kept | with_reducible apply updBarrier_kept | with_reducible apply Kept.ite)

theorem disarmBarrier_kept {σ : State} (r : Requester) (b : Nat) (s : State) (h0 : Kept σ s) : Kept σ
    (disarmBarrier r b s) := by
  refine h0.trans ?_; clear h0; unfold disarmBarrier
  (try dsimp only)
  repeat' (first
    | with_reducible exact Kept.refl _ | assumption | with_reducible apply setResult_kept
    | with_reducible apply updCfg_kept | with_reducible apply updBarrier_kept | with_reducible apply Kept.ite)

theorem arriveNow_kept {σ : State} (c q b : Nat) (timeout : BitVec 24) (s : State) (h0 : Kept σ s) : Kept σ
    (arriveNow c q b timeout s) := by
  refine h0.trans ?_; clear h0; unfold arriveNow
  (try dsimp only)
  repeat' (first
    | with_reducible exact Kept.refl _ | assumption | with_reducible apply kitInvalid_kept
    | with_reducible apply startSync_kept | with_reducible apply retireSync_kept | with_reducible apply occur_kept
    | with_reducible apply updStation_kept | with_reducible apply updQueue_kept | with_reducible apply updBarrier_kept
    | with_reducible apply advance_kept | with_reducible apply Kept.ite
    | with_reducible exact Kept.of_eq rfl rfl rfl rfl (fun h => h) (fun h => h) (fun h => h) rfl
    | (split <;> try dsimp only))

theorem barrierTimeoutNow_kept {σ : State} (c w : Nat) (s : State) (h0 : Kept σ s) : Kept σ (barrierTimeoutNow
    c w s) := by
  refine h0.trans ?_; clear h0; unfold barrierTimeoutNow
  (try dsimp only)
  repeat' (first
    | with_reducible exact Kept.refl _ | assumption | with_reducible apply occur_kept
    | with_reducible apply updBarrier_kept | with_reducible apply retireWait_kept
    | with_reducible apply freeWatch_kept | with_reducible apply Kept.ite
    | with_reducible exact Kept.of_eq rfl rfl rfl rfl (fun h => h) (fun h => h) (fun h => h) rfl
    | (split <;> try dsimp only))

theorem execBarrierArm_kept (t : Nat) (r : Requester) (b : Byte) (s : State) : ∃ s', execBarrierArm t r b s =
    .next s' ∧ Kept s s' := by
  refine ⟨_, rfl, ?_⟩
  repeat' (first
    | with_reducible exact Kept.refl _ | assumption | with_reducible apply atTime_kept
    | with_reducible apply armBarrier_kept | with_reducible apply Kept.ite)

theorem execBarrierDisarm_kept (t : Nat) (r : Requester) (b : Byte) (s : State) : ∃ s', execBarrierDisarm t r
    b s = .next s' ∧ Kept s s' := by
  refine ⟨_, rfl, ?_⟩
  repeat' (first
    | with_reducible exact Kept.refl _ | assumption | with_reducible apply atTime_kept
    | with_reducible apply disarmBarrier_kept | with_reducible apply Kept.ite)

theorem execBarrierArrive_kept (t : Nat) (core : Core) (queue : Queue) (b : Byte) (timeout : BitVec 24) (s :
    State) : ∃ s', execBarrierArrive t core queue b timeout s = .next s' ∧ Kept s s' := by
  refine ⟨_, rfl, ?_⟩
  repeat' (first
    | with_reducible exact Kept.refl _ | assumption | with_reducible apply arriveNow_kept
    | with_reducible apply atTime_kept)

theorem execBarrierTimeout_kept (t : Nat) (core : Core) (slot : Fin 16) (s : State) : ∃ s', execBarrierTimeout
    t core slot s = .next s' ∧ Kept s s' := by
  refine ⟨_, rfl, ?_⟩
  repeat' (first
    | with_reducible exact Kept.refl _ | assumption | with_reducible apply barrierTimeoutNow_kept
    | with_reducible apply atTime_kept)

theorem writeOne_kept {σ : State} (ev : Ev) (s : State) (h0 : Kept σ s) : Kept σ (writeOne ev s) := by
  refine h0.trans ?_; clear h0; unfold writeOne
  (try dsimp only)
  repeat' (first
    | with_reducible exact Kept.refl _ | assumption
    | ((with_reducible apply updEvt_kept); · first | (with_reducible exact fun h => h) | exact fun h => setLimits_evt _ _ _ h | exact fun h => admitEv_evt _ _ _ (countUp_evt _ _ h) | exact fun h => admitWaiters_evt _ _ h | exact fun h => h)
    | with_reducible apply msix_kept | with_reducible apply oobAdd_kept | with_reducible apply traceAlways_kept
    | with_reducible apply traceRec_kept | with_reducible apply Kept.ite)

theorem writeRecord_kept {σ : State} (ev : Ev) (s : State) (h0 : Kept σ s) : Kept σ (writeRecord ev s) := by
  refine h0.trans ?_; clear h0; unfold writeRecord
  (try dsimp only)
  repeat' (first
    | with_reducible exact Kept.refl _ | assumption | with_reducible apply writeOne_kept
    | with_reducible apply eventTrigger_kept
    | ((with_reducible apply updEvt_kept); · first | (with_reducible exact fun h => h) | exact fun h => setLimits_evt _ _ _ h | exact fun h => admitEv_evt _ _ _ (countUp_evt _ _ h) | exact fun h => admitWaiters_evt _ _ h | exact fun h => h)
    | with_reducible apply Kept.ite)

theorem recordWriteNow_kept {σ : State} (s : State) (h0 : Kept σ s) : Kept σ (recordWriteNow s) := by
  refine h0.trans ?_; clear h0; unfold recordWriteNow
  split
  · exact Kept.refl s
  · split
    · exact Kept.refl s
    · rename_i hx
      exact writeRecord_kept _ _ (Kept.of_eq rfl rfl rfl rfl (fun h => admitWaiters_evt _ _ (nextRecord_evt _ h _ hx)) id id rfl)

theorem damageTail_kept {σ : State} (word : Nat) (s : State) (h0 : Kept σ s) : Kept σ (damageTail word s) := by
  refine h0.trans ?_; clear h0; unfold damageTail
  (try dsimp only)
  repeat' (first
    | with_reducible exact Kept.refl _ | assumption | with_reducible apply updCrash_kept
    | with_reducible apply Kept.ite
    | with_reducible exact Kept.of_eq rfl rfl rfl rfl (fun h => h) (fun h => h) (fun h => h) rfl
    | (split <;> try dsimp only))

theorem dkError_kept {σ : State} (word detail : Word) (s : State) (h0 : Kept σ s) : Kept σ (dkError word
    detail s) := by
  refine h0.trans ?_; clear h0; unfold dkError
  (try dsimp only)
  repeat' (first
    | with_reducible exact Kept.refl _ | assumption
    | ((with_reducible apply updEvt_kept); · first | (with_reducible exact fun h => h) | exact fun h => setLimits_evt _ _ _ h | exact fun h => admitEv_evt _ _ _ (countUp_evt _ _ h) | exact fun h => admitWaiters_evt _ _ h | exact fun h => h)
    | with_reducible apply damageTail_kept | with_reducible apply Kept.ite)

theorem occurrence_kept {σ : State} (code source : BitVec 16) (p1 p2 p3 : Word) (s : State) (h0 : Kept σ s) :
    Kept σ (occurrence code source p1 p2 p3 s) := by
  refine h0.trans ?_; clear h0; unfold occurrence
  (try dsimp only)
  repeat' (first
    | with_reducible exact Kept.refl _ | assumption | with_reducible apply dkError_kept
    | with_reducible apply occurEv_kept | with_reducible apply Kept.ite)

theorem refill_kept {σ : State} (code : BitVec 16) (s : State) (h0 : Kept σ s) : Kept σ (refill code s) := by
  refine h0.trans ?_; clear h0; unfold refill
  (try dsimp only)
  repeat' (first
    | with_reducible exact Kept.refl _ | assumption | with_reducible apply eventTrigger_kept
    | ((with_reducible apply updEvt_kept); · first | (with_reducible exact fun h => h) | exact fun h => setLimits_evt _ _ _ h | exact fun h => admitEv_evt _ _ _ (countUp_evt _ _ h) | exact fun h => admitWaiters_evt _ _ h | exact fun h => h)
    | with_reducible apply Kept.ite
    | with_reducible exact Kept.of_eq rfl rfl rfl rfl (fun h => h) (fun h => h) (fun h => h) rfl
    | (split <;> try dsimp only))

theorem refuseClear_kept {σ : State} (r : Requester) (v : Nat) (s : State) (h0 : Kept σ s) : Kept σ
    (refuseClear r v s) := by
  refine h0.trans ?_; clear h0; unfold refuseClear
  (try dsimp only)
  repeat' (first
    | with_reducible exact Kept.refl _ | assumption
    | ((with_reducible apply updEvt_kept); · first | (with_reducible exact fun h => h) | exact fun h => setLimits_evt _ _ _ h | exact fun h => admitEv_evt _ _ _ (countUp_evt _ _ h) | exact fun h => admitWaiters_evt _ _ h | exact fun h => h)
    | with_reducible apply occur_kept)

theorem countMismatch_kept {σ : State} (s : State) (h0 : Kept σ s) : Kept σ (countMismatch s) := by
  refine h0.trans ?_; clear h0; unfold countMismatch
  repeat' (first
    | with_reducible exact Kept.refl _ | assumption
    | ((with_reducible apply updEvt_kept); · first | (with_reducible exact fun h => h) | exact fun h => setLimits_evt _ _ _ h | exact fun h => admitEv_evt _ _ _ (countUp_evt _ _ h) | exact fun h => admitWaiters_evt _ _ h | exact fun h => h))

theorem challenge_kept {σ : State} (r : Requester) (s : State) (h0 : Kept σ s) : Kept σ (challenge r s) := by
  refine h0.trans ?_; clear h0; unfold challenge
  (try dsimp only)
  repeat' (first
    | with_reducible exact Kept.refl _ | assumption | with_reducible apply refuseClear_kept
    | with_reducible apply fresh_kept
    | ((with_reducible apply updEvt_kept); · first | (with_reducible exact fun h => h) | exact fun h => setLimits_evt _ _ _ h | exact fun h => admitEv_evt _ _ _ (countUp_evt _ _ h) | exact fun h => admitWaiters_evt _ _ h | exact fun h => h)
    | with_reducible apply Kept.ite)

theorem clearLog_kept {σ : State} (r : Requester) (s : State) (h0 : Kept σ s) : Kept σ (clearLog r s) := by
  refine h0.trans ?_; clear h0; unfold clearLog
  (try dsimp only)
  repeat' (first
    | with_reducible exact Kept.refl _ | assumption | with_reducible apply refuseClear_kept
    | ((with_reducible apply updEvt_kept); · first | (with_reducible exact fun h => h) | exact fun h => setLimits_evt _ _ _ h | exact fun h => admitEv_evt _ _ _ (countUp_evt _ _ h) | exact fun h => admitWaiters_evt _ _ h | exact fun h => h)
    | with_reducible apply countMismatch_kept | with_reducible apply Kept.ite
    | with_reducible exact Kept.of_eq rfl rfl rfl rfl (fun h => h) (fun h => h) (fun h => h) rfl
    | (split <;> try dsimp only))

theorem finishClear_kept {σ : State} (r : Nat) (s : State) (h0 : Kept σ s) : Kept σ (finishClear r s) := by
  refine h0.trans ?_; clear h0; unfold finishClear
  (try dsimp only)
  repeat' (first
    | with_reducible exact Kept.refl _ | assumption | with_reducible apply updCrash_kept
    | ((with_reducible apply updEvt_kept); · first | (with_reducible exact fun h => h) | exact fun h => setLimits_evt _ _ _ h | exact fun h => admitEv_evt _ _ _ (countUp_evt _ _ h) | exact fun h => admitWaiters_evt _ _ h | exact fun h => h)
    | with_reducible apply eventTrigger_kept | with_reducible apply writeRecord_kept)

theorem beginCopy_kept {σ : State} (snap : Snapshot) (slot : Nat) (s : State) (h0 : Kept σ s) : Kept σ
    (beginCopy snap slot s) := by
  refine h0.trans ?_; clear h0; unfold beginCopy
  (try dsimp only)
  repeat' (first | with_reducible exact Kept.refl _ | assumption | with_reducible apply updCrash_kept)

theorem startCopyAfterClear_kept {σ : State} (s : State) (h0 : Kept σ s) : Kept σ (startCopyAfterClear s) := by
  refine h0.trans ?_; clear h0; unfold startCopyAfterClear
  repeat' (first
    | with_reducible exact Kept.refl _ | assumption | with_reducible apply beginCopy_kept
    | with_reducible apply Kept.ite
    | with_reducible exact Kept.of_eq rfl rfl rfl rfl (fun h => h) (fun h => h) (fun h => h) rfl
    | (split <;> try dsimp only))

theorem logClearNow_kept {σ : State} (s : State) (h0 : Kept σ s) : Kept σ (logClearNow s) := by
  refine h0.trans ?_; clear h0; unfold logClearNow
  repeat' (first
    | with_reducible exact Kept.refl _ | assumption | with_reducible apply startCopyAfterClear_kept
    | with_reducible apply finishClear_kept | with_reducible apply Kept.ite
    | with_reducible exact Kept.of_eq rfl rfl rfl rfl (fun h => h) (fun h => h) (fun h => h) rfl
    | (split <;> try dsimp only))

theorem execEvtReadLatch_kept (t : Nat) (r : Requester) (seq : Word) (upper : Option Word) (s : State) : ∃ s',
    execEvtReadLatch t r seq upper s = .next s' ∧ Kept s s' := by
  unfold execEvtReadLatch
  dsimp only
  split
  · exact ⟨_, rfl, atTime_kept _ _ (Kept.refl s)⟩
  · exact ⟨_, rfl, updEvt_kept _ _ (fun h => h) (atTime_kept _ _ (Kept.refl s))⟩

theorem execEvtChallenge_kept (t : Nat) (r : Requester) (s : State) : ∃ s', execEvtChallenge t r s = .next s'
    ∧ Kept s s' := by
  refine ⟨_, rfl, ?_⟩
  repeat' (first
    | with_reducible exact Kept.refl _ | assumption | with_reducible apply atTime_kept
    | with_reducible apply challenge_kept | with_reducible apply Kept.ite)

theorem execEvtClear_kept (t : Nat) (r : Requester) (s : State) : ∃ s', execEvtClear t r s = .next s' ∧ Kept s
    s' := by
  refine ⟨_, rfl, ?_⟩
  repeat' (first
    | with_reducible exact Kept.refl _ | assumption | with_reducible apply atTime_kept
    | with_reducible apply clearLog_kept | with_reducible apply Kept.ite)

theorem execNonceExpiry_kept (t : Nat) (r : Requester) (s : State) : ∃ s', execNonceExpiry t r s = .next s' ∧
    Kept s s' := by
  refine ⟨_, rfl, ?_⟩
  repeat' (first
    | with_reducible exact Kept.refl _ | assumption | with_reducible apply atTime_kept
    | ((with_reducible apply updEvt_kept); · first | (with_reducible exact fun h => h) | exact fun h => setLimits_evt _ _ _ h | exact fun h => admitEv_evt _ _ _ (countUp_evt _ _ h) | exact fun h => admitWaiters_evt _ _ h | exact fun h => h)
    | with_reducible apply Kept.ite
    | with_reducible exact Kept.of_eq rfl rfl rfl rfl (fun h => h) (fun h => h) (fun h => h) rfl
    | (split <;> try dsimp only))

theorem execLogClearComplete_kept (t : Nat) (s : State) : ∃ s', execLogClearComplete t s = .next s' ∧ Kept s
    s' := by
  refine ⟨_, rfl, ?_⟩
  repeat' (first
    | with_reducible exact Kept.refl _ | assumption | with_reducible apply logClearNow_kept
    | with_reducible apply atTime_kept)

theorem execEventOccurrence_kept (t : Nat) (code source : BitVec 16) (p1 p2 p3 : Word) (s : State) : ∃ s',
    execEventOccurrence t code source p1 p2 p3 s = .next s' ∧ Kept s s' := by
  refine ⟨_, rfl, ?_⟩
  repeat' (first
    | with_reducible exact Kept.refl _ | assumption | with_reducible apply occurrence_kept
    | with_reducible apply atTime_kept)

theorem execRecordWrite_kept (t : Nat) (s : State) : ∃ s', execRecordWrite t s = .next s' ∧ Kept s s' := by
  refine ⟨_, rfl, ?_⟩
  repeat' (first
    | with_reducible exact Kept.refl _ | assumption | with_reducible apply recordWriteNow_kept
    | with_reducible apply atTime_kept)

theorem execTokenRefill_kept (t : Nat) (code : BitVec 16) (s : State) : ∃ s', execTokenRefill t code s = .next
    s' ∧ Kept s s' := by
  refine ⟨_, rfl, ?_⟩
  repeat' (first
    | with_reducible exact Kept.refl _ | assumption | with_reducible apply refill_kept
    | with_reducible apply atTime_kept)

theorem execClearLockoutExpiry_kept (t : Nat) (s : State) : ∃ s', execClearLockoutExpiry t s = .next s' ∧ Kept
    s s' := by
  refine ⟨_, rfl, ?_⟩
  repeat' (first
    | with_reducible exact Kept.refl _ | assumption | with_reducible apply atTime_kept
    | ((with_reducible apply updEvt_kept); · first | (with_reducible exact fun h => h) | exact fun h => setLimits_evt _ _ _ h | exact fun h => admitEv_evt _ _ _ (countUp_evt _ _ h) | exact fun h => admitWaiters_evt _ _ h | exact fun h => h)
    | with_reducible apply Kept.ite)

theorem capture_kept {σ : State} (trigger : Byte) (index queue : Nat) (incomplete : Bool) (ev : Option Ev)
    (seq : Word) (s : State) (h0 : Kept σ s) : Kept σ (capture trigger index queue incomplete ev seq s) := by
  refine h0.trans ?_; clear h0; unfold capture
  (try dsimp only)
  repeat' (first
    | with_reducible exact Kept.refl _ | assumption | with_reducible apply occur_kept
    | with_reducible apply updCrash_kept | with_reducible apply beginCopy_kept | with_reducible apply Kept.ite)

theorem completeCopy_kept {σ : State} (ok : Bool) (s : State) (h0 : Kept σ s) : Kept σ (completeCopy ok s) := by
  refine h0.trans ?_; clear h0; unfold completeCopy
  (try dsimp only)
  repeat' (first
    | with_reducible exact Kept.refl _ | assumption | with_reducible apply updCrash_kept
    | with_reducible apply occurDeferred_kept | with_reducible apply occur_kept | with_reducible apply Kept.ite
    | with_reducible exact Kept.of_eq rfl rfl rfl rfl (fun h => h) (fun h => h) (fun h => h) rfl
    | (split <;> try dsimp only))

theorem copyDone_kept {σ : State} (ok : Bool) (s : State) (h0 : Kept σ s) : Kept σ (copyDone ok s) := by
  refine h0.trans ?_; clear h0; unfold copyDone
  repeat' (first
    | with_reducible exact Kept.refl _ | assumption | with_reducible apply completeCopy_kept
    | with_reducible apply Kept.ite)

theorem execHangSnapshotCopyDone_kept (t : Nat) (bufferOk : Bool) (s : State) : ∃ s', execHangSnapshotCopyDone
    t bufferOk s = .next s' ∧ Kept s s' := by
  refine ⟨_, rfl, ?_⟩
  repeat' (first
    | with_reducible exact Kept.refl _ | assumption | with_reducible apply copyDone_kept
    | with_reducible apply atTime_kept)

theorem failSync_kept {σ : State} (c q op : Nat) (name : Word) (status : Nat) (s : State) (h0 : Kept σ s) :
    Kept σ (failSync c q op name status s) := by
  refine h0.trans ?_; clear h0; unfold failSync
  (try dsimp only)
  repeat' (first
    | with_reducible exact Kept.refl _ | assumption | with_reducible apply syncError_kept
    | with_reducible apply retireSync_kept | with_reducible apply Kept.ite)

theorem releaseTo_kept {σ : State} (p name : Word) (status : Nat) (value : Word) (s : State) (h0 : Kept σ s) :
    Kept σ (releaseTo p name status value s) := by
  refine h0.trans ?_; clear h0; unfold releaseTo
  repeat' (first | with_reducible exact Kept.refl _ | assumption | with_reducible apply updSync_kept)

theorem cancelSub_kept {σ : State} (o : Nat) (p : Word) (s : State) (h0 : Kept σ s) : Kept σ (cancelSub o p s) := by
  refine h0.trans ?_; clear h0; unfold cancelSub
  repeat' (first | with_reducible exact Kept.refl _ | assumption | with_reducible apply updObject_kept)

theorem cancelTaken_kept {σ : State} (c : Nat) (k : Nat × Word × Word) (s : State) (h0 : Kept σ s) : Kept σ
    (cancelTaken c k s) := by
  refine h0.trans ?_; clear h0; unfold cancelTaken
  repeat' (first
    | with_reducible exact Kept.refl _ | assumption | with_reducible apply cancelSub_kept
    | with_reducible apply updSync_kept | with_reducible apply updStation_kept)

theorem cancelsTaken_kept (c : Nat) : ∀ ls {σ s : State}, Kept σ s → Kept σ (cancelsTaken c ls s) := by
  intro ls
  induction ls with
  | nil => intro σ s h; exact h
  | cons a l ih =>
    intro σ s h0
    refine h0.trans ?_; clear h0; unfold cancelsTaken
    repeat' (first
      | with_reducible exact Kept.refl _ | with_reducible apply ih | assumption
      | with_reducible apply cancelTaken_kept)

theorem subscribe_kept {σ : State} (o : Nat) (p : Word) (cond : Nat) (target : Word) (op : Nat) (s : State)
    (h0 : Kept σ s) : Kept σ (subscribe o p cond target op s) := by
  refine h0.trans ?_; clear h0; unfold subscribe
  (try dsimp only)
  repeat' (first
    | with_reducible exact Kept.refl _ | assumption | with_reducible apply occur_kept
    | with_reducible apply sendRelease_kept | with_reducible apply syncError_kept
    | with_reducible apply updObject_kept | with_reducible apply Kept.ite)

theorem register_kept {σ : State} (c w : Nat) (s : State) (h0 : Kept σ s) : Kept σ (register c w s) := by
  refine h0.trans ?_; clear h0; unfold register
  (try dsimp only)
  repeat' (first
    | with_reducible exact Kept.refl _ | assumption | with_reducible apply cancelsTaken_kept
    | with_reducible apply updStation_kept | with_reducible apply releaseTo_kept | with_reducible apply syncError_kept
    | with_reducible apply subscribe_kept | with_reducible apply Kept.ite
    | with_reducible exact Kept.of_eq rfl rfl rfl rfl (fun h => h) (fun h => h) (fun h => h) rfl
    | (split <;> try dsimp only))

theorem registerUntil_kept (c q : Nat) (name : Word) (w : Option Nat) : ∀ ls {σ s : State}, Kept σ s → Kept σ
    (registerUntil c q name w ls s) := by
  intro ls
  induction ls with
  | zero => intro σ s h; exact h
  | succ a ih =>
    intro σ s h0
    refine h0.trans ?_; clear h0; unfold registerUntil
    repeat' (first
      | with_reducible exact Kept.refl _ | with_reducible apply ih | assumption | with_reducible apply register_kept
      | with_reducible apply Kept.ite
      | with_reducible exact Kept.of_eq rfl rfl rfl rfl (fun h => h) (fun h => h) (fun h => h) rfl
      | (split <;> try dsimp only))

theorem subscriptionArrives_kept {σ : State} (c w : Nat) (s : State) (h0 : Kept σ s) : Kept σ
    (subscriptionArrives c w s) := by
  refine h0.trans ?_; clear h0; unfold subscriptionArrives
  (try dsimp only)
  repeat' (first
    | with_reducible exact Kept.refl _ | assumption | with_reducible apply registerUntil_kept
    | with_reducible apply Kept.ite)

theorem takeSlot_kept {σ : State} (c q op cond : Nat) (name n : Word) (timeout : BitVec 24) (raddr : DWord) (w
    : Nat) (s : State) (h0 : Kept σ s) : Kept σ (takeSlot c q op cond name n timeout raddr w s) := by
  refine h0.trans ?_; clear h0; unfold takeSlot
  (try dsimp only)
  repeat' (first
    | with_reducible exact Kept.refl _ | assumption | with_reducible apply updStation_kept
    | with_reducible apply updQueue_kept | with_reducible apply retireSync_kept | with_reducible apply sendMsg_kept
    | with_reducible apply Kept.ite)

theorem waitOp_kept {σ : State} (c q op cond : Nat) (name n : Word) (timeout : BitVec 24) (raddr : DWord)
    (deadline : BitVec 24) (s : State) (h0 : Kept σ s) : Kept σ (waitOp c q op cond name n timeout raddr
    deadline s) := by
  refine h0.trans ?_; clear h0; unfold waitOp
  (try dsimp only)
  repeat' (first
    | with_reducible exact Kept.refl _ | assumption | with_reducible apply startSync_kept
    | with_reducible apply failSync_kept | with_reducible apply occur_kept | with_reducible apply takeSlot_kept
    | with_reducible apply Kept.ite
    | with_reducible exact Kept.of_eq rfl rfl rfl rfl (fun h => h) (fun h => h) (fun h => h) rfl
    | (split <;> try dsimp only))

theorem signalLocal_kept {σ : State} (c q op : Nat) (name n : Word) (s : State) (h0 : Kept σ s) : Kept σ
    (signalLocal c q op name n s) := by
  refine h0.trans ?_; clear h0; unfold signalLocal
  (try dsimp only)
  repeat' (first
    | with_reducible exact Kept.refl _ | assumption | with_reducible apply failSync_kept
    | with_reducible apply registerUntil_kept | with_reducible apply applyOp_kept
    | with_reducible apply sealChanged_kept | with_reducible apply Kept.ite
    | with_reducible exact Kept.of_eq rfl rfl rfl rfl (fun h => h) (fun h => h) (fun h => h) rfl
    | (split <;> try dsimp only))

theorem signalRemote_kept {σ : State} (c q op : Nat) (name n : Word) (s : State) (h0 : Kept σ s) : Kept σ
    (signalRemote c q op name n s) := by
  refine h0.trans ?_; clear h0; unfold signalRemote
  (try dsimp only)
  repeat' (first
    | with_reducible exact Kept.refl _ | assumption | with_reducible apply updTallies_kept
    | with_reducible apply gateMsg_kept)

theorem signalOp_kept {σ : State} (c q op : Nat) (name n : Word) (deadline : BitVec 24) (s : State) (h0 : Kept
    σ s) : Kept σ (signalOp c q op name n deadline s) := by
  refine h0.trans ?_; clear h0; unfold signalOp
  (try dsimp only)
  repeat' (first
    | with_reducible exact Kept.refl _ | assumption | with_reducible apply kitInvalid_kept
    | with_reducible apply startSync_kept | with_reducible apply signalLocal_kept
    | with_reducible apply signalRemote_kept | with_reducible apply failSync_kept | with_reducible apply Kept.ite)

theorem putRecord_kept {σ : State} (c w status : Nat) (raddr : DWord) (name value : Word) (s : State) (h0 :
    Kept σ s) : Kept σ (putRecord c w status raddr name value s) := by
  refine h0.trans ?_; clear h0; unfold putRecord
  (try dsimp only)
  repeat' (first
    | with_reducible exact Kept.refl _ | assumption | with_reducible apply spadPut_kept
    | with_reducible apply memStore_kept | with_reducible apply Kept.ite)

theorem endWatch_kept {σ : State} (c w status : Nat) (name value : Word) (s : State) (h0 : Kept σ s) : Kept σ
    (endWatch c w status name value s) := by
  refine h0.trans ?_; clear h0; unfold endWatch
  (try dsimp only)
  repeat' (first
    | with_reducible exact Kept.refl _ | assumption | with_reducible apply freeWatch_kept
    | with_reducible apply putRecord_kept | with_reducible apply retireSync_kept
    | with_reducible apply retireWait_kept | with_reducible apply Kept.ite)

theorem deliverRelease_kept {σ : State} (c w : Nat) (s : State) (h0 : Kept σ s) : Kept σ (deliverRelease c w
    s) := by
  refine h0.trans ?_; clear h0; unfold deliverRelease
  (try dsimp only)
  repeat' (first
    | with_reducible exact Kept.refl _ | assumption | with_reducible apply updSync_kept
    | with_reducible apply updStation_kept | with_reducible apply endWatch_kept | with_reducible apply Kept.ite
    | with_reducible exact Kept.of_eq rfl rfl rfl rfl (fun h => h) (fun h => h) (fun h => h) rfl
    | (split <;> try dsimp only))

theorem sendCancel_kept {σ : State} (c w : Nat) (name p : Word) (s : State) (h0 : Kept σ s) : Kept σ
    (sendCancel c w name p s) := by
  refine h0.trans ?_; clear h0; unfold sendCancel
  (try dsimp only)
  repeat' (first
    | with_reducible exact Kept.refl _ | assumption | with_reducible apply updStation_kept
    | with_reducible apply sendMsg_kept | with_reducible apply Kept.ite)

theorem expireWatch_kept {σ : State} (c w : Nat) (reply : Word) (s : State) (h0 : Kept σ s) : Kept σ
    (expireWatch c w reply s) := by
  refine h0.trans ?_; clear h0; unfold expireWatch
  (try dsimp only)
  repeat' (first
    | with_reducible exact Kept.refl _ | assumption | with_reducible apply occur_kept
    | with_reducible apply sendCancel_kept | with_reducible apply endWatch_kept | with_reducible apply Kept.ite)

theorem cancelArrives_kept {σ : State} (c w : Nat) (s : State) (h0 : Kept σ s) : Kept σ (cancelArrives c w s) := by
  refine h0.trans ?_; clear h0; unfold cancelArrives
  repeat' (first
    | with_reducible exact Kept.refl _ | assumption | with_reducible apply cancelTaken_kept
    | with_reducible apply Kept.ite
    | with_reducible exact Kept.of_eq rfl rfl rfl rfl (fun h => h) (fun h => h) (fun h => h) rfl
    | (split <;> try dsimp only))

theorem execSyncSet_kept (t : Nat) (core : Core) (issue : SyncIssue) (name operand : Word) (s : State) : ∃ s',
    execSyncSet t core issue name operand s = .next s' ∧ Kept s s' := by
  refine ⟨_, rfl, ?_⟩
  repeat' (first
    | with_reducible exact Kept.refl _ | assumption | with_reducible apply signalOp_kept
    | with_reducible apply atTime_kept)

theorem execSyncClear_kept (t : Nat) (core : Core) (issue : SyncIssue) (name : Word) (s : State) : ∃ s',
    execSyncClear t core issue name s = .next s' ∧ Kept s s' := by
  refine ⟨_, rfl, ?_⟩
  repeat' (first
    | with_reducible exact Kept.refl _ | assumption | with_reducible apply signalOp_kept
    | with_reducible apply atTime_kept)

theorem execSyncAdd_kept (t : Nat) (core : Core) (issue : SyncIssue) (name operand : Word) (s : State) : ∃ s',
    execSyncAdd t core issue name operand s = .next s' ∧ Kept s s' := by
  refine ⟨_, rfl, ?_⟩
  repeat' (first
    | with_reducible exact Kept.refl _ | assumption | with_reducible apply signalOp_kept
    | with_reducible apply atTime_kept)

theorem execSyncSub_kept (t : Nat) (core : Core) (issue : SyncIssue) (name operand : Word) (s : State) : ∃ s',
    execSyncSub t core issue name operand s = .next s' ∧ Kept s s' := by
  refine ⟨_, rfl, ?_⟩
  repeat' (first
    | with_reducible exact Kept.refl _ | assumption | with_reducible apply signalOp_kept
    | with_reducible apply atTime_kept)

theorem execSyncWaitEq_kept (t : Nat) (core : Core) (queue : Queue) (name operand : Word) (timeout : BitVec
    24) (s : State) : ∃ s', execSyncWaitEq t core queue name operand timeout s = .next s' ∧ Kept s s' := by
  refine ⟨_, rfl, ?_⟩
  repeat' (first
    | with_reducible exact Kept.refl _ | assumption | with_reducible apply waitOp_kept
    | with_reducible apply atTime_kept)

theorem execSyncWaitGe_kept (t : Nat) (core : Core) (queue : Queue) (name operand : Word) (timeout : BitVec
    24) (s : State) : ∃ s', execSyncWaitGe t core queue name operand timeout s = .next s' ∧ Kept s s' := by
  refine ⟨_, rfl, ?_⟩
  repeat' (first
    | with_reducible exact Kept.refl _ | assumption | with_reducible apply waitOp_kept
    | with_reducible apply atTime_kept)

theorem execSyncWaitFlag_kept (t : Nat) (core : Core) (queue : Queue) (name : Word) (timeout : BitVec 24) (s :
    State) : ∃ s', execSyncWaitFlag t core queue name timeout s = .next s' ∧ Kept s s' := by
  refine ⟨_, rfl, ?_⟩
  repeat' (first
    | with_reducible exact Kept.refl _ | assumption | with_reducible apply waitOp_kept
    | with_reducible apply atTime_kept)

theorem execSyncWatch_kept (t : Nat) (core : Core) (issue : SyncIssue) (cond : BitVec 2) (name operand : Word)
    (timeout : BitVec 24) (raddr : DWord) (s : State) : ∃ s', execSyncWatch t core issue cond name operand
    timeout raddr s = .next s' ∧ Kept s s' := by
  refine ⟨_, rfl, ?_⟩
  repeat' (first
    | with_reducible exact Kept.refl _ | assumption | with_reducible apply waitOp_kept
    | with_reducible apply atTime_kept)

theorem execSubscriptionArrival_kept (t : Nat) (core : Core) (slot : Fin 16) (s : State) : ∃ s',
    execSubscriptionArrival t core slot s = .next s' ∧ Kept s s' := by
  refine ⟨_, rfl, ?_⟩
  repeat' (first
    | with_reducible exact Kept.refl _ | assumption | with_reducible apply subscriptionArrives_kept
    | with_reducible apply atTime_kept)

theorem execSyncReleaseDelivery_kept (t : Nat) (core : Core) (slot : Fin 16) (s : State) : ∃ s',
    execSyncReleaseDelivery t core slot s = .next s' ∧ Kept s s' := by
  refine ⟨_, rfl, ?_⟩
  repeat' (first
    | with_reducible exact Kept.refl _ | assumption | with_reducible apply deliverRelease_kept
    | with_reducible apply atTime_kept)

theorem execWaitTimeout_kept (t : Nat) (core : Core) (expiry : Expiry) (s : State) : ∃ s', execWaitTimeout t
    core expiry s = .next s' ∧ Kept s s' := by
  refine ⟨_, rfl, ?_⟩
  repeat' (first
    | with_reducible exact Kept.refl _ | assumption | with_reducible apply expireWatch_kept
    | with_reducible apply atTime_kept)

theorem execCancelArrival_kept (t : Nat) (core : Core) (slot : Fin 16) (s : State) : ∃ s', execCancelArrival t
    core slot s = .next s' ∧ Kept s s' := by
  refine ⟨_, rfl, ?_⟩
  repeat' (first
    | with_reducible exact Kept.refl _ | assumption | with_reducible apply cancelArrives_kept
    | with_reducible apply atTime_kept)

theorem sendNak_kept {σ : State} (port : Nat) (s : State) (h0 : Kept σ s) : Kept σ (sendNak port s) := by
  refine h0.trans ?_; clear h0; unfold sendNak
  repeat' (first
    | with_reducible exact Kept.refl _ | assumption
    | ((with_reducible apply updOut_kept); · first | (with_reducible exact rfl) | exact rfl))

theorem receive_kept {σ : State} (type : Nat) (port : Nat) (m : SyncMsg) (act : SyncMsg → State → State) (s :
    State) (hact : ∀ x0 {σ s : State}, Kept σ s → Kept σ (act x0 s)) (h0 : Kept σ s) : Kept σ (receive type
    port m act s) := by
  refine h0.trans ?_; clear h0; unfold receive
  (try dsimp only)
  repeat' (first
    | with_reducible exact Kept.refl _ | assumption | with_reducible apply sendNak_kept
    | with_reducible apply traceMsg_kept | with_reducible apply syncError_kept | with_reducible apply hact
    | with_reducible apply Kept.ite)

theorem updArrival_kept {σ : State} (p : Word) (f : Arrival → Arrival) (s : State) (h0 : Kept σ s) : Kept σ
    (updArrival p f s) := by
  refine h0.trans ?_; clear h0; unfold updArrival
  repeat' (first | with_reducible exact Kept.refl _ | assumption | with_reducible apply updSync_kept)

theorem applySignal_kept {σ : State} (m : SyncMsg) (s : State) (h0 : Kept σ s) : Kept σ (applySignal m s) := by
  refine h0.trans ?_; clear h0; unfold applySignal
  (try dsimp only)
  repeat' (first
    | with_reducible exact Kept.refl _ | assumption | with_reducible apply syncError_kept
    | with_reducible apply sealChanged_kept | with_reducible apply actOn_kept | with_reducible apply Kept.ite)

theorem applySubscribe_kept {σ : State} (m : SyncMsg) (s : State) (h0 : Kept σ s) : Kept σ (applySubscribe m
    s) := by
  refine h0.trans ?_; clear h0; unfold applySubscribe
  (try dsimp only)
  repeat' (first
    | with_reducible exact Kept.refl _ | assumption | with_reducible apply sendMsg_kept
    | with_reducible apply syncError_kept | with_reducible apply subscribe_kept | with_reducible apply Kept.ite)

theorem applyCancel_kept {σ : State} (m : SyncMsg) (s : State) (h0 : Kept σ s) : Kept σ (applyCancel m s) := by
  refine h0.trans ?_; clear h0; unfold applyCancel
  (try dsimp only)
  repeat' (first
    | with_reducible exact Kept.refl _ | assumption | with_reducible apply cancelSub_kept
    | with_reducible apply sendMsg_kept | with_reducible apply Kept.ite)

theorem applyCarry_kept {σ : State} (m : SyncMsg) (s : State) (h0 : Kept σ s) : Kept σ (applyCarry m s) := by
  refine h0.trans ?_; clear h0; unfold applyCarry
  repeat' (first | with_reducible exact Kept.refl _ | assumption | with_reducible apply updArrival_kept)

theorem drainHeld_kept (p : Word) : ∀ ls  {σ s : State}, Kept σ s → Kept σ (drainHeld p ls  s).2 := by
  intro ls
  induction ls with
  | nil => intro  σ s h; exact h
  | cons a l ih =>
    intro  σ s h0
    refine h0.trans ?_; clear h0; unfold drainHeld
    (try dsimp only)
    repeat' (first
      | with_reducible exact Kept.refl _ | with_reducible apply ih | assumption
      | with_reducible apply applySignal_kept | with_reducible apply updArrival_kept
      | with_reducible apply applySubscribe_kept | with_reducible apply applyCancel_kept
      | with_reducible apply applyCarry_kept | with_reducible apply Kept.ite
      | with_reducible exact Kept.of_eq rfl rfl rfl rfl (fun h => h) (fun h => h) (fun h => h) rfl
      | (split <;> try dsimp only))

theorem drainSource_kept {σ : State} (p : Word) (s : State) (h0 : Kept σ s) : Kept σ (drainSource p s) := by
  refine h0.trans ?_; clear h0; unfold drainSource
  (try dsimp only)
  repeat' (first
    | with_reducible exact Kept.refl _ | assumption | with_reducible apply drainHeld_kept
    | with_reducible apply updArrival_kept)

theorem drainWaiting_kept  : ∀ ls {σ s : State}, Kept σ s → Kept σ (drainWaiting  ls s) := by
  intro ls
  induction ls with
  | zero => intro σ s h; exact h
  | succ a ih =>
    intro σ s h0
    refine h0.trans ?_; clear h0; unfold drainWaiting
    repeat' (first
      | with_reducible exact Kept.refl _ | with_reducible apply ih | assumption
      | with_reducible apply drainSource_kept | with_reducible apply Kept.ite
      | with_reducible exact Kept.of_eq rfl rfl rfl rfl (fun h => h) (fun h => h) (fun h => h) rfl
      | (split <;> try dsimp only))

theorem drainArrival_kept {σ : State} (p : Word) (s : State) (h0 : Kept σ s) : Kept σ (drainArrival p s) := by
  refine h0.trans ?_; clear h0; unfold drainArrival
  (try dsimp only)
  repeat' (first
    | with_reducible exact Kept.refl _ | assumption | with_reducible apply drainSource_kept
    | with_reducible apply drainWaiting_kept)

theorem joinQueue_kept {σ : State} (type port : Nat) (m : SyncMsg) (s : State) (h0 : Kept σ s) : Kept σ
    (joinQueue type port m s) := by
  refine h0.trans ?_; clear h0; unfold joinQueue
  (try dsimp only)
  repeat' (first
    | with_reducible exact Kept.refl _ | assumption | with_reducible apply drainArrival_kept
    | with_reducible apply updArrival_kept)

theorem applyRelease_kept {σ : State} (m : SyncMsg) (s : State) (h0 : Kept σ s) : Kept σ (applyRelease m s) := by
  refine h0.trans ?_; clear h0; unfold applyRelease
  (try dsimp only)
  repeat' (first
    | with_reducible exact Kept.refl _ | assumption | with_reducible apply updStation_kept
    | with_reducible apply deliverRelease_kept | with_reducible apply updSync_kept | with_reducible apply Kept.ite)

theorem barrierStray_kept {σ : State} (m : SyncMsg) (s : State) (h0 : Kept σ s) : Kept σ (barrierStray m s) := by
  refine h0.trans ?_; clear h0; unfold barrierStray
  repeat' (first | with_reducible exact Kept.refl _ | assumption | with_reducible apply occur_kept)

theorem applyArrive_kept {σ : State} (m : SyncMsg) (s : State) (h0 : Kept σ s) : Kept σ (applyArrive m s) := by
  refine h0.trans ?_; clear h0; unfold applyArrive
  (try dsimp only)
  repeat' (first
    | with_reducible exact Kept.refl _ | assumption | with_reducible apply advance_kept
    | with_reducible apply updBarrier_kept | with_reducible apply barrierStray_kept | with_reducible apply Kept.ite)

theorem applyBrelease_kept {σ : State} (m : SyncMsg) (s : State) (h0 : Kept σ s) : Kept σ (applyBrelease m s) := by
  refine h0.trans ?_; clear h0; unfold applyBrelease
  (try dsimp only)
  repeat' (first
    | with_reducible exact Kept.refl _ | assumption | with_reducible apply advance_kept
    | with_reducible apply completeGen_kept | with_reducible apply barrierStray_kept | with_reducible apply Kept.ite)

theorem refuseSector_kept {σ : State} (port : Nat) (p : Word) (s : State) (h0 : Kept σ s) : Kept σ
    (refuseSector port p s) := by
  refine h0.trans ?_; clear h0; unfold refuseSector
  (try dsimp only)
  repeat' (first
    | with_reducible exact Kept.refl _ | assumption
    | ((with_reducible apply updOut_kept); · first | (with_reducible exact rfl) | exact rfl)
    | with_reducible apply occur_kept | with_reducible apply updSync_kept | with_reducible apply Kept.ite)

theorem sectorCommits_kept {σ : State} (port : Nat) (p : Word) (scratchpad : Bool) (addr : DWord) (data :
    Sector) (poison : Bool) (s : State) (h0 : Kept σ s) : Kept σ (sectorCommits port p scratchpad addr data
    poison s) := by
  refine h0.trans ?_; clear h0; unfold sectorCommits
  repeat' (first
    | with_reducible exact Kept.refl _ | assumption | with_reducible apply sendNak_kept
    | with_reducible apply refuseSector_kept | with_reducible apply drainArrival_kept
    | with_reducible apply updArrival_kept | with_reducible apply memStore_kept | with_reducible apply Kept.ite)

theorem tallyStalls_kept {σ : State} (p : Word) (s : State) (h0 : Kept σ s) : Kept σ (tallyStalls p s) := by
  refine h0.trans ?_; clear h0; unfold tallyStalls
  (try dsimp only)
  repeat' (first
    | with_reducible exact Kept.refl _ | assumption | with_reducible apply occur_kept
    | with_reducible apply updSync_kept | with_reducible apply updArrival_kept | with_reducible apply Kept.ite
    | with_reducible exact Kept.of_eq rfl rfl rfl rfl (fun h => h) (fun h => h) (fun h => h) rfl
    | (split <;> try dsimp only))

theorem monAct_kept {σ : State} (e : MonEntry) (v : Word) (s : State) (h0 : Kept σ s) : Kept σ (monAct e v s) := by
  refine h0.trans ?_; clear h0; unfold monAct
  (try dsimp only)
  repeat' (first
    | with_reducible exact Kept.refl _ | assumption | with_reducible apply actOn_kept
    | with_reducible apply syncError_kept | with_reducible apply Kept.ite
    | with_reducible exact Kept.of_eq rfl rfl rfl rfl (fun h => h) (fun h => h) (fun h => h) rfl
    | (split <;> try dsimp only))

theorem monEntryAct_kept {σ : State} (i : Nat) (base : Nat) (data : List Byte) (s : State) (h0 : Kept σ s) :
    Kept σ (monEntryAct i base data s) := by
  refine h0.trans ?_; clear h0; unfold monEntryAct
  (try dsimp only)
  repeat' (first
    | with_reducible exact Kept.refl _ | assumption | with_reducible apply updSync_kept
    | with_reducible apply sealChanged_kept | with_reducible apply monAct_kept | with_reducible apply Kept.ite
    | with_reducible exact Kept.of_eq rfl rfl rfl rfl (fun h => h) (fun h => h) (fun h => h) rfl
    | (split <;> try dsimp only))

theorem monEntriesAct_kept (base : Nat) (data : List Byte) : ∀ ls {σ s : State}, Kept σ s → Kept σ
    (monEntriesAct base data ls s) := by
  intro ls
  induction ls with
  | nil => intro σ s h; exact h
  | cons a l ih =>
    intro σ s h0
    refine h0.trans ?_; clear h0; unfold monEntriesAct
    repeat' (first
      | with_reducible exact Kept.refl _ | with_reducible apply ih | assumption
      | with_reducible apply monEntryAct_kept)

theorem noteHolds_kept {σ : State} (n : Nat) (s : State) (h0 : Kept σ s) : Kept σ (noteHolds n s) := by
  refine h0.trans ?_; clear h0; unfold noteHolds
  repeat' (first
    | with_reducible exact Kept.refl _ | assumption | with_reducible apply updSync_kept
    | with_reducible apply Kept.ite)

theorem writeNotified_kept {σ : State} (addr : DWord) (data : Sector) (poison : Bool) (s : State) (h0 : Kept σ
    s) : Kept σ (writeNotified addr data poison s) := by
  refine h0.trans ?_; clear h0; unfold writeNotified
  (try dsimp only)
  repeat' (first
    | with_reducible exact Kept.refl _ | assumption | with_reducible apply memStore_kept
    | with_reducible apply monEntriesAct_kept | with_reducible apply Kept.ite)

theorem acknowledge_kept {σ : State} (core : Core) (queue : Queue) (chip : ChipId) (n : Nat) (s : State) (h0 :
    Kept σ s) : Kept σ (acknowledge core queue chip n s) := by
  refine h0.trans ?_; clear h0; unfold acknowledge
  (try dsimp only)
  repeat' (first
    | with_reducible exact Kept.refl _ | assumption | with_reducible apply updUnacked_kept
    | with_reducible apply releaseItems_kept
    | ((with_reducible apply updGate_kept); · first | (with_reducible exact Nat.le_refl _) | (with_reducible exact fun _ => Nat.le_refl _) | exact Nat.le_refl _ | exact fun _ => Nat.le_refl _ | exact Nat.le_max_left _ _))

theorem holdForRetry_kept {σ : State} (port : Nat) (chip : ChipId) (request : Nat) (sync : Bool) (at_ : Nat)
    (s : State) (h0 : Kept σ s) : Kept σ (holdForRetry port chip request sync at_ s) := by
  refine h0.trans ?_; clear h0; unfold holdForRetry
  repeat' (first
    | with_reducible exact Kept.refl _ | assumption | with_reducible apply updFPort_kept
    | with_reducible apply Kept.ite)

theorem sendBehind_kept {σ : State} (port : Nat) (s : State) (h0 : Kept σ s) : Kept σ (sendBehind port s) := by
  refine h0.trans ?_; clear h0; unfold sendBehind
  repeat' (first
    | with_reducible exact Kept.refl _ | assumption | with_reducible apply releaseItems_kept
    | with_reducible apply sendWaiting_kept | with_reducible apply updFPort_kept)

theorem retryNow_kept {σ : State} (port request : Nat) (s : State) (h0 : Kept σ s) : Kept σ (retryNow port
    request s) := by
  refine h0.trans ?_; clear h0; unfold retryNow
  repeat' (first
    | with_reducible exact Kept.refl _ | assumption | with_reducible apply sendBehind_kept
    | ((with_reducible apply updOut_kept); · first | (with_reducible exact rfl) | exact rfl)
    | with_reducible apply updFPort_kept | with_reducible apply Kept.ite
    | with_reducible exact Kept.of_eq rfl rfl rfl rfl (fun h => h) (fun h => h) (fun h => h) rfl
    | (split <;> try dsimp only))

theorem removeSubsOf_kept {σ : State} (chip : ChipId) (s : State) (h0 : Kept σ s) : Kept σ (removeSubsOf chip
    s) := by
  refine h0.trans ?_; clear h0; unfold removeSubsOf
  (try dsimp only)
  repeat' (first | with_reducible exact Kept.refl _ | assumption | with_reducible apply updSync_kept)

theorem dropArrivalsOf_kept  : ∀ ls {σ s : State}, Kept σ s → Kept σ (dropArrivalsOf  ls s) := by
  intro ls
  induction ls with
  | nil => intro σ s h; exact h
  | cons a l ih =>
    intro σ s h0
    refine h0.trans ?_; clear h0; unfold dropArrivalsOf
    (try dsimp only)
    repeat' (first
      | with_reducible exact Kept.refl _ | with_reducible apply ih | assumption
      | with_reducible apply releaseObjectSubs_kept | with_reducible apply updSync_kept)

theorem dropPortHeld_kept (chip : ChipId) : ∀ ls {σ s : State}, Kept σ s → Kept σ (dropPortHeld chip ls s) := by
  intro ls
  induction ls with
  | nil => intro σ s h; exact h
  | cons a l ih =>
    intro σ s h0
    refine h0.trans ?_; clear h0; unfold dropPortHeld
    repeat' (first
      | with_reducible exact Kept.refl _ | with_reducible apply ih | assumption | with_reducible apply updFPort_kept)

theorem forgetCancels_kept {σ : State} (chip : ChipId) (s : State) (h0 : Kept σ s) : Kept σ (forgetCancels
    chip s) := by
  refine h0.trans ?_; clear h0; unfold forgetCancels
  (try dsimp only)
  repeat' (first
    | with_reducible exact Kept.refl _ | assumption | with_reducible apply Kept.ite
    | with_reducible exact Kept.of_eq rfl rfl rfl rfl (fun h => h) (fun h => h) (fun h => h) rfl)

theorem applyDown_kept {σ : State} (chip : ChipId) (s : State) (h0 : Kept σ s) : Kept σ (applyDown chip s) := by
  refine h0.trans ?_; clear h0; unfold applyDown
  (try dsimp only)
  repeat' (first
    | with_reducible exact Kept.refl _ | assumption | with_reducible apply removeSubsOf_kept
    | with_reducible apply forgetCancels_kept | with_reducible apply releaseWatches_kept
    | with_reducible apply dropArrivalsOf_kept | with_reducible apply dropPortHeld_kept
    | with_reducible apply breakBarriers_kept | with_reducible apply updSync_kept | with_reducible apply occur_kept
    | with_reducible apply releaseItems_kept)

theorem advise_kept {σ : State} (r : Requester) (down : Bool) (chip : ChipId) (seq : BitVec 16) (s : State)
    (h0 : Kept σ s) : Kept σ (advise r down chip seq s) := by
  refine h0.trans ?_; clear h0; unfold advise
  (try dsimp only)
  repeat' (first
    | with_reducible exact Kept.refl _ | assumption | with_reducible apply updCfg_kept
    | with_reducible apply setResult_kept | with_reducible apply updSync_kept | with_reducible apply applyDown_kept
    | with_reducible apply Kept.ite)

theorem execSignalMessage_kept (t : Nat) (port : Port) (msg : SyncMsg) (s : State) : ∃ s', execSignalMessage t
    port msg s = .next s' ∧ Kept s s' := by
  refine ⟨_, rfl, ?_⟩
  repeat' (first
    | with_reducible exact Kept.refl _ | assumption | with_reducible apply receive_kept
    | with_reducible apply joinQueue_kept | with_reducible apply atTime_kept | with_reducible apply Kept.ite
    | with_reducible exact Kept.of_eq rfl rfl rfl rfl (fun h => h) (fun h => h) (fun h => h) rfl
    | (intro _; try dsimp only))

theorem execSubscribeMessage_kept (t : Nat) (port : Port) (msg : SyncMsg) (s : State) : ∃ s',
    execSubscribeMessage t port msg s = .next s' ∧ Kept s s' := by
  refine ⟨_, rfl, ?_⟩
  repeat' (first
    | with_reducible exact Kept.refl _ | assumption | with_reducible apply receive_kept
    | with_reducible apply joinQueue_kept | with_reducible apply atTime_kept | with_reducible apply Kept.ite
    | with_reducible exact Kept.of_eq rfl rfl rfl rfl (fun h => h) (fun h => h) (fun h => h) rfl
    | (intro _; try dsimp only))

theorem execCancelMessage_kept (t : Nat) (port : Port) (msg : SyncMsg) (s : State) : ∃ s', execCancelMessage t
    port msg s = .next s' ∧ Kept s s' := by
  refine ⟨_, rfl, ?_⟩
  repeat' (first
    | with_reducible exact Kept.refl _ | assumption | with_reducible apply receive_kept
    | with_reducible apply joinQueue_kept | with_reducible apply atTime_kept | with_reducible apply Kept.ite
    | with_reducible exact Kept.of_eq rfl rfl rfl rfl (fun h => h) (fun h => h) (fun h => h) rfl
    | (intro _; try dsimp only))

theorem execReleaseMessage_kept (t : Nat) (port : Port) (msg : SyncMsg) (s : State) : ∃ s', execReleaseMessage
    t port msg s = .next s' ∧ Kept s s' := by
  refine ⟨_, rfl, ?_⟩
  repeat' (first
    | with_reducible exact Kept.refl _ | assumption | with_reducible apply receive_kept
    | with_reducible apply applyRelease_kept | with_reducible apply atTime_kept | with_reducible apply Kept.ite
    | with_reducible exact Kept.of_eq rfl rfl rfl rfl (fun h => h) (fun h => h) (fun h => h) rfl
    | (intro _; try dsimp only))

theorem execArriveMessage_kept (t : Nat) (port : Port) (msg : SyncMsg) (s : State) : ∃ s', execArriveMessage t
    port msg s = .next s' ∧ Kept s s' := by
  refine ⟨_, rfl, ?_⟩
  repeat' (first
    | with_reducible exact Kept.refl _ | assumption | with_reducible apply receive_kept
    | with_reducible apply applyArrive_kept | with_reducible apply atTime_kept | with_reducible apply Kept.ite
    | with_reducible exact Kept.of_eq rfl rfl rfl rfl (fun h => h) (fun h => h) (fun h => h) rfl
    | (intro _; try dsimp only))

theorem execBreleaseMessage_kept (t : Nat) (port : Port) (msg : SyncMsg) (s : State) : ∃ s',
    execBreleaseMessage t port msg s = .next s' ∧ Kept s s' := by
  refine ⟨_, rfl, ?_⟩
  repeat' (first
    | with_reducible exact Kept.refl _ | assumption | with_reducible apply receive_kept
    | with_reducible apply applyBrelease_kept | with_reducible apply atTime_kept | with_reducible apply Kept.ite
    | with_reducible exact Kept.of_eq rfl rfl rfl rfl (fun h => h) (fun h => h) (fun h => h) rfl
    | (intro _; try dsimp only))

theorem execCarryMessage_kept (t : Nat) (port : Port) (msg : SyncMsg) (s : State) : ∃ s', execCarryMessage t
    port msg s = .next s' ∧ Kept s s' := by
  refine ⟨_, rfl, ?_⟩
  repeat' (first
    | with_reducible exact Kept.refl _ | assumption | with_reducible apply receive_kept
    | with_reducible apply joinQueue_kept | with_reducible apply atTime_kept | with_reducible apply Kept.ite
    | with_reducible exact Kept.of_eq rfl rfl rfl rfl (fun h => h) (fun h => h) (fun h => h) rfl
    | (intro _; try dsimp only))

theorem execFabricSectorCommit_kept (t : Nat) (port : Port) (party : Word) (addr : SectorAddr) (data :
    MarkedSector) (s : State) : ∃ s', execFabricSectorCommit t port party addr data s = .next s' ∧ Kept s s' := by
  refine ⟨_, rfl, ?_⟩
  repeat' (first
    | with_reducible exact Kept.refl _ | assumption | with_reducible apply sectorCommits_kept
    | with_reducible apply atTime_kept)

theorem execTallyStall_kept (t : Nat) (party : Word) (s : State) : ∃ s', execTallyStall t party s = .next s' ∧
    Kept s s' := by
  refine ⟨_, rfl, ?_⟩
  repeat' (first
    | with_reducible exact Kept.refl _ | assumption | with_reducible apply tallyStalls_kept
    | with_reducible apply atTime_kept)

theorem execWriteNotify_kept (t : Nat) (addr : DWord) (data : MarkedSector) (holds : Nat) (s : State) : ∃ s',
    execWriteNotify t addr data holds s = .next s' ∧ Kept s s' := by
  refine ⟨_, rfl, ?_⟩
  repeat' (first
    | with_reducible exact Kept.refl _ | assumption | with_reducible apply writeNotified_kept
    | with_reducible apply noteHolds_kept | with_reducible apply atTime_kept)

theorem execEndToEndAcknowledgement_kept (t : Nat) (core : Core) (queue : Queue) (chip : ChipId) (sectors :
    Nat) (s : State) : ∃ s', execEndToEndAcknowledgement t core queue chip sectors s = .next s' ∧ Kept s s' := by
  refine ⟨_, rfl, ?_⟩
  repeat' (first
    | with_reducible exact Kept.refl _ | assumption | with_reducible apply acknowledge_kept
    | with_reducible apply atTime_kept)

theorem execResponderResettingNak_kept (t : Nat) (port : Port) (chip : ChipId) (request : BitVec 16) (sync :
    Bool) (retryAfter : Nat) (s : State) : ∃ s', execResponderResettingNak t port chip request sync retryAfter
    s = .next s' ∧ Kept s s' := by
  refine ⟨_, rfl, ?_⟩
  repeat' (first
    | with_reducible exact Kept.refl _ | assumption | with_reducible apply atTime_kept
    | with_reducible apply holdForRetry_kept)

theorem execResponderNotReadyNak_kept (t : Nat) (port : Port) (chip : ChipId) (request : BitVec 16) (s :
    State) : ∃ s', execResponderNotReadyNak t port chip request s = .next s' ∧ Kept s s' := by
  refine ⟨_, rfl, ?_⟩
  repeat' (first
    | with_reducible exact Kept.refl _ | assumption | with_reducible apply atTime_kept
    | with_reducible apply holdForRetry_kept)

theorem execNakRetry_kept (t : Nat) (port : Port) (request : BitVec 16) (s : State) : ∃ s', execNakRetry t
    port request s = .next s' ∧ Kept s s' := by
  refine ⟨_, rfl, ?_⟩
  repeat' (first
    | with_reducible exact Kept.refl _ | assumption | with_reducible apply retryNow_kept
    | with_reducible apply atTime_kept)

theorem execPeerDown_kept (t : Nat) (r : Requester) (chip : ChipId) (seq : BitVec 16) (s : State) : ∃ s',
    execPeerDown t r chip seq s = .next s' ∧ Kept s s' := by
  refine ⟨_, rfl, ?_⟩
  repeat' (first
    | with_reducible exact Kept.refl _ | assumption | with_reducible apply atTime_kept
    | with_reducible apply advise_kept | with_reducible apply Kept.ite)

theorem execPeerUp_kept (t : Nat) (r : Requester) (chip : ChipId) (seq : BitVec 16) (s : State) : ∃ s',
    execPeerUp t r chip seq s = .next s' ∧ Kept s s' := by
  refine ⟨_, rfl, ?_⟩
  repeat' (first
    | with_reducible exact Kept.refl _ | assumption | with_reducible apply atTime_kept
    | with_reducible apply advise_kept | with_reducible apply Kept.ite)

theorem preload_kept {σ : State} (c : Nat) (figs : List Figure) (s : State) (h0 : Kept σ s) : Kept σ (preload
    c figs s) := by
  refine h0.trans ?_; clear h0; unfold preload
  repeat' (first
    | with_reducible exact Kept.refl _ | assumption | with_reducible apply updStation_kept
    | with_reducible apply Kept.ite
    | with_reducible exact Kept.of_eq rfl rfl rfl rfl (fun h => h) (fun h => h) (fun h => h) rfl
    | (split <;> try dsimp only))

theorem takeEpoch_kept {σ : State} (c : Nat) (s : State) (h0 : Kept σ s) : Kept σ (takeEpoch c s) := by
  refine h0.trans ?_; clear h0; unfold takeEpoch
  (try dsimp only)
  repeat' (first | with_reducible exact Kept.refl _ | assumption | with_reducible apply updStation_kept)

theorem epochTaken_kept {σ : State} (c : Nat) (s : State) (h0 : Kept σ s) : Kept σ (epochTaken c s) := by
  refine h0.trans ?_; clear h0; unfold epochTaken
  repeat' (first
    | with_reducible exact Kept.refl _ | assumption | with_reducible apply takeEpoch_kept
    | with_reducible apply Kept.ite)

theorem execStationEpochTake_kept (t : Nat) (core : Core) (s : State) : ∃ s', execStationEpochTake t core s =
    .next s' ∧ Kept s s' := by
  refine ⟨_, rfl, ?_⟩
  repeat' (first
    | with_reducible exact Kept.refl _ | assumption | with_reducible apply epochTaken_kept
    | with_reducible apply atTime_kept)

theorem runFigs_kept {σ : State} (c : Nat) (u : Cu) (f : Feed) (s : State) (h0 : Kept σ s) : Kept σ (runFigs c
    u f s) := by
  refine h0.trans ?_; clear h0; unfold runFigs
  (try dsimp only)
  repeat' (first
    | with_reducible exact Kept.refl _ | assumption | with_reducible apply fresh_kept
    | with_reducible apply updStation_kept | with_reducible apply Kept.ite
    | with_reducible exact Kept.of_eq rfl rfl rfl rfl (fun h => h) (fun h => h) (fun h => h) rfl
    | (split <;> try dsimp only))

theorem recordVerdict_kept {σ : State} (c : Nat) (u : Cu) (k : Nat × Nat) (outs : List (Nat × Nat)) (cycles :
    Nat) (s : State) (h0 : Kept σ s) : Kept σ (recordVerdict c u k outs cycles s) := by
  refine h0.trans ?_; clear h0; unfold recordVerdict
  (try dsimp only)
  repeat' (first
    | with_reducible exact Kept.refl _ | assumption | with_reducible apply updStation_kept
    | with_reducible apply traceRec_kept | with_reducible apply Kept.ite)

theorem signalNumerics_kept {σ : State} (ctx : Nat) (s : State) (h0 : Kept σ s) : Kept σ (signalNumerics ctx
    s) := by
  refine h0.trans ?_; clear h0; unfold signalNumerics
  repeat' (first
    | with_reducible exact Kept.refl _ | assumption | with_reducible apply actOn_kept | with_reducible apply Kept.ite
    | with_reducible exact Kept.of_eq rfl rfl rfl rfl (fun h => h) (fun h => h) (fun h => h) rfl
    | (split <;> try dsimp only))

theorem takeCensus_kept {σ : State} (c : Nat) (u : Cu) (s : State) (h0 : Kept σ s) : Kept σ (takeCensus c u s) := by
  refine h0.trans ?_; clear h0; unfold takeCensus
  (try dsimp only)
  repeat' (first
    | with_reducible exact Kept.refl _ | assumption | with_reducible apply updStation_kept
    | with_reducible apply signalNumerics_kept | with_reducible apply occur_kept | with_reducible apply Kept.ite
    | with_reducible exact Kept.of_eq rfl rfl rfl rfl (fun h => h) (fun h => h) (fun h => h) rfl
    | (split <;> try dsimp only))

theorem countChecked_kept {σ : State} (c : Nat) (u : Cu) (s : State) (h0 : Kept σ s) : Kept σ (countChecked c
    u s) := by
  refine h0.trans ?_; clear h0; unfold countChecked
  (try dsimp only)
  repeat' (first
    | with_reducible exact Kept.refl _ | assumption | with_reducible apply updLed_kept
    | with_reducible apply updCapsule_kept | with_reducible apply Kept.ite
    | with_reducible exact Kept.of_eq rfl rfl rfl rfl (fun h => h) (fun h => h) (fun h => h) rfl
    | (split <;> try dsimp only))

theorem checkFail_kept {σ : State} (c : Nat) (u : Cu) (slot : Nat) (s : State) (h0 : Kept σ s) : Kept σ
    (checkFail c u slot s) := by
  refine h0.trans ?_; clear h0; unfold checkFail
  (try dsimp only)
  repeat' (first
    | with_reducible exact Kept.refl _ | assumption | with_reducible apply occur_kept | with_reducible apply Kept.ite
    | with_reducible exact Kept.of_eq rfl rfl rfl rfl (fun h => h) (fun h => h) (fun h => h) rfl
    | (split <;> try dsimp only))

theorem checkFails_kept (c : Nat) (u : Cu) : ∀ ls {σ s : State}, Kept σ s → Kept σ (checkFails c u ls s) := by
  intro ls
  induction ls with
  | nil => intro σ s h; exact h
  | cons a l ih =>
    intro σ s h0
    refine h0.trans ?_; clear h0; unfold checkFails
    repeat' (first
      | with_reducible exact Kept.refl _ | with_reducible apply ih | assumption | with_reducible apply checkFail_kept)

theorem checkForced_kept {σ : State} (c : Nat) (u : Cu) (s : State) (h0 : Kept σ s) : Kept σ (checkForced c u
    s) := by
  refine h0.trans ?_; clear h0; unfold checkForced
  repeat' (first | with_reducible exact Kept.refl _ | assumption | with_reducible apply occur_kept)

theorem checkPoisoned_kept (c : Nat) (u : Cu) : ∀ ls {σ s : State}, Kept σ s → Kept σ (checkPoisoned c u ls s) := by
  intro ls
  induction ls with
  | nil => intro σ s h; exact h
  | cons a l ih =>
    intro σ s h0
    refine h0.trans ?_; clear h0; unfold checkPoisoned
    repeat' (first
      | with_reducible exact Kept.refl _ | with_reducible apply ih | assumption | with_reducible apply occur_kept)

theorem afterPass_kept {σ : State} (c : Nat) (u : Cu) (s : State) (h0 : Kept σ s) : Kept σ (afterPass c u s) := by
  refine h0.trans ?_; clear h0; unfold afterPass
  repeat' (first
    | with_reducible exact Kept.refl _ | assumption | with_reducible apply countChecked_kept
    | ((with_reducible apply updDomain_kept); · first | (with_reducible exact fun h => h) | exact fun h => h))

theorem afterFail_kept {σ : State} (c : Nat) (u : Cu) (outs : List (Nat × Nat)) (s : State) (h0 : Kept σ s) :
    Kept σ (afterFail c u outs s) := by
  refine h0.trans ?_; clear h0; unfold afterFail
  (try dsimp only)
  repeat' (first
    | with_reducible exact Kept.refl _ | assumption | with_reducible apply checkForced_kept
    | with_reducible apply checkFails_kept | with_reducible apply countChecked_kept
    | with_reducible apply loadPin_kept
    | ((with_reducible apply updDomain_kept); · first | (with_reducible exact fun h => h) | exact fun h => h)
    | with_reducible apply openAdj_kept | with_reducible apply Kept.ite)

theorem afterPoison_kept {σ : State} (c : Nat) (u : Cu) (outs : List (Nat × Nat)) (s : State) (h0 : Kept σ s)
    : Kept σ (afterPoison c u outs s) := by
  refine h0.trans ?_; clear h0; unfold afterPoison
  (try dsimp only)
  repeat' (first
    | with_reducible exact Kept.refl _ | assumption | with_reducible apply occur_kept
    | with_reducible apply checkPoisoned_kept | with_reducible apply openIncident_kept
    | with_reducible apply skipSample_kept | with_reducible apply Kept.ite)

theorem releaseBanks_kept {σ : State} (c : Nat) (u : Cu) (s : State) (h0 : Kept σ s) : Kept σ (releaseBanks c
    u s) := by
  refine h0.trans ?_; clear h0; unfold releaseBanks
  repeat' (first | with_reducible exact Kept.refl _ | assumption | with_reducible apply updStation_kept)

theorem giveVerdict_kept {σ : State} (c : Nat) (u : Cu) (outs : List (Nat × Nat)) (cycles : Nat) (s : State)
    (h0 : Kept σ s) : Kept σ (giveVerdict c u outs cycles s) := by
  refine h0.trans ?_; clear h0; unfold giveVerdict
  (try dsimp only)
  repeat' (first
    | with_reducible exact Kept.refl _ | assumption | with_reducible apply updCus_kept
    | with_reducible apply updStation_kept | with_reducible apply takeCensus_kept
    | with_reducible apply recordVerdict_kept | with_reducible apply afterPass_kept
    | with_reducible apply afterFail_kept | with_reducible apply afterPoison_kept
    | with_reducible apply releaseBanks_kept | with_reducible apply settleCu_kept | with_reducible apply Kept.ite
    | with_reducible exact Kept.of_eq rfl rfl rfl rfl (fun h => h) (fun h => h) (fun h => h) rfl
    | (split <;> try dsimp only))

theorem noteLate_kept {σ : State} (c : Nat) (u : Cu) (s : State) (h0 : Kept σ s) : Kept σ (noteLate c u s) := by
  refine h0.trans ?_; clear h0; unfold noteLate
  (try dsimp only)
  repeat' (first
    | with_reducible exact Kept.refl _ | assumption | with_reducible apply occur_kept
    | with_reducible apply backoffCore_kept | with_reducible apply stationFault_kept
    | with_reducible apply updCus_kept | with_reducible apply Kept.ite)

theorem verdictArrives_kept {σ : State} (c : Nat) (tag : Word) (cycles : Nat) (s : State) (h0 : Kept σ s) :
    Kept σ (verdictArrives c tag cycles s) := by
  refine h0.trans ?_; clear h0; unfold verdictArrives
  (try dsimp only)
  repeat' (first
    | with_reducible exact Kept.refl _ | assumption | with_reducible apply noteLate_kept
    | with_reducible apply giveVerdict_kept | with_reducible apply Kept.ite
    | with_reducible exact Kept.of_eq rfl rfl rfl rfl (fun h => h) (fun h => h) (fun h => h) rfl
    | (split <;> try dsimp only))

theorem verdictIsLate_kept {σ : State} (c : Nat) (tag : Word) (cycles : Nat) (s : State) (h0 : Kept σ s) :
    Kept σ (verdictIsLate c tag cycles s) := by
  refine h0.trans ?_; clear h0; unfold verdictIsLate
  repeat' (first
    | with_reducible exact Kept.refl _ | assumption | with_reducible apply noteLate_kept
    | with_reducible apply Kept.ite
    | with_reducible exact Kept.of_eq rfl rfl rfl rfl (fun h => h) (fun h => h) (fun h => h) rfl
    | (split <;> try dsimp only))

theorem forceVerdict_kept {σ : State} (c : Nat) (tag : Word) (cycles : Nat) (s : State) (h0 : Kept σ s) : Kept
    σ (forceVerdict c tag cycles s) := by
  refine h0.trans ?_; clear h0; unfold forceVerdict
  (try dsimp only)
  repeat' (first
    | with_reducible exact Kept.refl _ | assumption | with_reducible apply noteLate_kept
    | with_reducible apply giveVerdict_kept | with_reducible apply Kept.ite
    | with_reducible exact Kept.of_eq rfl rfl rfl rfl (fun h => h) (fun h => h) (fun h => h) rfl
    | (split <;> try dsimp only))

theorem selfCheckFails_kept {σ : State} (c : Nat) (cell : ResFault) (tag : Word) (s : State) (h0 : Kept σ s) :
    Kept σ (selfCheckFails c cell tag s) := by
  refine h0.trans ?_; clear h0; unfold selfCheckFails
  (try dsimp only)
  repeat' (first
    | with_reducible exact Kept.refl _ | assumption | with_reducible apply occur_kept
    | with_reducible apply updStation_kept | with_reducible apply backoffCore_kept
    | with_reducible apply stationFault_kept)

theorem checkResidue_kept {σ : State} (c : Nat) (u : Cu) (fault : Option LaneFault) (s : State) (h0 : Kept σ
    s) : Kept σ (checkResidue c u fault s) := by
  refine h0.trans ?_; clear h0; unfold checkResidue
  repeat' (first
    | with_reducible exact Kept.refl _ | assumption | with_reducible apply selfCheckFails_kept
    | with_reducible apply Kept.ite
    | with_reducible exact Kept.of_eq rfl rfl rfl rfl (fun h => h) (fun h => h) (fun h => h) rfl
    | (split <;> try dsimp only))

theorem patternRun_kept {σ : State} (c : Nat) (cell : ResFault) (passed : Bool) (s : State) (h0 : Kept σ s) :
    Kept σ (patternRun c cell passed s) := by
  refine h0.trans ?_; clear h0; unfold patternRun
  repeat' (first
    | with_reducible exact Kept.refl _ | assumption | with_reducible apply selfCheckFails_kept
    | with_reducible apply Kept.ite)

theorem retestDone_kept {σ : State} (c passes : Nat) (s : State) (h0 : Kept σ s) : Kept σ (retestDone c passes
    s) := by
  refine h0.trans ?_; clear h0; unfold retestDone
  (try dsimp only)
  repeat' (first
    | with_reducible exact Kept.refl _ | assumption | with_reducible apply updStation_kept
    | with_reducible apply backoffCore_kept | with_reducible apply suspect_kept | with_reducible apply Kept.ite
    | with_reducible exact Kept.of_eq rfl rfl rfl rfl (fun h => h) (fun h => h) (fun h => h) rfl
    | (split <;> try dsimp only))

theorem coreStops_kept {σ : State} (c : Nat) (s : State) (h0 : Kept σ s) : Kept σ (coreStops c s) := by
  refine h0.trans ?_; clear h0; unfold coreStops
  repeat' (first
    | with_reducible exact Kept.refl _ | assumption | with_reducible apply startHomes_kept
    | with_reducible apply updStation_kept | with_reducible apply Kept.ite)

theorem execVerdictGiven_kept (t : Nat) (core : Core) (tag : Word) (cycles : Nat) (s : State) : ∃ s',
    execVerdictGiven t core tag cycles s = .next s' ∧ Kept s s' := by
  refine ⟨_, rfl, ?_⟩
  repeat' (first
    | with_reducible exact Kept.refl _ | assumption | with_reducible apply verdictArrives_kept
    | with_reducible apply atTime_kept)

theorem execVerdictLate_kept (t : Nat) (core : Core) (tag : Word) (cycles : Nat) (s : State) : ∃ s',
    execVerdictLate t core tag cycles s = .next s' ∧ Kept s s' := by
  refine ⟨_, rfl, ?_⟩
  repeat' (first
    | with_reducible exact Kept.refl _ | assumption | with_reducible apply verdictIsLate_kept
    | with_reducible apply atTime_kept)

theorem execVerdictForcedFail_kept (t : Nat) (core : Core) (tag : Word) (cycles : Nat) (s : State) : ∃ s',
    execVerdictForcedFail t core tag cycles s = .next s' ∧ Kept s s' := by
  refine ⟨_, rfl, ?_⟩
  repeat' (first
    | with_reducible exact Kept.refl _ | assumption | with_reducible apply forceVerdict_kept
    | with_reducible apply atTime_kept)

theorem execStationPatternRun_kept (t : Nat) (core : Core) (cell : ResFault) (passed : Bool) (s : State) : ∃
    s', execStationPatternRun t core cell passed s = .next s' ∧ Kept s s' := by
  refine ⟨_, rfl, ?_⟩
  repeat' (first
    | with_reducible exact Kept.refl _ | assumption | with_reducible apply patternRun_kept
    | with_reducible apply atTime_kept)

theorem execSelfcheckInjection_kept (t : Nat) (core : Core) (cell : ResFault) (seen : Bool) (s : State) : ∃
    s', execSelfcheckInjection t core cell seen s = .next s' ∧ Kept s s' := by
  refine ⟨_, rfl, ?_⟩
  repeat' (first
    | with_reducible exact Kept.refl _ | assumption | with_reducible apply patternRun_kept
    | with_reducible apply atTime_kept)

theorem execSelfcheckRetestDone_kept (t : Nat) (core : Core) (passes : Fin 4) (s : State) : ∃ s',
    execSelfcheckRetestDone t core passes s = .next s' ∧ Kept s s' := by
  refine ⟨_, rfl, ?_⟩
  repeat' (first
    | with_reducible exact Kept.refl _ | assumption | with_reducible apply retestDone_kept
    | with_reducible apply atTime_kept)

theorem execCoreStopped_kept (t : Nat) (core : Core) (s : State) : ∃ s', execCoreStopped t core s = .next s' ∧
    Kept s s' := by
  refine ⟨_, rfl, ?_⟩
  repeat' (first
    | with_reducible exact Kept.refl _ | assumption | with_reducible apply coreStops_kept
    | with_reducible apply atTime_kept)

theorem beginSegment_kept {σ : State} (c : Nat) (k : Kit) (seg : Nat) (s : State) (h0 : Kept σ s) : Kept σ
    (beginSegment c k seg s) := by
  refine h0.trans ?_; clear h0; unfold beginSegment
  repeat' (first | with_reducible exact Kept.refl _ | assumption | with_reducible apply updReh_kept)

theorem beginRun_kept {σ : State} (c : Nat) (k : Kit) (for_ : Option Core) (s : State) (h0 : Kept σ s) : Kept
    σ (beginRun c k for_ s) := by
  refine h0.trans ?_; clear h0; unfold beginRun
  (try dsimp only)
  repeat' (first
    | with_reducible exact Kept.refl _ | assumption | with_reducible apply beginSegment_kept
    | with_reducible apply spadPut_kept | with_reducible apply updReh_kept)

theorem resumeRun_kept {σ : State} (c : Nat) (k : Kit) (s : State) (h0 : Kept σ s) : Kept σ (resumeRun c k s) := by
  refine h0.trans ?_; clear h0; unfold resumeRun
  (try dsimp only)
  repeat' (first
    | with_reducible exact Kept.refl _ | assumption | with_reducible apply beginRun_kept
    | with_reducible apply updReh_kept | with_reducible apply beginSegment_kept | with_reducible apply Kept.ite)

theorem gapStarts_kept {σ : State} (c : Nat) (s : State) (h0 : Kept σ s) : Kept σ (gapStarts c s) := by
  refine h0.trans ?_; clear h0; unfold gapStarts
  (try dsimp only)
  repeat' (first
    | with_reducible exact Kept.refl _ | assumption | with_reducible apply resumeRun_kept
    | with_reducible apply updReh_kept | with_reducible apply beginRun_kept | with_reducible apply Kept.ite
    | with_reducible exact Kept.of_eq rfl rfl rfl rfl (fun h => h) (fun h => h) (fun h => h) rfl
    | (split <;> try dsimp only))

theorem kitDone_kept {σ : State} (c : Nat) (k : Kit) (sig : Nat) (s : State) (h0 : Kept σ s) : Kept σ (kitDone
    c k sig s) := by
  refine h0.trans ?_; clear h0; unfold kitDone
  repeat' (first
    | with_reducible exact Kept.refl _ | assumption | with_reducible apply countDet_kept
    | with_reducible apply updReh_kept | with_reducible apply Kept.ite)

theorem budgetOverrun_kept {σ : State} (c : Nat) (s : State) (h0 : Kept σ s) : Kept σ (budgetOverrun c s) := by
  refine h0.trans ?_; clear h0; unfold budgetOverrun
  repeat' (first
    | with_reducible exact Kept.refl _ | assumption | with_reducible apply kitInvalid_kept
    | with_reducible apply Kept.ite)

theorem runEnds_kept {σ : State} (c : Nat) (k : Kit) (s : State) (h0 : Kept σ s) : Kept σ (runEnds c k s) := by
  refine h0.trans ?_; clear h0; unfold runEnds
  (try dsimp only)
  repeat' (first
    | with_reducible exact Kept.refl _ | assumption | with_reducible apply kitDone_kept
    | with_reducible apply updReh_kept | with_reducible apply Kept.ite
    | with_reducible exact Kept.of_eq rfl rfl rfl rfl (fun h => h) (fun h => h) (fun h => h) rfl
    | (split <;> try dsimp only))

theorem segmentEnds_kept {σ : State} (c : Nat) (jobWaits : Bool) (s : State) (h0 : Kept σ s) : Kept σ
    (segmentEnds c jobWaits s) := by
  refine h0.trans ?_; clear h0; unfold segmentEnds
  (try dsimp only)
  repeat' (first
    | with_reducible exact Kept.refl _ | assumption | with_reducible apply budgetOverrun_kept
    | with_reducible apply updReh_kept | with_reducible apply runEnds_kept | with_reducible apply Kept.ite
    | with_reducible exact Kept.of_eq rfl rfl rfl rfl (fun h => h) (fun h => h) (fun h => h) rfl
    | (split <;> try dsimp only))

theorem rehearsalIsLate_kept {σ : State} (c : Nat) (s : State) (h0 : Kept σ s) : Kept σ (rehearsalIsLate c s) := by
  refine h0.trans ?_; clear h0; unfold rehearsalIsLate
  (try dsimp only)
  repeat' (first
    | with_reducible exact Kept.refl _ | assumption | with_reducible apply updReh_kept
    | with_reducible apply occur_kept | with_reducible apply Kept.ite)

theorem chargeAll_kept (c : Nat) (tag : Word) : ∀ ls {σ s : State}, Kept σ s → Kept σ (chargeAll c tag ls s) := by
  intro ls
  induction ls with
  | nil => intro σ s h; exact h
  | cons a l ih =>
    intro σ s h0
    refine h0.trans ?_; clear h0; unfold chargeAll
    repeat' (first
      | with_reducible exact Kept.refl _ | with_reducible apply ih | assumption
      | with_reducible apply chargeEngine_kept)

theorem endCheck_kept {σ : State} (c : Nat) (s : State) (h0 : Kept σ s) : Kept σ (endCheck c s) := by
  refine h0.trans ?_; clear h0; unfold endCheck
  (try dsimp only)
  repeat' (first
    | with_reducible exact Kept.refl _ | assumption | with_reducible apply Kept.ite
    | with_reducible exact Kept.of_eq rfl rfl rfl rfl (fun h => h) (fun h => h) (fun h => h) rfl)

theorem rehearsalFails_kept {σ : State} (c : Nat) (k : Kit) (transient : Bool) (s : State) (h0 : Kept σ s) :
    Kept σ (rehearsalFails c k transient s) := by
  refine h0.trans ?_; clear h0; unfold rehearsalFails
  (try dsimp only)
  repeat' (first
    | with_reducible exact Kept.refl _ | assumption | with_reducible apply updReh_kept
    | with_reducible apply endCheck_kept | with_reducible apply occur_kept | with_reducible apply countConfirmed_kept
    | with_reducible apply countDet_kept | with_reducible apply backoffCore_kept | with_reducible apply chargeAll_kept
    | with_reducible apply suspect_kept | with_reducible apply Kept.ite)

theorem settleRecheck_kept {σ : State} (c : Nat) (k : Kit) (s : State) (h0 : Kept σ s) : Kept σ (settleRecheck
    c k s) := by
  refine h0.trans ?_; clear h0; unfold settleRecheck
  (try dsimp only)
  repeat' (first
    | with_reducible exact Kept.refl _ | assumption | with_reducible apply rehearsalFails_kept
    | with_reducible apply kitInvalid_kept | with_reducible apply endCheck_kept | with_reducible apply Kept.ite
    | with_reducible exact Kept.of_eq rfl rfl rfl rfl (fun h => h) (fun h => h) (fun h => h) rfl
    | (split <;> try dsimp only))

theorem takeRun_kept {σ : State} (runner : Nat) (s : State) (h0 : Kept σ s) : Kept σ (takeRun runner s) := by
  refine h0.trans ?_; clear h0; unfold takeRun
  repeat' (first | with_reducible exact Kept.refl _ | assumption | with_reducible apply updReh_kept)

theorem recheckDone_kept {σ : State} (c runner : Nat) (s : State) (h0 : Kept σ s) : Kept σ (recheckDone c
    runner s) := by
  refine h0.trans ?_; clear h0; unfold recheckDone
  (try dsimp only)
  repeat' (first
    | with_reducible exact Kept.refl _ | assumption | with_reducible apply settleRecheck_kept
    | with_reducible apply updReh_kept | with_reducible apply takeRun_kept | with_reducible apply Kept.ite
    | with_reducible exact Kept.of_eq rfl rfl rfl rfl (fun h => h) (fun h => h) (fun h => h) rfl
    | (split <;> try dsimp only))

theorem recheckTimeout_kept {σ : State} (c : Nat) (s : State) (h0 : Kept σ s) : Kept σ (recheckTimeout c s) := by
  refine h0.trans ?_; clear h0; unfold recheckTimeout
  (try dsimp only)
  repeat' (first
    | with_reducible exact Kept.refl _ | assumption | with_reducible apply rehearsalFails_kept
    | with_reducible apply Kept.ite
    | with_reducible exact Kept.of_eq rfl rfl rfl rfl (fun h => h) (fun h => h) (fun h => h) rfl
    | (split <;> try dsimp only))

theorem execRehearsalGapStart_kept (t : Nat) (core : Core) (s : State) : ∃ s', execRehearsalGapStart t core s
    = .next s' ∧ Kept s s' := by
  refine ⟨_, rfl, ?_⟩
  repeat' (first
    | with_reducible exact Kept.refl _ | assumption | with_reducible apply gapStarts_kept
    | with_reducible apply atTime_kept)

theorem execRehearsalSegmentEnd_kept (t : Nat) (core : Core) (jobWaits : Bool) (result : List Byte) (s :
    State) : ∃ s', execRehearsalSegmentEnd t core jobWaits result s = .next s' ∧ Kept s s' := by
  refine ⟨_, rfl, ?_⟩
  repeat' (first
    | with_reducible exact Kept.refl _ | assumption | with_reducible apply segmentEnds_kept
    | with_reducible apply atTime_kept)

theorem execRehearsalBudgetOverrun_kept (t : Nat) (core : Core) (s : State) : ∃ s', execRehearsalBudgetOverrun
    t core s = .next s' ∧ Kept s s' := by
  refine ⟨_, rfl, ?_⟩
  repeat' (first
    | with_reducible exact Kept.refl _ | assumption | with_reducible apply budgetOverrun_kept
    | with_reducible apply atTime_kept)

theorem execRehearsalLate_kept (t : Nat) (core : Core) (s : State) : ∃ s', execRehearsalLate t core s = .next
    s' ∧ Kept s s' := by
  refine ⟨_, rfl, ?_⟩
  repeat' (first
    | with_reducible exact Kept.refl _ | assumption | with_reducible apply rehearsalIsLate_kept
    | with_reducible apply atTime_kept)

theorem execRehearsalRecheckDone_kept (t : Nat) (core runner : Core) (signature : DWord) (s : State) : ∃ s',
    execRehearsalRecheckDone t core runner signature s = .next s' ∧ Kept s s' := by
  refine ⟨_, rfl, ?_⟩
  repeat' (first
    | with_reducible exact Kept.refl _ | assumption | with_reducible apply recheckDone_kept
    | with_reducible apply atTime_kept)

theorem execRehearsalRecheckTimeout_kept (t : Nat) (core : Core) (s : State) : ∃ s',
    execRehearsalRecheckTimeout t core s = .next s' ∧ Kept s s' := by
  refine ⟨_, rfl, ?_⟩
  repeat' (first
    | with_reducible exact Kept.refl _ | assumption | with_reducible apply recheckTimeout_kept
    | with_reducible apply atTime_kept)

theorem capsuleDone_kept {σ : State} (c : Nat) (tag : Word) (s : State) (h0 : Kept σ s) : Kept σ (capsuleDone
    c tag s) := by
  refine h0.trans ?_; clear h0; unfold capsuleDone
  repeat' (first
    | with_reducible exact Kept.refl _ | assumption | with_reducible apply writeCapsuleHead_kept
    | with_reducible apply updCapsule_kept | with_reducible apply Kept.ite
    | with_reducible exact Kept.of_eq rfl rfl rfl rfl (fun h => h) (fun h => h) (fun h => h) rfl
    | (split <;> try dsimp only))

theorem beginReplay_kept {σ : State} (c : Nat) (k : Capsule) (d : Nat) (s : State) (h0 : Kept σ s) : Kept σ
    (beginReplay c k d s) := by
  refine h0.trans ?_; clear h0; unfold beginReplay
  (try dsimp only)
  repeat' (first
    | with_reducible exact Kept.refl _ | assumption | with_reducible apply updAdj_kept
    | with_reducible apply notify_kept)

theorem takeCapsule_kept {σ : State} (c : Nat) (tag : Word) (forced : Bool) (empty : Nat → Bool) (s : State)
    (h0 : Kept σ s) : Kept σ (takeCapsule c tag forced empty s) := by
  refine h0.trans ?_; clear h0; unfold takeCapsule
  (try dsimp only)
  repeat' (first
    | with_reducible exact Kept.refl _ | assumption | with_reducible apply abandonReprise_kept
    | with_reducible apply beginReplay_kept | with_reducible apply Kept.ite
    | with_reducible exact Kept.of_eq rfl rfl rfl rfl (fun h => h) (fun h => h) (fun h => h) rfl
    | (split <;> try dsimp only))

theorem repriseGivesUp_kept {σ : State} (c : Nat) (tag : Word) (cause : Nat) (s : State) (h0 : Kept σ s) :
    Kept σ (repriseGivesUp c tag cause s) := by
  refine h0.trans ?_; clear h0; unfold repriseGivesUp
  (try dsimp only)
  repeat' (first
    | with_reducible exact Kept.refl _ | assumption | with_reducible apply abandonReprise_kept
    | with_reducible apply Kept.ite
    | with_reducible exact Kept.of_eq rfl rfl rfl rfl (fun h => h) (fun h => h) (fun h => h) rfl
    | (split <;> try dsimp only))

theorem replayLost_kept {σ : State} (r : Replay) (s : State) (h0 : Kept σ s) : Kept σ (replayLost r s) := by
  refine h0.trans ?_; clear h0; unfold replayLost
  (try dsimp only)
  repeat' (first
    | with_reducible exact Kept.refl _ | assumption | with_reducible apply updAdj_kept
    | with_reducible apply updCapsule_kept | with_reducible apply abandonReprise_kept | with_reducible apply Kept.ite
    | with_reducible exact Kept.of_eq rfl rfl rfl rfl (fun h => h) (fun h => h) (fun h => h) rfl
    | (split <;> try dsimp only))

theorem insertedLost_kept {σ : State} (u : Cu) (s : State) (h0 : Kept σ s) : Kept σ (insertedLost u s) := by
  refine h0.trans ?_; clear h0; unfold insertedLost
  repeat' (first
    | with_reducible exact Kept.refl _ | assumption | with_reducible apply replayLost_kept
    | with_reducible apply takeOutcome_kept | with_reducible apply Kept.ite
    | with_reducible exact Kept.of_eq rfl rfl rfl rfl (fun h => h) (fun h => h) (fun h => h) rfl
    | (split <;> try dsimp only))

theorem insertedAllLost_kept  : ∀ ls {σ s : State}, Kept σ s → Kept σ (insertedAllLost  ls s) := by
  intro ls
  induction ls with
  | nil => intro σ s h; exact h
  | cons a l ih =>
    intro σ s h0
    refine h0.trans ?_; clear h0; unfold insertedAllLost
    repeat' (first
      | with_reducible exact Kept.refl _ | with_reducible apply ih | assumption
      | with_reducible apply insertedLost_kept | with_reducible apply Kept.ite)

theorem straddle_kept {σ : State} (c : Nat) (k : Capsule) (r : Replay) (s : State) (h0 : Kept σ s) : Kept σ
    (straddle c k r s) := by
  refine h0.trans ?_; clear h0; unfold straddle
  repeat' (first
    | with_reducible exact Kept.refl _ | assumption | with_reducible apply giveReprise_kept
    | with_reducible apply occur_kept)

theorem mismatch_kept {σ : State} (c : Nat) (k : Capsule) (r : Replay) (results : List Byte) (bad : List Nat)
    (s : State) (h0 : Kept σ s) : Kept σ (mismatch c k r results bad s) := by
  refine h0.trans ?_; clear h0; unfold mismatch
  (try dsimp only)
  repeat' (first
    | with_reducible exact Kept.refl _ | assumption | with_reducible apply occur_kept
    | with_reducible apply giveReprise_kept | with_reducible apply openAdj_kept
    | with_reducible apply holdCapsuleOf_kept)

theorem dropReplay_kept {σ : State} (r : Replay) (s : State) (h0 : Kept σ s) : Kept σ (dropReplay r s) := by
  refine h0.trans ?_; clear h0; unfold dropReplay
  repeat' (first | with_reducible exact Kept.refl _ | assumption | with_reducible apply updAdj_kept)

theorem compareReplay_kept {σ : State} (c : Nat) (r : Replay) (results : List Byte) (s : State) (h0 : Kept σ
    s) : Kept σ (compareReplay c r results s) := by
  refine h0.trans ?_; clear h0; unfold compareReplay
  (try dsimp only)
  repeat' (first
    | with_reducible exact Kept.refl _ | assumption | with_reducible apply straddle_kept
    | with_reducible apply giveReprise_kept | with_reducible apply mismatch_kept | with_reducible apply Kept.ite
    | with_reducible exact Kept.of_eq rfl rfl rfl rfl (fun h => h) (fun h => h) (fun h => h) rfl
    | (split <;> try dsimp only))

theorem compareDone_kept {σ : State} (c : Nat) (tag : Word) (s : State) (h0 : Kept σ s) : Kept σ (compareDone
    c tag s) := by
  refine h0.trans ?_; clear h0; unfold compareDone
  repeat' (first
    | with_reducible exact Kept.refl _ | assumption | with_reducible apply compareReplay_kept
    | with_reducible apply dropReplay_kept | with_reducible apply Kept.ite
    | with_reducible exact Kept.of_eq rfl rfl rfl rfl (fun h => h) (fun h => h) (fun h => h) rfl
    | (split <;> try dsimp only))

theorem execCapsuleComplete_kept (t : Nat) (core : Core) (tag : Word) (s : State) : ∃ s', execCapsuleComplete
    t core tag s = .next s' ∧ Kept s s' := by
  refine ⟨_, rfl, ?_⟩
  repeat' (first
    | with_reducible exact Kept.refl _ | assumption | with_reducible apply capsuleDone_kept
    | with_reducible apply atTime_kept)

theorem execReplayStart_kept (t : Nat) (core : Core) (tag : Word) (emptyQueues : BitVec 256) (s : State) : ∃
    s', execReplayStart t core tag emptyQueues s = .next s' ∧ Kept s s' := by
  refine ⟨_, rfl, ?_⟩
  repeat' (first
    | with_reducible exact Kept.refl _ | assumption | with_reducible apply takeCapsule_kept
    | with_reducible apply atTime_kept)

theorem execRepriseForce_kept (t : Nat) (core : Core) (tag : Word) (emptyQueues : BitVec 256) (s : State) : ∃
    s', execRepriseForce t core tag emptyQueues s = .next s' ∧ Kept s s' := by
  refine ⟨_, rfl, ?_⟩
  repeat' (first
    | with_reducible exact Kept.refl _ | assumption | with_reducible apply takeCapsule_kept
    | with_reducible apply atTime_kept)

theorem execRepriseAbandon_kept (t : Nat) (core : Core) (tag : Word) (cause : BitVec 4) (s : State) : ∃ s',
    execRepriseAbandon t core tag cause s = .next s' ∧ Kept s s' := by
  refine ⟨_, rfl, ?_⟩
  repeat' (first
    | with_reducible exact Kept.refl _ | assumption | with_reducible apply repriseGivesUp_kept
    | with_reducible apply atTime_kept)

theorem execRepriseCompareDone_kept (t : Nat) (core : Core) (tag : Word) (results : List Byte) (redLen : Nat)
    (sums : List Dy) (s : State) : ∃ s', execRepriseCompareDone t core tag results redLen sums s = .next s' ∧
    Kept s s' := by
  refine ⟨_, rfl, ?_⟩
  repeat' (first
    | with_reducible exact Kept.refl _ | assumption | with_reducible apply compareDone_kept
    | with_reducible apply atTime_kept)

theorem holdAll_kept {σ : State} (now tt : Nat) (s : State) (h0 : Kept σ s) : Kept σ (holdAll now tt s) := by
  refine h0.trans ?_; clear h0; unfold holdAll
  (try dsimp only)
  repeat' (first
    | with_reducible exact Kept.refl _ | assumption | with_reducible apply updAdj_kept
    | with_reducible apply updLed_kept | with_reducible apply drainHeld_kept
    | ((with_reducible apply updTempo_kept); · first | (with_reducible exact fun h => h) | exact fun h => h)
    | with_reducible apply Kept.ite
    | with_reducible exact Kept.of_eq rfl rfl rfl rfl (fun h => h) (fun h => h) (fun h => h) rfl)

theorem endHold_kept {σ : State} (s : State) (h0 : Kept σ s) : Kept σ (endHold s) := by
  refine h0.trans ?_; clear h0; unfold endHold
  repeat' (first
    | with_reducible exact Kept.refl _ | assumption | with_reducible apply updTab_kept
    | with_reducible apply holdAll_kept)

theorem touchGap_kept {σ : State} (c cause : Nat) (u : Cu) (s : State) (h0 : Kept σ s) : Kept σ (touchGap c
    cause u s) := by
  refine h0.trans ?_; clear h0; unfold touchGap
  (try dsimp only)
  repeat' (first
    | with_reducible exact Kept.refl _ | assumption | with_reducible apply updCus_kept
    | with_reducible apply skipSample_kept | with_reducible apply giveVerdict_kept | with_reducible apply Kept.ite)

theorem touchAll_kept (c cause : Nat) : ∀ ls {σ s : State}, Kept σ s → Kept σ (touchAll c cause ls s) := by
  intro ls
  induction ls with
  | nil => intro σ s h; exact h
  | cons a l ih =>
    intro σ s h0
    refine h0.trans ?_; clear h0; unfold touchAll
    repeat' (first
      | with_reducible exact Kept.refl _ | with_reducible apply ih | assumption | with_reducible apply touchGap_kept)

theorem recordGap_kept {σ : State} (c port cause : Nat) (tag : Word) (type opid lost : Nat) (s : State) (h0 :
    Kept σ s) : Kept σ (recordGap c port cause tag type opid lost s) := by
  refine h0.trans ?_; clear h0; unfold recordGap
  repeat' (first | with_reducible exact Kept.refl _ | assumption | with_reducible apply occur_kept)

theorem gapOf_kept {σ : State} (c port cause type lost : Nat) (u : Cu) (s : State) (h0 : Kept σ s) : Kept σ
    (gapOf c port cause type lost u s) := by
  refine h0.trans ?_; clear h0; unfold gapOf
  repeat' (first
    | with_reducible exact Kept.refl _ | assumption | with_reducible apply touchGap_kept
    | with_reducible apply recordGap_kept)

theorem gapUntied_kept {σ : State} (c port cause q type opid lost : Nat) (s : State) (h0 : Kept σ s) : Kept σ
    (gapUntied c port cause q type opid lost s) := by
  refine h0.trans ?_; clear h0; unfold gapUntied
  (try dsimp only)
  repeat' (first
    | with_reducible exact Kept.refl _ | assumption | with_reducible apply recordGap_kept
    | with_reducible apply touchAll_kept | with_reducible apply updQueue_kept)

theorem overflowFault_kept {σ : State} (c : Nat) (tag : Word) (s : State) (h0 : Kept σ s) : Kept σ
    (overflowFault c tag s) := by
  refine h0.trans ?_; clear h0; unfold overflowFault
  repeat' (first
    | with_reducible exact Kept.refl _ | assumption | with_reducible apply stationFault_kept
    | with_reducible apply Kept.ite)

theorem recordFails_kept {σ : State} (c port cause q type opid : Nat) (s : State) (h0 : Kept σ s) : Kept σ
    (recordFails c port cause q type opid s) := by
  refine h0.trans ?_; clear h0; unfold recordFails
  repeat' (first
    | with_reducible exact Kept.refl _ | assumption | with_reducible apply gapOf_kept
    | with_reducible apply gapUntied_kept | with_reducible apply Kept.ite
    | with_reducible exact Kept.of_eq rfl rfl rfl rfl (fun h => h) (fun h => h) (fun h => h) rfl
    | (split <;> try dsimp only))

theorem recordError_kept {σ : State} (c port q type opid : Nat) (s : State) (h0 : Kept σ s) : Kept σ
    (recordError c port q type opid s) := by
  refine h0.trans ?_; clear h0; unfold recordError
  repeat' (first | with_reducible exact Kept.refl _ | assumption | with_reducible apply recordFails_kept)

theorem withRoom_kept {σ : State} (c port q type opid fill : Nat) (act : State → State) (s : State) (hact : ∀ 
    {σ s : State}, Kept σ s → Kept σ (act  s)) (h0 : Kept σ s) : Kept σ (withRoom c port q type opid fill act
    s) := by
  refine h0.trans ?_; clear h0; unfold withRoom
  (try dsimp only)
  repeat' (first
    | with_reducible exact Kept.refl _ | assumption | with_reducible apply overflowFault_kept
    | with_reducible apply recordFails_kept | with_reducible apply hact | with_reducible apply Kept.ite)

theorem traceOp_kept {σ : State} (c dir time : Nat) (u : Cu) (s : State) (h0 : Kept σ s) : Kept σ (traceOp c
    dir time u s) := by
  refine h0.trans ?_; clear h0; unfold traceOp
  (try dsimp only)
  repeat' (first
    | with_reducible exact Kept.refl _ | assumption | with_reducible apply traceRec_kept
    | with_reducible apply Kept.ite)

theorem claimFor_kept {σ : State} (c : Nat) (u : Cu) (sects : List Nat) (s : State) (h0 : Kept σ s) : Kept σ
    (claimFor c u sects s) := by
  refine h0.trans ?_; clear h0; unfold claimFor
  split
  · exact skipSample_kept _ _ _ _ (Kept.refl s)
  · split
    · exact updCus_kept _ _ _ _ (claimCapsule_kept _ _ _ _ ‹_›)
    · exact skipSample_kept _ _ _ _ (Kept.refl s)

theorem teeBegins_kept {σ : State} (c : Nat) (u : Cu) (s : State) (h0 : Kept σ s) : Kept σ (teeBegins c u s) := by
  refine h0.trans ?_; clear h0; unfold teeBegins
  repeat' (first
    | with_reducible exact Kept.refl _ | assumption | with_reducible apply claimFor_kept
    | with_reducible apply Kept.ite)

theorem growT1_kept {σ : State} (c : Nat) (k : Capsule) (off : Nat) (s : State) (h0 : Kept σ s) : Kept σ
    (growT1 c k off s) := by
  refine h0.trans ?_; clear h0; unfold growT1
  (try dsimp only)
  repeat' (first
    | with_reducible exact Kept.refl _ | assumption | with_reducible apply skipSample_kept
    | with_reducible apply updStation_kept | with_reducible apply updCapsule_kept | with_reducible apply Kept.ite)

theorem teeSector_kept {σ : State} (c : Nat) (tag : Word) (part off : Nat) (bytes : List Byte) (s : State) (h0
    : Kept σ s) : Kept σ (teeSector c tag part off bytes s) := by
  refine h0.trans ?_; clear h0; unfold teeSector
  (try dsimp only)
  repeat' (first
    | with_reducible exact Kept.refl _ | assumption | with_reducible apply growT1_kept
    | with_reducible apply memWrite_kept | with_reducible apply Kept.ite
    | with_reducible exact Kept.of_eq rfl rfl rfl rfl (fun h => h) (fun h => h) (fun h => h) rfl
    | (split <;> try dsimp only))

theorem teeSectors_kept (c : Nat) (tag : Word) : ∀ ls {σ s : State}, Kept σ s → Kept σ (teeSectors c tag ls s) := by
  intro ls
  induction ls with
  | nil => intro σ s h; exact h
  | cons a l ih =>
    intro σ s h0
    refine h0.trans ?_; clear h0; unfold teeSectors
    repeat' (first
      | with_reducible exact Kept.refl _ | with_reducible apply ih | assumption | with_reducible apply teeSector_kept)

theorem landOutput_kept {σ : State} (c : Nat) (u : Cu) (off : Nat) (poison : Bool) (bs : List Byte) (s :
    State) (h0 : Kept σ s) : Kept σ (landOutput c u off poison bs s) := by
  refine h0.trans ?_; clear h0; unfold landOutput
  (try dsimp only)
  repeat' (first
    | with_reducible exact Kept.refl _ | assumption | with_reducible apply memStore_kept
    | with_reducible apply updStation_kept | with_reducible apply spadPut_kept | with_reducible apply Kept.ite
    | with_reducible exact Kept.of_eq rfl rfl rfl rfl (fun h => h) (fun h => h) (fun h => h) rfl
    | (split <;> try dsimp only))

theorem landSectors_kept (c : Nat) (u : Cu) : ∀ ls {σ s : State}, Kept σ s → Kept σ (landSectors c u ls s) := by
  intro ls
  induction ls with
  | nil => intro σ s h; exact h
  | cons a l ih =>
    intro σ s h0
    refine h0.trans ?_; clear h0; unfold landSectors
    repeat' (first
      | with_reducible exact Kept.refl _ | with_reducible apply ih | assumption
      | with_reducible apply landOutput_kept)

theorem markC0_kept {σ : State} (c : Nat) (u : Cu) (b : Beat) (s : State) (h0 : Kept σ s) : Kept σ (markC0 c u
    b s) := by
  refine h0.trans ?_; clear h0; unfold markC0
  repeat' (first | with_reducible exact Kept.refl _ | assumption | with_reducible apply updStation_kept)

theorem putCu_kept {σ : State} (c : Nat) (old new : Cu) (s : State) (h0 : Kept σ s) : Kept σ (putCu c old new
    s) := by
  refine h0.trans ?_; clear h0; unfold putCu
  repeat' (first | with_reducible exact Kept.refl _ | assumption | with_reducible apply updCus_kept)

theorem runFeeds_kept (c : Nat) (u : Cu) : ∀ ls {σ s : State}, Kept σ s → Kept σ (runFeeds c u ls s) := by
  intro ls
  induction ls with
  | nil => intro σ s h; exact h
  | cons a l ih =>
    intro σ s h0
    refine h0.trans ?_; clear h0; unfold runFeeds
    repeat' (first
      | with_reducible exact Kept.refl _ | with_reducible apply ih | assumption | with_reducible apply runFigs_kept
      | with_reducible apply Kept.ite)

theorem teeBeat_kept {σ : State} (c : Nat) (u : Cu) (l : List (Nat × Nat × List Byte)) (s : State) (h0 : Kept
    σ s) : Kept σ (teeBeat c u l s) := by
  refine h0.trans ?_; clear h0; unfold teeBeat
  repeat' (first
    | with_reducible exact Kept.refl _ | assumption | with_reducible apply teeSectors_kept
    | with_reducible apply Kept.ite)

theorem mxOpBeat_kept {σ : State} (c : Nat) (b : Beat) (u v : Cu) (s : State) (h0 : Kept σ s) : Kept σ
    (mxOpBeat c b u v s) := by
  refine h0.trans ?_; clear h0; unfold mxOpBeat
  (try dsimp only)
  repeat' (first
    | with_reducible exact Kept.refl _ | assumption | with_reducible apply runFeeds_kept
    | with_reducible apply putCu_kept)

theorem mxResBeat_kept {σ : State} (c : Nat) (b : Beat) (u v : Cu) (s : State) (h0 : Kept σ s) : Kept σ
    (mxResBeat c b u v s) := by
  refine h0.trans ?_; clear h0; unfold mxResBeat
  (try dsimp only)
  repeat' (first
    | with_reducible exact Kept.refl _ | assumption | with_reducible apply runFeeds_kept
    | with_reducible apply putCu_kept | with_reducible apply markC0_kept | with_reducible apply landSectors_kept
    | with_reducible apply Kept.ite)

theorem vxOpBeat_kept {σ : State} (c : Nat) (b : Beat) (u v : Cu) (s : State) (h0 : Kept σ s) : Kept σ
    (vxOpBeat c b u v s) := by
  refine h0.trans ?_; clear h0; unfold vxOpBeat
  (try dsimp only)
  repeat' (first
    | with_reducible exact Kept.refl _ | assumption | with_reducible apply teeBeat_kept
    | with_reducible apply putCu_kept | with_reducible apply runFeeds_kept)

theorem vxResBeat_kept {σ : State} (c : Nat) (b : Beat) (u v : Cu) (s : State) (h0 : Kept σ s) : Kept σ
    (vxResBeat c b u v s) := by
  refine h0.trans ?_; clear h0; unfold vxResBeat
  (try dsimp only)
  repeat' (first
    | with_reducible exact Kept.refl _ | assumption | with_reducible apply teeBeat_kept
    | with_reducible apply putCu_kept | with_reducible apply runFeeds_kept | with_reducible apply landSectors_kept)

theorem mvBeat_kept {σ : State} (c : Nat) (b : Beat) (u v : Cu) (s : State) (h0 : Kept σ s) : Kept σ (mvBeat c
    b u v s) := by
  refine h0.trans ?_; clear h0; unfold mvBeat
  (try dsimp only)
  repeat' (first
    | with_reducible exact Kept.refl _ | assumption | with_reducible apply landSectors_kept
    | with_reducible apply putCu_kept | with_reducible apply runFeeds_kept)

theorem beatActs_kept {σ : State} (c port : Nat) (b : Beat) (u : Cu) (s : State) (h0 : Kept σ s) : Kept σ
    (beatActs c port b u s) := by
  refine h0.trans ?_; clear h0; unfold beatActs
  (try dsimp only)
  repeat' (first
    | with_reducible exact Kept.refl _ | assumption | with_reducible apply mxOpBeat_kept
    | with_reducible apply mxResBeat_kept | with_reducible apply vxOpBeat_kept | with_reducible apply vxResBeat_kept
    | with_reducible apply mvBeat_kept | with_reducible apply Kept.ite
    | with_reducible exact Kept.of_eq rfl rfl rfl rfl (fun h => h) (fun h => h) (fun h => h) rfl
    | (split <;> try dsimp only))

theorem notePeak_kept {σ : State} (c fill : Nat) (s : State) (h0 : Kept σ s) : Kept σ (notePeak c fill s) := by
  refine h0.trans ?_; clear h0; unfold notePeak
  repeat' (first | with_reducible exact Kept.refl _ | assumption | with_reducible apply updStation_kept)

theorem teeLoss_kept {σ : State} (c port : Nat) (u : Cu) (s : State) (h0 : Kept σ s) : Kept σ (teeLoss c port
    u s) := by
  refine h0.trans ?_; clear h0; unfold teeLoss
  repeat' (first
    | with_reducible exact Kept.refl _ | assumption | with_reducible apply skipSample_kept
    | with_reducible apply Kept.ite)

theorem beatTaken_kept {σ : State} (c port : Nat) (b : Beat) (lost : Bool) (u : Cu) (s : State) (h0 : Kept σ
    s) : Kept σ (beatTaken c port b lost u s) := by
  refine h0.trans ?_; clear h0; unfold beatTaken
  (try dsimp only)
  repeat' (first
    | with_reducible exact Kept.refl _ | assumption | with_reducible apply gapOf_kept
    | with_reducible apply updCus_kept | with_reducible apply teeBegins_kept | with_reducible apply beatActs_kept
    | with_reducible apply teeLoss_kept | with_reducible apply Kept.ite
    | with_reducible exact Kept.of_eq rfl rfl rfl rfl (fun h => h) (fun h => h) (fun h => h) rfl
    | (split <;> try dsimp only))

theorem beatArrives_kept {σ : State} (c port : Nat) (b : Beat) (fill : Nat) (lost : Bool) (s : State) (h0 :
    Kept σ s) : Kept σ (beatArrives c port b fill lost s) := by
  refine h0.trans ?_; clear h0; unfold beatArrives
  (try dsimp only)
  repeat' (first
    | with_reducible exact Kept.refl _ | assumption | with_reducible apply gapOf_kept
    | with_reducible apply gapUntied_kept | with_reducible apply overflowFault_kept
    | with_reducible apply notePeak_kept | with_reducible apply beatTaken_kept | with_reducible apply Kept.ite
    | with_reducible exact Kept.of_eq rfl rfl rfl rfl (fun h => h) (fun h => h) (fun h => h) rfl
    | (split <;> try dsimp only))

theorem tapBeat_kept {σ : State} (c port : Nat) (arrival : TapIn) (fill : Nat) (fault : Option LaneFault)
    (lost : Bool) (s : State) (h0 : Kept σ s) : Kept σ (tapBeat c port arrival fill fault lost s) := by
  refine h0.trans ?_; clear h0; unfold tapBeat
  (try dsimp only)
  repeat' (first
    | with_reducible exact Kept.refl _ | assumption | with_reducible apply beatArrives_kept
    | with_reducible apply checkResidue_kept | with_reducible apply withRoom_kept
    | with_reducible apply recordError_kept | with_reducible apply Kept.ite
    | with_reducible exact Kept.of_eq rfl rfl rfl rfl (fun h => h) (fun h => h) (fun h => h) rfl
    | (split <;> try dsimp only) | (intro _; try dsimp only))

theorem takeBank_kept {σ : State} (c : Nat) (u : Cu) (slot : Nat) (s : State) (h0 : Kept σ s) : Kept σ
    (takeBank c u slot s) := by
  refine h0.trans ?_; clear h0; unfold takeBank
  (try dsimp only)
  repeat' (first
    | with_reducible exact Kept.refl _ | assumption | with_reducible apply occur_kept
    | with_reducible apply updCus_kept | with_reducible apply updStation_kept | with_reducible apply Kept.ite
    | with_reducible exact Kept.of_eq rfl rfl rfl rfl (fun h => h) (fun h => h) (fun h => h) rfl
    | (split <;> try dsimp only))

theorem takeBanks_kept (c : Nat) (u : Cu) : ∀ ls {σ s : State}, Kept σ s → Kept σ (takeBanks c u ls s) := by
  intro ls
  induction ls with
  | nil => intro σ s h; exact h
  | cons a l ih =>
    intro σ s h0
    refine h0.trans ?_; clear h0; unfold takeBanks
    repeat' (first
      | with_reducible exact Kept.refl _ | with_reducible apply ih | assumption | with_reducible apply takeBank_kept)

theorem startFigs_kept {σ : State} (c : Nat) (u : Cu) (fault : Option LaneFault) (s : State) (h0 : Kept σ s) :
    Kept σ (startFigs c u fault s) := by
  refine h0.trans ?_; clear h0; unfold startFigs
  (try dsimp only)
  repeat' (first
    | with_reducible exact Kept.refl _ | assumption | with_reducible apply takeBanks_kept
    | with_reducible apply checkResidue_kept | with_reducible apply runFigs_kept | with_reducible apply Kept.ite
    | with_reducible exact Kept.of_eq rfl rfl rfl rfl (fun h => h) (fun h => h) (fun h => h) rfl
    | (split <;> try dsimp only))

theorem startGap_kept {σ : State} (c : Nat) (u : Cu) (bad : Bool) (s : State) (h0 : Kept σ s) : Kept σ
    (startGap c u bad s) := by
  refine h0.trans ?_; clear h0; unfold startGap
  repeat' (first
    | with_reducible exact Kept.refl _ | assumption | with_reducible apply gapOf_kept | with_reducible apply Kept.ite
    | with_reducible exact Kept.of_eq rfl rfl rfl rfl (fun h => h) (fun h => h) (fun h => h) rfl
    | (split <;> try dsimp only))

theorem waivedStart_kept {σ : State} (c : Nat) (u : Cu) (gapOpen : Bool) (s : State) (h0 : Kept σ s) : Kept σ
    (waivedStart c u gapOpen s) := by
  refine h0.trans ?_; clear h0; unfold waivedStart
  repeat' (first
    | with_reducible exact Kept.refl _ | assumption | with_reducible apply touchAll_kept
    | with_reducible apply Kept.ite)

theorem cuStarts_kept {σ : State} (c start : Nat) (together : BitVec 4) (o : OpStart) (fault : Option
    LaneFault) (s : State) (h0 : Kept σ s) : Kept σ (cuStarts c start together o fault s) := by
  refine h0.trans ?_; clear h0; unfold cuStarts
  (try dsimp only)
  repeat' (first
    | with_reducible exact Kept.refl _ | assumption | with_reducible apply fresh_kept
    | with_reducible apply updStation_kept | with_reducible apply updQueue_kept | with_reducible apply startFigs_kept
    | with_reducible apply traceOp_kept | with_reducible apply claimFor_kept | with_reducible apply waivedStart_kept
    | with_reducible apply startGap_kept | with_reducible apply Kept.ite
    | with_reducible exact Kept.of_eq rfl rfl rfl rfl (fun h => h) (fun h => h) (fun h => h) rfl
    | (split <;> try dsimp only))

theorem copyInputs_kept {σ : State} (d : Nat) (use : Use) (s : State) (h0 : Kept σ s) : Kept σ (copyInputs d
    use s) := by
  refine h0.trans ?_; clear h0; unfold copyInputs
  repeat' (first
    | with_reducible exact Kept.refl _ | assumption | with_reducible apply copySources_kept
    | with_reducible apply Kept.ite
    | with_reducible exact Kept.of_eq rfl rfl rfl rfl (fun h => h) (fun h => h) (fun h => h) rfl
    | (split <;> try dsimp only))

theorem replayStarts_kept {σ : State} (c : Nat) (use : Use) (s : State) (h0 : Kept σ s) : Kept σ (replayStarts
    c use s) := by
  refine h0.trans ?_; clear h0; unfold replayStarts
  (try dsimp only)
  repeat' (first
    | with_reducible exact Kept.refl _ | assumption | with_reducible apply updAdj_kept | with_reducible apply Kept.ite
    | with_reducible exact Kept.of_eq rfl rfl rfl rfl (fun h => h) (fun h => h) (fun h => h) rfl
    | (split <;> try dsimp only))

theorem insertedStarts_kept {σ : State} (c start : Nat) (o : OpStart) (fault : Option LaneFault) (s : State)
    (h0 : Kept σ s) : Kept σ (insertedStarts c start o fault s) := by
  refine h0.trans ?_; clear h0; unfold insertedStarts
  (try dsimp only)
  repeat' (first
    | with_reducible exact Kept.refl _ | assumption | with_reducible apply copyInputs_kept
    | with_reducible apply updStation_kept | with_reducible apply replayStarts_kept
    | with_reducible apply updQueue_kept | with_reducible apply startGap_kept | with_reducible apply startFigs_kept
    | with_reducible apply traceOp_kept)

theorem opStarts_kept {σ : State} (c : Nat) (stamp : Stamp) (o : OpStart) (fault : Option LaneFault) (s :
    State) (h0 : Kept σ s) : Kept σ (opStarts c stamp o fault s) := by
  refine h0.trans ?_; clear h0; unfold opStarts
  (try dsimp only)
  repeat' (first
    | with_reducible exact Kept.refl _ | assumption | with_reducible apply insertedStarts_kept
    | with_reducible apply cuStarts_kept | with_reducible apply Kept.ite)

theorem issueFails_kept {σ : State} (c q opid cause : Nat) (s : State) (h0 : Kept σ s) : Kept σ (issueFails c
    q opid cause s) := by
  refine h0.trans ?_; clear h0; unfold issueFails
  repeat' (first
    | with_reducible exact Kept.refl _ | assumption | with_reducible apply occur_kept
    | with_reducible apply updQueue_kept | with_reducible apply Kept.ite)

theorem descArrives_kept {σ : State} (c : Nat) (q : Queue) (opid : BitVec 16) (d : OpDesc) (s : State) (h0 :
    Kept σ s) : Kept σ (descArrives c q opid d s) := by
  refine h0.trans ?_; clear h0; unfold descArrives
  (try dsimp only)
  repeat' (first
    | with_reducible exact Kept.refl _ | assumption | with_reducible apply gapUntied_kept
    | with_reducible apply gapOf_kept | with_reducible apply updStation_kept | with_reducible apply updCus_kept
    | with_reducible apply kitInvalid_kept | with_reducible apply Kept.ite
    | with_reducible exact Kept.of_eq rfl rfl rfl rfl (fun h => h) (fun h => h) (fun h => h) rfl
    | (split <;> try dsimp only))

theorem writeIsDone_kept {σ : State} (c : Nat) (q : Queue) (opid : BitVec 16) (crc : Word) (valid : Bool)
    (bytes : Word) (fault : Option LaneFault) (s : State) (h0 : Kept σ s) : Kept σ (writeIsDone c q opid crc
    valid bytes fault s) := by
  refine h0.trans ?_; clear h0; unfold writeIsDone
  (try dsimp only)
  repeat' (first
    | with_reducible exact Kept.refl _ | assumption | with_reducible apply recordError_kept
    | with_reducible apply gapUntied_kept | with_reducible apply checkResidue_kept
    | with_reducible apply runFeeds_kept | with_reducible apply putCu_kept | with_reducible apply Kept.ite
    | with_reducible exact Kept.of_eq rfl rfl rfl rfl (fun h => h) (fun h => h) (fun h => h) rfl
    | (split <;> try dsimp only))

theorem feedArrives_kept {σ : State} (c : Nat) (q : Queue) (opid fed : BitVec 16) (role : Nat) (s : State) (h0
    : Kept σ s) : Kept σ (feedArrives c q opid fed role s) := by
  refine h0.trans ?_; clear h0; unfold feedArrives
  (try dsimp only)
  repeat' (first
    | with_reducible exact Kept.refl _ | assumption | with_reducible apply recordError_kept
    | with_reducible apply gapUntied_kept | with_reducible apply updStation_kept | with_reducible apply Kept.ite
    | with_reducible exact Kept.of_eq rfl rfl rfl rfl (fun h => h) (fun h => h) (fun h => h) rfl
    | (split <;> try dsimp only))

theorem undefineOutput_kept {σ : State} (c : Nat) (d : OpDesc) (s : State) (h0 : Kept σ s) : Kept σ
    (undefineOutput c d s) := by
  refine h0.trans ?_; clear h0; unfold undefineOutput
  (try dsimp only)
  repeat' (first
    | with_reducible exact Kept.refl _ | assumption | with_reducible apply fresh_kept
    | with_reducible apply updStation_kept | with_reducible apply Kept.ite)

theorem undefineRanges_kept (c n : Nat) : ∀ ls {σ s : State}, Kept σ s → Kept σ (undefineRanges c n ls s) := by
  intro ls
  induction ls with
  | nil => intro σ s h; exact h
  | cons a l ih =>
    intro σ s h0
    refine h0.trans ?_; clear h0; unfold undefineRanges
    repeat' (first
      | with_reducible exact Kept.refl _ | with_reducible apply ih | assumption
      | with_reducible apply updStation_kept)

theorem undefineOutputs_kept (c : Nat) : ∀ ls {σ s : State}, Kept σ s → Kept σ (undefineOutputs c ls s) := by
  intro ls
  induction ls with
  | nil => intro σ s h; exact h
  | cons a l ih =>
    intro σ s h0
    refine h0.trans ?_; clear h0; unfold undefineOutputs
    repeat' (first
      | with_reducible exact Kept.refl _ | with_reducible apply ih | assumption
      | with_reducible apply undefineOutput_kept)

theorem undefineWritten_kept {σ : State} (c : Nat) (u : Cu) (s : State) (h0 : Kept σ s) : Kept σ
    (undefineWritten c u s) := by
  refine h0.trans ?_; clear h0; unfold undefineWritten
  (try dsimp only)
  repeat' (first
    | with_reducible exact Kept.refl _ | assumption | with_reducible apply undefineOutputs_kept
    | with_reducible apply fresh_kept | with_reducible apply undefineRanges_kept | with_reducible apply Kept.ite
    | with_reducible exact Kept.of_eq rfl rfl rfl rfl (fun h => h) (fun h => h) (fun h => h) rfl
    | (split <;> try dsimp only))

theorem undefineSectors_kept  : ∀ ls {σ s : State}, Kept σ s → Kept σ (undefineSectors  ls s) := by
  intro ls
  induction ls with
  | nil => intro σ s h; exact h
  | cons a l ih =>
    intro σ s h0
    refine h0.trans ?_; clear h0; unfold undefineSectors
    (try dsimp only)
    repeat' (first
      | with_reducible exact Kept.refl _ | with_reducible apply ih | assumption | with_reducible apply fresh_kept
      | with_reducible apply spadPut_kept)

theorem abandonOp_kept {σ : State} (c : Nat) (u : Cu) (s : State) (h0 : Kept σ s) : Kept σ (abandonOp c u s) := by
  refine h0.trans ?_; clear h0; unfold abandonOp
  (try dsimp only)
  repeat' (first
    | with_reducible exact Kept.refl _ | assumption | with_reducible apply traceOp_kept
    | with_reducible apply skipSample_kept | with_reducible apply releaseBanks_kept
    | with_reducible apply updStation_kept | with_reducible apply observeStep_kept
    | with_reducible apply undefineSectors_kept | with_reducible apply undefineWritten_kept
    | with_reducible apply Kept.ite)

theorem abandonOps_kept (c : Nat) : ∀ ls {σ s : State}, Kept σ s → Kept σ (abandonOps c ls s) := by
  intro ls
  induction ls with
  | nil => intro σ s h; exact h
  | cons a l ih =>
    intro σ s h0
    refine h0.trans ?_; clear h0; unfold abandonOps
    repeat' (first
      | with_reducible exact Kept.refl _ | with_reducible apply ih | assumption | with_reducible apply abandonOp_kept)

theorem abandonsDue_kept {σ : State} (c : Nat) (us : List Cu) (s : State) (h0 : Kept σ s) : Kept σ
    (abandonsDue c us s) := by
  refine h0.trans ?_; clear h0; unfold abandonsDue
  repeat' (first | with_reducible exact Kept.refl _ | assumption | with_reducible apply updStation_kept)

theorem opAbandoned_kept {σ : State} (c : Nat) (q : Queue) (opid : BitVec 16) (s : State) (h0 : Kept σ s) :
    Kept σ (opAbandoned c q opid s) := by
  refine h0.trans ?_; clear h0; unfold opAbandoned
  (try dsimp only)
  repeat' (first
    | with_reducible exact Kept.refl _ | assumption | with_reducible apply insertedAllLost_kept
    | with_reducible apply abandonOp_kept | with_reducible apply updStation_kept | with_reducible apply gapUntied_kept
    | with_reducible apply Kept.ite
    | with_reducible exact Kept.of_eq rfl rfl rfl rfl (fun h => h) (fun h => h) (fun h => h) rfl
    | (split <;> try dsimp only))

theorem countOp_kept {σ : State} (c retire : Nat) (o : OpStart) (s : State) (h0 : Kept σ s) : Kept σ (countOp
    c retire o s) := by
  refine h0.trans ?_; clear h0; unfold countOp
  (try dsimp only)
  repeat' (first
    | with_reducible exact Kept.refl _ | assumption | with_reducible apply updStation_kept
    | with_reducible apply Kept.ite)

theorem countExecuted_kept {σ : State} (o : OpStart) (s : State) (h0 : Kept σ s) : Kept σ (countExecuted o s) := by
  refine h0.trans ?_; clear h0; unfold countExecuted
  repeat' (first | with_reducible exact Kept.refl _ | assumption | with_reducible apply updLed_kept)

theorem noteStepRetire_kept {σ : State} (u : Cu) (retire : Nat) (s : State) (h0 : Kept σ s) : Kept σ
    (noteStepRetire u retire s) := by
  refine h0.trans ?_; clear h0; unfold noteStepRetire
  repeat' (first | with_reducible exact Kept.refl _ | assumption | with_reducible apply updCtx_kept)

theorem capsuleRetires_kept {σ : State} (c : Nat) (u : Cu) (retire : Nat) (s : State) (h0 : Kept σ s) : Kept σ
    (capsuleRetires c u retire s) := by
  refine h0.trans ?_; clear h0; unfold capsuleRetires
  (try dsimp only)
  repeat' (first
    | with_reducible exact Kept.refl _ | assumption | with_reducible apply teeBegins_kept
    | with_reducible apply updCapsule_kept | with_reducible apply Kept.ite)

theorem enterPending_kept {σ : State} (c : Nat) (u : Cu) (s : State) (h0 : Kept σ s) : Kept σ (enterPending c
    u s) := by
  refine h0.trans ?_; clear h0; unfold enterPending
  (try dsimp only)
  repeat' (first
    | with_reducible exact Kept.refl _ | assumption | with_reducible apply updCus_kept
    | with_reducible apply giveVerdict_kept | with_reducible apply Kept.ite)

theorem insertedRetires_kept {σ : State} (c : Nat) (u : Cu) (retire : Nat) (s : State) (h0 : Kept σ s) : Kept
    σ (insertedRetires c u retire s) := by
  refine h0.trans ?_; clear h0; unfold insertedRetires
  (try dsimp only)
  repeat' (first
    | with_reducible exact Kept.refl _ | assumption | with_reducible apply updQueue_kept
    | with_reducible apply releaseBanks_kept | with_reducible apply traceOp_kept
    | with_reducible apply updStation_kept | with_reducible apply replayEnds_kept | with_reducible apply execEnds_kept
    | with_reducible apply Kept.ite
    | with_reducible exact Kept.of_eq rfl rfl rfl rfl (fun h => h) (fun h => h) (fun h => h) rfl
    | (split <;> try dsimp only))

theorem cuRetires_kept {σ : State} (c : Nat) (u : Cu) (retire : Nat) (s : State) (h0 : Kept σ s) : Kept σ
    (cuRetires c u retire s) := by
  refine h0.trans ?_; clear h0; unfold cuRetires
  (try dsimp only)
  repeat' (first
    | with_reducible exact Kept.refl _ | assumption | with_reducible apply countExecuted_kept
    | with_reducible apply countOp_kept | with_reducible apply noteStepRetire_kept
    | with_reducible apply capsuleRetires_kept | with_reducible apply updCus_kept | with_reducible apply updQueue_kept
    | with_reducible apply observeStep_kept | with_reducible apply traceOp_kept
    | with_reducible apply enterPending_kept | with_reducible apply Kept.ite
    | with_reducible exact Kept.of_eq rfl rfl rfl rfl (fun h => h) (fun h => h) (fun h => h) rfl
    | (split <;> try dsimp only))

theorem opRetires_kept {σ : State} (c : Nat) (q : Queue) (opid : BitVec 16) (retire sectors : Nat) (fault :
    Option LaneFault) (s : State) (h0 : Kept σ s) : Kept σ (opRetires c q opid retire sectors fault s) := by
  refine h0.trans ?_; clear h0; unfold opRetires
  (try dsimp only)
  repeat' (first
    | with_reducible exact Kept.refl _ | assumption | with_reducible apply gapUntied_kept
    | with_reducible apply gapOf_kept | with_reducible apply checkResidue_kept | with_reducible apply runFigs_kept
    | with_reducible apply insertedRetires_kept | with_reducible apply cuRetires_kept | with_reducible apply Kept.ite
    | with_reducible exact Kept.of_eq rfl rfl rfl rfl (fun h => h) (fun h => h) (fun h => h) rfl
    | (split <;> try dsimp only))

theorem abandonWriter_kept {σ : State} (srcChip : ChipId) (src : Nat) (opid : BitVec 16) (s : State) (h0 :
    Kept σ s) : Kept σ (abandonWriter srcChip src opid s) := by
  refine h0.trans ?_; clear h0; unfold abandonWriter
  repeat' (first
    | with_reducible exact Kept.refl _ | assumption | with_reducible apply abandonsDue_kept
    | with_reducible apply insertedAllLost_kept | with_reducible apply abandonOp_kept | with_reducible apply Kept.ite
    | with_reducible exact Kept.of_eq rfl rfl rfl rfl (fun h => h) (fun h => h) (fun h => h) rfl
    | (split <;> try dsimp only))

theorem noteWrote_kept {σ : State} (c : Nat) (w : InbWrite) (s : State) (h0 : Kept σ s) : Kept σ (noteWrote c
    w s) := by
  refine h0.trans ?_; clear h0; unfold noteWrote
  repeat' (first
    | with_reducible exact Kept.refl _ | assumption | with_reducible apply updCus_kept
    | with_reducible apply Kept.ite)

theorem inbSector_kept {σ : State} (c : Nat) (callerMover : Bool) (w : InbWrite) (s : State) (h0 : Kept σ s) :
    Kept σ (inbSector c callerMover w s) := by
  refine h0.trans ?_; clear h0; unfold inbSector
  (try dsimp only)
  repeat' (first
    | with_reducible exact Kept.refl _ | assumption | with_reducible apply abandonWriter_kept
    | ((with_reducible apply updOut_kept); · first | (with_reducible exact rfl) | exact rfl)
    | with_reducible apply noteWrote_kept | with_reducible apply updStation_kept
    | with_reducible apply landSector_kept | with_reducible apply updReh_kept | with_reducible apply Kept.ite
    | with_reducible exact Kept.of_eq rfl rfl rfl rfl (fun h => h) (fun h => h) (fun h => h) rfl
    | (split <;> try dsimp only))

theorem inbSectors_kept (c : Nat) (callerMover : Bool) : ∀ ls {σ s : State}, Kept σ s → Kept σ (inbSectors c
    callerMover ls s) := by
  intro ls
  induction ls with
  | nil => intro σ s h; exact h
  | cons a l ih =>
    intro σ s h0
    refine h0.trans ?_; clear h0; unfold inbSectors
    repeat' (first
      | with_reducible exact Kept.refl _ | with_reducible apply ih | assumption | with_reducible apply inbSector_kept)

theorem inbMirror_kept {σ : State} (c : Nat) (lanes : List Lane) (fill : Nat) (s : State) (h0 : Kept σ s) :
    Kept σ (inbMirror c lanes fill s) := by
  refine h0.trans ?_; clear h0; unfold inbMirror
  (try dsimp only)
  repeat' (first
    | with_reducible exact Kept.refl _ | assumption | with_reducible apply overflowFault_kept
    | with_reducible apply recordGap_kept | with_reducible apply notePeak_kept | with_reducible apply Kept.ite)

theorem inbArrives_kept {σ : State} (c : Nat) (addr : BitVec 21) (srcChip : ChipId) (srcCore : Core) (srcOpid
    : BitVec 16) (lanes : List Lane) (fill : Nat) (callerMover : Bool) (s : State) (h0 : Kept σ s) : Kept σ
    (inbArrives c addr srcChip srcCore srcOpid lanes fill callerMover s) := by
  refine h0.trans ?_; clear h0; unfold inbArrives
  (try dsimp only)
  repeat' (first
    | with_reducible exact Kept.refl _ | assumption | with_reducible apply inbSectors_kept
    | with_reducible apply inbMirror_kept)

theorem tapOffered_kept {σ : State} (c : Nat) (mask : Byte) (s : State) (h0 : Kept σ s) : Kept σ (tapOffered c
    mask s) := by
  refine h0.trans ?_; clear h0; unfold tapOffered
  (try dsimp only)
  repeat' (first
    | with_reducible exact Kept.refl _ | assumption | with_reducible apply updStation_kept
    | with_reducible apply occur_kept | with_reducible apply epochTaken_kept | with_reducible apply suspect_kept
    | with_reducible apply Kept.ite)

theorem tapIsReady_kept {σ : State} (c : Nat) (s : State) (h0 : Kept σ s) : Kept σ (tapIsReady c s) := by
  refine h0.trans ?_; clear h0; unfold tapIsReady
  repeat' (first
    | with_reducible exact Kept.refl _ | assumption | with_reducible apply updStation_kept
    | with_reducible apply Kept.ite)

theorem execTapOffer_kept (t : Nat) (core : Core) (mask : Byte) (s : State) : ∃ s', execTapOffer t core mask s
    = .next s' ∧ Kept s s' := by
  refine ⟨_, rfl, ?_⟩
  repeat' (first
    | with_reducible exact Kept.refl _ | assumption | with_reducible apply tapOffered_kept
    | with_reducible apply atTime_kept)

theorem execTapReady_kept (t : Nat) (core : Core) (s : State) : ∃ s', execTapReady t core s = .next s' ∧ Kept
    s s' := by
  refine ⟨_, rfl, ?_⟩
  repeat' (first
    | with_reducible exact Kept.refl _ | assumption | with_reducible apply tapIsReady_kept
    | with_reducible apply atTime_kept)

theorem execIssueFail_kept (t : Nat) (core : Core) (queue : Queue) (opid : BitVec 16) (cause : BitVec 4) (s :
    State) : ∃ s', execIssueFail t core queue opid cause s = .next s' ∧ Kept s s' := by
  refine ⟨_, rfl, ?_⟩
  repeat' (first
    | with_reducible exact Kept.refl _ | assumption | with_reducible apply issueFails_kept
    | with_reducible apply atTime_kept)

theorem execOpStart_kept (t : Nat) (tap : FaultIntake) (start : Stamp) (rec : OpStart) (s : State) : ∃ s',
    execOpStart t tap start rec s = .next s' ∧ Kept s s' := by
  refine ⟨_, rfl, ?_⟩
  repeat' (first
    | with_reducible exact Kept.refl _ | assumption | with_reducible apply withRoom_kept
    | with_reducible apply opStarts_kept | with_reducible apply atTime_kept | with_reducible apply Kept.ite
    | with_reducible exact Kept.of_eq rfl rfl rfl rfl (fun h => h) (fun h => h) (fun h => h) rfl
    | (intro _; try dsimp only))

theorem execOpdesc_kept (t : Nat) (tap : Intake) (queue : Queue) (opid : BitVec 16) (d : OpDesc) (s : State) :
    ∃ s', execOpdesc t tap queue opid d s = .next s' ∧ Kept s s' := by
  refine ⟨_, rfl, ?_⟩
  repeat' (first
    | with_reducible exact Kept.refl _ | assumption | with_reducible apply withRoom_kept
    | with_reducible apply descArrives_kept | with_reducible apply atTime_kept | with_reducible apply Kept.ite
    | with_reducible exact Kept.of_eq rfl rfl rfl rfl (fun h => h) (fun h => h) (fun h => h) rfl
    | (intro _; try dsimp only))

theorem execTapDataBeat_kept (t : Nat) (core : Core) (port : Fin 6) (arrival : TapIn) (fill : Nat) (fault :
    Option LaneFault) (teeLost : Bool) (s : State) : ∃ s', execTapDataBeat t core port arrival fill fault
    teeLost s = .next s' ∧ Kept s s' := by
  refine ⟨_, rfl, ?_⟩
  repeat' (first
    | with_reducible exact Kept.refl _ | assumption | with_reducible apply tapBeat_kept
    | with_reducible apply atTime_kept)

theorem execInbBeat_kept (t : Nat) (tap : Intake) (addr : BitVec 21) (srcChip : ChipId) (srcCore : Core)
    (srcOpid : BitVec 16) (lanes : List Lane) (callerMover : Bool) (s : State) : ∃ s', execInbBeat t tap addr
    srcChip srcCore srcOpid lanes callerMover s = .next s' ∧ Kept s s' := by
  refine ⟨_, rfl, ?_⟩
  repeat' (first
    | with_reducible exact Kept.refl _ | assumption | with_reducible apply inbArrives_kept
    | with_reducible apply atTime_kept)

theorem execOpRetire_kept (t : Nat) (tap : FaultIntake) (queue : Queue) (opid : BitVec 16) (retire : Nat)
    (sectors : Word) (poisoned : BitVec 16) (s : State) : ∃ s', execOpRetire t tap queue opid retire sectors
    poisoned s = .next s' ∧ Kept s s' := by
  refine ⟨_, rfl, ?_⟩
  repeat' (first
    | with_reducible exact Kept.refl _ | assumption | with_reducible apply withRoom_kept
    | with_reducible apply opRetires_kept | with_reducible apply atTime_kept | with_reducible apply Kept.ite
    | with_reducible exact Kept.of_eq rfl rfl rfl rfl (fun h => h) (fun h => h) (fun h => h) rfl
    | (intro _; try dsimp only))

theorem execOpAbandon_kept (t : Nat) (tap : Intake) (queue : Queue) (opid : BitVec 16) (cause : Byte) (s :
    State) : ∃ s', execOpAbandon t tap queue opid cause s = .next s' ∧ Kept s s' := by
  refine ⟨_, rfl, ?_⟩
  repeat' (first
    | with_reducible exact Kept.refl _ | assumption | with_reducible apply withRoom_kept
    | with_reducible apply opAbandoned_kept | with_reducible apply atTime_kept | with_reducible apply Kept.ite
    | with_reducible exact Kept.of_eq rfl rfl rfl rfl (fun h => h) (fun h => h) (fun h => h) rfl
    | (intro _; try dsimp only))

theorem execWriteDone_kept (t : Nat) (tap : FaultIntake) (queue : Queue) (opid : BitVec 16) (crc : Word)
    (valid : Bool) (bytes : Word) (s : State) : ∃ s', execWriteDone t tap queue opid crc valid bytes s = .next
    s' ∧ Kept s s' := by
  refine ⟨_, rfl, ?_⟩
  repeat' (first
    | with_reducible exact Kept.refl _ | assumption | with_reducible apply withRoom_kept
    | with_reducible apply writeIsDone_kept | with_reducible apply atTime_kept | with_reducible apply Kept.ite
    | with_reducible exact Kept.of_eq rfl rfl rfl rfl (fun h => h) (fun h => h) (fun h => h) rfl
    | (intro _; try dsimp only))

theorem execFeed_kept (t : Nat) (tap : Intake) (queue : Queue) (opid fed : BitVec 16) (role : Byte) (s :
    State) : ∃ s', execFeed t tap queue opid fed role s = .next s' ∧ Kept s s' := by
  refine ⟨_, rfl, ?_⟩
  repeat' (first
    | with_reducible exact Kept.refl _ | assumption | with_reducible apply withRoom_kept
    | with_reducible apply feedArrives_kept | with_reducible apply atTime_kept | with_reducible apply Kept.ite
    | with_reducible exact Kept.of_eq rfl rfl rfl rfl (fun h => h) (fun h => h) (fun h => h) rfl
    | (intro _; try dsimp only))

end Sys2Proof.Laws
end

