-- ==== Sys2Proof/Laws/KeptLadder.lean ====
section
/-! SUPPORT. `Kept` for every operation and meaning of the ladder, charters, the fabric, bring-up and egress: one lemma each, from those of the operations it calls. -/

namespace Sys2Proof.Laws

open Sys2Proof Sys2Proof.Machine Sys2Proof.Safety

theorem updLevel_kept {σ : State} (seq : Word) (f : Level → Level) (s : State) (h0 : Kept σ s) : Kept σ
    (updLevel seq f s) := by
  refine h0.trans ?_; clear h0; unfold updLevel
  repeat' (first | with_reducible exact Kept.refl _ | assumption | with_reducible apply updRst_kept)

theorem endLevel_kept {σ : State} (seq : Word) (phase : Nat) (s : State) (h0 : Kept σ s) : Kept σ (endLevel
    seq phase s) := by
  refine h0.trans ?_; clear h0; unfold endLevel
  (try dsimp only)
  repeat' (first
    | with_reducible exact Kept.refl _ | assumption | with_reducible apply updLevel_kept
    | with_reducible apply updRst_kept)

theorem sendNotice_kept {σ : State} (bytes : List Byte) (s : State) (h0 : Kept σ s) : Kept σ (sendNotice bytes
    s) := by
  refine h0.trans ?_; clear h0; unfold sendNotice
  repeat' (first
    | with_reducible exact Kept.refl _ | assumption | with_reducible apply oobAdd_kept
    | with_reducible apply sendMgmt_kept)

theorem sendWithdraw_kept {σ : State} (late : Bool) (l : Level) (s : State) (h0 : Kept σ s) : Kept σ
    (sendWithdraw late l s) := by
  refine h0.trans ?_; clear h0; unfold sendWithdraw
  repeat' (first
    | with_reducible exact Kept.refl _ | assumption | with_reducible apply updRst_kept
    | with_reducible apply sendNotice_kept)

theorem containFor_kept (seq : Word) (tc : Nat) : ∀ ls {σ s : State}, Kept σ s → Kept σ (containFor seq tc ls
    s) := by
  intro ls
  induction ls with
  | nil => intro σ s h; exact h
  | cons a l ih =>
    intro σ s h0
    refine h0.trans ?_; clear h0; unfold containFor
    repeat' (first
      | with_reducible exact Kept.refl _ | with_reducible apply ih | assumption
      | with_reducible apply openAtUnsealed_kept | with_reducible apply contain_kept)

theorem countStart_kept {σ : State} (l : Level) (s : State) (h0 : Kept σ s) : Kept σ (countStart l s) := by
  refine h0.trans ?_; clear h0; unfold countStart
  (try dsimp only)
  repeat' (first
    | with_reducible exact Kept.refl _ | assumption | with_reducible apply updRst_kept
    | with_reducible apply updLevel_kept | with_reducible apply Kept.ite)

theorem absorb_kept {σ : State} (cause : Nat) (s : State) (h0 : Kept σ s) : Kept σ (absorb cause s) := by
  refine h0.trans ?_; clear h0; unfold absorb
  repeat' (first | with_reducible exact Kept.refl _ | assumption | with_reducible apply updRst_kept)

theorem startLevel_kept {σ : State} (x : Scope) (counted : Bool) (s : State) (h0 : Kept σ s) : Kept σ
    (startLevel x counted s) := by
  refine h0.trans ?_; clear h0; unfold startLevel
  (try dsimp only)
  repeat' (first
    | with_reducible exact Kept.refl _ | assumption | with_reducible apply updRst_kept
    | with_reducible apply countStart_kept | with_reducible apply msix_kept | with_reducible apply occurEv_kept
    | with_reducible apply capture_kept | with_reducible apply sendWithdraw_kept
    | with_reducible apply containFor_kept | with_reducible apply Kept.ite)

theorem startReset_kept {σ : State} (x : Scope) (s : State) (h0 : Kept σ s) : Kept σ (startReset x s) := by
  refine h0.trans ?_; clear h0; unfold startReset
  repeat' (first
    | with_reducible exact Kept.refl _ | assumption | with_reducible apply updRst_kept
    | with_reducible apply absorb_kept | with_reducible apply startLevel_kept | with_reducible apply Kept.ite)

theorem startFault_kept {σ : State} (x : Scope) (s : State) (h0 : Kept σ s) : Kept σ (startFault x s) := by
  refine h0.trans ?_; clear h0; unfold startFault
  repeat' (first | with_reducible exact Kept.refl _ | assumption | with_reducible apply startReset_kept)

theorem startWaiting_kept  : ∀ ls {σ s : State}, Kept σ s → Kept σ (startWaiting  ls s) := by
  intro ls
  induction ls with
  | nil => intro σ s h; exact h
  | cons a l ih =>
    intro σ s h0
    refine h0.trans ?_; clear h0; unfold startWaiting
    repeat' (first
      | with_reducible exact Kept.refl _ | with_reducible apply ih | assumption
      | with_reducible apply startReset_kept)

theorem markMissed_kept {σ : State} (c q : Nat) (opid : BitVec 16) (s : State) (h0 : Kept σ s) : Kept σ
    (markMissed c q opid s) := by
  refine h0.trans ?_; clear h0; unfold markMissed
  repeat' (first
    | with_reducible exact Kept.refl _ | assumption | with_reducible apply updQueue_kept
    | with_reducible apply updCus_kept)

theorem deadlineMissed_kept {σ : State} (c q : Nat) (s : State) (h0 : Kept σ s) : Kept σ (deadlineMissed c q
    s) := by
  refine h0.trans ?_; clear h0; unfold deadlineMissed
  (try dsimp only)
  repeat' (first
    | with_reducible exact Kept.refl _ | assumption | with_reducible apply markMissed_kept
    | with_reducible apply occurEv_kept | with_reducible apply startReset_kept | with_reducible apply capture_kept
    | with_reducible apply Kept.ite
    | with_reducible exact Kept.of_eq rfl rfl rfl rfl (fun h => h) (fun h => h) (fun h => h) rfl
    | (split <;> try dsimp only))

theorem cancelSlot_kept {σ : State} (c w : Nat) (s : State) (h0 : Kept σ s) : Kept σ (cancelSlot c w s) := by
  refine h0.trans ?_; clear h0; unfold cancelSlot
  (try dsimp only)
  repeat' (first
    | with_reducible exact Kept.refl _ | assumption | with_reducible apply freeWatch_kept
    | with_reducible apply updQueue_kept | with_reducible apply updBarrier_kept | with_reducible apply sendCancel_kept
    | with_reducible apply Kept.ite
    | with_reducible exact Kept.of_eq rfl rfl rfl rfl (fun h => h) (fun h => h) (fun h => h) rfl
    | (split <;> try dsimp only))

theorem cancelSlots_kept (c : Nat) : ∀ ls {σ s : State}, Kept σ s → Kept σ (cancelSlots c ls s) := by
  intro ls
  induction ls with
  | nil => intro σ s h; exact h
  | cons a l ih =>
    intro σ s h0
    refine h0.trans ?_; clear h0; unfold cancelSlots
    repeat' (first
      | with_reducible exact Kept.refl _ | with_reducible apply ih | assumption
      | with_reducible apply cancelSlot_kept)

theorem dropSubs_kept {σ : State} (level o : Nat) (s : State) (h0 : Kept σ s) : Kept σ (dropSubs level o s) := by
  refine h0.trans ?_; clear h0; unfold dropSubs
  (try dsimp only)
  repeat' (first
    | with_reducible exact Kept.refl _ | assumption | with_reducible apply sendReleases_kept
    | with_reducible apply updObject_kept)

theorem dropAllSubs_kept (level : Nat) : ∀ ls {σ s : State}, Kept σ s → Kept σ (dropAllSubs level ls s) := by
  intro ls
  induction ls with
  | nil => intro σ s h; exact h
  | cons a l ih =>
    intro σ s h0
    refine h0.trans ?_; clear h0; unfold dropAllSubs
    repeat' (first
      | with_reducible exact Kept.refl _ | with_reducible apply ih | assumption | with_reducible apply dropSubs_kept)

theorem drainSources_kept  : ∀ ls {σ s : State}, Kept σ s → Kept σ (drainSources  ls s) := by
  intro ls
  induction ls with
  | nil => intro σ s h; exact h
  | cons a l ih =>
    intro σ s h0
    refine h0.trans ?_; clear h0; unfold drainSources
    repeat' (first
      | with_reducible exact Kept.refl _ | with_reducible apply ih | assumption
      | with_reducible apply drainArrival_kept)

theorem dropHeld_kept {σ : State} (os : List Nat) (s : State) (h0 : Kept σ s) : Kept σ (dropHeld os s) := by
  refine h0.trans ?_; clear h0; unfold dropHeld
  (try dsimp only)
  repeat' (first
    | with_reducible exact Kept.refl _ | assumption | with_reducible apply drainSources_kept
    | with_reducible apply updArrival_kept | with_reducible apply Kept.ite
    | (with_reducible apply Kept.foldl; (intro _ _; try dsimp only)))

theorem dropBank_kept {σ : State} (l : Level) (c : Nat) (mid : State → State) (s : State) (hmid : ∀  {σ s :
    State}, Kept σ s → Kept σ (mid  s)) (h0 : Kept σ s) : Kept σ (dropBank l c mid s) := by
  refine h0.trans ?_; clear h0; unfold dropBank
  (try dsimp only)
  repeat' (first
    | with_reducible exact Kept.refl _ | assumption | with_reducible apply dropHeld_kept
    | with_reducible apply dropAllSubs_kept | with_reducible apply occur_kept | with_reducible apply hmid
    | with_reducible apply Kept.ite)

theorem quiesceCore_kept {σ : State} (l : Level) (c : Nat) (s : State) (h0 : Kept σ s) : Kept σ (quiesceCore l
    c s) := by
  refine h0.trans ?_; clear h0; unfold quiesceCore
  repeat' (first
    | with_reducible exact Kept.refl _ | assumption | with_reducible apply dropBank_kept
    | with_reducible apply cancelSlots_kept | with_reducible apply Kept.ite
    | with_reducible exact Kept.of_eq rfl rfl rfl rfl (fun h => h) (fun h => h) (fun h => h) rfl
    | (intro _; try dsimp only))

theorem quiesceCores_kept (l : Level) : ∀ ls {σ s : State}, Kept σ s → Kept σ (quiesceCores l ls s) := by
  intro ls
  induction ls with
  | nil => intro σ s h; exact h
  | cons a l ih =>
    intro σ s h0
    refine h0.trans ?_; clear h0; unfold quiesceCores
    repeat' (first
      | with_reducible exact Kept.refl _ | with_reducible apply ih | assumption
      | with_reducible apply quiesceCore_kept)

theorem recordContained_kept (seq : Word) : ∀ ls {σ s : State}, Kept σ s → Kept σ (recordContained seq ls s) := by
  intro ls
  induction ls with
  | nil => intro σ s h; exact h
  | cons a l ih =>
    intro σ s h0
    refine h0.trans ?_; clear h0; unfold recordContained
    (try dsimp only)
    repeat' (first
      | with_reducible exact Kept.refl _ | with_reducible apply ih | assumption
      | with_reducible apply updContainment_kept | with_reducible apply occur_kept)

theorem containAcked_kept {σ : State} (seq : Word) (s : State) (h0 : Kept σ s) : Kept σ (containAcked seq s) := by
  refine h0.trans ?_; clear h0; unfold containAcked
  (try dsimp only)
  repeat' (first
    | with_reducible exact Kept.refl _ | assumption | with_reducible apply recordContained_kept
    | with_reducible apply updRst_kept | with_reducible apply quiesceCores_kept
    | with_reducible apply breakBarriers_kept | with_reducible apply endAll_kept | with_reducible apply updLevel_kept
    | with_reducible apply Kept.ite
    | with_reducible exact Kept.of_eq rfl rfl rfl rfl (fun h => h) (fun h => h) (fun h => h) rfl
    | (split <;> try dsimp only))

theorem resetObjects_kept  : ∀ ls {σ s : State}, Kept σ s → Kept σ (resetObjects  ls s) := by
  intro ls
  induction ls with
  | nil => intro σ s h; exact h
  | cons a l ih =>
    intro σ s h0
    refine h0.trans ?_; clear h0; unfold resetObjects
    repeat' (first
      | with_reducible exact Kept.refl _ | with_reducible apply ih | assumption | with_reducible apply updObject_kept)

theorem haltQueues_kept (c : Nat) : ∀ ls {σ s : State}, Kept σ s → Kept σ (haltQueues c ls s) := by
  intro ls
  induction ls with
  | nil => intro σ s h; exact h
  | cons a l ih =>
    intro σ s h0
    refine h0.trans ?_; clear h0; unfold haltQueues
    repeat' (first
      | with_reducible exact Kept.refl _ | with_reducible apply ih | assumption | with_reducible apply updStation_kept
      | with_reducible apply updQueue_kept)

theorem loseStop_kept {σ : State} (c : Nat) (s : State) (h0 : Kept σ s) : Kept σ (loseStop c s) := by
  refine h0.trans ?_; clear h0; unfold loseStop
  (try dsimp only)
  repeat' (first
    | with_reducible exact Kept.refl _ | assumption | with_reducible apply updStation_kept
    | with_reducible apply dropPins_kept | with_reducible apply mapAdjs_kept | with_reducible apply losePin_kept
    | with_reducible apply Kept.ite | (with_reducible apply Kept.foldl; (intro _ _; try dsimp only)))

theorem loseInserted_kept {σ : State} (l : Level) (us : List Cu) (s : State) (h0 : Kept σ s) : Kept σ
    (loseInserted l us s) := by
  refine h0.trans ?_; clear h0; unfold loseInserted
  repeat' (first
    | with_reducible exact Kept.refl _ | assumption | with_reducible apply insertedAllLost_kept
    | with_reducible apply Kept.ite)

theorem clearCauses_kept {σ : State} (c : Nat) (s : State) (h0 : Kept σ s) : Kept σ (clearCauses c s) := by
  refine h0.trans ?_; clear h0; unfold clearCauses
  repeat' (first
    | with_reducible exact Kept.refl _ | assumption | with_reducible apply Kept.ite
    | with_reducible exact Kept.of_eq rfl rfl rfl rfl (fun h => h) (fun h => h) (fun h => h) rfl)

theorem assertCore_kept {σ : State} (l : Level) (c : Nat) (s : State) (h0 : Kept σ s) : Kept σ (assertCore l c
    s) := by
  refine h0.trans ?_; clear h0; unfold assertCore
  (try dsimp only)
  repeat' (first
    | with_reducible exact Kept.refl _ | assumption | with_reducible apply abandonsDue_kept
    | with_reducible apply loseInserted_kept | with_reducible apply abandonOps_kept
    | with_reducible apply haltQueues_kept | with_reducible apply loseStop_kept | with_reducible apply dropBank_kept
    | with_reducible apply resetObjects_kept | with_reducible apply updStation_kept | with_reducible apply updRst_kept
    | with_reducible apply clearCauses_kept | with_reducible apply Kept.ite
    | with_reducible exact Kept.of_eq rfl rfl rfl rfl (fun h => h) (fun h => h) (fun h => h) rfl
    | (intro _; try dsimp only))

theorem assertCores_kept (l : Level) : ∀ ls {σ s : State}, Kept σ s → Kept σ (assertCores l ls s) := by
  intro ls
  induction ls with
  | nil => intro σ s h; exact h
  | cons a l ih =>
    intro σ s h0
    refine h0.trans ?_; clear h0; unfold assertCores
    repeat' (first
      | with_reducible exact Kept.refl _ | with_reducible apply ih | assumption
      | with_reducible apply assertCore_kept)

theorem loseReplays_kept  : ∀ ls {σ s : State}, Kept σ s → Kept σ (loseReplays  ls s) := by
  intro ls
  induction ls with
  | nil => intro σ s h; exact h
  | cons a l ih =>
    intro σ s h0
    refine h0.trans ?_; clear h0; unfold loseReplays
    repeat' (first
      | with_reducible exact Kept.refl _ | with_reducible apply ih | assumption
      | with_reducible apply replayLost_kept)

theorem onSlot_kept {σ : State} (i : Nat) (p : Adj → Bool) (f : Adj → State → State) (s : State) (hf : ∀ x0 {σ
    s : State}, Kept σ s → Kept σ (f x0 s)) (h0 : Kept σ s) : Kept σ (onSlot i p f s) := by
  refine h0.trans ?_; clear h0; unfold onSlot
  repeat' (first
    | with_reducible exact Kept.refl _ | assumption | with_reducible apply hf | with_reducible apply Kept.ite
    | with_reducible exact Kept.of_eq rfl rfl rfl rfl (fun h => h) (fun h => h) (fun h => h) rfl
    | (split <;> try dsimp only))

theorem loseExecutions_kept {σ : State} (l : Level) (i : Nat) (s : State) (h0 : Kept σ s) : Kept σ
    (loseExecutions l i s) := by
  refine h0.trans ?_; clear h0; unfold loseExecutions
  (try dsimp only)
  repeat' (first
    | with_reducible exact Kept.refl _ | assumption | with_reducible apply onSlot_kept
    | with_reducible apply understudyLost_kept | with_reducible apply takeOutcome_kept
    | with_reducible apply evaluate_kept | with_reducible apply Kept.ite
    | with_reducible exact Kept.of_eq rfl rfl rfl rfl (fun h => h) (fun h => h) (fun h => h) rfl
    | (intro _; try dsimp only))

theorem loseUnderstudies_kept (l : Level) : ∀ ls {σ s : State}, Kept σ s → Kept σ (loseUnderstudies l ls s) := by
  intro ls
  induction ls with
  | nil => intro σ s h; exact h
  | cons a l ih =>
    intro σ s h0
    refine h0.trans ?_; clear h0; unfold loseUnderstudies
    repeat' (first
      | with_reducible exact Kept.refl _ | with_reducible apply ih | assumption
      | with_reducible apply loseExecutions_kept)

theorem closeUnresolved_kept (deferred : Bool) : ∀ ls {σ s : State}, Kept σ s → Kept σ (closeUnresolved
    deferred ls s) := by
  intro ls
  induction ls with
  | nil => intro σ s h; exact h
  | cons a l ih =>
    intro σ s h0
    refine h0.trans ?_; clear h0; unfold closeUnresolved
    repeat' (first
      | with_reducible exact Kept.refl _ | with_reducible apply ih | assumption | with_reducible apply updAdj_kept
      | with_reducible apply closeUnslotted_kept | with_reducible apply Kept.ite)

theorem closeAllAdjs_kept {σ : State} (deferred : Bool) (s : State) (h0 : Kept σ s) : Kept σ (closeAllAdjs
    deferred s) := by
  refine h0.trans ?_; clear h0; unfold closeAllAdjs
  (try dsimp only)
  repeat' (first
    | with_reducible exact Kept.refl _ | assumption | with_reducible apply closeUnresolved_kept
    | with_reducible apply updAdj_kept)

theorem closeGates_kept  : ∀ ls {σ s : State}, Kept σ s → Kept σ (closeGates  ls s) := by
  intro ls
  induction ls with
  | nil => intro σ s h; exact h
  | cons a l ih =>
    intro σ s h0
    refine h0.trans ?_; clear h0; unfold closeGates
    repeat' (first
      | with_reducible exact Kept.refl _ | with_reducible apply ih | assumption
      | ((with_reducible apply updGate_kept); · first | (with_reducible exact Nat.le_refl _) | (with_reducible exact fun _ => Nat.le_refl _) | exact Nat.le_refl _ | exact fun _ => Nat.le_refl _ | exact Nat.le_max_left _ _))

theorem callerDown_kept {σ : State} (s : State) (h0 : Kept σ s) : Kept σ (callerDown s) := by
  refine h0.trans ?_; clear h0; unfold callerDown
  (try dsimp only)
  repeat' (first
    | with_reducible exact Kept.refl _ | assumption | with_reducible apply closeGates_kept
    | ((with_reducible apply updHz_kept); · first | (with_reducible exact Nat.le_refl _) | (with_reducible exact fun _ => Nat.le_refl _) | exact Nat.le_refl _ | exact fun _ => Nat.le_refl _ | exact Nat.le_max_left _ _)
    | with_reducible apply updTab_kept | with_reducible apply updCrash_kept
    | ((with_reducible apply updBoot_kept); · first | (with_reducible rfl) | (dsimp only; done) | ((repeat' split) <;> with_reducible rfl))
    | with_reducible apply dropShutRecord_kept
    | ((with_reducible apply updI3c_kept); · first | (with_reducible exact fun h => h))
    | with_reducible apply updRst_kept)

theorem portsDown_kept {σ : State} (s : State) (h0 : Kept σ s) : Kept σ (portsDown s) := by
  refine h0.trans ?_; clear h0; unfold portsDown
  (try dsimp only)
  repeat' (first | with_reducible exact Kept.refl _ | assumption | with_reducible apply updSync_kept)

theorem assertReset_kept {σ : State} (seq : Word) (s : State) (h0 : Kept σ s) : Kept σ (assertReset seq s) := by
  refine h0.trans ?_; clear h0; unfold assertReset
  (try dsimp only)
  repeat' (first
    | with_reducible exact Kept.refl _ | assumption | with_reducible apply updRst_kept
    | ((with_reducible apply updHz_kept); · first | (with_reducible exact Nat.le_refl _) | (with_reducible exact fun _ => Nat.le_refl _) | exact Nat.le_refl _ | exact fun _ => Nat.le_refl _ | exact Nat.le_max_left _ _)
    | with_reducible apply assertCores_kept | with_reducible apply loseReplays_kept
    | with_reducible apply loseUnderstudies_kept | with_reducible apply closeAllAdjs_kept
    | with_reducible apply portsDown_kept | with_reducible apply callerDown_kept | with_reducible apply updLevel_kept
    | with_reducible apply Kept.ite
    | with_reducible exact Kept.of_eq rfl rfl rfl rfl (fun h => h) (fun h => h) (fun h => h) rfl
    | (split <;> try dsimp only))

theorem restoreSeals_kept (os : List Nat) : ∀ ls {σ s : State}, Kept σ s → Kept σ (restoreSeals os ls s) := by
  intro ls
  induction ls with
  | nil => intro σ s h; exact h
  | cons a l ih =>
    intro σ s h0
    refine h0.trans ?_; clear h0; unfold restoreSeals
    (try dsimp only)
    repeat' (first
      | with_reducible exact Kept.refl _ | with_reducible apply ih | assumption
      | with_reducible apply sealChanged_kept | with_reducible apply change_kept | with_reducible apply Kept.ite
      | with_reducible exact Kept.of_eq rfl rfl rfl rfl (fun h => h) (fun h => h) (fun h => h) rfl
      | (split <;> try dsimp only))

theorem reloadStation_kept {σ : State} (c : Nat) (s : State) (h0 : Kept σ s) : Kept σ (reloadStation c s) := by
  refine h0.trans ?_; clear h0; unfold reloadStation
  (try dsimp only)
  repeat' (first
    | with_reducible exact Kept.refl _ | assumption | with_reducible apply updStation_kept
    | with_reducible apply takeEpoch_kept | with_reducible apply preload_kept | with_reducible apply Kept.ite
    | (with_reducible apply Kept.foldl; (intro _ _; try dsimp only)))

theorem restoreCore_kept {σ : State} (l : Level) (c : Nat) (s : State) (h0 : Kept σ s) : Kept σ (restoreCore l
    c s) := by
  refine h0.trans ?_; clear h0; unfold restoreCore
  (try dsimp only)
  repeat' (first
    | with_reducible exact Kept.refl _ | assumption | with_reducible apply restoreSeals_kept
    | with_reducible apply reloadStation_kept | with_reducible apply Kept.ite)

theorem restoreCores_kept (l : Level) : ∀ ls {σ s : State}, Kept σ s → Kept σ (restoreCores l ls s) := by
  intro ls
  induction ls with
  | nil => intro σ s h; exact h
  | cons a l ih =>
    intro σ s h0
    refine h0.trans ?_; clear h0; unfold restoreCores
    repeat' (first
      | with_reducible exact Kept.refl _ | with_reducible apply ih | assumption
      | with_reducible apply restoreCore_kept)

theorem discardItems_kept  : ∀ ls {σ s : State}, Kept σ s → Kept σ (discardItems  ls s) := by
  intro ls
  induction ls with
  | nil => intro σ s h; exact h
  | cons a l ih =>
    intro σ s h0
    refine h0.trans ?_; clear h0; unfold discardItems
    (try dsimp only)
    repeat' (first
      | with_reducible exact Kept.refl _ | with_reducible apply ih | assumption
      | ((with_reducible apply updHz_kept); · first | (with_reducible exact Nat.le_refl _) | (with_reducible exact fun _ => Nat.le_refl _) | exact Nat.le_refl _ | exact fun _ => Nat.le_refl _ | exact Nat.le_max_left _ _)
      | ((with_reducible apply updGate_kept); · first | (with_reducible exact Nat.le_refl _) | (with_reducible exact fun _ => Nat.le_refl _) | exact Nat.le_refl _ | exact fun _ => Nat.le_refl _ | exact Nat.le_max_left _ _))

theorem recordRollback_kept {σ : State} (deferred : Bool) (x : Txn) (reason : Nat) (s : State) (h0 : Kept σ s)
    : Kept σ (recordRollback deferred x reason s) := by
  refine h0.trans ?_; clear h0; unfold recordRollback
  (try dsimp only)
  repeat' (first
    | with_reducible exact Kept.refl _ | assumption | with_reducible apply occurDeferred_kept
    | with_reducible apply occur_kept | with_reducible apply Kept.ite)

theorem abandonCapsules_kept  : ∀ ls {σ s : State}, Kept σ s → Kept σ (abandonCapsules  ls s) := by
  intro ls
  induction ls with
  | nil => intro σ s h; exact h
  | cons a l ih =>
    intro σ s h0
    refine h0.trans ?_; clear h0; unfold abandonCapsules
    repeat' (first
      | with_reducible exact Kept.refl _ | with_reducible apply ih | assumption
      | with_reducible apply abandonReprise_kept)

theorem wipeCaller_kept {σ : State} (s : State) (h0 : Kept σ s) : Kept σ (wipeCaller s) := by
  refine h0.trans ?_; clear h0; unfold wipeCaller
  have h := linesDown_kept s (Kept.refl s)
  generalize linesDown s = x at h ⊢
  exact h.trans (Kept.of_eq rfl rfl rfl rfl id id id rfl)

theorem recordOpenSteps_kept  : ∀ ls {σ s : State}, Kept σ s → Kept σ (recordOpenSteps  ls s) := by
  intro ls
  induction ls with
  | nil => intro σ s h; exact h
  | cons a l ih =>
    intro σ s h0
    refine h0.trans ?_; clear h0; unfold recordOpenSteps
    repeat' (first
      | with_reducible exact Kept.refl _ | with_reducible apply ih | assumption
      | with_reducible apply recordBackoff_kept | with_reducible apply recordReplaced_kept
      | with_reducible apply Kept.ite
      | with_reducible exact Kept.of_eq rfl rfl rfl rfl (fun h => h) (fun h => h) (fun h => h) rfl
      | (split <;> try dsimp only))

theorem wipePolicy_kept {σ : State} (s : State) (h0 : Kept σ s) : Kept σ (wipePolicy s) := by
  refine h0.trans ((recordOpenSteps_kept (List.range 16) (Kept.refl s)).trans ?_)
  unfold wipePolicy
  dsimp only
  generalize recordOpenSteps (List.range 16) s = t
  refine updCfg_kept _ _ (updTempo_kept _ _ (fun h d => ?_) (Kept.refl t))
  have : ∀ (f : Domain → Domain) (l : Tab Domain), tfind d (l.map fun e : Nat × Domain => (e.1, f e.2)) = (tfind d l).map f := by
    intro f l
    induction l with
    | nil => rfl
    | cons e l ih => simp only [List.map_cons, tfind]; split <;> simp_all
  have hd := h d
  simp only [tget] at hd ⊢
  rw [this fun x => { x with cmd := none, frame := none, negotiated := false, fault := false }]
  cases hx : tfind d t.tempo.doms <;> simp_all

theorem closeAtRestart_kept {σ : State} (s : State) (h0 : Kept σ s) : Kept σ (closeAtRestart s) := by
  refine h0.trans ?_; clear h0; unfold closeAtRestart
  (try dsimp only)
  repeat' (first
    | with_reducible exact Kept.refl _ | assumption | with_reducible apply closeAllAdjs_kept
    | with_reducible apply finishClose_kept
    | ((with_reducible apply updHz_kept); · first | (with_reducible exact Nat.le_refl _) | (with_reducible exact fun _ => Nat.le_refl _) | exact Nat.le_refl _ | exact fun _ => Nat.le_refl _ | exact Nat.le_max_left _ _)
    | with_reducible apply updAdj_kept | with_reducible apply Kept.ite
    | (with_reducible apply Kept.foldl; (intro _ _; try dsimp only)))

theorem callerRestart_kept {σ : State} (l : Level) (s : State) (h0 : Kept σ s) : Kept σ (callerRestart l s) := by
  refine h0.trans ?_; clear h0; unfold callerRestart
  (try dsimp only)
  repeat' (first
    | with_reducible exact Kept.refl _ | assumption | with_reducible apply updRst_kept
    | with_reducible apply discardItems_kept | with_reducible apply sendWithdraw_kept
    | with_reducible apply endAll_kept | with_reducible apply wipePolicy_kept
    | with_reducible apply closeAtRestart_kept | with_reducible apply wipeCaller_kept
    | with_reducible apply abandonCapsules_kept | with_reducible apply recordRollback_kept
    | ((with_reducible apply updBoot_kept); · first | (with_reducible rfl) | (dsimp only; done) | ((repeat' split) <;> with_reducible rfl))
    | with_reducible apply Kept.ite
    | with_reducible exact Kept.of_eq rfl rfl rfl rfl (fun h => h) (fun h => h) (fun h => h) rfl
    | (split <;> try dsimp only))

theorem releaseReset_kept {σ : State} (seq : Word) (s : State) (h0 : Kept σ s) : Kept σ (releaseReset seq s) := by
  refine h0.trans ?_; clear h0; unfold releaseReset
  (try dsimp only)
  repeat' (first
    | with_reducible exact Kept.refl _ | assumption | with_reducible apply callerRestart_kept
    | with_reducible apply restoreCores_kept | with_reducible apply updRst_kept | with_reducible apply updLevel_kept
    | with_reducible apply Kept.ite
    | with_reducible exact Kept.of_eq rfl rfl rfl rfl (fun h => h) (fun h => h) (fun h => h) rfl
    | (split <;> try dsimp only))

theorem checkCount_kept {σ : State} (p : ResetPolicy) (s : State) (h0 : Kept σ s) : Kept σ (checkCount p s) := by
  refine h0.trans ?_; clear h0; unfold checkCount
  (try dsimp only)
  repeat' (first
    | with_reducible exact Kept.refl _ | assumption | with_reducible apply outOfService_kept
    | with_reducible apply Kept.ite)

theorem levelComplete_kept {σ : State} (seq : Word) (s : State) (h0 : Kept σ s) : Kept σ (levelComplete seq s) := by
  refine h0.trans ?_; clear h0; unfold levelComplete
  (try dsimp only)
  repeat' (first
    | with_reducible exact Kept.refl _ | assumption | with_reducible apply endLevel_kept
    | with_reducible apply updRst_kept | with_reducible apply sendNotice_kept | with_reducible apply checkCount_kept
    | with_reducible apply msix_kept | with_reducible apply occur_kept | with_reducible apply Kept.ite
    | with_reducible exact Kept.of_eq rfl rfl rfl rfl (fun h => h) (fun h => h) (fun h => h) rfl
    | (split <;> try dsimp only))

theorem enterDead_kept {σ : State} (l : Level) (s : State) (h0 : Kept σ s) : Kept σ (enterDead l s) := by
  refine h0.trans ?_; clear h0; unfold enterDead
  (try dsimp only)
  repeat' (first
    | with_reducible exact Kept.refl _ | assumption | with_reducible apply sendNotice_kept
    | with_reducible apply unscheduledReport_kept | with_reducible apply setState_kept
    | with_reducible apply updRst_kept | with_reducible apply callerDown_kept | with_reducible apply portsDown_kept
    | with_reducible apply Kept.ite)

theorem escalate_kept {σ : State} (l : Level) (s : State) (h0 : Kept σ s) : Kept σ (escalate l s) := by
  refine h0.trans ?_; clear h0; unfold escalate
  (try dsimp only)
  repeat' (first
    | with_reducible exact Kept.refl _ | assumption | with_reducible apply occur_kept
    | with_reducible apply enterDead_kept | with_reducible apply endLevel_kept | with_reducible apply startLevel_kept
    | with_reducible apply Kept.ite)

theorem levelOverrun_kept {σ : State} (seq : Word) (s : State) (h0 : Kept σ s) : Kept σ (levelOverrun seq s) := by
  refine h0.trans ?_; clear h0; unfold levelOverrun
  repeat' (first
    | with_reducible exact Kept.refl _ | assumption | with_reducible apply escalate_kept
    | with_reducible apply Kept.ite
    | with_reducible exact Kept.of_eq rfl rfl rfl rfl (fun h => h) (fun h => h) (fun h => h) rfl
    | (split <;> try dsimp only))

theorem startRequested_kept {σ : State} (x : Scope) (s : State) (h0 : Kept σ s) : Kept σ (startRequested x s) := by
  refine h0.trans ?_; clear h0; unfold startRequested
  repeat' (first
    | with_reducible exact Kept.refl _ | assumption | with_reducible apply startWaiting_kept
    | with_reducible apply startReset_kept | with_reducible apply updRst_kept | with_reducible apply endHold_kept
    | with_reducible apply Kept.ite)

theorem requestReset_kept {σ : State} (cause level index queue : Nat) (s : State) (h0 : Kept σ s) : Kept σ
    (requestReset cause level index queue s).2 := by
  refine h0.trans ?_; clear h0; unfold requestReset
  (try dsimp only)
  repeat' (first
    | with_reducible exact Kept.refl _ | assumption | with_reducible apply absorb_kept
    | with_reducible apply startRequested_kept | with_reducible apply Kept.ite
    | with_reducible exact Kept.of_eq rfl rfl rfl rfl (fun h => h) (fun h => h) (fun h => h) rfl
    | (split <;> try dsimp only))

theorem writeRstCmd_kept {σ : State} (r : Requester) (value : Word) (s : State) (h0 : Kept σ s) : Kept σ
    (writeRstCmd r value s) := by
  refine h0.trans ?_; clear h0; unfold writeRstCmd
  (try dsimp only)
  repeat' (first
    | with_reducible exact Kept.refl _ | assumption | with_reducible apply updCfg_kept
    | with_reducible apply requestReset_kept | with_reducible apply setResult_kept | with_reducible apply Kept.ite)

theorem watchdogExpires_kept {σ : State} (s : State) (h0 : Kept σ s) : Kept σ (watchdogExpires s) := by
  refine h0.trans ?_; clear h0; unfold watchdogExpires
  (try dsimp only)
  repeat' (first
    | with_reducible exact Kept.refl _ | assumption | with_reducible apply occur_kept
    | with_reducible apply updRst_kept | with_reducible apply callerDown_kept | with_reducible apply updLevel_kept
    | with_reducible apply absorb_kept | with_reducible apply updCrash_kept | with_reducible apply startLevel_kept
    | with_reducible apply Kept.ite
    | with_reducible exact Kept.of_eq rfl rfl rfl rfl (fun h => h) (fun h => h) (fun h => h) rfl
    | (split <;> try dsimp only))

theorem execDeadlineMiss_kept (t : Nat) (core : Core) (queue : Queue) (s : State) : ∃ s', execDeadlineMiss t
    core queue s = .next s' ∧ Kept s s' := by
  refine ⟨_, rfl, ?_⟩
  repeat' (first
    | with_reducible exact Kept.refl _ | assumption | with_reducible apply deadlineMissed_kept
    | with_reducible apply atTime_kept)

theorem execCallerWatchdogExpiry_kept (t : Nat) (s : State) : ∃ s', execCallerWatchdogExpiry t s = .next s' ∧
    Kept s s' := by
  refine ⟨_, rfl, ?_⟩
  repeat' (first
    | with_reducible exact Kept.refl _ | assumption | with_reducible apply watchdogExpires_kept
    | with_reducible apply atTime_kept)

theorem execResetContainAcked_kept (t : Nat) (seq : Word) (s : State) : ∃ s', execResetContainAcked t seq s =
    .next s' ∧ Kept s s' := by
  refine ⟨_, rfl, ?_⟩
  repeat' (first
    | with_reducible exact Kept.refl _ | assumption | with_reducible apply containAcked_kept
    | with_reducible apply atTime_kept)

theorem execResetAssert_kept (t : Nat) (seq : Word) (s : State) : ∃ s', execResetAssert t seq s = .next s' ∧
    Kept s s' := by
  refine ⟨_, rfl, ?_⟩
  repeat' (first
    | with_reducible exact Kept.refl _ | assumption | with_reducible apply assertReset_kept
    | with_reducible apply atTime_kept)

theorem execResetRelease_kept (t : Nat) (seq : Word) (s : State) : ∃ s', execResetRelease t seq s = .next s' ∧
    Kept s s' := by
  refine ⟨_, rfl, ?_⟩
  repeat' (first
    | with_reducible exact Kept.refl _ | assumption | with_reducible apply releaseReset_kept
    | with_reducible apply atTime_kept)

theorem execResetLevelComplete_kept (t : Nat) (seq : Word) (s : State) : ∃ s', execResetLevelComplete t seq s
    = .next s' ∧ Kept s s' := by
  refine ⟨_, rfl, ?_⟩
  repeat' (first
    | with_reducible exact Kept.refl _ | assumption | with_reducible apply levelComplete_kept
    | with_reducible apply atTime_kept)

theorem execResetLevelOverrun_kept (t : Nat) (seq : Word) (s : State) : ∃ s', execResetLevelOverrun t seq s =
    .next s' ∧ Kept s s' := by
  refine ⟨_, rfl, ?_⟩
  repeat' (first
    | with_reducible exact Kept.refl _ | assumption | with_reducible apply levelOverrun_kept
    | with_reducible apply atTime_kept)

theorem execResetRequest_kept (t : Nat) (r : Requester) (value : Word) (s : State) : ∃ s', execResetRequest t
    r value s = .next s' ∧ Kept s s' := by
  refine ⟨_, rfl, ?_⟩
  repeat' (first
    | with_reducible exact Kept.refl _ | assumption | with_reducible apply atTime_kept
    | with_reducible apply writeRstCmd_kept | with_reducible apply Kept.ite)

theorem rejectCharter_kept {σ : State} (e : Reject) (serial : Nat) (r : Requester) (s : State) (h0 : Kept σ s)
    : Kept σ (rejectCharter e serial r s) := by
  refine h0.trans ?_; clear h0; unfold rejectCharter
  (try dsimp only)
  repeat' (first
    | with_reducible exact Kept.refl _ | assumption | with_reducible apply updCfg_kept
    | with_reducible apply occur_kept)

theorem acceptCharter_kept {σ : State} (ch : Charter) (img : List Byte) (s : State) (h0 : Kept σ s) : Kept σ
    (acceptCharter ch img s) := by
  refine h0.trans ?_; clear h0; unfold acceptCharter
  (try dsimp only)
  repeat' (first
    | with_reducible exact Kept.refl _ | assumption | with_reducible apply updCfg_kept
    | ((with_reducible apply updTempo_kept); · first | (with_reducible exact fun h => h) | exact fun h => h)
    | with_reducible apply occur_kept)

theorem dropTxn_kept {σ : State} (x : Txn) (s : State) (h0 : Kept σ s) : Kept σ (dropTxn x s) := by
  refine h0.trans ?_; clear h0; unfold dropTxn
  (try dsimp only)
  repeat' (first | with_reducible exact Kept.refl _ | assumption | with_reducible apply updCfg_kept)

theorem rollback_kept {σ : State} (x : Txn) (reason : Nat) (s : State) (h0 : Kept σ s) : Kept σ (rollback x
    reason s) := by
  refine h0.trans ?_; clear h0; unfold rollback
  repeat' (first
    | with_reducible exact Kept.refl _ | assumption | with_reducible apply recordRollback_kept
    | with_reducible apply dropTxn_kept)

theorem expireTxn_kept {σ : State} (s : State) (h0 : Kept σ s) : Kept σ (expireTxn s) := by
  refine h0.trans ?_; clear h0; unfold expireTxn
  repeat' (first
    | with_reducible exact Kept.refl _ | assumption | with_reducible apply setResult_kept
    | with_reducible apply rollback_kept | with_reducible apply Kept.ite
    | with_reducible exact Kept.of_eq rfl rfl rfl rfl (fun h => h) (fun h => h) (fun h => h) rfl
    | (split <;> try dsimp only))

theorem txnCommand_kept {σ : State} (cmd : Nat) (r : Requester) (id : BitVec 16) (s : State) (h0 : Kept σ s) :
    Kept σ (txnCommand cmd r id s) := by
  refine h0.trans ?_; clear h0; unfold txnCommand
  repeat' (first
    | with_reducible exact Kept.refl _ | assumption | with_reducible apply setResult_kept
    | with_reducible apply updCfg_kept | with_reducible apply expireTxn_kept | with_reducible apply rollback_kept
    | with_reducible apply Kept.ite
    | with_reducible exact Kept.of_eq rfl rfl rfl rfl (fun h => h) (fun h => h) (fun h => h) rfl
    | (split <;> try dsimp only))

theorem shadowWrite_kept {σ : State} (r : Requester) (off : Nat) (v : Word) (s : State) (h0 : Kept σ s) : Kept
    σ (shadowWrite r off v s) := by
  refine h0.trans ?_; clear h0; unfold shadowWrite
  (try dsimp only)
  repeat' (first
    | with_reducible exact Kept.refl _ | assumption | with_reducible apply expireTxn_kept
    | with_reducible apply setResult_kept | with_reducible apply updCfg_kept | with_reducible apply Kept.ite
    | with_reducible exact Kept.of_eq rfl rfl rfl rfl (fun h => h) (fun h => h) (fun h => h) rfl
    | (split <;> try dsimp only))

theorem beginLoad_kept {σ : State} (r : Requester) (s : State) (h0 : Kept σ s) : Kept σ (beginLoad r s) := by
  refine h0.trans ?_; clear h0; unfold beginLoad
  (try dsimp only)
  repeat' (first
    | with_reducible exact Kept.refl _ | assumption | with_reducible apply wantObjects_kept
    | with_reducible apply updCfg_kept | with_reducible apply Kept.ite)

theorem loadGo_kept {σ : State} (r : Requester) (value : Word) (s : State) (h0 : Kept σ s) : Kept σ (loadGo r
    value s) := by
  refine h0.trans ?_; clear h0; unfold loadGo
  (try dsimp only)
  repeat' (first
    | with_reducible exact Kept.refl _ | assumption | with_reducible apply expireTxn_kept
    | with_reducible apply setResult_kept | with_reducible apply beginLoad_kept | with_reducible apply updCfg_kept
    | with_reducible apply rejectCharter_kept | with_reducible apply Kept.ite
    | with_reducible exact Kept.of_eq rfl rfl rfl rfl (fun h => h) (fun h => h) (fun h => h) rfl
    | (split <;> try dsimp only))

theorem keepFirst_kept {σ : State} (ch : Charter) (img : List Byte) (r : Requester) (s : State) (h0 : Kept σ
    s) : Kept σ (keepFirst ch img r s) := by
  refine h0.trans ?_; clear h0; unfold keepFirst
  (try dsimp only)
  repeat' (first
    | with_reducible exact Kept.refl _ | assumption
    | ((with_reducible apply updBoot_kept); · first | (with_reducible rfl) | (dsimp only; done) | ((repeat' split) <;> with_reducible rfl))
    | with_reducible apply updCfg_kept | with_reducible apply wantObjects_kept | with_reducible apply Kept.ite)

theorem loadVerified_kept {σ : State} (s : State) (h0 : Kept σ s) : Kept σ (loadVerified s) := by
  refine h0.trans ?_; clear h0; unfold loadVerified
  (try dsimp only)
  repeat' (first
    | with_reducible exact Kept.refl _ | assumption | with_reducible apply expireTxn_kept
    | with_reducible apply updCfg_kept | with_reducible apply rejectCharter_kept | with_reducible apply keepFirst_kept
    | with_reducible apply Kept.ite
    | with_reducible exact Kept.of_eq rfl rfl rfl rfl (fun h => h) (fun h => h) (fun h => h) rfl
    | (split <;> try dsimp only))

theorem preloadAll_kept  : ∀ ls {σ s : State}, Kept σ s → Kept σ (preloadAll  ls s) := by
  intro ls
  induction ls with
  | nil => intro σ s h; exact h
  | cons a l ih =>
    intro σ s h0
    refine h0.trans ?_; clear h0; unfold preloadAll
    repeat' (first
      | with_reducible exact Kept.refl _ | with_reducible apply ih | assumption | with_reducible apply preload_kept)

theorem callerSettings_kept {σ : State} (old new : Charter) (s : State) (h0 : Kept σ s) : Kept σ
    (callerSettings old new s) := by
  refine h0.trans ?_; clear h0; unfold callerSettings
  (try dsimp only)
  repeat' (first
    | with_reducible exact Kept.refl _ | assumption
    | ((with_reducible apply updEvt_kept); · first | (with_reducible exact fun h => h) | exact fun h => setLimits_evt _ _ _ h | exact fun h => admitEv_evt _ _ _ (countUp_evt _ _ h) | exact fun h => admitWaiters_evt _ _ h | exact fun h => h)
    | with_reducible apply updLed_kept | with_reducible apply recheckUnits_kept | with_reducible apply checkCount_kept
    | with_reducible apply Kept.ite)

theorem commitTxn_kept {σ : State} (x : Txn) (s : State) (h0 : Kept σ s) : Kept σ (commitTxn x s) := by
  refine h0.trans ?_; clear h0; unfold commitTxn
  (try dsimp only)
  repeat' (first
    | with_reducible exact Kept.refl _ | assumption | with_reducible apply updCfg_kept
    | with_reducible apply occur_kept | with_reducible apply setResult_kept | with_reducible apply noteGating_kept
    | with_reducible apply preloadAll_kept | with_reducible apply acceptCharter_kept
    | with_reducible apply callerSettings_kept | with_reducible apply applyPolicy_kept | with_reducible apply Kept.ite
    | with_reducible exact Kept.of_eq rfl rfl rfl rfl (fun h => h) (fun h => h) (fun h => h) rfl
    | (split <;> try dsimp only))

theorem commitValidated_kept {σ : State} (s : State) (h0 : Kept σ s) : Kept σ (commitValidated s) := by
  refine h0.trans ?_; clear h0; unfold commitValidated
  (try dsimp only)
  repeat' (first
    | with_reducible exact Kept.refl _ | assumption | with_reducible apply setResult_kept
    | with_reducible apply rejectCharter_kept | with_reducible apply dropTxn_kept
    | with_reducible apply recordRollback_kept | with_reducible apply rollback_kept
    | with_reducible apply commitTxn_kept | with_reducible apply Kept.ite
    | with_reducible exact Kept.of_eq rfl rfl rfl rfl (fun h => h) (fun h => h) (fun h => h) rfl
    | (split <;> try dsimp only))

theorem recordHostGen_kept {σ : State} (s : State) (h0 : Kept σ s) : Kept σ (recordHostGen s) := by
  refine h0.trans ?_; clear h0; unfold recordHostGen
  repeat' (first | with_reducible exact Kept.refl _ | assumption | with_reducible apply occur_kept)

theorem hostGenOffer_kept {σ : State} (r : Requester) (value : Word) (s : State) (h0 : Kept σ s) : Kept σ
    (hostGenOffer r value s) := by
  refine h0.trans ?_; clear h0; unfold hostGenOffer
  (try dsimp only)
  repeat' (first
    | with_reducible exact Kept.refl _ | assumption | with_reducible apply updCfg_kept
    | with_reducible apply recordHostGen_kept | with_reducible apply Kept.ite)

theorem functionReset_kept {σ : State} (s : State) (h0 : Kept σ s) : Kept σ (functionReset s) := by
  refine h0.trans ?_; clear h0; unfold functionReset
  repeat' (first
    | with_reducible exact Kept.refl _ | assumption | with_reducible apply recordHostGen_kept
    | with_reducible apply updCfg_kept | with_reducible apply Kept.ite)

theorem execCharterLoadGo_kept (t : Nat) (r : Requester) (value : Word) (s : State) : ∃ s', execCharterLoadGo
    t r value s = .next s' ∧ Kept s s' := by
  refine ⟨_, rfl, ?_⟩
  repeat' (first
    | with_reducible exact Kept.refl _ | assumption | with_reducible apply loadGo_kept
    | with_reducible apply atTime_kept)

theorem execCharterVerified_kept (t : Nat) (s : State) : ∃ s', execCharterVerified t s = .next s' ∧ Kept s s' := by
  refine ⟨_, rfl, ?_⟩
  repeat' (first
    | with_reducible exact Kept.refl _ | assumption | with_reducible apply loadVerified_kept
    | with_reducible apply atTime_kept)

theorem execTxnBegin_kept (t : Nat) (r : Requester) (id : BitVec 16) (s : State) : ∃ s', execTxnBegin t r id s
    = .next s' ∧ Kept s s' := by
  refine ⟨_, rfl, ?_⟩
  repeat' (first
    | with_reducible exact Kept.refl _ | assumption | with_reducible apply txnCommand_kept
    | with_reducible apply atTime_kept)

theorem execTxnCommit_kept (t : Nat) (r : Requester) (id : BitVec 16) (s : State) : ∃ s', execTxnCommit t r id
    s = .next s' ∧ Kept s s' := by
  refine ⟨_, rfl, ?_⟩
  repeat' (first
    | with_reducible exact Kept.refl _ | assumption | with_reducible apply txnCommand_kept
    | with_reducible apply atTime_kept)

theorem execTxnRollback_kept (t : Nat) (r : Requester) (id : BitVec 16) (s : State) : ∃ s', execTxnRollback t
    r id s = .next s' ∧ Kept s s' := by
  refine ⟨_, rfl, ?_⟩
  repeat' (first
    | with_reducible exact Kept.refl _ | assumption | with_reducible apply txnCommand_kept
    | with_reducible apply atTime_kept)

theorem execTxnExpired_kept (t : Nat) (s : State) : ∃ s', execTxnExpired t s = .next s' ∧ Kept s s' := by
  refine ⟨_, rfl, ?_⟩
  repeat' (first
    | with_reducible exact Kept.refl _ | assumption | with_reducible apply atTime_kept
    | with_reducible apply expireTxn_kept | with_reducible apply Kept.ite)

theorem execCommitValidated_kept (t : Nat) (s : State) : ∃ s', execCommitValidated t s = .next s' ∧ Kept s s' := by
  refine ⟨_, rfl, ?_⟩
  repeat' (first
    | with_reducible exact Kept.refl _ | assumption | with_reducible apply commitValidated_kept
    | with_reducible apply atTime_kept)

theorem execShadowWrite_kept (t : Nat) (r : Requester) (offset : Fin 0x400000) (value : Word) (s : State) : ∃
    s', execShadowWrite t r offset value s = .next s' ∧ Kept s s' := by
  refine ⟨_, rfl, ?_⟩
  repeat' (first
    | with_reducible exact Kept.refl _ | assumption | with_reducible apply shadowWrite_kept
    | with_reducible apply atTime_kept)

theorem execHostGenOffer_kept (t : Nat) (r : Requester) (value : Word) (s : State) : ∃ s', execHostGenOffer t
    r value s = .next s' ∧ Kept s s' := by
  refine ⟨_, rfl, ?_⟩
  repeat' (first
    | with_reducible exact Kept.refl _ | assumption | with_reducible apply hostGenOffer_kept
    | with_reducible apply atTime_kept)

theorem execFunctionLevelReset_kept (t : Nat) (s : State) : ∃ s', execFunctionLevelReset t s = .next s' ∧ Kept
    s s' := by
  refine ⟨_, rfl, ?_⟩
  repeat' (first
    | with_reducible exact Kept.refl _ | assumption | with_reducible apply functionReset_kept
    | with_reducible apply atTime_kept)

theorem linkDegraded_kept {σ : State} (p cause : Nat) (s : State) (h0 : Kept σ s) : Kept σ (linkDegraded p
    cause s) := by
  refine h0.trans ?_; clear h0; unfold linkDegraded
  repeat' (first | with_reducible exact Kept.refl _ | assumption | with_reducible apply occur_kept)

theorem settlePort_kept {σ : State} (p : Nat) (offer : BitVec 2) (s : State) (h0 : Kept σ s) : Kept σ
    (settlePort p offer s) := by
  refine h0.trans ?_; clear h0; unfold settlePort
  (try dsimp only)
  repeat' (first
    | with_reducible exact Kept.refl _ | assumption | with_reducible apply updFPort_kept
    | with_reducible apply occur_kept | with_reducible apply linkDegraded_kept | with_reducible apply Kept.ite)

theorem trainPort_kept {σ : State} (p : Nat) (rep : Option PortReport) (s : State) (h0 : Kept σ s) : Kept σ
    (trainPort p rep s) := by
  refine h0.trans ?_; clear h0; unfold trainPort
  repeat' (first
    | with_reducible exact Kept.refl _ | assumption | with_reducible apply updFPort_kept
    | with_reducible apply settlePort_kept | with_reducible apply Kept.ite
    | with_reducible exact Kept.of_eq rfl rfl rfl rfl (fun h => h) (fun h => h) (fun h => h) rfl
    | (split <;> try dsimp only))

theorem trainPorts_kept (reports : List (Option PortReport)) : ∀ ls {σ s : State}, Kept σ s → Kept σ
    (trainPorts reports ls s) := by
  intro ls
  induction ls with
  | nil => intro σ s h; exact h
  | cons a l ih =>
    intro σ s h0
    refine h0.trans ?_; clear h0; unfold trainPorts
    repeat' (first
      | with_reducible exact Kept.refl _ | with_reducible apply ih | assumption | with_reducible apply trainPort_kept)

theorem linkChanges_kept {σ : State} (p : Nat) (ev : LinkEvent) (s : State) (h0 : Kept σ s) : Kept σ
    (linkChanges p ev s) := by
  refine h0.trans ?_; clear h0; unfold linkChanges
  (try dsimp only)
  repeat' (first
    | with_reducible exact Kept.refl _ | assumption | with_reducible apply linkDegraded_kept
    | with_reducible apply updFPort_kept | with_reducible apply settlePort_kept
    | with_reducible apply sendWaiting_kept | with_reducible apply Kept.ite
    | with_reducible exact Kept.of_eq rfl rfl rfl rfl (fun h => h) (fun h => h) (fun h => h) rfl
    | (split <;> try dsimp only))

theorem mismatchRecord_kept {σ : State} (p kind expected found : Nat) (s : State) (h0 : Kept σ s) : Kept σ
    (mismatchRecord p kind expected found s) := by
  refine h0.trans ?_; clear h0; unfold mismatchRecord
  repeat' (first | with_reducible exact Kept.refl _ | assumption | with_reducible apply occur_kept)

theorem disablePort_kept {σ : State} (p : Nat) (s : State) (h0 : Kept σ s) : Kept σ (disablePort p s) := by
  refine h0.trans ?_; clear h0; unfold disablePort
  repeat' (first | with_reducible exact Kept.refl _ | assumption | with_reducible apply updFPort_kept)

theorem compareListed_kept {σ : State} (t : TopoPort) (x : TopoCount × State) (h0 : Kept σ x.2) : Kept σ
    (compareListed t x).2 := by
  refine h0.trans ?_; clear h0; unfold compareListed
  (try dsimp only)
  repeat' (first
    | with_reducible exact Kept.refl _ | assumption | with_reducible apply mismatchRecord_kept
    | with_reducible apply disablePort_kept | with_reducible apply Kept.ite
    | with_reducible exact Kept.of_eq rfl rfl rfl rfl (fun h => h) (fun h => h) (fun h => h) rfl
    | (split <;> try dsimp only))

theorem compareUnlisted_kept {σ : State} (t : Topology) (p : Nat) (x : TopoCount × State) (h0 : Kept σ x.2) :
    Kept σ (compareUnlisted t p x).2 := by
  refine h0.trans ?_; clear h0; unfold compareUnlisted
  (try dsimp only)
  repeat' (first
    | with_reducible exact Kept.refl _ | assumption | with_reducible apply disablePort_kept
    | with_reducible apply mismatchRecord_kept | with_reducible apply Kept.ite
    | with_reducible exact Kept.of_eq rfl rfl rfl rfl (fun h => h) (fun h => h) (fun h => h) rfl
    | (split <;> try dsimp only))

theorem compareTopology_kept {σ : State} (t : Topology) (s : State) (h0 : Kept σ s) : Kept σ (compareTopology
    t s).2 := by
  refine h0.trans ?_; clear h0; unfold compareTopology
  dsimp only
  exact foldl2_kept (fun x p σ h => compareUnlisted_kept t p x h) _ _ (foldl2_kept (fun x p σ h => compareListed_kept p x h) _ _ (Kept.refl s))

theorem execFabricLinkRetrain_kept (t : Nat) (port : Port) (ev : LinkEvent) (s : State) : ∃ s',
    execFabricLinkRetrain t port ev s = .next s' ∧ Kept s s' := by
  refine ⟨_, rfl, ?_⟩
  repeat' (first
    | with_reducible exact Kept.refl _ | assumption | with_reducible apply linkChanges_kept
    | with_reducible apply atTime_kept)

theorem reportStage_kept {σ : State} (n result p3 : Nat) (s : State) (h0 : Kept σ s) : Kept σ (reportStage n
    result p3 s) := by
  refine h0.trans ?_; clear h0; unfold reportStage
  (try dsimp only)
  repeat' (first
    | with_reducible exact Kept.refl _ | assumption
    | ((with_reducible apply updBoot_kept); · first | (with_reducible rfl) | (dsimp only; done) | ((repeat' split) <;> with_reducible rfl))
    | with_reducible apply occur_kept)

theorem startStage_kept {σ : State} (n : Nat) (s : State) (h0 : Kept σ s) : Kept σ (startStage n s) := by
  refine h0.trans ?_; clear h0; unfold startStage
  repeat' (first
    | with_reducible exact Kept.refl _ | assumption | with_reducible apply wantObjects_kept
    | ((with_reducible apply updBoot_kept); · first | (with_reducible rfl) | (dsimp only; done) | ((repeat' split) <;> with_reducible rfl)))

theorem stageFails_kept {σ : State} (n : Nat) (s : State) (h0 : Kept σ s) : Kept σ (stageFails n s) := by
  refine h0.trans ?_; clear h0; unfold stageFails
  repeat' (first
    | with_reducible exact Kept.refl _ | assumption
    | ((with_reducible apply updBoot_kept); · first | (with_reducible rfl) | (dsimp only; done) | ((repeat' split) <;> with_reducible rfl)))

theorem skipStage_kept {σ : State} (n : Nat) (s : State) (h0 : Kept σ s) : Kept σ (skipStage n s) := by
  refine h0.trans ?_; clear h0; unfold skipStage
  repeat' (first
    | with_reducible exact Kept.refl _ | assumption | with_reducible apply startStage_kept
    | with_reducible apply reportStage_kept | with_reducible apply stageFails_kept)

theorem stageB0_kept {σ : State} (ctl core hbm io : Bool) (s : State) (h0 : Kept σ s) : Kept σ (stageB0 ctl
    core hbm io s) := by
  refine h0.trans ?_; clear h0; unfold stageB0
  (try dsimp only)
  repeat' (first
    | with_reducible exact Kept.refl _ | assumption | with_reducible apply startStage_kept
    | with_reducible apply reportStage_kept | with_reducible apply Kept.ite)

theorem stageB1_kept {σ : State} (s : State) (h0 : Kept σ s) : Kept σ (stageB1 s) := by
  refine h0.trans ?_; clear h0; unfold stageB1
  (try dsimp only)
  repeat' (first
    | with_reducible exact Kept.refl _ | assumption
    | ((with_reducible apply updBoot_kept); · first | (with_reducible rfl) | (dsimp only; done) | ((repeat' split) <;> with_reducible rfl))
    | with_reducible apply updLed_kept | with_reducible apply startStage_kept | with_reducible apply reportStage_kept
    | with_reducible apply Kept.ite)

theorem setRegulator_kept {σ : State} (ok : Bool) (vout d : Nat) (s : State) (h0 : Kept σ s) : Kept σ
    (setRegulator ok vout d s) := by
  refine h0.trans ?_; clear h0; unfold setRegulator
  (try dsimp only)
  repeat' (first
    | with_reducible exact Kept.refl _ | assumption | with_reducible apply avsSend_kept
    | ((with_reducible apply updDomain_kept); · first | (with_reducible exact fun h => h) | exact fun h => h)
    | with_reducible apply occur_kept
    | ((with_reducible apply setPoint_kept); · first | exact fun _ => Nat.min_le_left _ _ | exact fun _ => Nat.le_refl _ | exact fun h => (Nat.sub_le _ _).trans h)
    | ((with_reducible apply updOut_kept); · first | (with_reducible exact rfl) | exact rfl)
    | with_reducible apply Kept.ite)

theorem setRegulators_kept (ok : BitVec 16) (vout : List Nat) : ∀ ls {σ s : State}, Kept σ s → Kept σ
    (setRegulators ok vout ls s) := by
  intro ls
  induction ls with
  | nil => intro σ s h; exact h
  | cons a l ih =>
    intro σ s h0
    refine h0.trans ?_; clear h0; unfold setRegulators
    repeat' (first
      | with_reducible exact Kept.refl _ | with_reducible apply ih | assumption
      | with_reducible apply setRegulator_kept)

theorem faultAll_kept (vout : List Nat) : ∀ ls {σ s : State}, Kept σ s → Kept σ (faultAll vout ls s) := by
  intro ls
  induction ls with
  | nil => intro σ s h; exact h
  | cons a l ih =>
    intro σ s h0
    refine h0.trans ?_; clear h0; unfold faultAll
    repeat' (first
      | with_reducible exact Kept.refl _ | with_reducible apply ih | assumption | with_reducible apply avsFault_kept)

theorem loadReplicas_kept {σ : State} (timebase : Bool) (lags : List (Fin 3)) (s : State) (h0 : Kept σ s) :
    Kept σ (loadReplicas timebase lags s) := by
  refine h0.trans ?_; clear h0; unfold loadReplicas
  repeat' (first
    | with_reducible exact Kept.refl _ | assumption | with_reducible apply Kept.ite
    | with_reducible exact Kept.of_eq rfl rfl rfl rfl (fun h => h) (fun h => h) (fun h => h) rfl)

theorem stageB2_kept {σ : State} (regulators : BitVec 16) (readback again : List Nat) (timebase tracePll :
    Bool) (lags : List (Fin 3)) (s : State) (h0 : Kept σ s) : Kept σ (stageB2 regulators readback again
    timebase tracePll lags s) := by
  refine h0.trans ?_; clear h0; unfold stageB2
  (try dsimp only)
  repeat' (first
    | with_reducible exact Kept.refl _ | assumption | with_reducible apply completeCopy_kept
    | with_reducible apply setRegulators_kept
    | ((with_reducible apply updTempo_kept); · first | (with_reducible exact fun h => h) | exact fun h => h)
    | with_reducible apply faultAll_kept | with_reducible apply loadReplicas_kept
    | ((with_reducible apply updBoot_kept); · first | (with_reducible rfl) | (dsimp only; done) | ((repeat' split) <;> with_reducible rfl))
    | with_reducible apply startFlush_kept | with_reducible apply linesLock_kept
    | with_reducible apply stageFails_kept | with_reducible apply startStage_kept
    | with_reducible apply reportStage_kept | with_reducible apply Kept.ite)

theorem sliceResult_kept {σ : State} (i : Nat) (gave : Bool) (expected observed : Word) (s : State) (h0 : Kept
    σ s) : Kept σ (sliceResult i gave expected observed s) := by
  refine h0.trans ?_; clear h0; unfold sliceResult
  (try dsimp only)
  repeat' (first
    | with_reducible exact Kept.refl _ | assumption
    | ((with_reducible apply updBoot_kept); · first | (with_reducible rfl) | (dsimp only; done) | ((repeat' split) <;> with_reducible rfl))
    | with_reducible apply occur_kept | with_reducible apply Kept.ite
    | with_reducible exact Kept.of_eq rfl rfl rfl rfl (fun h => h) (fun h => h) (fun h => h) rfl
    | (split <;> try dsimp only))

theorem placeRegions_kept {σ : State} (s : State) (h0 : Kept σ s) : Kept σ (placeRegions s) := by
  refine h0.trans ?_; clear h0; unfold placeRegions
  repeat' (first
    | with_reducible exact Kept.refl _ | assumption | with_reducible apply updAdj_kept
    | ((with_reducible apply updBoot_kept); · first | (with_reducible rfl) | (dsimp only; done) | ((repeat' split) <;> with_reducible rfl))
    | with_reducible apply Kept.ite
    | with_reducible exact Kept.of_eq rfl rfl rfl rfl (fun h => h) (fun h => h) (fun h => h) rfl
    | (split <;> try dsimp only))

theorem coresOut_kept {σ : State} (s : State) (h0 : Kept σ s) : Kept σ (coresOut s) := by
  refine h0.trans ?_; clear h0; unfold coresOut
  repeat' (first
    | with_reducible exact Kept.refl _ | assumption | with_reducible apply updRst_kept
    | with_reducible apply Kept.ite)

theorem endB3_kept {σ : State} (trained : Byte) (used : Bool) (s : State) (h0 : Kept σ s) : Kept σ (endB3
    trained used s) := by
  refine h0.trans ?_; clear h0; unfold endB3
  (try dsimp only)
  repeat' (first
    | with_reducible exact Kept.refl _ | assumption
    | ((with_reducible apply updBoot_kept); · first | (with_reducible rfl) | (dsimp only; done) | ((repeat' split) <;> with_reducible rfl))
    | with_reducible apply placeRegions_kept | with_reducible apply stageFails_kept
    | with_reducible apply startStage_kept | with_reducible apply reportStage_kept | with_reducible apply Kept.ite)

theorem restoreMemory_kept {σ : State} (s : State) (h0 : Kept σ s) : Kept σ (restoreMemory s) := by
  refine h0.trans ?_; clear h0; unfold restoreMemory
  (try dsimp only)
  repeat' (first
    | with_reducible exact Kept.refl _ | assumption
    | ((with_reducible apply updBoot_kept); · first | (with_reducible rfl) | (dsimp only; done) | ((repeat' split) <;> with_reducible rfl))
    | with_reducible apply stageFails_kept | with_reducible apply startStage_kept | with_reducible apply coresOut_kept
    | with_reducible apply reportStage_kept | with_reducible apply Kept.ite)

theorem stageB3_kept {σ : State} (s : State) (h0 : Kept σ s) : Kept σ (stageB3 s) := by
  refine h0.trans ?_; clear h0; unfold stageB3
  (try dsimp only)
  repeat' (first
    | with_reducible exact Kept.refl _ | assumption | with_reducible apply skipStage_kept
    | ((with_reducible apply updBoot_kept); · first | (with_reducible rfl) | (dsimp only; done) | ((repeat' split) <;> with_reducible rfl))
    | with_reducible apply restoreMemory_kept | with_reducible apply Kept.ite)

theorem writeMemtrain_kept {σ : State} (r : Requester) (value : Word) (s : State) (h0 : Kept σ s) : Kept σ
    (writeMemtrain r value s) := by
  refine h0.trans ?_; clear h0; unfold writeMemtrain
  (try dsimp only)
  repeat' (first
    | with_reducible exact Kept.refl _ | assumption
    | ((with_reducible apply updBoot_kept); · first | (with_reducible rfl) | (dsimp only; done) | ((repeat' split) <;> with_reducible rfl))
    | with_reducible apply setResult_kept | with_reducible apply offerObject_kept | with_reducible apply endB3_kept
    | with_reducible apply Kept.ite)

theorem enterB5_kept {σ : State} (s : State) (h0 : Kept σ s) : Kept σ (enterB5 s) := by
  refine h0.trans ?_; clear h0; unfold enterB5
  (try dsimp only)
  repeat' (first
    | with_reducible exact Kept.refl _ | assumption | with_reducible apply startStage_kept
    | ((with_reducible apply updBoot_kept); · first | (with_reducible rfl) | (dsimp only; done) | ((repeat' split) <;> with_reducible rfl))
    | with_reducible apply occur_kept | with_reducible apply coresOut_kept | with_reducible apply Kept.ite)

theorem endB4_kept {σ : State} (found : Nat → StackScreen) (s : State) (h0 : Kept σ s) : Kept σ (endB4 found
    s) := by
  refine h0.trans ?_; clear h0; unfold endB4
  (try dsimp only)
  repeat' (first
    | with_reducible exact Kept.refl _ | assumption | with_reducible apply placeRegions_kept
    | ((with_reducible apply updBoot_kept); · first | (with_reducible rfl) | (dsimp only; done) | ((repeat' split) <;> with_reducible rfl))
    | with_reducible apply stageFails_kept | with_reducible apply enterB5_kept | with_reducible apply reportStage_kept
    | with_reducible apply Kept.ite)

theorem stageB4_kept {σ : State} (found : List StackScreen) (s : State) (h0 : Kept σ s) : Kept σ (stageB4
    found s) := by
  refine h0.trans ?_; clear h0; unfold stageB4
  repeat' (first
    | with_reducible exact Kept.refl _ | assumption | with_reducible apply enterB5_kept
    | with_reducible apply skipStage_kept | with_reducible apply endB4_kept | with_reducible apply Kept.ite)

theorem countAdded_kept {σ : State}  (s : State) (h0 : Kept σ s) : Kept σ (countAdded  s) := by
  refine h0.trans ?_; clear h0; unfold countAdded
  repeat' (first
    | with_reducible exact Kept.refl _ | assumption
    | ((with_reducible apply updBoot_kept); · first | (with_reducible rfl) | (dsimp only; done) | ((repeat' split) <;> with_reducible rfl)))

theorem endB5_kept {σ : State} (bad : Nat → Bool) (s : State) (h0 : Kept σ s) : Kept σ (endB5 bad s) := by
  refine h0.trans ?_; clear h0; unfold endB5
  (try dsimp only)
  repeat' (first
    | with_reducible exact Kept.refl _ | assumption
    | ((with_reducible apply updBoot_kept); · first | (with_reducible rfl) | (dsimp only; done) | ((repeat' split) <;> with_reducible rfl))
    | with_reducible apply countAdded_kept | with_reducible apply startStage_kept
    | with_reducible apply reportStage_kept)

theorem stageB5_kept {σ : State} (patternFail katFail : BitVec 256) (s : State) (h0 : Kept σ s) : Kept σ
    (stageB5 patternFail katFail s) := by
  refine h0.trans ?_; clear h0; unfold stageB5
  repeat' (first
    | with_reducible exact Kept.refl _ | assumption | with_reducible apply skipStage_kept
    | with_reducible apply endB5_kept | with_reducible apply Kept.ite)

theorem endB6_kept {σ : State} (reports : List (Option PortReport)) (s : State) (h0 : Kept σ s) : Kept σ
    (endB6 reports s) := by
  refine h0.trans ?_; clear h0; unfold endB6
  (try dsimp only)
  repeat' (first
    | with_reducible exact Kept.refl _ | assumption | with_reducible apply trainPorts_kept
    | with_reducible apply startStage_kept | with_reducible apply reportStage_kept)

theorem stageB6_kept {σ : State} (reports : List (Option PortReport)) (s : State) (h0 : Kept σ s) : Kept σ
    (stageB6 reports s) := by
  refine h0.trans ?_; clear h0; unfold stageB6
  repeat' (first
    | with_reducible exact Kept.refl _ | assumption | with_reducible apply skipStage_kept
    | with_reducible apply endB6_kept | with_reducible apply Kept.ite)

theorem endB7_kept {σ : State} (k : TopoCount) (s : State) (h0 : Kept σ s) : Kept σ (endB7 k s) := by
  refine h0.trans ?_; clear h0; unfold endB7
  repeat' (first
    | with_reducible exact Kept.refl _ | assumption | with_reducible apply startStage_kept
    | with_reducible apply reportStage_kept)

theorem stageB7_kept {σ : State} (s : State) (h0 : Kept σ s) : Kept σ (stageB7 s) := by
  refine h0.trans ?_; clear h0; unfold stageB7
  (try dsimp only)
  repeat' (first
    | with_reducible exact Kept.refl _ | assumption | with_reducible apply skipStage_kept
    | with_reducible apply compareTopology_kept | with_reducible apply endB7_kept | with_reducible apply Kept.ite
    | with_reducible exact Kept.of_eq rfl rfl rfl rfl (fun h => h) (fun h => h) (fun h => h) rfl
    | (split <;> try dsimp only))

theorem applyTapFloor_kept {σ : State} (floor : Nat) (s : State) (h0 : Kept σ s) : Kept σ (applyTapFloor floor
    s) := by
  refine h0.trans ?_; clear h0; unfold applyTapFloor
  (try dsimp only)
  repeat' (first
    | with_reducible exact Kept.refl _ | assumption
    | ((with_reducible apply updBoot_kept); · first | (with_reducible rfl) | (dsimp only; done) | ((repeat' split) <;> with_reducible rfl)))

theorem applySyncFloor_kept (floor : Nat) : ∀ ls {σ s : State}, Kept σ s → Kept σ (applySyncFloor floor ls s) := by
  intro ls
  induction ls with
  | nil => intro σ s h; exact h
  | cons a l ih =>
    intro σ s h0
    refine h0.trans ?_; clear h0; unfold applySyncFloor
    (try dsimp only)
    repeat' (first
      | with_reducible exact Kept.refl _ | with_reducible apply ih | assumption | with_reducible apply updFPort_kept
      | with_reducible apply linkDegraded_kept | with_reducible apply Kept.ite)

theorem applyHostFloor_kept {σ : State} (floor : Nat) (s : State) (h0 : Kept σ s) : Kept σ (applyHostFloor
    floor s) := by
  refine h0.trans ?_; clear h0; unfold applyHostFloor
  repeat' (first
    | with_reducible exact Kept.refl _ | assumption | with_reducible apply recordHostGen_kept
    | with_reducible apply updCfg_kept | with_reducible apply Kept.ite)

theorem restoreLedger_kept {σ : State} (ch : Charter) (s : State) (h0 : Kept σ s) : Kept σ (restoreLedger ch
    s) := by
  refine h0.trans ?_; clear h0; unfold restoreLedger
  repeat' (first
    | with_reducible exact Kept.refl _ | assumption | with_reducible apply updLed_kept | with_reducible apply Kept.ite
    | with_reducible exact Kept.of_eq rfl rfl rfl rfl (fun h => h) (fun h => h) (fun h => h) rfl
    | (split <;> try dsimp only))

theorem loadStations_kept  : ∀ ls {σ s : State}, Kept σ s → Kept σ (loadStations  ls s) := by
  intro ls
  induction ls with
  | nil => intro σ s h; exact h
  | cons a l ih =>
    intro σ s h0
    refine h0.trans ?_; clear h0; unfold loadStations
    repeat' (first
      | with_reducible exact Kept.refl _ | with_reducible apply ih | assumption | with_reducible apply preload_kept
      | with_reducible apply updStation_kept)

theorem applyCharter_kept {σ : State} (ch : Charter) (img : List Byte) (s : State) (h0 : Kept σ s) : Kept σ
    (applyCharter ch img s) := by
  refine h0.trans ?_; clear h0; unfold applyCharter
  (try dsimp only)
  repeat' (first
    | with_reducible exact Kept.refl _ | assumption | with_reducible apply updCfg_kept
    | with_reducible apply noteGating_kept | with_reducible apply acceptCharter_kept
    | with_reducible apply loadStations_kept
    | ((with_reducible apply updBoot_kept); · first | (with_reducible rfl) | (dsimp only; done) | ((repeat' split) <;> with_reducible rfl))
    | with_reducible apply applySyncFloor_kept | with_reducible apply applyHostFloor_kept
    | ((with_reducible apply updEvt_kept); · first | (with_reducible exact fun h => h) | exact fun h => setLimits_evt _ _ _ h | exact fun h => admitEv_evt _ _ _ (countUp_evt _ _ h) | exact fun h => admitWaiters_evt _ _ h | exact fun h => h)
    | with_reducible apply restoreLedger_kept | with_reducible apply applyPolicy_kept
    | with_reducible apply drainBegins_kept | with_reducible apply Kept.ite)

theorem coreRule_kept {σ : State} (ch : Charter) (s : State) (h0 : Kept σ s) : Kept σ (coreRule ch s).2 := by
  refine h0.trans ?_; clear h0; unfold coreRule
  (try dsimp only)
  repeat' (first
    | with_reducible exact Kept.refl _ | assumption | with_reducible apply mismatchRecord_kept
    | with_reducible apply Kept.ite
    | with_reducible exact Kept.of_eq rfl rfl rfl rfl (fun h => h) (fun h => h) (fun h => h) rfl
    | (split <;> try dsimp only))

theorem endB8_kept {σ : State} (result serial : Nat) (s : State) (h0 : Kept σ s) : Kept σ (endB8 result serial
    s) := by
  refine h0.trans ?_; clear h0; unfold endB8
  repeat' (first
    | with_reducible exact Kept.refl _ | assumption | with_reducible apply startStage_kept
    | with_reducible apply reportStage_kept)

theorem applyFirst_kept {σ : State} (ch : Charter) (img : List Byte) (s : State) (h0 : Kept σ s) : Kept σ
    (applyFirst ch img s) := by
  refine h0.trans ?_; clear h0; unfold applyFirst
  (try dsimp only)
  repeat' (first
    | with_reducible exact Kept.refl _ | assumption | with_reducible apply applyTapFloor_kept
    | ((with_reducible apply updBoot_kept); · first | (with_reducible rfl) | (dsimp only; done) | ((repeat' split) <;> with_reducible rfl))
    | with_reducible apply rejectCharter_kept | with_reducible apply updCfg_kept | with_reducible apply coreRule_kept
    | with_reducible apply endB8_kept | with_reducible apply applyCharter_kept | with_reducible apply Kept.ite
    | with_reducible exact Kept.of_eq rfl rfl rfl rfl (fun h => h) (fun h => h) (fun h => h) rfl
    | (split <;> try dsimp only))

theorem reapply_kept {σ : State} (s : State) (h0 : Kept σ s) : Kept σ (reapply s) := by
  refine h0.trans ?_; clear h0; unfold reapply
  (try dsimp only)
  repeat' (first
    | with_reducible exact Kept.refl _ | assumption | with_reducible apply endB8_kept
    | with_reducible apply rejectCharter_kept | with_reducible apply coreRule_kept
    | with_reducible apply applyCharter_kept | with_reducible apply Kept.ite
    | with_reducible exact Kept.of_eq rfl rfl rfl rfl (fun h => h) (fun h => h) (fun h => h) rfl
    | (split <;> try dsimp only))

theorem stageB8_kept {σ : State} (s : State) (h0 : Kept σ s) : Kept σ (stageB8 s) := by
  refine h0.trans ?_; clear h0; unfold stageB8
  repeat' (first
    | with_reducible exact Kept.refl _ | assumption | with_reducible apply skipStage_kept
    | with_reducible apply reapply_kept | with_reducible apply applyFirst_kept | with_reducible apply Kept.ite
    | with_reducible exact Kept.of_eq rfl rfl rfl rfl (fun h => h) (fun h => h) (fun h => h) rfl
    | (split <;> try dsimp only))

theorem addFlagged_kept {σ : State} (s : State) (h0 : Kept σ s) : Kept σ (addFlagged s) := by
  refine h0.trans ?_; clear h0; unfold addFlagged
  (try dsimp only)
  repeat' (first
    | with_reducible exact Kept.refl _ | assumption | with_reducible apply offerImage_kept
    | with_reducible apply otpBurn_kept | with_reducible apply Kept.ite
    | with_reducible exact Kept.of_eq rfl rfl rfl rfl (fun h => h) (fun h => h) (fun h => h) rfl
    | (split <;> try dsimp only))

theorem markReturned_kept {σ : State} (s : State) (h0 : Kept σ s) : Kept σ (markReturned s) := by
  refine h0.trans ?_; clear h0; unfold markReturned
  (try dsimp only)
  repeat' (first
    | with_reducible exact Kept.refl _ | assumption | with_reducible apply offerImage_kept
    | with_reducible apply otpBurn_kept | with_reducible apply updLed_kept | with_reducible apply Kept.ite
    | with_reducible exact Kept.of_eq rfl rfl rfl rfl (fun h => h) (fun h => h) (fun h => h) rfl
    | (split <;> try dsimp only))

theorem serviceAt_kept {σ : State} (s : State) (h0 : Kept σ s) : Kept σ (serviceAt s) := by
  refine h0.trans ?_; clear h0; unfold serviceAt
  (try dsimp only)
  repeat' (first
    | with_reducible exact Kept.refl _ | assumption | with_reducible apply setState_kept
    | with_reducible apply markReturned_kept | with_reducible apply addFlagged_kept | with_reducible apply Kept.ite)

theorem enterService_kept {σ : State} (s : State) (h0 : Kept σ s) : Kept σ (enterService s) := by
  refine h0.trans ?_; clear h0; unfold enterService
  repeat' (first
    | with_reducible exact Kept.refl _ | assumption | with_reducible apply unscheduledReport_kept
    | with_reducible apply serviceAt_kept | with_reducible apply Kept.ite)

theorem startIntervals_kept {σ : State} (s : State) (h0 : Kept σ s) : Kept σ (startIntervals s) := by
  refine h0.trans ?_; clear h0; unfold startIntervals
  repeat' (first
    | with_reducible exact Kept.refl _ | assumption | with_reducible apply updLed_kept
    | with_reducible apply Kept.ite)

theorem endB9_kept {σ : State} (s : State) (h0 : Kept σ s) : Kept σ (endB9 s) := by
  refine h0.trans ?_; clear h0; unfold endB9
  (try dsimp only)
  repeat' (first
    | with_reducible exact Kept.refl _ | assumption | with_reducible apply reportStage_kept
    | ((with_reducible apply updBoot_kept); · first | (with_reducible rfl) | (dsimp only; done) | ((repeat' split) <;> with_reducible rfl))
    | with_reducible apply escalate_kept | with_reducible apply Kept.ite
    | with_reducible exact Kept.of_eq rfl rfl rfl rfl (fun h => h) (fun h => h) (fun h => h) rfl
    | (split <;> try dsimp only))

theorem stageB9_kept {σ : State} (s : State) (h0 : Kept σ s) : Kept σ (stageB9 s) := by
  refine h0.trans ?_; clear h0; unfold stageB9
  repeat' (first
    | with_reducible exact Kept.refl _ | assumption | with_reducible apply endB9_kept
    | with_reducible apply startIntervals_kept | with_reducible apply enterService_kept
    | with_reducible apply Kept.ite)

theorem settleUnits_kept {σ : State} (s : State) (h0 : Kept σ s) : Kept σ (settleUnits s) := by
  refine h0.trans ?_; clear h0; unfold settleUnits
  repeat' (first
    | with_reducible exact Kept.refl _ | assumption
    | ((with_reducible apply updBoot_kept); · first | (with_reducible rfl) | (dsimp only; done) | ((repeat' split) <;> with_reducible rfl))
    | with_reducible apply countAdded_kept | with_reducible apply Kept.ite
    | with_reducible exact Kept.of_eq rfl rfl rfl rfl (fun h => h) (fun h => h) (fun h => h) rfl
    | (split <;> try dsimp only))

theorem stageOverruns_kept {σ : State} (s : State) (h0 : Kept σ s) : Kept σ (stageOverruns s) := by
  refine h0.trans ?_; clear h0; unfold stageOverruns
  (try dsimp only)
  repeat' (first
    | with_reducible exact Kept.refl _ | assumption | with_reducible apply stageFails_kept
    | with_reducible apply settleUnits_kept | with_reducible apply endB9_kept
    | ((with_reducible apply updBoot_kept); · first | (with_reducible rfl) | (dsimp only; done) | ((repeat' split) <;> with_reducible rfl))
    | with_reducible apply reportStage_kept | with_reducible apply enterB5_kept | with_reducible apply startStage_kept
    | with_reducible apply Kept.ite)

theorem limitReached_kept {σ : State} (dropped : StageUnit) (s : State) (h0 : Kept σ s) : Kept σ (limitReached
    dropped s) := by
  refine h0.trans ?_; clear h0; unfold limitReached
  repeat' (first
    | with_reducible exact Kept.refl _ | assumption | with_reducible apply restoreMemory_kept
    | ((with_reducible apply updBoot_kept); · first | (with_reducible rfl) | (dsimp only; done) | ((repeat' split) <;> with_reducible rfl))
    | with_reducible apply endB3_kept | with_reducible apply endB4_kept | with_reducible apply endB6_kept
    | with_reducible apply endB5_kept | with_reducible apply stageOverruns_kept | with_reducible apply Kept.ite
    | with_reducible exact Kept.of_eq rfl rfl rfl rfl (fun h => h) (fun h => h) (fun h => h) rfl
    | (split <;> try dsimp only))

theorem powerOn_kept {σ : State} (s : State) (h0 : Kept σ s) : Kept σ (powerOn s) := by
  refine h0.trans ?_; clear h0; unfold powerOn
  repeat' (first
    | with_reducible exact Kept.refl _ | assumption | with_reducible apply startStage_kept
    | with_reducible apply updRst_kept
    | ((with_reducible apply updBoot_kept); · first | (with_reducible rfl) | (dsimp only; done) | ((repeat' split) <;> with_reducible rfl))
    | with_reducible apply Kept.ite)

theorem powerLost_stored (s : State) : Stored s (powerLost s) :=
  ⟨rfl, fun _ => rfl, fun _ _ => id, fun _ => ⟨Nat.zero_le _, Nat.zero_le _, Nat.zero_le _⟩, fun _ => Nat.zero_le _,
   fun _ _ => Nat.le_refl _⟩

theorem execPwrOkRise_kept (s : State) : ∃ s', execPwrOkRise s = .next s' ∧ Kept s s' := by
  refine ⟨_, rfl, ?_⟩
  repeat' (first | with_reducible exact Kept.refl _ | assumption | with_reducible apply powerOn_kept)

theorem execSupplyLoss_stored (s : State) : ∃ s', execSupplyLoss s = .next s' ∧ Stored s s' := ⟨_, rfl, powerLost_stored s⟩

theorem execStageB0Supply_kept (t : Nat) (ctl core hbm io : Bool) (s : State) : ∃ s', execStageB0Supply t ctl
    core hbm io s = .next s' ∧ Kept s s' := by
  refine ⟨_, rfl, ?_⟩
  repeat' (first
    | with_reducible exact Kept.refl _ | assumption | with_reducible apply stageB0_kept
    | with_reducible apply atTime_kept)

theorem execStageB1Caller_kept (t : Nat) (s : State) : ∃ s', execStageB1Caller t s = .next s' ∧ Kept s s' := by
  refine ⟨_, rfl, ?_⟩
  repeat' (first
    | with_reducible exact Kept.refl _ | assumption | with_reducible apply stageB1_kept
    | with_reducible apply atTime_kept)

theorem execStageB2Clocks_kept (t : Nat) (regulators : BitVec 16) (readback : Readback) (timebase :
    TimebaseStart) (tracePll : Bool) (s : State) : ∃ s', execStageB2Clocks t regulators readback timebase
    tracePll s = .next s' ∧ Kept s s' := by
  refine ⟨_, rfl, ?_⟩
  repeat' (first
    | with_reducible exact Kept.refl _ | assumption | with_reducible apply stageB2_kept
    | with_reducible apply atTime_kept)

theorem execStageB3Memtrain_kept (t : Nat) (s : State) : ∃ s', execStageB3Memtrain t s = .next s' ∧ Kept s s' := by
  refine ⟨_, rfl, ?_⟩
  repeat' (first
    | with_reducible exact Kept.refl _ | assumption | with_reducible apply stageB3_kept
    | with_reducible apply atTime_kept)

theorem execMemtrainDone_kept (t : Nat) (r : Requester) (value : Word) (s : State) : ∃ s', execMemtrainDone t
    r value s = .next s' ∧ Kept s s' := by
  refine ⟨_, rfl, ?_⟩
  repeat' (first
    | with_reducible exact Kept.refl _ | assumption | with_reducible apply writeMemtrain_kept
    | with_reducible apply atTime_kept)

theorem execStageB4Memscreen_kept (t : Nat) (found : List StackScreen) (s : State) : ∃ s',
    execStageB4Memscreen t found s = .next s' ∧ Kept s s' := by
  refine ⟨_, rfl, ?_⟩
  repeat' (first
    | with_reducible exact Kept.refl _ | assumption | with_reducible apply stageB4_kept
    | with_reducible apply atTime_kept)

theorem execStageB5Cores_kept (t : Nat) (patternFail katFail : BitVec 256) (s : State) : ∃ s',
    execStageB5Cores t patternFail katFail s = .next s' ∧ Kept s s' := by
  refine ⟨_, rfl, ?_⟩
  repeat' (first
    | with_reducible exact Kept.refl _ | assumption | with_reducible apply stageB5_kept
    | with_reducible apply atTime_kept)

theorem execLbistSliceComplete_kept (t : Nat) (slice : Fin 316) (expected observed : Word) (s : State) : ∃ s',
    execLbistSliceComplete t slice expected observed s = .next s' ∧ Kept s s' := by
  refine ⟨_, rfl, ?_⟩
  repeat' (first
    | with_reducible exact Kept.refl _ | assumption | with_reducible apply sliceResult_kept
    | with_reducible apply atTime_kept)

theorem execLbistSliceTimeout_kept (t : Nat) (slice : Fin 316) (expected held : Word) (s : State) : ∃ s',
    execLbistSliceTimeout t slice expected held s = .next s' ∧ Kept s s' := by
  refine ⟨_, rfl, ?_⟩
  repeat' (first
    | with_reducible exact Kept.refl _ | assumption | with_reducible apply sliceResult_kept
    | with_reducible apply atTime_kept)

theorem execStageB6Fabric_kept (t : Nat) (ports : List (Option PortReport)) (s : State) : ∃ s',
    execStageB6Fabric t ports s = .next s' ∧ Kept s s' := by
  refine ⟨_, rfl, ?_⟩
  repeat' (first
    | with_reducible exact Kept.refl _ | assumption | with_reducible apply stageB6_kept
    | with_reducible apply atTime_kept)

theorem execStageB7Topology_kept (t : Nat) (s : State) : ∃ s', execStageB7Topology t s = .next s' ∧ Kept s s' := by
  refine ⟨_, rfl, ?_⟩
  repeat' (first
    | with_reducible exact Kept.refl _ | assumption | with_reducible apply stageB7_kept
    | with_reducible apply atTime_kept)

theorem execStageB8Charter_kept (t : Nat) (s : State) : ∃ s', execStageB8Charter t s = .next s' ∧ Kept s s' := by
  refine ⟨_, rfl, ?_⟩
  repeat' (first
    | with_reducible exact Kept.refl _ | assumption | with_reducible apply stageB8_kept
    | with_reducible apply atTime_kept)

theorem execStageB9Ready_kept (t : Nat) (s : State) : ∃ s', execStageB9Ready t s = .next s' ∧ Kept s s' := by
  refine ⟨_, rfl, ?_⟩
  repeat' (first
    | with_reducible exact Kept.refl _ | assumption | with_reducible apply stageB9_kept
    | with_reducible apply atTime_kept)

theorem execStageLimitReached_kept (t : Nat) (dropped : StageUnit) (s : State) : ∃ s', execStageLimitReached t
    dropped s = .next s' ∧ Kept s s' := by
  refine ⟨_, rfl, ?_⟩
  repeat' (first
    | with_reducible exact Kept.refl _ | assumption | with_reducible apply limitReached_kept
    | with_reducible apply atTime_kept)

theorem formHorizons_kept (replica : Nat) : ∀ ls {σ s : State}, Kept σ s → Kept σ (formHorizons replica ls s) := by
  intro ls
  induction ls with
  | nil => intro σ s h; exact h
  | cons a l ih =>
    intro σ s h0
    refine h0.trans ?_; clear h0; unfold formHorizons
    repeat' (first
      | with_reducible exact Kept.refl _ | with_reducible apply ih | assumption
      | with_reducible apply updStation_kept)

theorem forwardHorizon_kept {σ : State} (cl : Nat) (s : State) (h0 : Kept σ s) : Kept σ (forwardHorizon cl s) := by
  refine h0.trans ?_; clear h0; unfold forwardHorizon
  (try dsimp only)
  repeat' (first
    | with_reducible exact Kept.refl _ | assumption | with_reducible apply formHorizons_kept
    | ((with_reducible apply updHz_kept); · first | (with_reducible exact Nat.le_refl _) | (with_reducible exact fun _ => Nat.le_refl _) | exact Nat.le_refl _ | exact fun _ => Nat.le_refl _ | exact Nat.le_max_left _ _)
    | with_reducible apply Kept.ite)

theorem broadcastVh_kept {σ : State} (s : State) (h0 : Kept σ s) : Kept σ (broadcastVh s) := by
  refine h0.trans ?_; clear h0; unfold broadcastVh
  (try dsimp only)
  repeat' (first
    | with_reducible exact Kept.refl _ | assumption
    | ((with_reducible apply updHz_kept); · first | (with_reducible exact Nat.le_refl _) | (with_reducible exact fun _ => Nat.le_refl _) | exact Nat.le_refl _ | exact fun _ => Nat.le_refl _ | exact Nat.le_max_left _ _)
    | with_reducible apply Kept.ite)

theorem vhStalls_kept {σ : State} (s : State) (h0 : Kept σ s) : Kept σ (vhStalls s) := by
  refine h0.trans ?_; clear h0; unfold vhStalls
  (try dsimp only)
  repeat' (first
    | with_reducible exact Kept.refl _ | assumption | with_reducible apply occur_kept
    | ((with_reducible apply updHz_kept); · first | (with_reducible exact Nat.le_refl _) | (with_reducible exact fun _ => Nat.le_refl _) | exact Nat.le_refl _ | exact fun _ => Nat.le_refl _ | exact Nat.le_max_left _ _)
    | with_reducible apply Kept.ite)

theorem acknowledgeAll_kept {σ : State} (g : Nat) (s : State) (h0 : Kept σ s) : Kept σ (acknowledgeAll g s) := by
  refine h0.trans ?_; clear h0; unfold acknowledgeAll
  (try dsimp only)
  repeat' (first
    | with_reducible exact Kept.refl _ | assumption
    | ((with_reducible apply updHz_kept); · first | (with_reducible exact Nat.le_refl _) | (with_reducible exact fun _ => Nat.le_refl _) | exact Nat.le_refl _ | exact fun _ => Nat.le_refl _ | exact Nat.le_max_left _ _))

theorem closeGate_kept {σ : State} (g cause : Nat) (s : State) (h0 : Kept σ s) : Kept σ (closeGate g cause s) := by
  refine h0.trans ?_; clear h0; unfold closeGate
  repeat' (first
    | with_reducible exact Kept.refl _ | assumption
    | ((with_reducible apply updGate_kept); · first | (with_reducible exact Nat.le_refl _) | (with_reducible exact fun _ => Nat.le_refl _) | exact Nat.le_refl _ | exact fun _ => Nat.le_refl _ | exact Nat.le_max_left _ _)
    | ((with_reducible apply updHz_kept); · first | (with_reducible exact Nat.le_refl _) | (with_reducible exact fun _ => Nat.le_refl _) | exact Nat.le_refl _ | exact fun _ => Nat.le_refl _ | exact Nat.le_max_left _ _))

theorem gateUpdate_kept {σ : State} (g : Nat) (parityOk : Bool) (s : State) (h0 : Kept σ s) : Kept σ
    (gateUpdate g parityOk s) := by
  refine h0.trans ?_; clear h0; unfold gateUpdate
  (try dsimp only)
  repeat' (first
    | with_reducible exact Kept.refl _ | assumption | with_reducible apply closeGate_kept
    | ((with_reducible apply updGate_kept); · first | (with_reducible exact Nat.le_refl _) | (with_reducible exact fun _ => Nat.le_refl _) | exact Nat.le_refl _ | exact fun _ => Nat.le_refl _ | exact Nat.le_max_left _ _)
    | with_reducible apply acknowledgeAll_kept | with_reducible apply sweepContained_kept
    | with_reducible apply releaseItems_kept | with_reducible apply Kept.ite)

theorem gateTimeout_kept {σ : State} (g : Nat) (s : State) (h0 : Kept σ s) : Kept σ (gateTimeout g s) := by
  refine h0.trans ?_; clear h0; unfold gateTimeout
  repeat' (first
    | with_reducible exact Kept.refl _ | assumption | with_reducible apply closeGate_kept
    | with_reducible apply Kept.ite)

theorem dropPoisoned_kept  : ∀ ls {σ s : State}, Kept σ s → Kept σ (dropPoisoned  ls s) := by
  intro ls
  induction ls with
  | nil => intro σ s h; exact h
  | cons a l ih =>
    intro σ s h0
    refine h0.trans ?_; clear h0; unfold dropPoisoned
    repeat' (first
      | with_reducible exact Kept.refl _ | with_reducible apply ih | assumption
      | with_reducible apply dropAtProducer_kept
      | ((with_reducible apply updHz_kept); · first | (with_reducible exact Nat.le_refl _) | (with_reducible exact fun _ => Nat.le_refl _) | exact Nat.le_refl _ | exact fun _ => Nat.le_refl _ | exact Nat.le_max_left _ _))

theorem poisonArrives_kept {σ : State} (g : Nat) (i : ItemIn) (s : State) (h0 : Kept σ s) : Kept σ
    (poisonArrives g i s) := by
  refine h0.trans ?_; clear h0; unfold poisonArrives
  (try dsimp only)
  repeat' (first
    | with_reducible exact Kept.refl _ | assumption
    | ((with_reducible apply updGate_kept); · first | (with_reducible exact Nat.le_refl _) | (with_reducible exact fun _ => Nat.le_refl _) | exact Nat.le_refl _ | exact fun _ => Nat.le_refl _ | exact Nat.le_max_left _ _)
    | with_reducible apply dropPoisoned_kept | with_reducible apply occur_kept | with_reducible apply startFault_kept)

theorem restArrives_kept {σ : State} (g : Nat) (i : ItemIn) (rest : Bool) (s : State) (h0 : Kept σ s) : Kept σ
    (restArrives g i rest s) := by
  refine h0.trans ?_; clear h0; unfold restArrives
  (try dsimp only)
  repeat' (first
    | with_reducible exact Kept.refl _ | assumption
    | ((with_reducible apply updGate_kept); · first | (with_reducible exact Nat.le_refl _) | (with_reducible exact fun _ => Nat.le_refl _) | exact Nat.le_refl _ | exact fun _ => Nat.le_refl _ | exact Nat.le_max_left _ _)
    | with_reducible apply dropPoisoned_kept | with_reducible apply Kept.ite)

theorem placeItem_kept {σ : State} (g : Nat) (i : GItem) (s : State) (h0 : Kept σ s) : Kept σ (placeItem g i
    s) := by
  refine h0.trans ?_; clear h0; unfold placeItem
  repeat' (first
    | with_reducible exact Kept.refl _ | assumption | with_reducible apply dropContained_kept
    | with_reducible apply releaseItems_kept
    | ((with_reducible apply updGate_kept); · first | (with_reducible exact Nat.le_refl _) | (with_reducible exact fun _ => Nat.le_refl _) | exact Nat.le_refl _ | exact fun _ => Nat.le_refl _ | exact Nat.le_max_left _ _)
    | with_reducible apply Kept.ite)

theorem sectorJoins_kept {σ : State} (g : Nat) (i : ItemIn) (s : State) (h0 : Kept σ s) : Kept σ (sectorJoins
    g i s) := by
  refine h0.trans ?_; clear h0; unfold sectorJoins
  (try dsimp only)
  repeat' (first
    | with_reducible exact Kept.refl _ | assumption | with_reducible apply placeItem_kept
    | ((with_reducible apply updGate_kept); · first | (with_reducible exact Nat.le_refl _) | (with_reducible exact fun _ => Nat.le_refl _) | exact Nat.le_refl _ | exact fun _ => Nat.le_refl _ | exact Nat.le_max_left _ _)
    | with_reducible apply releaseItems_kept | with_reducible apply sweepContained_kept
    | with_reducible apply Kept.ite)

theorem itemArrives_kept {σ : State} (g : Nat) (i : ItemIn) (s : State) (h0 : Kept σ s) : Kept σ (itemArrives
    g i s) := by
  refine h0.trans ?_; clear h0; unfold itemArrives
  repeat' (first
    | with_reducible exact Kept.refl _ | assumption | with_reducible apply kitInvalid_kept
    | with_reducible apply restArrives_kept | with_reducible apply poisonArrives_kept
    | with_reducible apply sectorJoins_kept | with_reducible apply Kept.ite)

theorem execHorizonForward_kept (t : Nat) (cluster : Cluster) (lag : Fin 3) (s : State) : ∃ s',
    execHorizonForward t cluster lag s = .next s' ∧ Kept s s' := by
  refine ⟨_, rfl, ?_⟩
  repeat' (first
    | with_reducible exact Kept.refl _ | assumption | with_reducible apply forwardHorizon_kept
    | with_reducible apply atTime_kept)

theorem execVhBroadcast_kept (t : Nat) (s : State) : ∃ s', execVhBroadcast t s = .next s' ∧ Kept s s' := by
  refine ⟨_, rfl, ?_⟩
  repeat' (first
    | with_reducible exact Kept.refl _ | assumption | with_reducible apply broadcastVh_kept
    | with_reducible apply atTime_kept)

theorem execGateVhUpdate_kept (t : Nat) (point : Gate) (parityOk : Bool) (s : State) : ∃ s', execGateVhUpdate
    t point parityOk s = .next s' ∧ Kept s s' := by
  refine ⟨_, rfl, ?_⟩
  repeat' (first
    | with_reducible exact Kept.refl _ | assumption | with_reducible apply gateUpdate_kept
    | with_reducible apply atTime_kept)

theorem execGateItemArrival_kept (t : Nat) (point : Gate) (item : ItemIn) (s : State) : ∃ s',
    execGateItemArrival t point item s = .next s' ∧ Kept s s' := by
  refine ⟨_, rfl, ?_⟩
  repeat' (first
    | with_reducible exact Kept.refl _ | assumption | with_reducible apply itemArrives_kept
    | with_reducible apply atTime_kept)

theorem execGateBroadcastTimeout_kept (t : Nat) (point : Gate) (s : State) : ∃ s', execGateBroadcastTimeout t
    point s = .next s' ∧ Kept s s' := by
  refine ⟨_, rfl, ?_⟩
  repeat' (first
    | with_reducible exact Kept.refl _ | assumption | with_reducible apply gateTimeout_kept
    | with_reducible apply atTime_kept)

theorem execVhStall_kept (t : Nat) (s : State) : ∃ s', execVhStall t s = .next s' ∧ Kept s s' := by
  refine ⟨_, rfl, ?_⟩
  repeat' (first
    | with_reducible exact Kept.refl _ | assumption | with_reducible apply vhStalls_kept
    | with_reducible apply atTime_kept)

end Sys2Proof.Laws
end

