-- ==== Sys2Proof/Laws/KeptPorts.lean ====
section
/-! SUPPORT. `Kept` for every operation and meaning of seals, shutdown, tableau, work items, registers and the I3C target: one lemma each, from those of the operations it calls. -/

namespace Sys2Proof.Laws

open Sys2Proof Sys2Proof.Machine Sys2Proof.Safety

theorem writeEntries_kept (base : Nat) (cores : List Nat) (step : Nat) : ∀ ls {σ s : State}, Kept σ s → Kept σ
    (writeEntries base cores step ls s) := by
  intro ls
  induction ls with
  | nil => intro σ s h; exact h
  | cons a l ih =>
    intro σ s h0
    refine h0.trans ?_; clear h0; unfold writeEntries
    repeat' (first
      | with_reducible exact Kept.refl _ | with_reducible apply ih | assumption | with_reducible apply memStore_kept)

theorem writePage_kept {σ : State} (ctx step : Nat) (s : State) (h0 : Kept σ s) : Kept σ (writePage ctx step
    s) := by
  refine h0.trans ?_; clear h0; unfold writePage
  (try dsimp only)
  repeat' (first
    | with_reducible exact Kept.refl _ | assumption | with_reducible apply writeEntries_kept
    | with_reducible apply memStore_kept | with_reducible apply Kept.ite
    | with_reducible exact Kept.of_eq rfl rfl rfl rfl (fun h => h) (fun h => h) (fun h => h) rfl
    | (split <;> try dsimp only))

theorem freeCensus_kept (step : Nat) : ∀ ls {σ s : State}, Kept σ s → Kept σ (freeCensus step ls s) := by
  intro ls
  induction ls with
  | nil => intro σ s h; exact h
  | cons a l ih =>
    intro σ s h0
    refine h0.trans ?_; clear h0; unfold freeCensus
    repeat' (first
      | with_reducible exact Kept.refl _ | with_reducible apply ih | assumption
      | with_reducible apply updStation_kept)

theorem issueSeal_kept {σ : State} (ctx : Nat) (e : SealEntry) (x : Ctx) (tq : Nat) (s : State) (h0 : Kept σ
    s) : Kept σ (issueSeal ctx e x tq s) := by
  refine h0.trans ?_; clear h0; unfold issueSeal
  (try dsimp only)
  repeat' (first
    | with_reducible exact Kept.refl _ | assumption | with_reducible apply writePage_kept
    | with_reducible apply updCtx_kept | with_reducible apply freeCensus_kept | with_reducible apply actOn_kept
    | with_reducible apply advanceSeals_kept | with_reducible apply occur_kept | with_reducible apply observeStep_kept
    | with_reducible apply Kept.ite)

theorem sealIssues_kept {σ : State} (ctx : Nat) (s : State) (h0 : Kept σ s) : Kept σ (sealIssues ctx s) := by
  refine h0.trans ?_; clear h0; unfold sealIssues
  (try dsimp only)
  repeat' (first
    | with_reducible exact Kept.refl _ | assumption | with_reducible apply issueSeal_kept
    | with_reducible apply Kept.ite
    | with_reducible exact Kept.of_eq rfl rfl rfl rfl (fun h => h) (fun h => h) (fun h => h) rfl
    | (split <;> try dsimp only))

theorem narrow_kept {σ : State} (ctx : Nat) (s : State) (h0 : Kept σ s) : Kept σ (narrow ctx s) := by
  refine h0.trans ?_; clear h0; unfold narrow
  (try dsimp only)
  repeat' (first
    | with_reducible exact Kept.refl _ | assumption | with_reducible apply updContainment_kept
    | with_reducible apply occur_kept)

theorem setSteps_kept (step : Nat) : ∀ ls {σ s : State}, Kept σ s → Kept σ (setSteps step ls s) := by
  intro ls
  induction ls with
  | nil => intro σ s h; exact h
  | cons a l ih =>
    intro σ s h0
    refine h0.trans ?_; clear h0; unfold setSteps
    (try dsimp only)
    repeat' (first
      | with_reducible exact Kept.refl _ | with_reducible apply ih | assumption
      | with_reducible apply updStation_kept)

theorem rearmContext_kept {σ : State} (ctx : Nat) (s : State) (h0 : Kept σ s) : Kept σ (rearmContext ctx s) := by
  refine h0.trans ?_; clear h0; unfold rearmContext
  (try dsimp only)
  repeat' (first
    | with_reducible exact Kept.refl _ | assumption | with_reducible apply updCtx_kept
    | with_reducible apply narrow_kept | with_reducible apply setSteps_kept)

theorem rearm_kept {σ : State} (r : Requester) (value : Word) (s : State) (h0 : Kept σ s) : Kept σ (rearm r
    value s) := by
  refine h0.trans ?_; clear h0; unfold rearm
  (try dsimp only)
  repeat' (first
    | with_reducible exact Kept.refl _ | assumption | with_reducible apply setResult_kept
    | with_reducible apply narrow_kept | with_reducible apply rearmContext_kept | with_reducible apply Kept.ite
    | with_reducible exact Kept.of_eq rfl rfl rfl rfl (fun h => h) (fun h => h) (fun h => h) rfl
    | (split <;> try dsimp only))

theorem execSealIssue_kept (t : Nat) (ctx : CtxId) (s : State) : ∃ s', execSealIssue t ctx s = .next s' ∧ Kept
    s s' := by
  refine ⟨_, rfl, ?_⟩
  repeat' (first
    | with_reducible exact Kept.refl _ | assumption | with_reducible apply sealIssues_kept
    | with_reducible apply atTime_kept)

theorem execSealRearm_kept (t : Nat) (r : Requester) (value : Word) (s : State) : ∃ s', execSealRearm t r
    value s = .next s' ∧ Kept s s' := by
  refine ⟨_, rfl, ?_⟩
  repeat' (first
    | with_reducible exact Kept.refl _ | assumption | with_reducible apply atTime_kept
    | with_reducible apply rearm_kept | with_reducible apply Kept.ite)

theorem beginShutdown_kept {σ : State} (s : State) (h0 : Kept σ s) : Kept σ (beginShutdown s) := by
  refine h0.trans ?_; clear h0; unfold beginShutdown
  repeat' (first
    | with_reducible exact Kept.refl _ | assumption
    | ((with_reducible apply updBoot_kept); · first | (with_reducible rfl) | (dsimp only; done) | ((repeat' split) <;> with_reducible rfl)))

theorem writeShutdown_kept {σ : State} (r : Requester) (value : Word) (s : State) (h0 : Kept σ s) : Kept σ
    (writeShutdown r value s) := by
  refine h0.trans ?_; clear h0; unfold writeShutdown
  (try dsimp only)
  repeat' (first
    | with_reducible exact Kept.refl _ | assumption | with_reducible apply updCfg_kept
    | with_reducible apply setResult_kept | with_reducible apply beginShutdown_kept | with_reducible apply Kept.ite)

theorem nominalStep_kept {σ : State} (s : State) (h0 : Kept σ s) : Kept σ (nominalStep s) := by
  refine h0.trans ?_; clear h0; unfold nominalStep
  repeat' (first
    | with_reducible exact Kept.refl _ | assumption
    | ((with_reducible apply updBoot_kept); · first | (with_reducible rfl) | (dsimp only; done) | ((repeat' split) <;> with_reducible rfl))
    | with_reducible apply allNominal_kept)

theorem shutdownDrained_kept {σ : State} (s : State) (h0 : Kept σ s) : Kept σ (shutdownDrained s) := by
  refine h0.trans ?_; clear h0; unfold shutdownDrained
  repeat' (first
    | with_reducible exact Kept.refl _ | assumption | with_reducible apply nominalStep_kept
    | with_reducible apply Kept.ite)

theorem discardHeld_kept  : ∀ ls {σ s : State}, Kept σ s → Kept σ (discardHeld  ls s) := by
  intro ls
  induction ls with
  | nil => intro σ s h; exact h
  | cons a l ih =>
    intro σ s h0
    refine h0.trans ?_; clear h0; unfold discardHeld
    (try dsimp only)
    repeat' (first
      | with_reducible exact Kept.refl _ | with_reducible apply ih | assumption
      | ((with_reducible apply updGate_kept); · first | (with_reducible exact Nat.le_refl _) | (with_reducible exact fun _ => Nat.le_refl _) | exact Nat.le_refl _ | exact fun _ => Nat.le_refl _ | exact Nat.le_max_left _ _)
      | ((with_reducible apply updHz_kept); · first | (with_reducible exact Nat.le_refl _) | (with_reducible exact fun _ => Nat.le_refl _) | exact Nat.le_refl _ | exact fun _ => Nat.le_refl _ | exact Nat.le_max_left _ _))

theorem shutdownDrainLate_kept {σ : State} (s : State) (h0 : Kept σ s) : Kept σ (shutdownDrainLate s) := by
  refine h0.trans ?_; clear h0; unfold shutdownDrainLate
  repeat' (first
    | with_reducible exact Kept.refl _ | assumption | with_reducible apply nominalStep_kept
    | ((with_reducible apply updBoot_kept); · first | (with_reducible rfl) | (dsimp only; done) | ((repeat' split) <;> with_reducible rfl))
    | with_reducible apply discardHeld_kept | with_reducible apply Kept.ite)

theorem zeroise_kept {σ : State} (since : Nat) (s : State) (h0 : Kept σ s) : Kept σ (zeroise since s) := by
  refine h0.trans ?_; clear h0; unfold zeroise
  repeat' (first
    | with_reducible exact Kept.refl _ | assumption | with_reducible apply occur_kept
    | ((with_reducible apply updBoot_kept); · first | (with_reducible rfl) | (dsimp only; done) | ((repeat' split) <;> with_reducible rfl)))

theorem paceScan_kept {σ : State} (s : State) (h0 : Kept σ s) : Kept σ (paceScan s) := by
  refine h0.trans ?_; clear h0; unfold paceScan
  (try dsimp only)
  repeat' (first | with_reducible exact Kept.refl _ | assumption | with_reducible apply updTrace_kept)

theorem zeroisationDone_kept {σ : State} (s : State) (h0 : Kept σ s) : Kept σ (zeroisationDone s) := by
  refine h0.trans ?_; clear h0; unfold zeroisationDone
  (try dsimp only)
  repeat' (first
    | with_reducible exact Kept.refl _ | assumption | with_reducible apply updTab_kept
    | with_reducible apply paceScan_kept | with_reducible apply zeroise_kept
    | ((with_reducible apply updBoot_kept); · first | (with_reducible rfl) | (dsimp only; done) | ((repeat' split) <;> with_reducible rfl))
    | with_reducible apply Kept.ite
    | with_reducible exact Kept.of_eq rfl rfl rfl rfl (fun h => h) (fun h => h) (fun h => h) rfl
    | (split <;> try dsimp only))

theorem slicesDone_kept {σ : State} (s : State) (h0 : Kept σ s) : Kept σ (slicesDone s) := by
  refine h0.trans ?_; clear h0; unfold slicesDone
  repeat' (first
    | with_reducible exact Kept.refl _ | assumption | with_reducible apply offerObject_kept
    | ((with_reducible apply updBoot_kept); · first | (with_reducible rfl) | (dsimp only; done) | ((repeat' split) <;> with_reducible rfl))
    | with_reducible apply Kept.ite)

theorem haltChip_kept {σ : State} (s : State) (h0 : Kept σ s) : Kept σ (haltChip s) := by
  refine h0.trans ?_; clear h0; unfold haltChip
  repeat' (first
    | with_reducible exact Kept.refl _ | assumption | with_reducible apply oobAdd_kept
    | ((with_reducible apply updI3c_kept); · first | (with_reducible exact fun h => h))
    | ((with_reducible apply updBoot_kept); · first | (with_reducible rfl) | (dsimp only; done) | ((repeat' split) <;> with_reducible rfl))
    | with_reducible apply Kept.ite)

theorem otpMismatch_kept {σ : State} (r : Requester) (s : State) (h0 : Kept σ s) : Kept σ (otpMismatch r s).2 := by
  refine h0.trans ?_; clear h0; unfold otpMismatch
  (try dsimp only)
  repeat' (first
    | with_reducible exact Kept.refl _ | assumption | with_reducible apply countMismatch_kept
    | ((with_reducible apply updEvt_kept); · first | (with_reducible exact fun h => h) | exact fun h => setLimits_evt _ _ _ h | exact fun h => admitEv_evt _ _ _ (countUp_evt _ _ h) | exact fun h => admitWaiters_evt _ _ h | exact fun h => h))

theorem programOtp_kept {σ : State} (r : Requester) (type : Nat) (s : State) (h0 : Kept σ s) : Kept σ
    (programOtp r type s).2 := by
  refine h0.trans ?_; clear h0; unfold programOtp
  (try dsimp only)
  repeat' (first
    | with_reducible exact Kept.refl _ | assumption | with_reducible apply otpMismatch_kept
    | ((with_reducible apply updEvt_kept); · first | (with_reducible exact fun h => h) | exact fun h => setLimits_evt _ _ _ h | exact fun h => admitEv_evt _ _ _ (countUp_evt _ _ h) | exact fun h => admitWaiters_evt _ _ h | exact fun h => h)
    | ((with_reducible apply updBoot_kept); · first | (with_reducible rfl) | (dsimp only; done) | ((repeat' split) <;> with_reducible rfl))
    | with_reducible apply Kept.ite
    | with_reducible exact Kept.of_eq rfl rfl rfl rfl (fun h => h) (fun h => h) (fun h => h) rfl
    | (split <;> try dsimp only))

theorem writeOtp_kept {σ : State} (r : Requester) (value : Word) (s : State) (h0 : Kept σ s) : Kept σ
    (writeOtp r value s) := by
  refine h0.trans ?_; clear h0; unfold writeOtp
  dsimp only
  split
  · exact Kept.refl s
  · have hk : Kept s (updCfg (fun c => { c with otpRecord := BitVec.ofNat 3 (bits value.toNat 26 24) }) s) :=
      updCfg_kept _ _ (Kept.refl s)
    split
    · exact hk
    · have h := programOtp_kept r (bits value.toNat 26 24) _ hk
      split
      · rename_i heq
        rw [heq] at h
        exact setResult_kept _ _ _ _ h
      · rename_i heq
        rw [heq] at h
        exact h

theorem answerResult_kept {σ : State} (refused : Bool) (v : Nat) (s : State) (h0 : Kept σ s) : Kept σ
    (answerResult refused v s) := by
  refine h0.trans ?_; clear h0; unfold answerResult
  repeat' (first
    | with_reducible exact Kept.refl _ | assumption
    | ((with_reducible apply updI3c_kept); · first | (with_reducible exact fun h => h)))

theorem answerOtp_kept {σ : State} (r : Requester) (v : Nat) (s : State) (h0 : Kept σ s) : Kept σ (answerOtp r
    v s) := by
  refine h0.trans ?_; clear h0; unfold answerOtp
  repeat' (first
    | with_reducible exact Kept.refl _ | assumption | with_reducible apply answerResult_kept
    | with_reducible apply Kept.ite
    | with_reducible exact Kept.of_eq rfl rfl rfl rfl (fun h => h) (fun h => h) (fun h => h) rfl
    | (split <;> try dsimp only))

theorem slotProgrammed_kept {σ : State} (s : State) (h0 : Kept σ s) : Kept σ (slotProgrammed s) := by
  refine h0.trans ?_; clear h0; unfold slotProgrammed
  (try dsimp only)
  repeat' (first
    | with_reducible exact Kept.refl _ | assumption
    | ((with_reducible apply updBoot_kept); · first | (with_reducible rfl) | (dsimp only; done) | ((repeat' split) <;> with_reducible rfl))
    | with_reducible apply offerImage_kept | with_reducible apply otpBurn_kept | with_reducible apply answerOtp_kept
    | with_reducible apply setResult_kept | with_reducible apply Kept.ite
    | with_reducible exact Kept.of_eq rfl rfl rfl rfl (fun h => h) (fun h => h) (fun h => h) rfl
    | (split <;> try dsimp only))

theorem execShutdown_kept (t : Nat) (r : Requester) (value : Word) (s : State) : ∃ s', execShutdown t r value
    s = .next s' ∧ Kept s s' := by
  refine ⟨_, rfl, ?_⟩
  repeat' (first
    | with_reducible exact Kept.refl _ | assumption | with_reducible apply atTime_kept
    | with_reducible apply writeShutdown_kept | with_reducible apply Kept.ite)

theorem execShutdownDrainDone_kept (t : Nat) (s : State) : ∃ s', execShutdownDrainDone t s = .next s' ∧ Kept s
    s' := by
  refine ⟨_, rfl, ?_⟩
  repeat' (first
    | with_reducible exact Kept.refl _ | assumption | with_reducible apply shutdownDrained_kept
    | with_reducible apply atTime_kept)

theorem execShutdownDrainTimeout_kept (t : Nat) (s : State) : ∃ s', execShutdownDrainTimeout t s = .next s' ∧
    Kept s s' := by
  refine ⟨_, rfl, ?_⟩
  repeat' (first
    | with_reducible exact Kept.refl _ | assumption | with_reducible apply shutdownDrainLate_kept
    | with_reducible apply atTime_kept)

theorem execZeroisationComplete_kept (t : Nat) (s : State) : ∃ s', execZeroisationComplete t s = .next s' ∧
    Kept s s' := by
  refine ⟨_, rfl, ?_⟩
  repeat' (first
    | with_reducible exact Kept.refl _ | assumption | with_reducible apply zeroisationDone_kept
    | with_reducible apply atTime_kept)

theorem execShutdownSlicesDone_kept (t : Nat) (s : State) : ∃ s', execShutdownSlicesDone t s = .next s' ∧ Kept
    s s' := by
  refine ⟨_, rfl, ?_⟩
  repeat' (first
    | with_reducible exact Kept.refl _ | assumption | with_reducible apply slicesDone_kept
    | with_reducible apply atTime_kept)

theorem execOtpProgram_kept (t : Nat) (r : Requester) (value : Word) (s : State) : ∃ s', execOtpProgram t r
    value s = .next s' ∧ Kept s s' := by
  refine ⟨_, rfl, ?_⟩
  repeat' (first
    | with_reducible exact Kept.refl _ | assumption | with_reducible apply atTime_kept
    | with_reducible apply writeOtp_kept | with_reducible apply Kept.ite)

theorem execOtpSlotProgrammed_kept (t : Nat) (s : State) : ∃ s', execOtpSlotProgrammed t s = .next s' ∧ Kept s
    s' := by
  refine ⟨_, rfl, ?_⟩
  repeat' (first
    | with_reducible exact Kept.refl _ | assumption | with_reducible apply slotProgrammed_kept
    | with_reducible apply atTime_kept)

theorem writeHalt_kept {σ : State} (r : Requester) (s : State) (h0 : Kept σ s) : Kept σ (writeHalt r s) := by
  refine h0.trans ?_; clear h0; unfold writeHalt
  (try dsimp only)
  repeat' (first
    | with_reducible exact Kept.refl _ | assumption | with_reducible apply setResult_kept
    | with_reducible apply tableauTrigger_kept | with_reducible apply Kept.ite)

theorem stopIn_kept {σ : State} (s : State) (h0 : Kept σ s) : Kept σ (stopIn s) := by
  refine h0.trans ?_; clear h0; unfold stopIn
  repeat' (first
    | with_reducible exact Kept.refl _ | assumption | with_reducible apply tableauTrigger_kept
    | with_reducible apply Kept.ite)

theorem tableauHalted_kept {σ : State} (latency : Nat) (s : State) (h0 : Kept σ s) : Kept σ (tableauHalted
    latency s) := by
  refine h0.trans ?_; clear h0; unfold tableauHalted
  (try dsimp only)
  repeat' (first
    | with_reducible exact Kept.refl _ | assumption | with_reducible apply updTab_kept
    | with_reducible apply capture_kept | with_reducible apply msix_kept | with_reducible apply occurEv_kept
    | with_reducible apply Kept.ite)

theorem releaseHold_kept {σ : State} (s : State) (h0 : Kept σ s) : Kept σ (releaseHold s) := by
  refine h0.trans ?_; clear h0; unfold releaseHold
  (try dsimp only)
  repeat' (first
    | with_reducible exact Kept.refl _ | assumption | with_reducible apply startWaiting_kept
    | with_reducible apply updRst_kept | with_reducible apply endHold_kept)

theorem writeRelease_kept {σ : State} (r : Requester) (s : State) (h0 : Kept σ s) : Kept σ (writeRelease r s) := by
  refine h0.trans ?_; clear h0; unfold writeRelease
  (try dsimp only)
  repeat' (first
    | with_reducible exact Kept.refl _ | assumption | with_reducible apply setResult_kept
    | with_reducible apply releaseHold_kept | with_reducible apply Kept.ite)

theorem writeScan_kept {σ : State} (r : Requester) (s : State) (h0 : Kept σ s) : Kept σ (writeScan r s) := by
  refine h0.trans ?_; clear h0; unfold writeScan
  (try dsimp only)
  repeat' (first
    | with_reducible exact Kept.refl _ | assumption | with_reducible apply setResult_kept
    | ((with_reducible apply updBoot_kept); · first | (with_reducible rfl) | (dsimp only; done) | ((repeat' split) <;> with_reducible rfl))
    | with_reducible apply updTab_kept | with_reducible apply Kept.ite)

theorem scanRecord_kept {σ : State} (seg at_ : Nat) (bs : List Byte) (s : State) (h0 : Kept σ s) : Kept σ
    (scanRecord seg at_ bs s) := by
  refine h0.trans ?_; clear h0; unfold scanRecord
  (try dsimp only)
  repeat' (first
    | with_reducible exact Kept.refl _ | assumption | with_reducible apply traceVia_kept
    | with_reducible apply linePut_kept | with_reducible apply noteGap_kept | with_reducible apply Kept.ite
    | with_reducible exact Kept.of_eq rfl rfl rfl rfl (fun h => h) (fun h => h) (fun h => h) rfl
    | (intro _; try dsimp only))

theorem scanRecords_kept (seg : Nat) (bs : List Byte) : ∀ ls {σ s : State}, Kept σ s → Kept σ (scanRecords seg
    bs ls s) := by
  intro ls
  induction ls with
  | nil => intro σ s h; exact h
  | cons a l ih =>
    intro σ s h0
    refine h0.trans ?_; clear h0; unfold scanRecords
    repeat' (first
      | with_reducible exact Kept.refl _ | with_reducible apply ih | assumption
      | with_reducible apply scanRecord_kept)

theorem scanBlock_kept {σ : State} (seg : Nat) (bs : List Byte) (s : State) (h0 : Kept σ s) : Kept σ
    (scanBlock seg bs s) := by
  refine h0.trans ?_; clear h0; unfold scanBlock
  repeat' (first | with_reducible exact Kept.refl _ | assumption | with_reducible apply scanRecords_kept)

theorem portSegments_kept (src : State) : ∀ ls {σ s : State}, Kept σ s → Kept σ (portSegments src ls s) := by
  intro ls
  induction ls with
  | nil => intro σ s h; exact h
  | cons a l ih =>
    intro σ s h0
    refine h0.trans ?_; clear h0; unfold portSegments
    repeat' (first
      | with_reducible exact Kept.refl _ | with_reducible apply ih | assumption | with_reducible apply scanBlock_kept)

theorem memSegments_kept (src : State) : ∀ ls {σ s : State}, Kept σ s → Kept σ (memSegments src ls s) := by
  intro ls
  induction ls with
  | nil => intro σ s h; exact h
  | cons a l ih =>
    intro σ s h0
    refine h0.trans ?_; clear h0; unfold memSegments
    repeat' (first
      | with_reducible exact Kept.refl _ | with_reducible apply ih | assumption | with_reducible apply memStore_kept)

theorem scanComplete_kept {σ : State} (s : State) (h0 : Kept σ s) : Kept σ (scanComplete s) := by
  refine h0.trans ?_; clear h0; unfold scanComplete
  (try dsimp only)
  repeat' (first
    | with_reducible exact Kept.refl _ | assumption | with_reducible apply scanBlock_kept
    | with_reducible apply portSegments_kept | with_reducible apply memStore_kept
    | with_reducible apply memSegments_kept | with_reducible apply updTab_kept | with_reducible apply Kept.ite)

theorem writeSnap_kept {σ : State} (r : Requester) (s : State) (h0 : Kept σ s) : Kept σ (writeSnap r s) := by
  refine h0.trans ?_; clear h0; unfold writeSnap
  repeat' (first
    | with_reducible exact Kept.refl _ | assumption | with_reducible apply setResult_kept
    | with_reducible apply updTrace_kept | with_reducible apply Kept.ite)

theorem latchStation_kept {σ : State} (ts c : Nat) (s : State) (h0 : Kept σ s) : Kept σ (latchStation ts c s) := by
  refine h0.trans ?_; clear h0; unfold latchStation
  (try dsimp only)
  repeat' (first
    | with_reducible exact Kept.refl _ | assumption | with_reducible apply updStation_kept
    | with_reducible apply traceAlways_kept | with_reducible apply Kept.ite)

theorem latchStations_kept (ts : Nat) : ∀ ls {σ s : State}, Kept σ s → Kept σ (latchStations ts ls s) := by
  intro ls
  induction ls with
  | nil => intro σ s h; exact h
  | cons a l ih =>
    intro σ s h0
    refine h0.trans ?_; clear h0; unfold latchStations
    repeat' (first
      | with_reducible exact Kept.refl _ | with_reducible apply ih | assumption
      | with_reducible apply latchStation_kept)

theorem snapLatches_kept {σ : State} (s : State) (h0 : Kept σ s) : Kept σ (snapLatches s) := by
  refine h0.trans ?_; clear h0; unfold snapLatches
  (try dsimp only)
  repeat' (first
    | with_reducible exact Kept.refl _ | assumption | with_reducible apply latchStations_kept
    | with_reducible apply updTrace_kept | with_reducible apply Kept.ite
    | with_reducible exact Kept.of_eq rfl rfl rfl rfl (fun h => h) (fun h => h) (fun h => h) rfl
    | (split <;> try dsimp only))

theorem writeMark_kept {σ : State} (r : Requester) (upper : Word) (lower : Option Word) (s : State) (h0 : Kept
    σ s) : Kept σ (writeMark r upper lower s) := by
  refine h0.trans ?_; clear h0; unfold writeMark
  (try dsimp only)
  repeat' (first
    | with_reducible exact Kept.refl _ | assumption | with_reducible apply updTrace_kept
    | with_reducible apply updCfg_kept | with_reducible apply traceRec_kept | with_reducible apply Kept.ite)

theorem writeBufRd_kept {σ : State} (r : Requester) (value : Word) (s : State) (h0 : Kept σ s) : Kept σ
    (writeBufRd r value s) := by
  refine h0.trans ?_; clear h0; unfold writeBufRd
  (try dsimp only)
  repeat' (first
    | with_reducible exact Kept.refl _ | assumption | with_reducible apply updTrace_kept
    | with_reducible apply Kept.ite)

theorem readyChanges_kept {σ : State} (ready : Bool) (s : State) (h0 : Kept σ s) : Kept σ (readyChanges ready
    s) := by
  refine h0.trans ?_; clear h0; unfold readyChanges
  (try dsimp only)
  repeat' (first
    | with_reducible exact Kept.refl _ | assumption | with_reducible apply updTrace_kept
    | with_reducible apply startFlush_kept | with_reducible apply linesUp_kept | with_reducible apply linesDown_kept
    | with_reducible apply Kept.ite)

theorem lineFeed_kept (p : Nat) : ∀ ls {σ s : State}, Kept σ s → Kept σ (lineFeed p ls s) := by
  intro ls
  induction ls with
  | nil => intro σ s h; exact h
  | cons a l ih =>
    intro σ s h0
    refine h0.trans ?_; clear h0; unfold lineFeed
    repeat' (first
      | with_reducible exact Kept.refl _ | with_reducible apply ih | assumption | with_reducible apply linePut_kept)

theorem bufferFlushed_kept {σ : State} (s : State) (h0 : Kept σ s) : Kept σ (bufferFlushed s) := by
  refine h0.trans ?_; clear h0; unfold bufferFlushed
  (try dsimp only)
  repeat' (first
    | with_reducible exact Kept.refl _ | assumption | with_reducible apply lineFeed_kept
    | with_reducible apply updTrace_kept | with_reducible apply Kept.ite)

theorem loadTest_kept {σ : State} (v : Byte) (s : State) (h0 : Kept σ s) : Kept σ (loadTest v s) := by
  refine h0.trans ?_; clear h0; unfold loadTest
  (try dsimp only)
  repeat' (first
    | with_reducible exact Kept.refl _ | assumption
    | ((with_reducible apply updBoot_kept); · first | (with_reducible rfl) | (dsimp only; done) | ((repeat' split) <;> with_reducible rfl))
    | ((with_reducible apply updOut_kept); · first | (with_reducible exact rfl) | exact rfl)
    | with_reducible apply Kept.ite)

theorem execTableauHalt_kept (t : Nat) (r : Requester) (s : State) : ∃ s', execTableauHalt t r s = .next s' ∧
    Kept s s' := by
  refine ⟨_, rfl, ?_⟩
  repeat' (first
    | with_reducible exact Kept.refl _ | assumption | with_reducible apply atTime_kept
    | with_reducible apply writeHalt_kept | with_reducible apply Kept.ite)

theorem execStopInAsserted_kept (t : Nat) (s : State) : ∃ s', execStopInAsserted t s = .next s' ∧ Kept s s' := by
  refine ⟨_, rfl, ?_⟩
  repeat' (first
    | with_reducible exact Kept.refl _ | assumption | with_reducible apply stopIn_kept
    | with_reducible apply atTime_kept)

theorem execTableauHalted_kept (t : Nat) (latency : Nat) (s : State) : ∃ s', execTableauHalted t latency s =
    .next s' ∧ Kept s s' := by
  refine ⟨_, rfl, ?_⟩
  repeat' (first
    | with_reducible exact Kept.refl _ | assumption | with_reducible apply tableauHalted_kept
    | with_reducible apply atTime_kept)

theorem execTableauRelease_kept (t : Nat) (r : Requester) (s : State) : ∃ s', execTableauRelease t r s = .next
    s' ∧ Kept s s' := by
  refine ⟨_, rfl, ?_⟩
  repeat' (first
    | with_reducible exact Kept.refl _ | assumption | with_reducible apply atTime_kept
    | with_reducible apply writeRelease_kept | with_reducible apply Kept.ite)

theorem execTableauScan_kept (t : Nat) (r : Requester) (s : State) : ∃ s', execTableauScan t r s = .next s' ∧
    Kept s s' := by
  refine ⟨_, rfl, ?_⟩
  repeat' (first
    | with_reducible exact Kept.refl _ | assumption | with_reducible apply atTime_kept
    | with_reducible apply writeScan_kept | with_reducible apply Kept.ite)

theorem execScanImageComplete_kept (t : Nat) (s : State) : ∃ s', execScanImageComplete t s = .next s' ∧ Kept s
    s' := by
  refine ⟨_, rfl, ?_⟩
  repeat' (first
    | with_reducible exact Kept.refl _ | assumption | with_reducible apply scanComplete_kept
    | with_reducible apply atTime_kept)

theorem execCounterSnap_kept (t : Nat) (r : Requester) (s : State) : ∃ s', execCounterSnap t r s = .next s' ∧
    Kept s s' := by
  refine ⟨_, rfl, ?_⟩
  repeat' (first
    | with_reducible exact Kept.refl _ | assumption | with_reducible apply writeSnap_kept
    | with_reducible apply atTime_kept)

theorem execCounterSnapshotLatch_kept (t : Nat) (s : State) : ∃ s', execCounterSnapshotLatch t s = .next s' ∧
    Kept s s' := by
  refine ⟨_, rfl, ?_⟩
  repeat' (first
    | with_reducible exact Kept.refl _ | assumption | with_reducible apply snapLatches_kept
    | with_reducible apply atTime_kept)

theorem execTraceMarkWrite_kept (t : Nat) (r : Requester) (upper : Word) (lower : Option Word) (s : State) : ∃
    s', execTraceMarkWrite t r upper lower s = .next s' ∧ Kept s s' := by
  refine ⟨_, rfl, ?_⟩
  repeat' (first
    | with_reducible exact Kept.refl _ | assumption | with_reducible apply writeMark_kept
    | with_reducible apply atTime_kept)

theorem execTraceBufRdWrite_kept (t : Nat) (r : Requester) (value : Word) (s : State) : ∃ s',
    execTraceBufRdWrite t r value s = .next s' ∧ Kept s s' := by
  refine ⟨_, rfl, ?_⟩
  repeat' (first
    | with_reducible exact Kept.refl _ | assumption | with_reducible apply writeBufRd_kept
    | with_reducible apply atTime_kept)

theorem execTraceRdyChange_kept (t : Nat) (ready : Bool) (s : State) : ∃ s', execTraceRdyChange t ready s =
    .next s' ∧ Kept s s' := by
  refine ⟨_, rfl, ?_⟩
  repeat' (first
    | with_reducible exact Kept.refl _ | assumption | with_reducible apply readyChanges_kept
    | with_reducible apply atTime_kept)

theorem execTraceBufferFlushed_kept (t : Nat) (s : State) : ∃ s', execTraceBufferFlushed t s = .next s' ∧ Kept
    s s' := by
  refine ⟨_, rfl, ?_⟩
  repeat' (first
    | with_reducible exact Kept.refl _ | assumption | with_reducible apply bufferFlushed_kept
    | with_reducible apply atTime_kept)

theorem execTestInstructionLoad_kept (t : Nat) (value : Byte) (s : State) : ∃ s', execTestInstructionLoad t
    value s = .next s' ∧ Kept s s' := by
  refine ⟨_, rfl, ?_⟩
  repeat' (first
    | with_reducible exact Kept.refl _ | assumption | with_reducible apply loadTest_kept
    | with_reducible apply atTime_kept)

theorem assignObjects_kept (ctx : Nat) (p : Word) : ∀ ls {σ s : State}, Kept σ s → Kept σ (assignObjects ctx p
    ls s) := by
  intro ls
  induction ls with
  | nil => intro σ s h; exact h
  | cons a l ih =>
    intro σ s h0
    refine h0.trans ?_; clear h0; unfold assignObjects
    repeat' (first
      | with_reducible exact Kept.refl _ | with_reducible apply ih | assumption | with_reducible apply updObject_kept)

theorem installMonitors_kept (ctx : Nat) : ∀ ls v0 {σ s : State}, Kept σ s → Kept σ (installMonitors ctx ls v0
    s) := by
  intro ls
  induction ls with
  | nil => intro v0 σ s h; exact h
  | cons a l ih =>
    intro v0 σ s h0
    refine h0.trans ?_; clear h0; unfold installMonitors
    (try dsimp only)
    repeat' (first
      | with_reducible exact Kept.refl _ | with_reducible apply ih | assumption | with_reducible apply updSync_kept
      | with_reducible apply Kept.ite)

theorem resetSteps_kept  : ∀ ls {σ s : State}, Kept σ s → Kept σ (resetSteps  ls s) := by
  intro ls
  induction ls with
  | nil => intro σ s h; exact h
  | cons a l ih =>
    intro σ s h0
    refine h0.trans ?_; clear h0; unfold resetSteps
    (try dsimp only)
    repeat' (first
      | with_reducible exact Kept.refl _ | with_reducible apply ih | assumption
      | with_reducible apply updStation_kept)

theorem startContext_kept {σ : State} (ctx : Nat) (p : Word) (s : State) (h0 : Kept σ s) : Kept σ
    (startContext ctx p s) := by
  refine h0.trans ?_; clear h0; unfold startContext
  split
  · exact Kept.refl s
  · refine occur_kept _ _ _ _ _ _ (resetSteps_kept _ (updSync_kept _ _ ?_))
    exact (installMonitors_kept _ _ _ (assignObjects_kept _ _ _ (Kept.refl s))).trans (Kept.of_eq rfl rfl rfl rfl id id id rfl)

theorem finishItem_kept {σ : State} (ring kind status : Nat) (s : State) (h0 : Kept σ s) : Kept σ (finishItem
    ring kind status s) := by
  refine h0.trans ?_; clear h0; unfold finishItem
  (try dsimp only)
  repeat' (first
    | with_reducible exact Kept.refl _ | assumption | with_reducible apply memStore_kept
    | with_reducible apply syncError_kept | with_reducible apply Kept.ite)

theorem takeItem_kept {σ : State} (ring : Nat) (kind : Nat → Bool) (act : List Byte → State → Nat × State) (s
    : State) (hact : ∀ x0 {σ s : State}, Kept σ s → Kept σ (act x0 s).2) (h0 : Kept σ s) : Kept σ (takeItem
    ring kind act s) := by
  refine h0.trans ?_; clear h0; unfold takeItem
  (try dsimp only)
  repeat' (first
    | with_reducible exact Kept.refl _ | assumption | with_reducible apply finishItem_kept | with_reducible apply hact
    | with_reducible apply Kept.ite
    | with_reducible exact Kept.of_eq rfl rfl rfl rfl (fun h => h) (fun h => h) (fun h => h) rfl
    | (split <;> try dsimp only))

theorem itemStart_kept {σ : State} (ring : Nat) (l : List Byte) (s : State) (h0 : Kept σ s) : Kept σ
    (itemStart ring l s).2 := by
  refine h0.trans ?_; clear h0; unfold itemStart
  (try dsimp only)
  repeat' (first
    | with_reducible exact Kept.refl _ | assumption | with_reducible apply startContext_kept
    | with_reducible apply Kept.ite
    | with_reducible exact Kept.of_eq rfl rfl rfl rfl (fun h => h) (fun h => h) (fun h => h) rfl
    | (split <;> try dsimp only))

theorem itemEnd_kept {σ : State} (l : List Byte) (s : State) (h0 : Kept σ s) : Kept σ (itemEnd l s).2 := by
  refine h0.trans ?_; clear h0; unfold itemEnd
  (try dsimp only)
  repeat' (first
    | with_reducible exact Kept.refl _ | assumption | with_reducible apply endContext_kept
    | with_reducible apply Kept.ite
    | with_reducible exact Kept.of_eq rfl rfl rfl rfl (fun h => h) (fun h => h) (fun h => h) rfl
    | (split <;> try dsimp only))

theorem itemOp_kept {σ : State} (ring : Nat) (l : List Byte) (s : State) (h0 : Kept σ s) : Kept σ (itemOp ring
    l s).2 := by
  refine h0.trans ?_; clear h0; unfold itemOp
  (try dsimp only)
  repeat' (first
    | with_reducible exact Kept.refl _ | assumption | with_reducible apply actOn_kept
    | with_reducible apply sealChanged_kept | with_reducible apply Kept.ite
    | with_reducible exact Kept.of_eq rfl rfl rfl rfl (fun h => h) (fun h => h) (fun h => h) rfl
    | (split <;> try dsimp only))

theorem itemArm_kept {σ : State} (l : List Byte) (s : State) (h0 : Kept σ s) : Kept σ (itemArm l s).2 := by
  refine h0.trans ?_; clear h0; unfold itemArm
  (try dsimp only)
  repeat' (first
    | with_reducible exact Kept.refl _ | assumption | with_reducible apply updSync_kept
    | with_reducible apply Kept.ite
    | with_reducible exact Kept.of_eq rfl rfl rfl rfl (fun h => h) (fun h => h) (fun h => h) rfl
    | (split <;> try dsimp only))

theorem itemDisarm_kept {σ : State} (l : List Byte) (s : State) (h0 : Kept σ s) : Kept σ (itemDisarm l s).2 := by
  refine h0.trans ?_; clear h0; unfold itemDisarm
  (try dsimp only)
  repeat' (first
    | with_reducible exact Kept.refl _ | assumption | with_reducible apply updSync_kept
    | with_reducible apply Kept.ite
    | with_reducible exact Kept.of_eq rfl rfl rfl rfl (fun h => h) (fun h => h) (fun h => h) rfl
    | (split <;> try dsimp only))

theorem writeWorkList_kept {σ : State} (r : Requester) (ring : Nat) (value : DWord) (s : State) (h0 : Kept σ
    s) : Kept σ (writeWorkList r ring value s) := by
  refine h0.trans ?_; clear h0; unfold writeWorkList
  (try dsimp only)
  repeat' (first
    | with_reducible exact Kept.refl _ | assumption | with_reducible apply updSync_kept
    | with_reducible apply Kept.ite)

theorem forceG1_kept {σ : State} (value : Word) (s : State) (h0 : Kept σ s) : Kept σ (forceG1 value s) := by
  refine h0.trans ?_; clear h0; unfold forceG1
  (try dsimp only)
  repeat' (first
    | with_reducible exact Kept.refl _ | assumption | with_reducible apply updCfg_kept
    | with_reducible apply occur_kept | with_reducible apply sealChanged_kept | with_reducible apply change_kept
    | with_reducible apply Kept.ite)

theorem execContextStart_kept (t : Nat) (ring : Fin 2) (s : State) : ∃ s', execContextStart t ring s = .next
    s' ∧ Kept s s' := by
  refine ⟨_, rfl, ?_⟩
  repeat' (first
    | with_reducible exact Kept.refl _ | assumption | with_reducible apply takeItem_kept
    | with_reducible apply itemStart_kept | with_reducible apply atTime_kept | with_reducible apply Kept.ite
    | with_reducible exact Kept.of_eq rfl rfl rfl rfl (fun h => h) (fun h => h) (fun h => h) rfl
    | (intro _; try dsimp only))

theorem execContextEnd_kept (t : Nat) (ring : Fin 2) (s : State) : ∃ s', execContextEnd t ring s = .next s' ∧
    Kept s s' := by
  refine ⟨_, rfl, ?_⟩
  repeat' (first
    | with_reducible exact Kept.refl _ | assumption | with_reducible apply takeItem_kept
    | with_reducible apply itemEnd_kept | with_reducible apply atTime_kept | with_reducible apply Kept.ite
    | with_reducible exact Kept.of_eq rfl rfl rfl rfl (fun h => h) (fun h => h) (fun h => h) rfl
    | (intro _; try dsimp only))

theorem execObjectOp_kept (t : Nat) (ring : Fin 2) (s : State) : ∃ s', execObjectOp t ring s = .next s' ∧ Kept
    s s' := by
  refine ⟨_, rfl, ?_⟩
  repeat' (first
    | with_reducible exact Kept.refl _ | assumption | with_reducible apply takeItem_kept
    | with_reducible apply itemOp_kept | with_reducible apply atTime_kept | with_reducible apply Kept.ite
    | with_reducible exact Kept.of_eq rfl rfl rfl rfl (fun h => h) (fun h => h) (fun h => h) rfl
    | (intro _; try dsimp only))

theorem execMonArm_kept (t : Nat) (ring : Fin 2) (s : State) : ∃ s', execMonArm t ring s = .next s' ∧ Kept s
    s' := by
  refine ⟨_, rfl, ?_⟩
  repeat' (first
    | with_reducible exact Kept.refl _ | assumption | with_reducible apply takeItem_kept
    | with_reducible apply itemArm_kept | with_reducible apply atTime_kept | with_reducible apply Kept.ite
    | with_reducible exact Kept.of_eq rfl rfl rfl rfl (fun h => h) (fun h => h) (fun h => h) rfl
    | (intro _; try dsimp only))

theorem execMonDisarm_kept (t : Nat) (ring : Fin 2) (s : State) : ∃ s', execMonDisarm t ring s = .next s' ∧
    Kept s s' := by
  refine ⟨_, rfl, ?_⟩
  repeat' (first
    | with_reducible exact Kept.refl _ | assumption | with_reducible apply takeItem_kept
    | with_reducible apply itemDisarm_kept | with_reducible apply atTime_kept | with_reducible apply Kept.ite
    | with_reducible exact Kept.of_eq rfl rfl rfl rfl (fun h => h) (fun h => h) (fun h => h) rfl
    | (intro _; try dsimp only))

theorem execWorkListConfigWrite_kept (t : Nat) (r : Requester) (ring : Fin 2) (value : DWord) (s : State) : ∃
    s', execWorkListConfigWrite t r ring value s = .next s' ∧ Kept s s' := by
  refine ⟨_, rfl, ?_⟩
  repeat' (first
    | with_reducible exact Kept.refl _ | assumption | with_reducible apply atTime_kept
    | with_reducible apply writeWorkList_kept | with_reducible apply Kept.ite)

theorem execG1ForceGo_kept (t : Nat) (value : Word) (s : State) : ∃ s', execG1ForceGo t value s = .next s' ∧
    Kept s s' := by
  refine ⟨_, rfl, ?_⟩
  repeat' (first
    | with_reducible exact Kept.refl _ | assumption | with_reducible apply atTime_kept
    | with_reducible apply forceG1_kept | with_reducible apply Kept.ite)

theorem readLatched_kept {σ : State} (r : Requester) (o : Nat) (s : State) (h0 : Kept σ s) : Kept σ
    (readLatched r o s).2 := by
  refine h0.trans ?_; clear h0; unfold readLatched
  repeat' (first
    | with_reducible exact Kept.refl _ | assumption | with_reducible apply updCfg_kept | with_reducible apply Kept.ite
    | with_reducible exact Kept.of_eq rfl rfl rfl rfl (fun h => h) (fun h => h) (fun h => h) rfl
    | (split <;> try dsimp only))

theorem windowRead_kept {σ : State} (r : Requester) (o : Nat) (s : State) (h0 : Kept σ s) : Kept σ (windowRead
    r o s).2 := by
  refine h0.trans ?_; clear h0; unfold windowRead
  repeat' (first
    | with_reducible exact Kept.refl _ | assumption | with_reducible apply readLatched_kept
    | with_reducible apply Kept.ite
    | with_reducible exact Kept.of_eq rfl rfl rfl rfl (fun h => h) (fun h => h) (fun h => h) rfl
    | (split <;> try dsimp only))

theorem busRead_kept {σ : State} (r : Requester) (o n : Nat) (s : State) (h0 : Kept σ s) : Kept σ (busRead r o
    n s).2 := by
  refine h0.trans ?_; clear h0; unfold busRead
  (try dsimp only)
  repeat' (first
    | with_reducible exact Kept.refl _ | assumption | with_reducible apply windowRead_kept
    | with_reducible apply Kept.ite
    | with_reducible exact Kept.of_eq rfl rfl rfl rfl (fun h => h) (fun h => h) (fun h => h) rfl
    | (split <;> try dsimp only))

theorem recordMode_kept {σ : State} (s : State) (h0 : Kept σ s) : Kept σ (recordMode s) := by
  refine h0.trans ?_; clear h0; unfold recordMode
  repeat' (first | with_reducible exact Kept.refl _ | assumption | with_reducible apply occur_kept)

theorem setMode_kept {σ : State} (m : Nat) (s : State) (h0 : Kept σ s) : Kept σ (setMode m s) := by
  refine h0.trans ?_; clear h0; unfold setMode
  repeat' (first
    | with_reducible exact Kept.refl _ | assumption | with_reducible apply recordMode_kept
    | ((with_reducible apply updI3c_kept); · first | (with_reducible exact fun h => h))
    | with_reducible apply Kept.ite)

theorem noteTransfer_kept {σ : State} (s : State) (h0 : Kept σ s) : Kept σ (noteTransfer s) := by
  refine h0.trans ?_; clear h0; unfold noteTransfer
  repeat' (first
    | with_reducible exact Kept.refl _ | assumption | with_reducible apply setMode_kept
    | with_reducible apply Kept.ite)

theorem assignAddress_kept {σ : State} (entdaa : Bool) (addr : BitVec 7) (s : State) (h0 : Kept σ s) : Kept σ
    (assignAddress entdaa addr s) := by
  refine h0.trans ?_; clear h0; unfold assignAddress
  (try dsimp only)
  repeat' (first
    | with_reducible exact Kept.refl _ | assumption
    | ((with_reducible apply updOut_kept); · first | (with_reducible exact rfl) | exact rfl)
    | with_reducible apply recordMode_kept
    | ((with_reducible apply updI3c_kept); · first | (with_reducible exact fun h => h))
    | with_reducible apply Kept.ite)

theorem resetAddress_kept {σ : State} (s : State) (h0 : Kept σ s) : Kept σ (resetAddress s) := by
  refine h0.trans ?_; clear h0; unfold resetAddress
  (try dsimp only)
  repeat' (first
    | with_reducible exact Kept.refl _ | assumption
    | ((with_reducible apply updI3c_kept); · first | (with_reducible exact fun h => h))
    | with_reducible apply setMode_kept | with_reducible apply Kept.ite)

theorem answer_kept {σ : State} (result : Nat) (data : List Byte) (s : State) (h0 : Kept σ s) : Kept σ (answer
    result data s) := by
  refine h0.trans ?_; clear h0; unfold answer
  repeat' (first
    | with_reducible exact Kept.refl _ | assumption
    | ((with_reducible apply updI3c_kept); · first | (with_reducible exact fun h => h)))

theorem command_kept {σ : State} (cmd : Nat) (tag : Byte) (arg : List Byte) (crc : Word) (act : State → State)
    (s : State) (hact : ∀  {σ s : State}, Kept σ s → Kept σ (act  s)) (h0 : Kept σ s) : Kept σ (command cmd
    tag arg crc act s) := by
  refine h0.trans ?_; clear h0; unfold command
  (try dsimp only)
  repeat' (first
    | with_reducible exact Kept.refl _ | assumption | with_reducible apply noteTransfer_kept
    | ((with_reducible apply updI3c_kept); · first | (with_reducible exact fun h => h))
    | with_reducible apply answer_kept | with_reducible apply hact | with_reducible apply Kept.ite)

theorem callerCommand_kept {σ : State} (act : State → State) (s : State) (hact : ∀  {σ s : State}, Kept σ s →
    Kept σ (act  s)) (h0 : Kept σ s) : Kept σ (callerCommand act s) := by
  refine h0.trans ?_; clear h0; unfold callerCommand
  repeat' (first
    | with_reducible exact Kept.refl _ | assumption | with_reducible apply answer_kept | with_reducible apply hact
    | with_reducible apply Kept.ite)

theorem readResponse_kept {σ : State} (s : State) (h0 : Kept σ s) : Kept σ (readResponse s) := by
  refine h0.trans ?_; clear h0; unfold readResponse
  (try dsimp only)
  repeat' (first
    | with_reducible exact Kept.refl _ | assumption | with_reducible apply noteTransfer_kept
    | ((with_reducible apply updOut_kept); · first | (with_reducible exact rfl) | exact rfl)
    | ((with_reducible apply updI3c_kept); · first | (with_reducible exact fun h => h))
    | with_reducible apply Kept.ite
    | with_reducible exact Kept.of_eq rfl rfl rfl rfl (fun h => h) (fun h => h) (fun h => h) rfl
    | (split <;> try dsimp only))

theorem readWords_kept  : ∀ ls v0 {σ s : State}, Kept σ s → Kept σ (readWords  ls v0 s).2 := by
  intro ls
  induction ls with
  | nil => intro v0 σ s h; exact h
  | cons a l ih =>
    intro v0 σ s h0
    refine h0.trans ?_; clear h0; unfold readWords
    (try dsimp only)
    repeat' (first
      | with_reducible exact Kept.refl _ | with_reducible apply ih | assumption
      | with_reducible apply readLatched_kept)

theorem regRead_kept {σ : State} (offset count : Nat) (s : State) (h0 : Kept σ s) : Kept σ (regRead offset
    count s) := by
  refine h0.trans ?_; clear h0; unfold regRead
  (try dsimp only)
  repeat' (first
    | with_reducible exact Kept.refl _ | assumption | with_reducible apply answer_kept
    | with_reducible apply readWords_kept | with_reducible apply Kept.ite)

theorem evtReadI3c_kept {σ : State} (era seq : Nat) (s : State) (h0 : Kept σ s) : Kept σ (evtReadI3c era seq
    s) := by
  exact answer_kept _ _ _ h0

theorem dkReadI3c_kept {σ : State} (page offset len : Nat) (s : State) (h0 : Kept σ s) : Kept σ (dkReadI3c
    page offset len s) := by
  refine h0.trans ?_; clear h0; unfold dkReadI3c
  repeat' (first
    | with_reducible exact Kept.refl _ | assumption | with_reducible apply answer_kept
    | with_reducible apply Kept.ite)

theorem fetchOob_kept {σ : State} (s : State) (h0 : Kept σ s) : Kept σ (fetchOob s) := by
  refine h0.trans ?_; clear h0; unfold fetchOob
  (try dsimp only)
  repeat' (first
    | with_reducible exact Kept.refl _ | assumption
    | ((with_reducible apply updI3c_kept); · first | (with_reducible exact fun h => h))
    | with_reducible apply answer_kept)

theorem ackOob_kept {σ : State} (oseq : Nat) (s : State) (h0 : Kept σ s) : Kept σ (ackOob oseq s) := by
  refine h0.trans ?_; clear h0; unfold ackOob
  split
  · exact answer_kept _ _ _ (Kept.refl s)
  · rename_i e r hq
    split
    · exact answer_kept _ _ _ (Kept.refl s)
    · have hk : Kept s (updI3c (fun i => { i with queue := r }) s) :=
        updI3c_kept _ _ (fun h => by simp only [queueFits, hq, List.length_cons] at h ⊢; omega) (Kept.refl s)
      refine answer_kept _ _ _ (Kept.ite ?_ hk)
      exact updLed_kept _ _ hk

theorem repeatInterrupt_kept {σ : State} (s : State) (h0 : Kept σ s) : Kept σ (repeatInterrupt s) := by
  refine h0.trans ?_; clear h0; unfold repeatInterrupt
  repeat' (first
    | with_reducible exact Kept.refl _ | assumption | with_reducible apply raiseIbi_kept
    | with_reducible apply Kept.ite)

theorem resetI3c_kept {σ : State} (level queue index : Byte) (s : State) (h0 : Kept σ s) : Kept σ (resetI3c
    level queue index s) := by
  refine h0.trans ?_; clear h0; unfold resetI3c
  (try dsimp only)
  repeat' (first
    | with_reducible exact Kept.refl _ | assumption | with_reducible apply writeRstCmd_kept
    | with_reducible apply answerResult_kept)

theorem tableauI3c_kept {σ : State} (op : Nat) (s : State) (h0 : Kept σ s) : Kept σ (tableauI3c op s) := by
  refine h0.trans ?_; clear h0; unfold tableauI3c
  (try dsimp only)
  repeat' (first
    | with_reducible exact Kept.refl _ | assumption | with_reducible apply answerResult_kept
    | with_reducible apply writeHalt_kept | with_reducible apply writeRelease_kept
    | with_reducible apply writeScan_kept | with_reducible apply answer_kept | with_reducible apply Kept.ite
    | with_reducible exact Kept.of_eq rfl rfl rfl rfl (fun h => h) (fun h => h) (fun h => h) rfl
    | (split <;> try dsimp only))

theorem shutdownI3c_kept {σ : State} (budget : Byte) (s : State) (h0 : Kept σ s) : Kept σ (shutdownI3c budget
    s) := by
  refine h0.trans ?_; clear h0; unfold shutdownI3c
  (try dsimp only)
  repeat' (first
    | with_reducible exact Kept.refl _ | assumption | with_reducible apply writeShutdown_kept
    | with_reducible apply answerResult_kept)

theorem challengeI3c_kept {σ : State} (s : State) (h0 : Kept σ s) : Kept σ (challengeI3c s) := by
  refine h0.trans ?_; clear h0; unfold challengeI3c
  (try dsimp only)
  repeat' (first
    | with_reducible exact Kept.refl _ | assumption | with_reducible apply challenge_kept
    | with_reducible apply answer_kept | with_reducible apply answerResult_kept | with_reducible apply Kept.ite)

theorem clearI3c_kept {σ : State} (tag : List Byte) (s : State) (h0 : Kept σ s) : Kept σ (clearI3c tag s) := by
  refine h0.trans ?_; clear h0; unfold clearI3c
  (try dsimp only)
  repeat' (first
    | with_reducible exact Kept.refl _ | assumption | with_reducible apply clearLog_kept
    | ((with_reducible apply updEvt_kept); · first | (with_reducible exact fun h => h) | exact fun h => setLimits_evt _ _ _ h | exact fun h => admitEv_evt _ _ _ (countUp_evt _ _ h) | exact fun h => admitWaiters_evt _ _ h | exact fun h => h)
    | with_reducible apply answerResult_kept)

theorem otpI3c_kept {σ : State} (type : Nat) (content tag : List Byte) (s : State) (h0 : Kept σ s) : Kept σ
    (otpI3c type content tag s) := by
  refine h0.trans ?_; clear h0; unfold otpI3c
  dsimp only
  have hk : Kept s (updEvt (fun e => { e with response := tlist 0 0 tag })
      (updCfg (fun c => { c with otpData := tputs 0 (reqCode .bc * 64) (List.replicate 4 0 ++ content) c.otpData }) s)) :=
    updEvt_kept _ _ id (updCfg_kept _ _ (Kept.refl s))
  have h := programOtp_kept .bc type _ hk
  split
  · rename_i heq
    rw [heq] at h
    exact answerResult_kept _ _ _ (setResult_kept _ _ _ _ h)
  · rename_i heq
    rw [heq] at h
    exact answer_kept _ _ _ h

theorem storePutI3c_kept {σ : State} (object offset : Nat) (bytes : List Byte) (s : State) (h0 : Kept σ s) :
    Kept σ (storePutI3c object offset bytes s) := by
  refine h0.trans ?_; clear h0; unfold storePutI3c
  (try dsimp only)
  repeat' (first
    | with_reducible exact Kept.refl _ | assumption | with_reducible apply answer_kept
    | ((with_reducible apply updI3c_kept); · first | (with_reducible exact fun h => h))
    | with_reducible apply Kept.ite
    | with_reducible exact Kept.of_eq rfl rfl rfl rfl (fun h => h) (fun h => h) (fun h => h) rfl
    | (split <;> try dsimp only))

theorem storeEndI3c_kept {σ : State} (object len : Nat) (s : State) (h0 : Kept σ s) : Kept σ (storeEndI3c
    object len s) := by
  refine h0.trans ?_; clear h0; unfold storeEndI3c
  repeat' (first
    | with_reducible exact Kept.refl _ | assumption | with_reducible apply answer_kept
    | with_reducible apply needSettled_kept | with_reducible apply Kept.ite
    | with_reducible exact Kept.of_eq rfl rfl rfl rfl (fun h => h) (fun h => h) (fun h => h) rfl
    | (split <;> try dsimp only))

theorem storeGetI3c_kept {σ : State} (object offset len : Nat) (s : State) (h0 : Kept σ s) : Kept σ
    (storeGetI3c object offset len s) := by
  refine h0.trans ?_; clear h0; unfold storeGetI3c
  repeat' (first
    | with_reducible exact Kept.refl _ | assumption | with_reducible apply answer_kept | with_reducible apply Kept.ite
    | with_reducible exact Kept.of_eq rfl rfl rfl rfl (fun h => h) (fun h => h) (fun h => h) rfl
    | (split <;> try dsimp only))

theorem offerEnded_kept {σ : State} (object : Nat) (s : State) (h0 : Kept σ s) : Kept σ (offerEnded object s) := by
  refine h0.trans ?_; clear h0; unfold offerEnded
  repeat' (first
    | with_reducible exact Kept.refl _ | assumption | with_reducible apply haltChip_kept
    | ((with_reducible apply updI3c_kept); · first | (with_reducible exact fun h => h))
    | with_reducible apply nextOffer_kept | with_reducible apply Kept.ite)

theorem storeDoneI3c_kept {σ : State} (object : Nat) (s : State) (h0 : Kept σ s) : Kept σ (storeDoneI3c object
    s) := by
  refine h0.trans ?_; clear h0; unfold storeDoneI3c
  (try dsimp only)
  repeat' (first
    | with_reducible exact Kept.refl _ | assumption | with_reducible apply answer_kept
    | ((with_reducible apply updI3c_kept); · first | (with_reducible exact fun h => h))
    | with_reducible apply offerEnded_kept | with_reducible apply Kept.ite
    | with_reducible exact Kept.of_eq rfl rfl rfl rfl (fun h => h) (fun h => h) (fun h => h) rfl
    | (split <;> try dsimp only))

theorem needTimeout_kept {σ : State} (object : Nat) (s : State) (h0 : Kept σ s) : Kept σ (needTimeout object
    s) := by
  refine h0.trans ?_; clear h0; unfold needTimeout
  repeat' (first
    | with_reducible exact Kept.refl _ | assumption | with_reducible apply needSettled_kept
    | with_reducible apply Kept.ite
    | with_reducible exact Kept.of_eq rfl rfl rfl rfl (fun h => h) (fun h => h) (fun h => h) rfl
    | (split <;> try dsimp only))

theorem offerTimeout_kept {σ : State} (object : Nat) (s : State) (h0 : Kept σ s) : Kept σ (offerTimeout object
    s) := by
  refine h0.trans ?_; clear h0; unfold offerTimeout
  repeat' (first
    | with_reducible exact Kept.refl _ | assumption | with_reducible apply offerEnded_kept
    | with_reducible apply Kept.ite
    | with_reducible exact Kept.of_eq rfl rfl rfl rfl (fun h => h) (fun h => h) (fun h => h) rfl
    | (split <;> try dsimp only))

theorem unknownCommand_kept {σ : State} (cmd tag : Byte) (arg : List Byte) (crc : Word) (s : State) (h0 : Kept
    σ s) : Kept σ (unknownCommand cmd tag arg crc s) := by
  refine h0.trans ?_; clear h0; unfold unknownCommand
  repeat' (first
    | with_reducible exact Kept.refl _ | assumption | with_reducible apply command_kept
    | with_reducible apply answer_kept | with_reducible apply Kept.ite
    | with_reducible exact Kept.of_eq rfl rfl rfl rfl (fun h => h) (fun h => h) (fun h => h) rfl
    | (intro _; try dsimp only))

theorem execI3cDynamicAddress_kept (t : Nat) (entdaa : Bool) (addr : BitVec 7) (s : State) : ∃ s',
    execI3cDynamicAddress t entdaa addr s = .next s' ∧ Kept s s' := by
  refine ⟨_, rfl, ?_⟩
  repeat' (first
    | with_reducible exact Kept.refl _ | assumption | with_reducible apply assignAddress_kept
    | with_reducible apply atTime_kept)

theorem execI3cHdrDdrTransfer_kept (t : Nat) (s : State) : ∃ s', execI3cHdrDdrTransfer t s = .next s' ∧ Kept s
    s' := by
  refine ⟨_, rfl, ?_⟩
  repeat' (first
    | with_reducible exact Kept.refl _ | assumption | with_reducible apply atTime_kept
    | with_reducible apply setMode_kept | with_reducible apply Kept.ite)

theorem execI3cRstdaa_kept (t : Nat) (s : State) : ∃ s', execI3cRstdaa t s = .next s' ∧ Kept s s' := by
  refine ⟨_, rfl, ?_⟩
  repeat' (first
    | with_reducible exact Kept.refl _ | assumption | with_reducible apply resetAddress_kept
    | with_reducible apply atTime_kept)

theorem execI3cFrameAbort_kept (t : Nat) (s : State) : ∃ s', execI3cFrameAbort t s = .next s' ∧ Kept s s' := by
  refine ⟨_, rfl, ?_⟩
  repeat' (first | with_reducible exact Kept.refl _ | assumption | with_reducible apply atTime_kept)

theorem execI3cResponseRead_kept (t : Nat) (s : State) : ∃ s', execI3cResponseRead t s = .next s' ∧ Kept s s' := by
  refine ⟨_, rfl, ?_⟩
  repeat' (first
    | with_reducible exact Kept.refl _ | assumption | with_reducible apply readResponse_kept
    | with_reducible apply atTime_kept)

theorem execI3cStatus_kept (t : Nat) (tag : Byte) (crc : Word) (s : State) : ∃ s', execI3cStatus t tag crc s =
    .next s' ∧ Kept s s' := by
  refine ⟨_, rfl, ?_⟩
  repeat' (first
    | with_reducible exact Kept.refl _ | assumption | with_reducible apply command_kept
    | with_reducible apply answer_kept | with_reducible apply atTime_kept | with_reducible apply Kept.ite
    | with_reducible exact Kept.of_eq rfl rfl rfl rfl (fun h => h) (fun h => h) (fun h => h) rfl
    | (intro _; try dsimp only))

theorem execI3cRegRead_kept (t : Nat) (tag : Byte) (offset : Word) (count : Byte) (crc : Word) (s : State) : ∃
    s', execI3cRegRead t tag offset count crc s = .next s' ∧ Kept s s' := by
  refine ⟨_, rfl, ?_⟩
  repeat' (first
    | with_reducible exact Kept.refl _ | assumption | with_reducible apply command_kept
    | with_reducible apply regRead_kept | with_reducible apply atTime_kept | with_reducible apply Kept.ite
    | with_reducible exact Kept.of_eq rfl rfl rfl rfl (fun h => h) (fun h => h) (fun h => h) rfl
    | (intro _; try dsimp only))

theorem execI3cEvtRead_kept (t : Nat) (tag : Byte) (era : Byte) (seq : Word) (crc : Word) (s : State) : ∃ s',
    execI3cEvtRead t tag era seq crc s = .next s' ∧ Kept s s' := by
  refine ⟨_, rfl, ?_⟩
  repeat' (first
    | with_reducible exact Kept.refl _ | assumption | with_reducible apply command_kept
    | with_reducible apply evtReadI3c_kept | with_reducible apply atTime_kept | with_reducible apply Kept.ite
    | with_reducible exact Kept.of_eq rfl rfl rfl rfl (fun h => h) (fun h => h) (fun h => h) rfl
    | (intro _; try dsimp only))

theorem execI3cDkRead_kept (t : Nat) (tag : Byte) (page : Byte) (offset : Word) (len : BitVec 16) (crc : Word)
    (s : State) : ∃ s', execI3cDkRead t tag page offset len crc s = .next s' ∧ Kept s s' := by
  refine ⟨_, rfl, ?_⟩
  repeat' (first
    | with_reducible exact Kept.refl _ | assumption | with_reducible apply command_kept
    | with_reducible apply dkReadI3c_kept | with_reducible apply atTime_kept | with_reducible apply Kept.ite
    | with_reducible exact Kept.of_eq rfl rfl rfl rfl (fun h => h) (fun h => h) (fun h => h) rfl
    | (intro _; try dsimp only))

theorem execOobFetch_kept (t : Nat) (tag : Byte) (crc : Word) (s : State) : ∃ s', execOobFetch t tag crc s =
    .next s' ∧ Kept s s' := by
  refine ⟨_, rfl, ?_⟩
  repeat' (first
    | with_reducible exact Kept.refl _ | assumption | with_reducible apply command_kept
    | with_reducible apply fetchOob_kept | with_reducible apply atTime_kept)

theorem execOobAck_kept (t : Nat) (tag : Byte) (oseq : BitVec 16) (crc : Word) (s : State) : ∃ s', execOobAck
    t tag oseq crc s = .next s' ∧ Kept s s' := by
  refine ⟨_, rfl, ?_⟩
  repeat' (first
    | with_reducible exact Kept.refl _ | assumption | with_reducible apply command_kept
    | with_reducible apply ackOob_kept | with_reducible apply atTime_kept | with_reducible apply Kept.ite
    | with_reducible exact Kept.of_eq rfl rfl rfl rfl (fun h => h) (fun h => h) (fun h => h) rfl
    | (intro _; try dsimp only))

theorem execI3cReset_kept (t : Nat) (tag : Byte) (level queue index : Byte) (crc : Word) (s : State) : ∃ s',
    execI3cReset t tag level queue index crc s = .next s' ∧ Kept s s' := by
  refine ⟨_, rfl, ?_⟩
  repeat' (first
    | with_reducible exact Kept.refl _ | assumption | with_reducible apply command_kept
    | with_reducible apply callerCommand_kept | with_reducible apply resetI3c_kept | with_reducible apply atTime_kept
    | with_reducible apply Kept.ite
    | with_reducible exact Kept.of_eq rfl rfl rfl rfl (fun h => h) (fun h => h) (fun h => h) rfl
    | (intro _; try dsimp only))

theorem execI3cTableau_kept (t : Nat) (tag : Byte) (op : Byte) (crc : Word) (s : State) : ∃ s', execI3cTableau
    t tag op crc s = .next s' ∧ Kept s s' := by
  refine ⟨_, rfl, ?_⟩
  repeat' (first
    | with_reducible exact Kept.refl _ | assumption | with_reducible apply command_kept
    | with_reducible apply callerCommand_kept | with_reducible apply tableauI3c_kept
    | with_reducible apply atTime_kept | with_reducible apply Kept.ite
    | with_reducible exact Kept.of_eq rfl rfl rfl rfl (fun h => h) (fun h => h) (fun h => h) rfl
    | (intro _; try dsimp only))

theorem execI3cShutdown_kept (t : Nat) (tag : Byte) (budget : Byte) (crc : Word) (s : State) : ∃ s',
    execI3cShutdown t tag budget crc s = .next s' ∧ Kept s s' := by
  refine ⟨_, rfl, ?_⟩
  repeat' (first
    | with_reducible exact Kept.refl _ | assumption | with_reducible apply command_kept
    | with_reducible apply callerCommand_kept | with_reducible apply shutdownI3c_kept
    | with_reducible apply atTime_kept | with_reducible apply Kept.ite
    | with_reducible exact Kept.of_eq rfl rfl rfl rfl (fun h => h) (fun h => h) (fun h => h) rfl
    | (intro _; try dsimp only))

theorem execI3cChallenge_kept (t : Nat) (tag : Byte) (crc : Word) (s : State) : ∃ s', execI3cChallenge t tag
    crc s = .next s' ∧ Kept s s' := by
  refine ⟨_, rfl, ?_⟩
  repeat' (first
    | with_reducible exact Kept.refl _ | assumption | with_reducible apply command_kept
    | with_reducible apply callerCommand_kept | with_reducible apply challengeI3c_kept
    | with_reducible apply atTime_kept | with_reducible apply Kept.ite
    | with_reducible exact Kept.of_eq rfl rfl rfl rfl (fun h => h) (fun h => h) (fun h => h) rfl
    | (intro _; try dsimp only))

theorem execI3cClear_kept (t : Nat) (tag : Byte) (hmac : BitVec 256) (crc : Word) (s : State) : ∃ s',
    execI3cClear t tag hmac crc s = .next s' ∧ Kept s s' := by
  refine ⟨_, rfl, ?_⟩
  repeat' (first
    | with_reducible exact Kept.refl _ | assumption | with_reducible apply command_kept
    | with_reducible apply callerCommand_kept | with_reducible apply clearI3c_kept | with_reducible apply atTime_kept
    | with_reducible apply Kept.ite
    | with_reducible exact Kept.of_eq rfl rfl rfl rfl (fun h => h) (fun h => h) (fun h => h) rfl
    | (intro _; try dsimp only))

theorem execI3cOtpProgram_kept (t : Nat) (tag : Byte) (type : Byte) (content : BitVec 480) (hmac : BitVec 256)
    (crc : Word) (s : State) : ∃ s', execI3cOtpProgram t tag type content hmac crc s = .next s' ∧ Kept s s' := by
  refine ⟨_, rfl, ?_⟩
  repeat' (first
    | with_reducible exact Kept.refl _ | assumption | with_reducible apply command_kept
    | with_reducible apply callerCommand_kept | with_reducible apply otpI3c_kept | with_reducible apply atTime_kept
    | with_reducible apply Kept.ite
    | with_reducible exact Kept.of_eq rfl rfl rfl rfl (fun h => h) (fun h => h) (fun h => h) rfl
    | (intro _; try dsimp only))

theorem execStorePut_kept (t : Nat) (tag : Byte) (object : Byte) (offset : Word) (bytes : List Byte) (crc :
    Word) (s : State) : ∃ s', execStorePut t tag object offset bytes crc s = .next s' ∧ Kept s s' := by
  refine ⟨_, rfl, ?_⟩
  repeat' (first
    | with_reducible exact Kept.refl _ | assumption | with_reducible apply command_kept
    | with_reducible apply callerCommand_kept | with_reducible apply storePutI3c_kept
    | with_reducible apply answer_kept | with_reducible apply atTime_kept | with_reducible apply Kept.ite
    | with_reducible exact Kept.of_eq rfl rfl rfl rfl (fun h => h) (fun h => h) (fun h => h) rfl
    | (split <;> try dsimp only) | (intro _; try dsimp only))

theorem execStoreEnd_kept (t : Nat) (tag : Byte) (object : Byte) (len : Word) (crc : Word) (s : State) : ∃ s',
    execStoreEnd t tag object len crc s = .next s' ∧ Kept s s' := by
  refine ⟨_, rfl, ?_⟩
  repeat' (first
    | with_reducible exact Kept.refl _ | assumption | with_reducible apply command_kept
    | with_reducible apply callerCommand_kept | with_reducible apply storeEndI3c_kept
    | with_reducible apply atTime_kept | with_reducible apply Kept.ite
    | with_reducible exact Kept.of_eq rfl rfl rfl rfl (fun h => h) (fun h => h) (fun h => h) rfl
    | (intro _; try dsimp only))

theorem execStoreGet_kept (t : Nat) (tag : Byte) (object : Byte) (offset : Word) (len : BitVec 16) (crc :
    Word) (s : State) : ∃ s', execStoreGet t tag object offset len crc s = .next s' ∧ Kept s s' := by
  refine ⟨_, rfl, ?_⟩
  repeat' (first
    | with_reducible exact Kept.refl _ | assumption | with_reducible apply command_kept
    | with_reducible apply callerCommand_kept | with_reducible apply storeGetI3c_kept
    | with_reducible apply atTime_kept | with_reducible apply Kept.ite
    | with_reducible exact Kept.of_eq rfl rfl rfl rfl (fun h => h) (fun h => h) (fun h => h) rfl
    | (intro _; try dsimp only))

theorem execStoreDone_kept (t : Nat) (tag : Byte) (object : Byte) (crc : Word) (s : State) : ∃ s',
    execStoreDone t tag object crc s = .next s' ∧ Kept s s' := by
  refine ⟨_, rfl, ?_⟩
  repeat' (first
    | with_reducible exact Kept.refl _ | assumption | with_reducible apply command_kept
    | with_reducible apply callerCommand_kept | with_reducible apply storeDoneI3c_kept
    | with_reducible apply atTime_kept | with_reducible apply Kept.ite
    | with_reducible exact Kept.of_eq rfl rfl rfl rfl (fun h => h) (fun h => h) (fun h => h) rfl
    | (intro _; try dsimp only))

theorem execStoreNeedTimeout_kept (t : Nat) (object : Byte) (s : State) : ∃ s', execStoreNeedTimeout t object
    s = .next s' ∧ Kept s s' := by
  refine ⟨_, rfl, ?_⟩
  repeat' (first
    | with_reducible exact Kept.refl _ | assumption | with_reducible apply needTimeout_kept
    | with_reducible apply atTime_kept)

theorem execStoreOfferTimeout_kept (t : Nat) (object : Byte) (s : State) : ∃ s', execStoreOfferTimeout t
    object s = .next s' ∧ Kept s s' := by
  refine ⟨_, rfl, ?_⟩
  repeat' (first
    | with_reducible exact Kept.refl _ | assumption | with_reducible apply offerTimeout_kept
    | with_reducible apply atTime_kept)

theorem execOobInterruptRepeat_kept (t : Nat) (s : State) : ∃ s', execOobInterruptRepeat t s = .next s' ∧ Kept
    s s' := by
  refine ⟨_, rfl, ?_⟩
  repeat' (first
    | with_reducible exact Kept.refl _ | assumption | with_reducible apply repeatInterrupt_kept
    | with_reducible apply atTime_kept)

theorem execI3cUnknownCommand_kept (t : Nat) (cmd tag : Byte) (arg : List Byte) (crc : Word) (s : State) : ∃
    s', execI3cUnknownCommand t cmd tag arg crc s = .next s' ∧ Kept s s' := by
  refine ⟨_, rfl, ?_⟩
  repeat' (first
    | with_reducible exact Kept.refl _ | assumption | with_reducible apply unknownCommand_kept
    | with_reducible apply atTime_kept)

theorem holdLow_kept {σ : State} (o : Nat) (r : Requester) (v : Word) (s : State) (h0 : Kept σ s) : Kept σ
    (holdLow o r v s) := by
  refine h0.trans ?_; clear h0; unfold holdLow
  repeat' (first | with_reducible exact Kept.refl _ | assumption | with_reducible apply updCfg_kept)

theorem takeLow_kept {σ : State} (o : Nat) (r : Requester) (s : State) (h0 : Kept σ s) : Kept σ (takeLow o r
    s) := by
  refine h0.trans ?_; clear h0; unfold takeLow
  repeat' (first | with_reducible exact Kept.refl _ | assumption | with_reducible apply updCfg_kept)

theorem write64_kept {σ : State} (o off : Nat) (wide : Bool) (r : Requester) (v : DWord) (now : Nat) (act :
    DWord → State → State) (s : State) (hact : ∀ x0 {σ s : State}, Kept σ s → Kept σ (act x0 s)) (h0 : Kept σ
    s) : Kept σ (write64 o off wide r v now act s) := by
  refine h0.trans ?_; clear h0; unfold write64
  repeat' (first
    | with_reducible exact Kept.refl _ | assumption | with_reducible apply takeLow_kept
    | with_reducible apply holdLow_kept | with_reducible apply hact | with_reducible apply Kept.ite)

theorem writeCharterAddr_kept {σ : State} (v : DWord) (s : State) (h0 : Kept σ s) : Kept σ (writeCharterAddr v
    s) := by
  refine h0.trans ?_; clear h0; unfold writeCharterAddr
  repeat' (first | with_reducible exact Kept.refl _ | assumption | with_reducible apply updCfg_kept)

theorem writeDest_kept {σ : State} (v : DWord) (s : State) (h0 : Kept σ s) : Kept σ (writeDest v s) := by
  refine h0.trans ?_; clear h0; unfold writeDest
  repeat' (first | with_reducible exact Kept.refl _ | assumption | with_reducible apply updTab_kept)

theorem writeSnapAt_kept {σ : State} (v : DWord) (s : State) (h0 : Kept σ s) : Kept σ (writeSnapAt v s) := by
  refine h0.trans ?_; clear h0; unfold writeSnapAt
  repeat' (first | with_reducible exact Kept.refl _ | assumption | with_reducible apply updTrace_kept)

theorem writeBarAddr_kept {σ : State} (r : Requester) (v : DWord) (s : State) (h0 : Kept σ s) : Kept σ
    (writeBarAddr r v s) := by
  refine h0.trans ?_; clear h0; unfold writeBarAddr
  repeat' (first | with_reducible exact Kept.refl _ | assumption | with_reducible apply updCfg_kept)

theorem writeFwd_kept {σ : State} (v : Word) (s : State) (h0 : Kept σ s) : Kept σ (writeFwd v s) := by
  refine h0.trans ?_; clear h0; unfold writeFwd
  repeat' (first
    | with_reducible exact Kept.refl _ | assumption
    | ((with_reducible apply updEvt_kept); · first | (with_reducible exact fun h => h) | exact fun h => setLimits_evt _ _ _ h | exact fun h => admitEv_evt _ _ _ (countUp_evt _ _ h) | exact fun h => admitWaiters_evt _ _ h | exact fun h => h))

theorem writeDkSel_kept {σ : State} (r : Requester) (v : Word) (s : State) (h0 : Kept σ s) : Kept σ
    (writeDkSel r v s) := by
  refine h0.trans ?_; clear h0; unfold writeDkSel
  repeat' (first
    | with_reducible exact Kept.refl _ | assumption
    | ((with_reducible apply updEvt_kept); · first | (with_reducible exact fun h => h) | exact fun h => setLimits_evt _ _ _ h | exact fun h => admitEv_evt _ _ _ (countUp_evt _ _ h) | exact fun h => admitWaiters_evt _ _ h | exact fun h => h))

theorem writeBufSel_kept {σ : State} (r : Requester) (v : Word) (s : State) (h0 : Kept σ s) : Kept σ
    (writeBufSel r v s) := by
  refine h0.trans ?_; clear h0; unfold writeBufSel
  repeat' (first | with_reducible exact Kept.refl _ | assumption | with_reducible apply updTrace_kept)

theorem writeSealSel_kept {σ : State} (r : Requester) (v : Word) (s : State) (h0 : Kept σ s) : Kept σ
    (writeSealSel r v s) := by
  refine h0.trans ?_; clear h0; unfold writeSealSel
  repeat' (first | with_reducible exact Kept.refl _ | assumption | with_reducible apply updCfg_kept)

theorem writeArm_kept {σ : State} (v : Word) (s : State) (h0 : Kept σ s) : Kept σ (writeArm v s) := by
  refine h0.trans ?_; clear h0; unfold writeArm
  repeat' (first | with_reducible exact Kept.refl _ | assumption | with_reducible apply updTab_kept)

theorem writeTraceCtl_kept {σ : State} (v : Word) (s : State) (h0 : Kept σ s) : Kept σ (writeTraceCtl v s) := by
  refine h0.trans ?_; clear h0; unfold writeTraceCtl
  repeat' (first
    | with_reducible exact Kept.refl _ | assumption | with_reducible apply startFlush_kept
    | with_reducible apply updTrace_kept)

theorem writeTraceCores_kept {σ : State} (i : Nat) (v : Word) (s : State) (h0 : Kept σ s) : Kept σ
    (writeTraceCores i v s) := by
  refine h0.trans ?_; clear h0; unfold writeTraceCores
  (try dsimp only)
  repeat' (first | with_reducible exact Kept.refl _ | assumption | with_reducible apply updTrace_kept)

theorem writeTxn_kept {σ : State} (r : Requester) (v : Word) (s : State) (h0 : Kept σ s) : Kept σ (writeTxn r
    v s) := by
  refine h0.trans ?_; clear h0; unfold writeTxn
  repeat' (first
    | with_reducible exact Kept.refl _ | assumption | with_reducible apply txnCommand_kept
    | with_reducible apply Kept.ite)

theorem writeEvtClear_kept {σ : State} (r : Requester) (v : Word) (s : State) (h0 : Kept σ s) : Kept σ
    (writeEvtClear r v s) := by
  refine h0.trans ?_; clear h0; unfold writeEvtClear
  repeat' (first
    | with_reducible exact Kept.refl _ | assumption | with_reducible apply challenge_kept
    | with_reducible apply clearLog_kept | with_reducible apply Kept.ite
    | with_reducible exact Kept.of_eq rfl rfl rfl rfl (fun h => h) (fun h => h) (fun h => h) rfl
    | (split <;> try dsimp only))

theorem writeTableauCmd_kept {σ : State} (r : Requester) (v : Word) (s : State) (h0 : Kept σ s) : Kept σ
    (writeTableauCmd r v s) := by
  refine h0.trans ?_; clear h0; unfold writeTableauCmd
  repeat' (first
    | with_reducible exact Kept.refl _ | assumption | with_reducible apply writeHalt_kept
    | with_reducible apply writeRelease_kept | with_reducible apply writeScan_kept | with_reducible apply Kept.ite
    | with_reducible exact Kept.of_eq rfl rfl rfl rfl (fun h => h) (fun h => h) (fun h => h) rfl
    | (split <;> try dsimp only))

theorem writeSnapCmd_kept {σ : State} (r : Requester) (v : Word) (s : State) (h0 : Kept σ s) : Kept σ
    (writeSnapCmd r v s) := by
  refine h0.trans ?_; clear h0; unfold writeSnapCmd
  repeat' (first
    | with_reducible exact Kept.refl _ | assumption | with_reducible apply writeSnap_kept
    | with_reducible apply Kept.ite)

theorem writeBarCmd_kept {σ : State} (r : Requester) (v : Word) (s : State) (h0 : Kept σ s) : Kept σ
    (writeBarCmd r v s) := by
  refine h0.trans ?_; clear h0; unfold writeBarCmd
  (try dsimp only)
  repeat' (first
    | with_reducible exact Kept.refl _ | assumption | with_reducible apply updCfg_kept
    | with_reducible apply armBarrier_kept | with_reducible apply disarmBarrier_kept | with_reducible apply Kept.ite
    | with_reducible exact Kept.of_eq rfl rfl rfl rfl (fun h => h) (fun h => h) (fun h => h) rfl
    | (split <;> try dsimp only))

theorem writePeer_kept {σ : State} (r : Requester) (v : DWord) (s : State) (h0 : Kept σ s) : Kept σ (writePeer
    r v s) := by
  refine h0.trans ?_; clear h0; unfold writePeer
  (try dsimp only)
  repeat' (first
    | with_reducible exact Kept.refl _ | assumption | with_reducible apply updCfg_kept
    | with_reducible apply advise_kept | with_reducible apply Kept.ite
    | with_reducible exact Kept.of_eq rfl rfl rfl rfl (fun h => h) (fun h => h) (fun h => h) rfl
    | (split <;> try dsimp only))

theorem writeEvtRead_kept {σ : State} (off : Nat) (wide : Bool) (r : Requester) (v : DWord) (s : State) (h0 :
    Kept σ s) : Kept σ (writeEvtRead off wide r v s) := by
  refine h0.trans ?_; clear h0; unfold writeEvtRead
  refine updEvt_kept _ _ (fun h => ?_) (Kept.refl s)
  dsimp only
  split
  · exact h
  · split <;> exact h

theorem writeMarkReg_kept {σ : State} (off : Nat) (wide : Bool) (r : Requester) (v : DWord) (s : State) (h0 :
    Kept σ s) : Kept σ (writeMarkReg off wide r v s) := by
  refine h0.trans ?_; clear h0; unfold writeMarkReg
  repeat' (first
    | with_reducible exact Kept.refl _ | assumption | with_reducible apply writeMark_kept
    | with_reducible apply holdLow_kept | with_reducible apply Kept.ite)

theorem write32_kept {σ : State} (r : Requester) (o : Nat) (v : Word) (s : State) (h0 : Kept σ s) : Kept σ
    (write32 r o v s) := by
  refine h0.trans ?_; clear h0; unfold write32
  repeat' (first
    | with_reducible exact Kept.refl _ | assumption | with_reducible apply loadGo_kept
    | with_reducible apply writeTxn_kept | with_reducible apply hostGenOffer_kept
    | with_reducible apply shadowWrite_kept | with_reducible apply writeFwd_kept
    | with_reducible apply writeDkSel_kept | with_reducible apply writeEvtClear_kept
    | with_reducible apply writeSealSel_kept | with_reducible apply rearm_kept | with_reducible apply writeRstCmd_kept
    | with_reducible apply writeMemtrain_kept | with_reducible apply writeShutdown_kept
    | with_reducible apply writeOtp_kept | with_reducible apply writeTableauCmd_kept
    | with_reducible apply writeArm_kept | with_reducible apply writeTraceCtl_kept
    | with_reducible apply writeSnapCmd_kept | with_reducible apply writeBufRd_kept
    | with_reducible apply writeBufSel_kept | with_reducible apply writeBarCmd_kept | with_reducible apply Kept.ite
    | with_reducible exact Kept.of_eq rfl rfl rfl rfl (fun h => h) (fun h => h) (fun h => h) rfl
    | (split <;> try dsimp only))

theorem writeWide_kept {σ : State} (r : Requester) (o off : Nat) (wide : Bool) (v : DWord) (s : State) (h0 :
    Kept σ s) : Kept σ (writeWide r o off wide v s) := by
  refine h0.trans ?_; clear h0; unfold writeWide
  repeat' (first
    | with_reducible exact Kept.refl _ | assumption | with_reducible apply write64_kept
    | with_reducible apply writeCharterAddr_kept | with_reducible apply writeEvtRead_kept
    | with_reducible apply writePeer_kept | with_reducible apply writeDest_kept
    | with_reducible apply writeSnapAt_kept | with_reducible apply writeMarkReg_kept
    | with_reducible apply writeWorkList_kept | with_reducible apply writeBarAddr_kept | with_reducible apply Kept.ite
    | with_reducible exact Kept.of_eq rfl rfl rfl rfl (fun h => h) (fun h => h) (fun h => h) rfl
    | (split <;> try dsimp only) | (intro _; try dsimp only))

theorem writeWindow_kept {σ : State} (r : Requester) (o : Nat) (l : List Byte) (s : State) (h0 : Kept σ s) :
    Kept σ (writeWindow r o l s) := by
  refine h0.trans ?_; clear h0; unfold writeWindow
  (try dsimp only)
  repeat' (first
    | with_reducible exact Kept.refl _ | assumption
    | ((with_reducible apply updEvt_kept); · first | (with_reducible exact fun h => h) | exact fun h => setLimits_evt _ _ _ h | exact fun h => admitEv_evt _ _ _ (countUp_evt _ _ h) | exact fun h => admitWaiters_evt _ _ h | exact fun h => h)
    | with_reducible apply updCfg_kept
    | ((with_reducible apply updBoot_kept); · first | (with_reducible rfl) | (dsimp only; done) | ((repeat' split) <;> with_reducible rfl))
    | with_reducible apply writeTraceCores_kept | with_reducible apply Kept.ite)

theorem writeNative_kept {σ : State} (r : Requester) (o : Nat) (wide : Bool) (v : DWord) (s : State) (h0 :
    Kept σ s) : Kept σ (writeNative r o wide v s) := by
  refine h0.trans ?_; clear h0; unfold writeNative
  repeat' (first
    | with_reducible exact Kept.refl _ | assumption | with_reducible apply writeWindow_kept
    | with_reducible apply writeWide_kept | with_reducible apply write32_kept | with_reducible apply Kept.ite)

theorem writeG1_kept {σ : State} (o : Nat) (wide : Bool) (v : DWord) (s : State) (h0 : Kept σ s) : Kept σ
    (writeG1 o wide v s) := by
  refine h0.trans ?_; clear h0; unfold writeG1
  (try dsimp only)
  repeat' (first
    | with_reducible exact Kept.refl _ | assumption | with_reducible apply write64_kept
    | with_reducible apply writeCharterAddr_kept | with_reducible apply writeTxn_kept
    | with_reducible apply loadGo_kept | with_reducible apply writeTableauCmd_kept | with_reducible apply forceG1_kept
    | with_reducible apply rearm_kept | with_reducible apply Kept.ite
    | with_reducible exact Kept.of_eq rfl rfl rfl rfl (fun h => h) (fun h => h) (fun h => h) rfl
    | (split <;> try dsimp only) | (intro _; try dsimp only))

theorem registerWrite_kept {σ : State} (r : Requester) (o : Nat) (wide : Bool) (v : DWord) (s : State) (h0 :
    Kept σ s) : Kept σ (registerWrite r o wide v s) := by
  refine h0.trans ?_; clear h0; unfold registerWrite
  repeat' (first
    | with_reducible exact Kept.refl _ | assumption | with_reducible apply writeNative_kept
    | with_reducible apply writeG1_kept | with_reducible apply Kept.ite
    | with_reducible exact Kept.of_eq rfl rfl rfl rfl (fun h => h) (fun h => h) (fun h => h) rfl
    | (split <;> try dsimp only))

theorem execRegisterWrite_kept (t : Nat) (r : Requester) (offset : Fin 0x400000) (wide : Bool) (value : DWord)
    (s : State) : ∃ s', execRegisterWrite t r offset wide value s = .next s' ∧ Kept s s' := by
  refine ⟨_, rfl, ?_⟩
  repeat' (first
    | with_reducible exact Kept.refl _ | assumption | with_reducible apply registerWrite_kept
    | with_reducible apply atTime_kept)

end Sys2Proof.Laws
end

