-- ==== Sys2Proof/Tests/Slice0.lean ====
section
/-! SUPPORT. Tests: the worked examples of the spec, ill-formed terms that are refused, and for every statement with hypotheses a state and operands that meet them (one witness for each of its clauses). -/

namespace Sys2Proof.Tests

set_option Elab.async false

open Sys2Proof.Machine Sys2Proof.Safety

/-! ### A small complex to stand on -/

/-- One rehearsal kit of two segments. -/
def kit : Kit :=
  { id := 7, ver := 1, flags := 8, signature := 0x1234, data := [], block := [], name := [], segs := [⟨0, 1, 100, 0, 4⟩, ⟨0, 1, 100, 0, 4⟩] }

def tempo0 : TempoPolicy :=
  { enable := true, stepDown := 10, stepUp := 20, floorMargin := 20, domains := 0xFFFF, maxHarvest := 200, canaryMin := 5
    canaryTrip := 2, failMax := 1, evalS := 10, holdS := 60, failWindowS := 600, learnS := 100, lockCount := 3, settleUs := 500
    spacingMs := 100, evidence := 1, lockWindowS := 3600 }

/-- A charter of two contexts (logical cores 0 to 3 and 4 to 7), no figures and one kit. -/
def chart : Charter :=
  { serial := 1, keygen := 1, partition := [(1, 0x0F), (2, 0xF0)], figures := [], coverage := ⟨0, 3, 4, 600⟩, templates := [], guards := []
    reset := { startL1 := false, oosCount := 3, repeatMs := 1000, oosWindowS := 60, floorUs := 0 }, limits := []
    topology := { chip := 5, degradedOk := true, minStacks := 1, ports := [] }, kits := [kit]
    tempo := some tempo0
    ledger := { alpha0 := 1, beta0 := 1000, fMatrix := 60, fVector := 20, fMover := 10, fResidual := 10, eVf := 50, eR := 50, rehRefS := 600
                suspectCount := 3, stationCount := 3, windowS := 3600, drainMs := 1000, carry := false, target := 0, fmChip := 0, fmAddr := 0 }
    seals := [⟨1, 1, 5, true, 10⟩], numerics := [], floors := (1, 1, 1), fixed := [] }

/-- A station whose tap link is ready. -/
def st : Station := { tapReady := true, tapVer := 3, tapSettled := true, epoch := 1 }

/-- A port in service with sync transport version 2. -/
def port2 : FPort := { width := 16, settled := 2 }

/-- Objects 5 (a flag), 6 (a count) and 7 (a flag of context 2). -/
def objs : Tab Obj :=
  [(5, { assigned := true, ctx := 1 }), (6, { assigned := true, count := true, value := 3, ctx := 1 }), (128, { assigned := true, ctx := 2 })]

/-- Context 1 as it runs. -/
def ctx1 : Ctx := { timeoutUs := 1000, seal_ := some ⟨1, 1, 5, true, 10⟩, guards := [], cores := 0x0F }

/-- Chip 5 in service: 16 cores, context 1 running, every gate point open. -/
def up : State :=
  { State.reset with
    now := 1000
    cfg := { active := some chart, serial := 1, state := 4, epoch := 1, hostGen := 1 }
    stations := (List.range 16).map fun c => (c, st)
    hz := { vh := 900, gates := (List.range 38).map fun g => (g, { opened := true, heard := 900, vh := 900 }) }
    ctxs := [(1, ctx1)]
    led := { state := 1, running := true, servingSince := some 0 }
    sync := { objs := objs, ports := (List.range 36).map fun p => (p, port2) }
    rst := { callerIn := false, coresIn := 0, clustersIn := 0 }
    boot := { pwrOk := true, stage := 9, state := 2, locked := true, ccp := true, mapped := true, map := List.range 16, chip := 5, otp := [(24, 1)]
              keyStore := true, zeroised := false, stackBits := 0xFF, trained := 0xFF } }

/-- Bring-up in a stage. -/
def at' (n : Nat) : State :=
  { State.reset with
    rst := { callerIn := false }
    boot := { pwrOk := true, stage := n, state := 0, locked := decide (3 ≤ n), otp := [(24, 1)] } }

/-- Station 0 of the complex changed. -/
def withSt (f : Station → Station) : State := updStation 0 f up

/-- An operation of queue 0 of a core, started at 500. -/
def op0 : OpStart := { queue := 0, inserted := false, opid := 9, fmt := 1, mode := 0, ttag := 3, deadline := 0, extra := 0, len := 4096 }
def cu0 : Cu := { op := op0, tag := 9, inserted := false, start := 500, epoch := 1, ctx := 1, step := 0 }

/-- Its unit once its operands and results have passed, and a transfer of queue 2. -/
def begun : Cu := { cu0 with phase := 2, resSectors := 4096 }
def mover : Cu := { cu0 with op := { op0 with queue := 2, fmt := 0 } }
def mover2 : Cu := { mover with op := { mover.op with opid := 10 }, tag := 10, phase := 2, writes := [(7, true, 4096)] }

/-- A transaction of the host. -/
def txn : Txn := { id := 3, owner := .host, began := 900, committing := false, shadow := [], staged := none, loading := false }

/-- A sync message, and its checksum for a type. -/
def msg : SyncMsg := { sub := 1, name := objName 5 5, party := party 6 0 0 0 0, arg := 1, tally := 0, start := 100, crc := 0 }
def sealMsg (type : Nat) (m : SyncMsg) : SyncMsg := { m with crc := msgCrc type m }

/-- The checksum of an I3C command. -/
def fcrc (cmd tag : Byte) (arg : List Byte) : Word := crc32c ([cmd, tag] ++ toLe 2 arg.length ++ arg)

/-- A wait of queue 0 of core 0 on object 5. -/
def watch : Watch := { name := objName 5 5, target := 1, op := 5, cond := 0, queue := 0, valid := true, ctx := 1, expires := 900 }

def sector : Sector := 0x01020304

/-- A beat of one lane with right parity. -/
def lane : Lane := { valid := true, poison := false, parity := 0, data := 0 }
def beat : Beat := { lanes := [lane], kind := 0, scale := 0, row := 0, c0 := false, srcLo := 0, srcHi := 0, offset := 0 }

/-- A reset of level 1 of core 0 in a phase. -/
def lvl (level phase : Nat) : Level :=
  { seq := 1, level := level, cause := 1, index := 0, queue := 0, start := 100, phase := phase, contexts := 1, counted := false, policy := chart.reset }
def resetting (level phase : Nat) : State := { up with rst := { up.rst with seq := 1, active := [lvl level phase] } }

/-- An outcome of an execution, and an adjudication of a failure of core 0 with executions on cores 4 and 8. -/
def outc : ExecOutcome := { gave := true, quants := [], fails := false, results := [1], srcCrc := 0, dstCrc := none }
def adj0 : Adj :=
  { core := 0, tag := 9, start := 500, retire := 700, queue := 0, ctx := 1, step := 0, epoch := 1, opening := 1, opened := 800, slotted := 800
    evid := [], results := [1], srcCrc := 0, op := op0, figs := [], u := some 4, v := some 8, uOut := none, vOut := none, hOut := none
    replaced := false, needH := false, noH := false, reread := false, pinLost := false, closing := none }
def judging (a : Adj) : State := { up with adj := { up.adj with slots := [(0, a)] } }

/-- An execution of U on core 4, and the adjudication with its outcome. -/
def execU : Cu := { cu0 with tag := 0, inserted := true, use := .exec 0 9 500 false .u }
def executing : State := updStation 4 (fun t => { t with cus := [execU] }) (judging adj0)
def ran (w : ExecName) (o : ExecOutcome) (a : Adj) : Adj := { a with runs := [(w, o)] }

/-- A capsule of core 0. -/
def cap0 : Capsule :=
  { tag := 9, pos := 0, units := 1, sects := [], state := 1, ctx := 1, start := 500, retire := 700, op := op0, epoch := 1, step := 0
    verdict := none, attempts := 0, checked := false, limitFrom := 800 }

/-- A snapshot in the staging buffer. -/
def snap0 : Snapshot :=
  { trigger := 1, state := 1, incomplete := false, noEvt := false, index := 0, queue := 0, tcap := 900, evtOf := none, evtSeq := 0, epoch := 1
    rstSeq := 0, queues := [], waits := [], gates := [] }

/-- A nonce drawn at 900. -/
def nonce : NonceRec := { value := 77, drawn := 900, bound := 0, expired := false }
def withNonce (r : Nat) : State := { up with evt := { up.evt with nonces := [(r, nonce)] } }

/-- The tag of an OTP_PROGRAM with zero content. -/
def otpTag (r : Requester) (type : Nat) : BitVec 256 :=
  BitVec.ofNat 256 (leNat (hmacSha256 (clearKey up) (otpMessage up r nonce type 1 (List.replicate 64 0))))

/-- The unit of core 0 whose operation waits for its verdict, and a station that holds units. -/
def waiting : Cu := { cu0 with retire := some 700, pending := true }
def holds (l : List Cu) : State := withSt fun t => { t with cus := l }

/-- Core 0 rehearses. -/
def rehearsing (n : Nat) : Rehearsal := { state := n, kit := 7, image := some kit, segStart := 900, rehMode := true }

/-- A work list item of ring 0: the ring stands at 4096 and holds one item. -/
def ringUp (l : List Byte) : State :=
  { up with sync := { up.sync with wl := [(0, 4097)] }, mem := tputs 0 4096 ([1, 0, 0, 0] ++ List.replicate 60 0 ++ l) [] }
def item (kind ctx o : Nat) (rest : List Byte) : List Byte := padTo 32 (toLe 1 kind ++ [0] ++ toLe 2 ctx ++ toLe 4 o ++ rest)

/-- A barrier of context 1 over cores 0 and 1. -/
def bar : Barrier := { state := 1, ctx := 1, mask := 3 }
def withBar (b : Barrier) : State := { up with sync := { up.sync with bars := [(3, b)] } }

/-- A figure that the factory library does not have. -/
def fig0 : Figure :=
  { id := 0x100, ver := 1, queues := 1, classes := 1, formats := 1, ttagLo := 0, ttagHi := 0xFFFF, demand := [1, 0, 0, 0, 0, 0, 0], verdict := true
    alt := false, sample := false, census := false, imports := 0, cells := [], params := [], outs := [] }

/-- A capsule whose first unit stands in memory with its checksum, and the complex that holds it. -/
def cap1 : Capsule := { cap0 with pos := 16 }
def replaying : State :=
  { withSt (fun t => { t with capsules := [cap1] }) with
    boot := { up.boot with map := List.range 32 }
    stations := (0, { st with capsules := [cap1] }) :: (List.range 31).map fun c => (c + 1, st)
    mem := tputs 0 (1024 + 56) (toLe 4 (crc32c (List.replicate 64 0)).toNat) [] }

/-- A replay of that capsule on core 8, before and after it has retired. -/
def replay0 : Replay := { core := 0, tag := 9, under := 8, epoch := 1, began := 900, discarded := false }
def replayCu : Cu := { cu0 with tag := 0, inserted := true, use := .replay 0 9 }
def replayRuns : State := { updStation 8 (fun t => { t with cus := [replayCu] }) up with adj := { up.adj with replays := [replay0] } }
def replayed (r : Replay) : State := { withSt (fun t => { t with capsules := [cap1] }) with adj := { up.adj with replays := [r] } }

/-- A replay of a capsule with one source sector and one result sector, whose OP_START is due on core 8. -/
def cap2 : Capsule := { cap1 with sects := [1, 0, 0, 1], units := 3 }
def insertDue : State :=
  { updStation 8 (fun t => { t with notices := [⟨1, [], .replay 0 9, none⟩] }) (withSt fun t => { t with capsules := [cap2] }) with
    adj := { up.adj with replays := [replay0] }
    mem := tputs 0 (17 * 64) [1, 2, 3, 4] [] }

/-- A core that awaits its recheck, whose run on a core has ended. -/
def rechecking (r : Rehearsal) : State := withSt fun t => { t with reh := { r with rehMode := false, recheck := some 900 } }
def ranElsewhere (sig : Nat) (r : Rehearsal) : State :=
  updStation 1 (fun t => { t with reh := { t.reh with sig := some sig, runFor := some 0 } }) (rechecking r)

/-- An item at a gate point, and a signal that waits at the point of the remote sync path. -/
def gitem : ItemIn :=
  { kind := .fabricPush, core := 0, queue := 2, transfer := 4, start := 800, gated := false, dest := 6, addr := 256, data := List.replicate 64 7
    poisoned := 0, last := true, lastItem := true, kit := false }
def sig : GItem :=
  { kind := .signal, core := 0, queue := 0, transfer := 4, start := 500, gated := false, dest := 6, addr := 0, data := [], sectors := 1
    whole := some 600, lastItem := true, msg := some (1, msg), ackNeed := 2, object := none }
def sending : State :=
  { withSt (fun t => { t with tallies := [(0, [⟨6, 2, 0⟩])], unacked := [(ackKey 0 6, 2)], queues := [(0, { syncOps := [⟨4, 1, 500, 0, false, 0⟩], nextOpid := 5 })] }) with
    sync := { up.sync with ports := (List.range 36).map fun p => (p, { port2 with settled := 1 }) }
    hz := { up.hz with gates := [(37, { opened := true, heard := 900, vh := 900, items := [sig] })] } }

/-- Voltage stepping with a VMIN of 600 in every domain, and a regulator command. -/
def tempoUp : State :=
  { up with
    tempo := { up.tempo with reported := true }
    boot := { up.boot with otp := tputs 0 0x900 (slotImage 3 1 ([0, 0, 0, 0] ++ (List.replicate 16 (toLe 2 600)).flatten ++ List.replicate 24 0)) up.boot.otp } }
def avs0 : AvsCmd := { mv := 1490, since := 900, settle := 500000, prev := 0, again := false, kind := 1, old := 1500, cause := 0, p2 := 0, merged := 0 }

/-! ### The spec's worked examples -/

/-- The check values of the two CRCs over "123456789" (05_lattice_figures.md). -/
theorem test_crc_check_values :
    crc32c [0x31, 0x32, 0x33, 0x34, 0x35, 0x36, 0x37, 0x38, 0x39] = 0xE3069283 ∧
    crc64 [0x31, 0x32, 0x33, 0x34, 0x35, 0x36, 0x37, 0x38, 0x39] = 0x995DC9BBDF1939FA := by decide +kernel

/-- The CU tag 0x2A003F17 in the bytes of a record (the example of 00_scope.md). -/
theorem test_tag_bytes : toLe 4 (0x2A003F17 : Word).toNat = [0x17, 0x3F, 0x00, 0x2A] := by decide +kernel

/-- The first A-sum cell of FG-GEMM-COL (the example before R149). -/
theorem test_cell_word :
    let w := cellOf (leNat [0x00, 0x02, 0x00, 0x02, 0, 0, 0, 0, 0x40, 0x22, 0x20, 0x02, 0, 0, 0, 0])
    w.op = 2 ∧ w.srcA = 0x200 ∧ w.scaleA = 0x220 ∧ w.lbase = 0 ∧ w.lstride = 4 ∧ w.estride = 2 ∧ w.nelem = 2 := by decide +kernel

/-- The log ratio of the failing lane of the second example of 06_tolerance.md. -/
theorem test_log_ratio : logRatio ⟨⟨312471, 0⟩, ⟨0, 0⟩, ⟨128050, 0⟩, ⟨0, 0⟩⟩ = 0x0149 := by decide +kernel

/-- Chip 0x0123 of the example of 11_sync_objects.md. -/
def chip123 : State :=
  { up with
    cfg := { up.cfg with active := some { chart with partition := [(1, BitVec.allOnes 256)] } }
    stations := [(12, { st with watches := [(2, { name := 0x00246065, target := 4, op := 6, cond := 1, queue := 0, valid := true, ctx := 1, expires := 900 })] }), (40, st)]
    boot := { up.boot with chip := 0x123, map := List.range 256 }
    sync := { up.sync with objs := [(101, { assigned := true, count := true, value := 3, ctx := 1, subs := [⟨0x02030123, 1, 4⟩] })] } }

/-- Names and parties of that example. -/
theorem test_names :
    objName 0x123 101 = 0x00246065 ∧ partyChip 0x02030123 = 0x123 ∧ partyCore 0x02030123 = 12 ∧ partyQueue 0x02030123 = 0 ∧
    partySlot 0x02030123 = 2 ∧ queueParty chip123 40 1 = 0x004A0123 := by decide +kernel

/-- What an execution leaves in a part of the state; a stop leaves nothing. -/
def after {α : Type} (o : Host.Outcome State Fault Refusal) (f : State → α) : Option α :=
  match o with
  | .next u => some (f u)
  | .fault _ => none
  | .refused _ => none

/-- Step 6 of that example: the second ADD 1 makes the value 4, under the party of core 40, queue 1. -/
theorem test_add : after (exec (.syncAdd 0 40 ⟨1, 0⟩ 0x00246065 1) chip123) (fun u => ((object u 101).value, (object u 101).lastOp, (object u 101).lastParty)) =
    some (4, 3, 0x004A0123) := by decide +kernel

/-- Step 4: the expiry retires the wait with WAIT_TIMEOUT and records the three parameters. -/
theorem test_wait_timeout : after (exec (.waitTimeout 1000 12 ⟨2, 0⟩) chip123) (fun u => u.evt.fifoData.map fun e => (e.p1, e.p2, e.p3)) =
    some [(0x00246065, 0x02030123, 3)] := by decide +kernel
theorem test_wait_timeout_status : after (exec (.waitTimeout 1000 12 ⟨2, 0⟩) chip123) (fun u => u.out.retired) = some [(12, 0, 2, 3)] := by
  decide +kernel

/-- The counter of WAIT_TIMEOUT is entry 321 (the examples of 14_event_recorder.md and 18_registers.md). -/
theorem test_count_index : countIndex 0x5001 = 321 := by decide +kernel

/-- Step 3 of the example of 14_event_recorder.md: the token that arrives is spent on the summary of 4 suppressed occurrences. -/
theorem test_suppressed_summary :
    after (exec (.tokenRefill 250000 0x5001)
      { up with evt := { up.evt with buckets := [(0x5001, { tokens := 0, next := some 250000, suppressed := 4, byBucket := true, first := 900 })] } })
      (fun u => (u.evt.summaries.map fun e => (e.p1, e.p2, e.p3))) = some [(0x00015001, 4, 900)] := by decide +kernel

/-- The row ν = 6 of the example of 09_ledger_quarantine.md: CHI2_95 = 12.592 to three decimals. -/
theorem test_chi95 : dyLe ⟨12591, 0⟩ (dyMul ⟨1000, 0⟩ (chi95 6)) = true ∧ dyLe (dyMul ⟨1000, 0⟩ (chi95 6)) ⟨12593, 0⟩ = true := by decide +kernel

/-- The offset of object 101 and the split read of 18_registers.md. -/
theorem test_object_word : (readWords [0x200650] [] chip123).1 = toLe 4 3 := by decide +kernel

/-- The frame 10 07 05 00 00 F4 01 00 00 of the example of 17_ports.md is taken, with TAG 07. -/
theorem test_i3c_frame :
    after (exec (.i3cEvtRead 5 0x07 0 0x1F4 (crc32c [0x10, 0x07, 0x05, 0x00, 0x00, 0xF4, 0x01, 0x00, 0x00])) up) (fun u => (u.i3c.tag, u.i3c.resp.map (·.1))) =
    some (7, some 0) := by decide +kernel

/-! ### One step of each family, with results that the rules name -/

/-- R309: SET writes 1 into a flag and n into a count; ADD on a flag is MODE_ERROR and changes nothing. -/
theorem test_set_flag : after (exec (.syncSet 5 0 ⟨0, 0⟩ (objName 5 5) 9) up) (fun u => (object u 5).value) = some 1 := by decide +kernel
theorem test_set_count : after (exec (.syncSet 5 0 ⟨0, 0⟩ (objName 5 6) 9) up) (fun u => (object u 6).value) = some 9 := by decide +kernel
theorem test_add_flag : after (exec (.syncAdd 5 0 ⟨0, 0⟩ (objName 5 5) 9) up) (fun u => ((object u 5).value, u.out.retired)) = some (0, [(0, 0, 8, 0)]) := by
  decide +kernel
/-- R309, R314: ADD wraps; SUB below zero leaves 0, is UNDERFLOW and halts the queue. -/
theorem test_add_wraps : after (exec (.syncAdd 5 0 ⟨0, 0⟩ (objName 5 6) 0xFFFFFFFE) up) (fun u => (object u 6).value) = some 1 := by decide +kernel
theorem test_sub_underflow :
    after (exec (.syncSub 5 0 ⟨0, 0⟩ (objName 5 6) 5) up) (fun u => ((object u 6).value, (queueOf u 0 0).status, (queueOf u 0 0).halted)) =
    some (0, 5, true) := by decide +kernel

/-- R310, R311: an object that is not assigned gives NO_OBJECT and halts the queue. -/
theorem test_no_object : after (exec (.syncClear 5 0 ⟨0, 0⟩ (objName 5 9)) up) (fun u => (u.out.retired, (queueOf u 0 0).halted)) =
    some ([(0, 0, 6, 0)], true) := by decide +kernel

/-- R466: a shutdown is refused while a context runs, with BUSY. -/
theorem test_shutdown_busy : after (exec (.shutdown 5 .host 0x4000000A) up) (fun u => (tget 0 (perReq 0x08000C .host) u.cfg.results, u.boot.shutdown)) =
    some (1, 0) := by decide +kernel

/-- R427: a halt by the chip control processor shows trigger 3. -/
theorem test_halt_source : after (exec (.tableauHalt 5 .ccp) up) (fun u => (u.tab.state, u.tab.source)) = some (1, 3) := by decide +kernel

/-- R31: the broadcast horizon is the least of the 16 cluster values. -/
theorem test_vh : after (exec (.vhBroadcast 1100) { up with hz := { up.hz with clusters := (List.range 16).map fun c => (c, 950 + c) } }) (fun u => u.hz.vh) =
    some 950 := by decide +kernel

/-- The reset state idles; a command at the front of the queue runs. -/
theorem test_idle : step State.reset = .next State.reset := rfl
theorem test_power_on : after (step { State.reset with pending := [.pwrOkRise] }) (fun u => (u.boot.pwrOk, u.boot.stage, u.boot.state, u.pending)) =
    some (true, 0, 0, []) := by decide +kernel

/-- The table spells no command in bits. -/
theorem test_no_words : decodeTableWord 32 0 = none ∧ State.reset.withFetchWord 32 0 = State.reset := by decide +kernel

/-! ### The well-formedness checks refuse -/

theorem ill_readback : Instr.wf (.stageB2Clocks 0 0 ⟨[], List.replicate 16 0⟩ ⟨true, List.replicate 16 0⟩ true) = false := by decide +kernel
theorem ill_readback_value : Instr.wf (.stageB2Clocks 0 0 ⟨List.replicate 16 4096, List.replicate 16 0⟩ ⟨true, List.replicate 16 0⟩ true) = false := by decide +kernel
theorem ill_readback_again : Instr.wf (.stageB2Clocks 0 0 ⟨List.replicate 16 0, [4095]⟩ ⟨true, List.replicate 16 0⟩ true) = false := by decide +kernel
theorem ill_readback_again_value : Instr.wf (.stageB2Clocks 0 0 ⟨List.replicate 16 0, List.replicate 16 4096⟩ ⟨true, List.replicate 16 0⟩ true) = false := by
  decide +kernel
theorem ill_lags : Instr.wf (.stageB2Clocks 0 0 ⟨List.replicate 16 0, List.replicate 16 0⟩ ⟨true, []⟩ true) = false := by decide +kernel
theorem ill_screens : Instr.wf (.stageB4Memscreen 0 []) = false := by decide +kernel
theorem ill_ports : Instr.wf (.stageB6Fabric 0 [none]) = false := by decide +kernel
theorem ill_dropped : Instr.wf (.stageLimitReached 0 (.ports [])) = false := by decide +kernel
theorem ill_store_put : Instr.wf (.storePut 0 0 0 0 [] 0) = false := by decide +kernel
theorem ill_store_put_long : Instr.wf (.storePut 0 0 0 0 (List.replicate 257 0) 0) = false := by decide +kernel
theorem ill_unknown_command : Instr.wf (.i3cUnknownCommand 0 0x01 0 [] 0) = false := by decide +kernel
theorem ill_unknown_length : Instr.wf (.i3cUnknownCommand 0 0x99 0 (List.replicate 321 0) 0) = false := by decide +kernel
theorem ill_lanes : Instr.wf (.tapDataBeat 0 0 0 (.beat beat) 0 none false) = false := by decide +kernel
theorem ill_inb_lanes : Instr.wf (.inbBeat 0 ⟨0, 0⟩ 0 0 0 0 [] false) = false := by decide +kernel
theorem ill_item_bytes : Instr.wf (.gateItemArrival 0 0 { gitem with data := List.replicate 65 0 }) = false := by decide +kernel
theorem ill_item_poison : Instr.wf (.gateItemArrival 0 0 { gitem with poisoned := 257 }) = false := by decide +kernel
theorem ill_message_parts : Instr.wf (.gateItemArrival 0 37 { gitem with kind := .signal, last := false }) = false := by decide +kernel
theorem ill_vout : Instr.wf (.avsSettleExpiry 0 0 4096) = false := by decide +kernel
theorem ill_slack : Instr.wf (.canaryReport 0 0 0 101) = false := by decide +kernel
theorem ill_slack_low : Instr.wf (.canaryReport 0 0 0 (-101)) = false := by decide +kernel
theorem ill_frequency : Instr.wf (.frequencyChangeNotice 0 0 2048 0) = false := by decide +kernel

/-- SHA-256, SHA-384 and HMAC of "abc" begin as FIPS 180-4's examples and RFC 4231's second case do. -/
theorem test_sha_values :
    (sha256 [0x61, 0x62, 0x63]).take 4 = [0xBA, 0x78, 0x16, 0xBF] ∧
    (sha384 [0x61, 0x62, 0x63]).take 4 = [0xCB, 0x00, 0x75, 0x3F] ∧
    (hmacSha256 [0x4A, 0x65, 0x66, 0x65] ("what do ya want for nothing?".toList.map fun c => BitVec.ofNat 8 c.toNat)).take 4 =
      [0x5B, 0xDC, 0xC1, 0x46] := by decide +kernel

/-- A word whose fields are those named; the rest is zero. -/
def word (type vcell op srcA srcB trig nelem : Nat) : CellWord :=
  { type := type, vcell := vcell, op := op, clr := false, srcA := BitVec.ofNat 12 srcA, srcB := BitVec.ofNat 12 srcB, srcC := 0, trig := trig
    neg := 0, lbase := 0, lstride := 0, estride := 0, nelem := nelem, scaleA := 0, scaleB := 0, param := 0, rest := 0 }

/-- The latency of the custom figure of the example of 05_lattice_figures.md, one cell of each group: 4 + 8 + 64. -/
theorem test_figure_latency :
    figureLatency { fig0 with
      cells := [word 0 0 2 0x200 0 0 2, word 0 8 1 0x600 0x210 0 2, word 0 16 1 0x240 0 1 1, word 2 0 1 0x410 0x420 4 4]
      outs := [⟨1, 2, 0, 0⟩] } = 76 := by decide +kernel

/-! ### The hypotheses of every statement can be met -/

theorem witness_PowerEdges :
    ∃ (s : State), s.boot.pwrOk = false :=
  ⟨State.reset, by decide +kernel⟩

theorem witness_EarlyStagesEnd :
    (∃ (s : State), stageRuns s 0) ∧
    (∃ (s : State), stageRuns s 1 ∧ s.i3c.need = none ∧ s.i3c.wanted = []) ∧
    (∃ (s : State), stageRuns s 2) :=
  ⟨⟨at' 0, by unfold stageRuns; decide +kernel⟩,
   ⟨at' 1, by unfold stageRuns; decide +kernel⟩,
   ⟨at' 2, by unfold stageRuns; decide +kernel⟩⟩

theorem witness_StackAndCoreStages :
    (∃ (s : State), stageRuns s 3 ∧ s.boot.awaitsDone = false ∧ needing s = false ∧ s.boot.failed = 0 ∧ s.rst.l4 = false ∧
      slicesLeft s 3 = []) ∧
    (∃ (s : State) (r : Requester), stageRuns s 3 ∧ s.boot.awaitsDone = true ∧ (r = .host ∨ r = .ccp)) ∧
    (∃ (s : State) (found : List StackScreen), stageRuns s 4 ∧ s.boot.failed = 0 ∧ found.length = 8) ∧
    (∃ (s : State) (i : Fin 316), stageRuns s 5 ∧ s.boot.shutdown ≠ 2 ∧ s.boot.failed = 0 ∧ i.val ∈ slicesLeft s 5) ∧
    (∃ (s : State) (i : Fin 316), stageRuns s 5 ∧ s.boot.shutdown ≠ 2 ∧ s.boot.failed = 0 ∧ i.val ∈ slicesLeft s 5) ∧
    (∃ (s : State), stageRuns s 5 ∧ s.boot.failed = 0 ∧ slicesLeft s 5 = []) :=
  ⟨⟨{ at' 3 with boot := { (at' 3).boot with slices := (List.range 8).map fun i => (272 + i, 1) } },
     by unfold stageRuns; decide +kernel⟩,
   ⟨{ at' 3 with boot := { (at' 3).boot with awaitsDone := true } }, .host, by unfold stageRuns; decide +kernel⟩,
   ⟨at' 4, List.replicate 8 ⟨false, 0⟩, by unfold stageRuns; decide +kernel⟩,
   ⟨at' 5, 3, by unfold stageRuns; decide +kernel⟩,
   ⟨at' 5, 260, by unfold stageRuns; decide +kernel⟩,
   ⟨{ at' 5 with boot := { (at' 5).boot with slices := (List.range 316).map fun i => (i, 1) } },
     by unfold stageRuns; decide +kernel⟩⟩

theorem witness_LateStagesEnd :
    (∃ (s : State) (ports : List (Option PortReport)), stageRuns s 6 ∧ s.boot.failed = 0 ∧ ports.length = 36) ∧
    (∃ (s : State) (ch : Charter) (img : List Byte), stageRuns s 7 ∧ s.boot.failed = 0 ∧ s.rst.l4 = false ∧ s.cfg.first = some (ch,
      img)) ∧
    (∃ (s : State) (ch : Charter) (img : List Byte), stageRuns s 8 ∧ s.boot.failed = 0 ∧ s.rst.l4 = false ∧ needing s = false ∧
      s.cfg.first = some (ch, img) ∧ freshFault (updBoot (fun b => { b with map := goodCores (applyTapFloor ch.floors.1 s) })
      (applyTapFloor ch.floors.1 s)) ch = none) ∧
    (∃ (s : State), stageRuns s 9 ∧ s.led.state = 0 ∧ s.boot.worst < 2 ∧ s.boot.barred = false ∧ s.rst.l4 = false) ∧
    (∃ (s : State), stageRuns s 9 ∧ s.led.state = 0 ∧ (s.boot.worst = 2 ∨ s.boot.barred = true) ∧ s.rst.l4 = false) ∧
    (∃ (s : State) (t : Nat) (n : Nat), stageRuns s n ∧ n < 9 ∧ n ≠ 4 ∧ stageWaits s = false ∧ max s.boot.stageStart s.boot.waitEnd
      + stageLimit s * 1000000 ≤ timeAt t s) :=
  ⟨⟨at' 6, none :: List.replicate 35 (some ⟨16, 77, 3, 3⟩), by unfold stageRuns; decide +kernel⟩,
   ⟨{ at' 7 with cfg := { (at' 7).cfg with first := some (chart, []) } }, chart, [], by unfold stageRuns; decide +kernel⟩,
   ⟨{ at' 8 with cfg := { (at' 8).cfg with first := some (chart, []) } }, chart, [], by unfold stageRuns; decide +kernel⟩,
   ⟨{ at' 9 with boot := { (at' 9).boot with worst := 1 } }, by unfold stageRuns; decide +kernel⟩,
   ⟨{ at' 9 with boot := { (at' 9).boot with worst := 2 } }, by unfold stageRuns; decide +kernel⟩,
   ⟨at' 6, 90000000000, 6, by unfold stageRuns; decide +kernel⟩⟩

theorem witness_CharterLoad :
    (∃ (s : State) (t : Nat) (r : Requester) (v : Word) (x : Txn), callerOff s = false ∧ heard s r ∧ v.getLsbD 0 = true ∧
      s.boot.mapped = true ∧ 5 ≤ s.boot.stage ∧ s.cfg.copy = none ∧ s.cfg.txn = some x ∧ r = x.owner ∧ x.committing = false ∧ inTime x
      (timeAt t s)) ∧
    (∃ (s : State) (r : Requester) (v : Word), callerOff s = false ∧ heard s r ∧ v.getLsbD 0 = true ∧ s.boot.mapped = false ∧ 5 ≤
      s.boot.stage ∧ s.cfg.copy = none ∧ s.cfg.txn = none) ∧
    (∃ (s : State) (r : Requester) (v : Word), callerOff s = false ∧ heard s r ∧ v.getLsbD 0 = true ∧ s.boot.mapped = true ∧ 5 ≤
      s.boot.stage ∧ s.cfg.copy = none ∧ s.cfg.txn = none) ∧
    (∃ (s : State), s.cfg.copy.isSome = true) ∧
    (∃ (s : State) (t : Nat) (r : Requester) (img : List Byte) (x : Txn), callerOff s = false ∧ s.boot.mapped = true ∧ s.cfg.copy =
      some img ∧ s.cfg.loader = some r ∧ s.cfg.txn = some x ∧ x.loading = true ∧ inTime x (timeAt t s)) ∧
    (∃ (s : State) (r : Requester) (img : List Byte), callerOff s = false ∧ needing s = false ∧ s.cfg.copy = some img ∧ s.cfg.loader
      = some r ∧ s.cfg.txn = none) :=
  ⟨⟨{ up with cfg := { up.cfg with txn := some txn } }, 5, .host, 1, txn, by unfold heard inTime; decide +kernel⟩,
   ⟨{ up with boot := { up.boot with mapped := false } }, .ccp, 1, by unfold heard; decide +kernel⟩,
   ⟨up, .hostG1, 1, by unfold heard; decide +kernel⟩,
   ⟨{ up with cfg := { up.cfg with copy := some [] } }, by decide +kernel⟩,
   ⟨{ up with cfg := { up.cfg with copy := some [], loader := some .host, txn := some { txn with loading := true } } }, 5, .host,
     [], { txn with loading := true }, by unfold inTime; decide +kernel⟩,
   ⟨{ up with cfg := { up.cfg with copy := some [], loader := some .host } }, .host, [], by decide +kernel⟩⟩

theorem witness_TransactionCommands :
    (∃ (s : State) (r : Requester), callerOff s = false ∧ (heard s r ∨ r = .caller) ∧ s.cfg.txn = none) ∧
    (∃ (s : State) (t : Nat) (r : Requester) (x : Txn), callerOff s = false ∧ (heard s r ∨ r = .caller) ∧ s.cfg.txn = some x ∧ r =
      x.owner ∧ x.committing = false ∧ x.loading = false ∧ inTime x (timeAt t s)) ∧
    (∃ (s : State) (t : Nat) (r : Requester) (x : Txn), callerOff s = false ∧ (heard s r ∨ r = .caller) ∧ s.cfg.txn = some x ∧ r =
      x.owner ∧ x.committing = false ∧ inTime x (timeAt t s)) ∧
    (∃ (s : State) (t : Nat) (x : Txn), callerOff s = false ∧ s.cfg.txn = some x ∧ ¬ inTime x (timeAt t s)) :=
  ⟨⟨up, .caller, by unfold heard; decide +kernel⟩,
   ⟨{ up with cfg := { up.cfg with txn := some txn } }, 5, .host, txn, by unfold heard inTime; decide +kernel⟩,
   ⟨{ up with cfg := { up.cfg with txn := some txn } }, 5, .host, txn, by unfold heard inTime; decide +kernel⟩,
   ⟨{ up with cfg := { up.cfg with txn := some txn } }, 200000000, txn, by unfold inTime; decide +kernel⟩⟩

theorem witness_CommitTakesEffect :
    (∃ (s : State) (t : Nat) (r : Requester) (off : Fin 0x400000) (x : Txn), callerOff s = false ∧ r ≠ .bc ∧ r ≠ .hostG1 ∧ (off.val
      = 0x40 ∨ off.val = 0x44) ∧ s.cfg.txn = some x ∧ r = x.owner ∧ x.committing = false ∧ x.shadow.length < 4096 ∧ inTime x (timeAt t
      s)) ∧
    (∃ (s : State) (x : Txn) (old : Charter) (ch : Charter) (img : List Byte), callerOff s = false ∧ s.cfg.txn = some x ∧
      x.committing = true ∧ x.staged = some (ch, img) ∧ s.cfg.active = some old ∧ residencyFault s ch = none ∧ shadowOk x = true) ∧
    (∃ (s : State) (x : Txn), callerOff s = false ∧ s.cfg.txn = some x ∧ x.committing = true ∧ s.cfg.active = none) ∧
    (∃ (s : State) (c : Core), clusterInReset s (c.val / 16) = false ∧ (station s c.val).epoch ≠ s.cfg.epoch) :=
  ⟨⟨{ up with cfg := { up.cfg with txn := some txn } }, 5, .host, 0x40, txn, by unfold inTime; decide +kernel⟩,
   ⟨{ up with cfg := { up.cfg with txn := some { txn with committing := true, staged := some (chart, [1]) } } },
     { txn with committing := true, staged := some (chart, [1]) }, chart, chart, [1], by decide +kernel⟩,
   ⟨{ up with cfg := { up.cfg with active := none, txn := some { txn with committing := true } } }, { txn with committing := true },
     by decide +kernel⟩,
   ⟨{ up with cfg := { up.cfg with epoch := 2 } }, 3, by decide +kernel⟩⟩

theorem witness_HostGeneration :
    (∃ (s : State) (r : Requester), callerOff s = false ∧ (r = .host ∨ r = .ccp)) ∧
    (∃ (s : State), callerOff s = false) ∧
    (∃ (s : State), callerUp s) ∧
    (∃ (s : State), s.rst.callerIn = true) ∧
    (∃ (s : State), callerOff s = false ∧ s.cfg.hostGen ≠ 1) ∧
    (∃ (s : State), callerOff s = false ∧ s.cfg.hostGen = 1) :=
  ⟨⟨up, .host, by decide +kernel⟩,
   ⟨up, by decide +kernel⟩,
   ⟨up, by unfold callerUp; decide +kernel⟩,
   ⟨{ up with rst := { up.rst with callerIn := true } }, by decide +kernel⟩,
   ⟨{ up with cfg := { up.cfg with hostGen := 0 } }, by decide +kernel⟩,
   ⟨{ up with cfg := { up.cfg with hostGen := 1 } }, by decide +kernel⟩⟩

theorem witness_RegisterViews :
    (∃ (s : State) (i : Nat), s.boot.pwrOk = true ∧ i < 1024 ∧ tget 0 i s.evt.counts ≤ 0xFFFFFF) ∧
    (∃ (s : State) (k : Nat), s.boot.pwrOk = true ∧ k < 10) ∧
    (∃ (s : State) (k : Nat), s.boot.pwrOk = true ∧ k < 64 ∧ (∀ c ∈ s.boot.map, c < 256)) ∧
    (∃ (o : Fin 0x400000), (0x011000 ≤ o.val ∧ o.val < 0x012000) ∨ (0x080100 ≤ o.val ∧ o.val < 0x080128) ∨ (0x080200 ≤ o.val ∧ o.val
      < 0x080300)) ∧
    (∃ (s : State), callerUp s) ∧
    (∃ (s : State) (c : Core), callerUp s ∧ s.tab.state < 4 ∧ clusterInReset s (c.val / 16) = false ∧ coreBad s c.val = false) ∧
    (∃ (s : State) (r : Requester), callerOff s = false ∧ s.tab.state < 4 ∧ r ≠ .hostG1) :=
  ⟨⟨up, 321, by decide +kernel⟩,
   ⟨{ up with boot := { up.boot with defect := 0x123456789ABCDEF0123456789 } }, 2, by decide +kernel⟩,
   ⟨up, 3, by decide +kernel⟩,
   ⟨0x011504, by decide +kernel⟩,
   ⟨up, by unfold callerUp; decide +kernel⟩,
   ⟨up, 3, by unfold callerUp; decide +kernel⟩,
   ⟨up, .host, by decide +kernel⟩⟩

theorem witness_I3cAddressAndMode :
    (∃ (s : State), s.boot.pwrOk = true) ∧
    (∃ (s : State), s.boot.pwrOk = true) ∧
    (∃ (s : State), s.boot.pwrOk = true) :=
  ⟨⟨up, by decide +kernel⟩,
   ⟨up, by decide +kernel⟩,
   ⟨{ up with i3c := { up.i3c with mode := 2 } }, by decide +kernel⟩⟩

theorem witness_I3cAnswers :
    (∃ (s : State), s.boot.pwrOk = true) ∧
    (∃ (c : Instr) (s : State) (cmd : Byte) (tag : Byte) (arg : List Byte) (crc : Word), frameOf c = some (cmd, tag, arg, crc) ∧
      s.boot.pwrOk = true ∧ frameOk cmd tag arg crc = false) ∧
    (∃ (s : State) (cmd : Byte) (tag : Byte) (arg : List Byte) (crc : Word), s.boot.pwrOk = true ∧ argOk cmd.toNat arg.length =
      false ∧ frameOk cmd tag arg crc = true) ∧
    (∃ (c : Instr) (s : State) (cmd : Byte) (tag : Byte) (arg : List Byte) (crc : Word), frameOf c = some (cmd, tag, arg, crc) ∧
      asksCaller c = true ∧ c.wf = true ∧ s.boot.pwrOk = true ∧ frameOk cmd tag arg crc = true ∧ (s.rst.callerIn = true ∨ s.led.state
      = 5)) :=
  ⟨⟨up, by decide +kernel⟩,
   ⟨.i3cStatus 5 7 1, up, 1, 7, [], 1, by decide +kernel⟩,
   ⟨up, 0x99, 7, [1], fcrc 0x99 7 [1], by decide +kernel⟩,
   ⟨.i3cTableau 5 7 1 (fcrc 0x31 7 [1]), { up with rst := { up.rst with callerIn := true } }, 0x31, 7, [1], fcrc 0x31 7 [1],
     by decide +kernel⟩⟩

theorem witness_I3cReads :
    (∃ (s : State) (tag : Byte) (crc : Word), s.boot.pwrOk = true ∧ s.i3c.mode ≠ 0 ∧ frameOk 0x01 tag [] crc = true) ∧
    (∃ (s : State) (tag : Byte) (offset : Word) (count : Byte) (crc : Word), s.boot.pwrOk = true ∧ frameOk 0x02 tag (toLe 4
      offset.toNat ++ [count]) crc = true) ∧
    (∃ (s : State) (tag : Byte) (era : Byte) (seq : Word) (crc : Word), s.boot.pwrOk = true ∧ frameOk 0x10 tag ([era] ++ toLe 4
      seq.toNat) crc = true) ∧
    (∃ (s : State) (tag : Byte) (page : Byte) (offset : Word) (len : BitVec 16) (crc : Word), s.boot.pwrOk = true ∧ frameOk 0x11 tag
      ([page] ++ toLe 4 offset.toNat ++ toLe 2 len.toNat) crc = true) :=
  ⟨⟨{ up with i3c := { up.i3c with mode := 1 } }, 7, fcrc 1 7 [], by decide +kernel⟩,
   ⟨up, 7, 0x14, 2, fcrc 2 7 (toLe 4 0x14 ++ [2]), by decide +kernel⟩,
   ⟨up, 7, 0, 3, fcrc 0x10 7 ([0] ++ toLe 4 3), by decide +kernel⟩,
   ⟨up, 7, 0, 8, 16, fcrc 0x11 7 ([0] ++ toLe 4 8 ++ toLe 2 16), by decide +kernel⟩⟩

theorem witness_OutOfBandQueue :
    (∃ (s : State) (tag : Byte) (crc : Word), s.boot.pwrOk = true ∧ frameOk 0x20 tag [] crc = true) ∧
    (∃ (s : State) (tag : Byte) (oseq : BitVec 16) (crc : Word) (e : Oob) (q : List Oob), s.boot.pwrOk = true ∧ frameOk 0x21 tag
      (toLe 2 oseq.toNat) crc = true ∧ s.i3c.queue = e :: q) ∧
    (∃ (s : State) (t : Nat) (e : Oob) (q : List Oob), s.i3c.queue = e :: q ∧ s.i3c.lastFetch + 10000000 ≤ timeAt t s) :=
  ⟨⟨up, 7, fcrc 0x20 7 [], by decide +kernel⟩,
   ⟨{ up with i3c := { up.i3c with ibi := true, queue := [⟨4, 3, [1, 2]⟩] } }, 7, 4, fcrc 0x21 7 (toLe 2 4), ⟨4, 3, [1, 2]⟩, [],
     by decide +kernel⟩,
   ⟨{ up with i3c := { up.i3c with queue := [⟨4, 1, [1, 2]⟩] } }, 20000000, ⟨4, 1, [1, 2]⟩, [], by decide +kernel⟩⟩

theorem witness_I3cControl :
    (∃ (s : State) (tag : Byte) (level : Byte) (queue : Byte) (index : Byte) (crc : Word), callerUp s ∧ s.i3c.mode ≠ 0 ∧ frameOk
      0x30 tag [level, queue, index] crc = true) ∧
    (∃ (s : State) (tag : Byte) (crc : Word), callerUp s ∧ s.i3c.mode ≠ 0 ∧ s.boot.shutdown = 0 ∧ s.tab.state = 0 ∧ frameOk 0x31 tag
      [1] crc = true) ∧
    (∃ (s : State) (tag : Byte) (crc : Word), callerUp s ∧ s.i3c.mode ≠ 0 ∧ s.tab.state = 2 ∧ s.rst.waiting = [] ∧ frameOk 0x31 tag
      [2] crc = true) ∧
    (∃ (s : State) (tag : Byte) (crc : Word), callerUp s ∧ s.i3c.mode ≠ 0 ∧ s.tab.state = 2 ∧ s.tab.dest.getLsbD 0 = false ∧
      scanAddr s ≠ 0 ∧ frameOk 0x31 tag [3] crc = true) ∧
    (∃ (s : State) (tag : Byte) (op : Byte) (crc : Word), callerUp s ∧ (op = 0 ∨ 4 ≤ op.toNat) ∧ frameOk 0x31 tag [op] crc = true) ∧
    (∃ (s : State) (tag : Byte) (budget : Byte) (crc : Word), callerUp s ∧ s.i3c.mode ≠ 0 ∧ frameOk 0x32 tag [budget] crc = true ∧ 2
      ≤ s.boot.state ∧ s.tab.state = 0 ∧ s.ctxs = [] ∧ s.boot.shutdown = 0) :=
  ⟨⟨{ up with i3c := { up.i3c with mode := 1 } }, 7, 1, 0, 3, fcrc 0x30 7 [1, 0, 3], by unfold callerUp; decide +kernel⟩,
   ⟨{ up with i3c := { up.i3c with mode := 1 } }, 7, fcrc 0x31 7 [1], by unfold callerUp; decide +kernel⟩,
   ⟨{ up with i3c := { up.i3c with mode := 1 }, tab := { up.tab with state := 2, stopOut := true } }, 7, fcrc 0x31 7 [2],
     by unfold callerUp; decide +kernel⟩,
   ⟨{ up with i3c := { up.i3c with mode := 1 }, tab := { up.tab with state := 2, stopOut := true, dest := 0x40000000 } }, 7, fcrc
     0x31 7 [3], by unfold callerUp; decide +kernel⟩,
   ⟨up, 7, 0, fcrc 0x31 7 [0], by unfold callerUp; decide +kernel⟩,
   ⟨{ up with ctxs := [], i3c := { up.i3c with mode := 1 } }, 7, 10, fcrc 0x32 7 [10], by unfold callerUp; decide +kernel⟩⟩

theorem witness_I3cSecured :
    (∃ (s : State) (t : Nat) (tag : Byte) (crc : Word), callerUp s ∧ frameOk 0x40 tag [] crc = true ∧ lockedOut (atTime t s) =
      false) ∧
    (∃ (s : State) (t : Nat) (tag : Byte) (hmac : BitVec 256) (crc : Word) (n : NonceRec), callerUp s ∧ frameOk 0x41 tag (toLe 32
      hmac.toNat) crc = true ∧ s.evt.clearing = none ∧ lockedOut (atTime t s) = false ∧ keysUsable s = true ∧ tfind 5 s.evt.nonces =
      some n ∧ n.expired = false ∧ timeAt t s < n.drawn + 10000000000) ∧
    (∃ (s : State) (t : Nat) (tag : Byte) (type : Byte) (content : BitVec 480) (hmac : BitVec 256) (crc : Word) (n : NonceRec),
      let data := [0, 0, 0, 0] ++ toLe 60 content.toNat
      let gen := (otpRecord s type.toNat).1 + 1
      callerUp s ∧ frameOk 0x42 tag ([type] ++ toLe 60 content.toNat ++ toLe 32 hmac.toNat) crc = true ∧ lockedOut (atTime t s) =
      false ∧ s.boot.otpJob = none ∧ (type = 4 ∨ type = 6 ∨ (type = 5 ∧ clearsDefect s data = false)) ∧ keysUsable s = true ∧ tfind 5
      s.evt.nonces = some n ∧ n.expired = false ∧ timeAt t s < n.drawn + 10000000000 ∧ toLe 32 hmac.toNat = hmacSha256 (clearKey s)
      (otpMessage s .bc n type.toNat gen data)) :=
  ⟨⟨up, 5, 7, fcrc 0x40 7 [], by unfold callerUp; decide +kernel⟩,
   ⟨withNonce 5, 5, 7, 1, fcrc 0x41 7 (toLe 32 1), nonce, by unfold callerUp; decide +kernel⟩,
   ⟨withNonce 5, 5, 7, 6, 0, otpTag .bc 6, fcrc 0x42 7 ([6] ++ toLe 60 0 ++ toLe 32 (otpTag .bc 6).toNat), nonce,
     by unfold callerUp; decide +kernel⟩⟩

theorem witness_BoardTransfers :
    (∃ (s : State) (tag : Byte) (object : Byte) (offset : Word) (bytes : List Byte) (crc : Word) (since : Nat) (got : Tab Byte),
      callerUp s ∧ frameOk 0x50 tag ([object] ++ toLe 4 offset.toNat ++ bytes) crc = true ∧ 1 ≤ bytes.length ∧ bytes.length ≤ 256 ∧
      s.i3c.need = some (object.toNat, since, got) ∧ offset.toNat + bytes.length ≤ objectMax object.toNat) ∧
    (∃ (s : State) (tag : Byte) (object : Byte) (len : Word) (crc : Word) (since : Nat) (got : Tab Byte), callerUp s ∧ frameOk 0x51
      tag ([object] ++ toLe 4 len.toNat) crc = true ∧ s.i3c.need = some (object.toNat, since, got) ∧ s.i3c.wanted = []) ∧
    (∃ (s : State) (tag : Byte) (object : Byte) (offset : Word) (len : BitVec 16) (crc : Word) (since : Nat) (bytes : List Byte),
      callerUp s ∧ frameOk 0x52 tag ([object] ++ toLe 4 offset.toNat ++ toLe 2 len.toNat) crc = true ∧ s.i3c.offer = some
      (object.toNat, since, bytes) ∧ 1 ≤ len.toNat ∧ len.toNat ≤ 256) ∧
    (∃ (s : State) (tag : Byte) (object : Byte) (crc : Word) (since : Nat) (bytes : List Byte), callerUp s ∧ frameOk 0x53 tag
      [object] crc = true ∧ s.i3c.offer = some (object.toNat, since, bytes)) ∧
    (∃ (s : State) (t : Nat) (object : Byte) (since : Nat) (got : Tab Byte), callerOff s = false ∧ s.i3c.need = some (object.toNat,
      since, got) ∧ s.i3c.wanted = [] ∧ since + (if object = 1 then 1000000000 else 10000000) ≤ timeAt t s) ∧
    (∃ (s : State) (t : Nat) (object : Byte) (since : Nat) (bytes : List Byte), s.i3c.offer = some (object.toNat, since, bytes) ∧
      since + 50000000 ≤ timeAt t s) ∧
    (∃ (s : State) (r : Requester), callerOff s = false ∧ (r = .host ∨ r = .ccp)) :=
  ⟨⟨{ up with i3c := { up.i3c with need := some (1, 900, []) } }, 7, 1, 4, [0, 9], fcrc 0x50 7 ([1] ++ toLe 4 4 ++ [0, 9]), 900,
     [], by unfold callerUp; decide +kernel⟩,
   ⟨{ up with i3c := { up.i3c with need := some (2, 900, [(0, 7), (1, 8)]) } }, 7, 2, 2, fcrc 0x51 7 ([2] ++ toLe 4 2), 900, [(0,
     7), (1, 8)], by unfold callerUp; decide +kernel⟩,
   ⟨{ up with i3c := { up.i3c with offer := some (1, 900, [1, 2, 3, 4]) } }, 7, 1, 2, 2, fcrc 0x52 7 ([1] ++ toLe 4 2 ++ toLe 2 2),
     900, [1, 2, 3, 4], by unfold callerUp; decide +kernel⟩,
   ⟨{ up with i3c := { up.i3c with offer := some (0x14, 900, [1, 2, 3, 4]) } }, 7, 0x14, fcrc 0x53 7 [0x14], 900, [1, 2, 3, 4],
     by unfold callerUp; decide +kernel⟩,
   ⟨{ up with i3c := { up.i3c with need := some (2, 900, []) } }, 20000000, 2, 900, [], by decide +kernel⟩,
   ⟨{ up with i3c := { up.i3c with offer := some (2, 900, []) } }, 90000000, 2, 900, [], by decide +kernel⟩,
   ⟨up, .host, by decide +kernel⟩⟩

theorem witness_ChallengeAndClear :
    (∃ (s : State) (t : Nat) (r : Requester), callerOff s = false ∧ (r = .host ∨ r = .ccp ∨ r = .bc) ∧ lockedOut (atTime t s) =
      false) ∧
    (∃ (s : State) (r : Requester), callerOff s = false ∧ (r = .hostG1 ∨ r = .caller)) ∧
    (∃ (s : State) (t : Nat) (r : Requester), callerOff s = false ∧ (r = .host ∨ r = .ccp ∨ r = .bc) ∧ lockedOut (atTime t s) =
      true) ∧
    (∃ (s : State) (r : Requester), callerOff s = false ∧ (r = .host ∨ r = .ccp ∨ r = .bc)) ∧
    (∃ (s : State) (t : Nat) (r : Requester) (n : NonceRec), tfind (reqCode r) s.evt.nonces = some n ∧ n.drawn + 10000000000 ≤
      timeAt t s) ∧
    (∃ (s : State) (t : Nat), lockedOut (atTime t s) = false) ∧
    (∃ (s : State) (r : Nat) (began : Nat), s.evt.clearing = some (r, began) ∧ (s.crash.slots.any fun x => x.2.state == 1) = false ∧
      s.crash.buffer = none ∧ s.evt.head % 2 ^ 32 ≠ 2 ^ 32 - 1 ∧ s.evt.head < 2 ^ 40) :=
  ⟨⟨up, 5, .host, by decide +kernel⟩,
   ⟨up, .caller, by decide +kernel⟩,
   ⟨{ up with evt := { up.evt with failTimes := [900, 800, 700] } }, 5, .ccp, by decide +kernel⟩,
   ⟨up, .host, by decide +kernel⟩,
   ⟨withNonce 1, 20000000000, .host, nonce, by decide +kernel⟩,
   ⟨{ up with evt := { up.evt with failTimes := [900, 800] } }, 5, by decide +kernel⟩,
   ⟨{ up with evt := { up.evt with head := 9, clearing := some (1, 5) } }, 1, 5, by decide +kernel⟩⟩

theorem witness_RecorderFlow :
    (∃ (s : State) (code : BitVec 16) (source : BitVec 16), limited code = true ∧ (bucketOf s.evt code).tokens ≠ 0 ∧ planeOf source
      = .data ∧ s.evt.fifoData.length < 256) ∧
    (∃ (s : State) (code : BitVec 16), limited code = true ∧ (bucketOf s.evt code).tokens = 0) ∧
    (∃ (s : State) (t : Nat) (code : BitVec 16) (due : Nat), (bucketOf s.evt code).next = some due ∧ due ≤ timeAt t s) ∧
    (∃ (s : State) (ev : Ev) (e : Recorder), s.evt.clearing = none ∧ nextRecord s.evt = some (ev, e) ∧ s.evt.head < 2 ^ 40) :=
  ⟨⟨up, 0x5006, 3, by decide +kernel⟩,
   ⟨{ up with evt := { up.evt with buckets := [(0x5006, { tokens := 0, next := some 7 })] } }, 0x5006, by decide +kernel⟩,
   ⟨{ up with evt := { up.evt with buckets := [(0x5006, { tokens := 0, next := some 7 })] } }, 5, 0x5006, 7, by decide +kernel⟩,
   ⟨{ up with evt := { up.evt with fifoData := [⟨1, 0x5006, 3, 4, 5, 6, true, false⟩] } }, ⟨1, 0x5006, 3, 4, 5, 6, true, false⟩,
     { up.evt with turn := 1 }, by decide +kernel⟩⟩

theorem witness_TableauHold :
    (∃ (s : State) (r : Requester), callerOff s = false ∧ heard s r ∧ s.boot.shutdown = 0 ∧ s.tab.state ≤ 2) ∧
    (∃ (s : State), callerOff s = false ∧ s.boot.shutdown = 0 ∧ s.tab.arm.getLsbD 17 = true ∧ s.tab.state = 0) ∧
    (∃ (s : State) (r : Requester), callerOff s = false ∧ heard s r ∧ s.tab.state = 2 ∧ s.rst.waiting = []) ∧
    (∃ (s : State) (r : Requester), callerOff s = false ∧ heard s r ∧ s.tab.state ≠ 2) ∧
    (∃ (s : State), callerOff s = false ∧ s.tab.state = 1 ∧ s.tab.arm.getLsbD 16 = false) :=
  ⟨⟨up, .host, by unfold heard; decide +kernel⟩,
   ⟨{ up with tab := { up.tab with arm := 0x20000 } }, by decide +kernel⟩,
   ⟨{ up with tab := { up.tab with state := 2, stopOut := true } }, .host, by unfold heard; decide +kernel⟩,
   ⟨up, .host, by unfold heard; decide +kernel⟩,
   ⟨{ up with tab := { up.tab with state := 1 } }, by decide +kernel⟩⟩

theorem witness_ScanOut :
    (∃ (s : State) (r : Requester), callerOff s = false ∧ (r = .host ∨ r = .ccp) ∧ s.tab.state = 2) ∧
    (∃ (s : State) (since : Nat), callerOff s = false ∧ s.tab.state = 3 ∧ s.tab.arm.getLsbD 16 = false ∧ s.boot.zeroising = some
      since) ∧
    (∃ (s : State) (since : Nat), callerOff s = false ∧ s.tab.state = 0 ∧ s.boot.zeroising = some since ∧ s.boot.shutdown = 1 ∧
      zeroiseReady s = true) ∧
    (∃ (s : State), callerOff s = false ∧ s.tab.state = 4 ∧ s.tab.dest.getLsbD 0 = false ∧ inCapsules s (scanAddr s) (scanHead
      s).length = false) :=
  ⟨⟨{ up with tab := { up.tab with state := 2, stopOut := true, dest := 0x40000000 } }, .host, by decide +kernel⟩,
   ⟨{ up with tab := { up.tab with state := 3 }, boot := { up.boot with zeroising := some 900 } }, 900, by decide +kernel⟩,
   ⟨{ up with boot := { up.boot with zeroising := some 900, shutdown := 1 } }, 900, by decide +kernel⟩,
   ⟨{ up with tab := { up.tab with state := 4, dest := 0x40000000 } }, by decide +kernel⟩⟩

theorem witness_TraceAndCounters :
    (∃ (s : State) (r : Requester), callerOff s = false ∧ (r = .host ∨ r = .ccp) ∧ s.trace.snapPending = none) ∧
    (∃ (s : State) (r : Requester), callerOff s = false ∧ (r = .host ∨ r = .ccp) ∧ s.trace.snapPending.isSome = true) ∧
    (∃ (s : State) (t : Nat) (ts : Nat), callerOff s = false ∧ s.trace.snapPending = some ts ∧ ts ≤ timeAt t s) ∧
    (∃ (s : State) (t : Nat) (r : Requester), callerOff s = false ∧ (r = .host ∨ r = .ccp) ∧ traceOn s 0x0A = true ∧
      s.trace.pendingPort = none ∧ routeIsPort (atTime t s) = true ∧ routeRoom (atTime t s) 1 = true) ∧
    (∃ (s : State) (r : Requester) (v : Word), callerOff s = false ∧ (r = .host ∨ r = .ccp) ∧ s.trace.flushing = false ∧ (v.toNat %
      2 ^ 19 + 2 ^ 19 - s.trace.rd) % 2 ^ 19 ≤ bufUnits s.trace) ∧
    (∃ (s : State) (ready : Bool), ready ≠ s.trace.ready) ∧
    (∃ (s : State) (t : Nat), s.trace.flushing = true ∧ portUp (atTime t s) = true) ∧
    (∃ (us : List (BitVec 256)), us.length ≤ 17) :=
  ⟨⟨up, .host, by decide +kernel⟩,
   ⟨{ up with trace := { up.trace with snapPending := some 50 } }, .host, by decide +kernel⟩,
   ⟨{ up with trace := { up.trace with snapPending := some 50 }, stations := (0, { st with counters := [(3, 7)] }) :: up.stations.drop 1 },
     5, 50, by decide +kernel⟩,
   ⟨{ up with trace := { up.trace with ctl := 0x80000400, pll := true, ready := true } }, 5, .host, by decide +kernel⟩,
   ⟨{ up with trace := { up.trace with wr := 9, rd := 3 } }, .host, 5, by decide +kernel⟩,
   ⟨up, true, by decide +kernel⟩,
   ⟨{ up with trace := { up.trace with ctl := 0x40000000, pll := true, wr := 2, ready := true, flushing := true } }, 5,
     by decide +kernel⟩,
   ⟨[], by decide +kernel⟩⟩

theorem witness_TestAndOtp :
    (∃ (s : State), s.boot.pwrOk = true) ∧
    (∃ (s : State) (t : Nat) (r : Requester) (type : Nat) (n : NonceRec), callerOff s = false ∧ (r = .host ∨ r = .ccp) ∧ (type = 4 ∨
      type = 6 ∨ (type = 5 ∧ clearsDefect s (otpData s r) = false)) ∧ lockedOut (atTime t s) = false ∧ s.boot.otpJob = none ∧
      keysUsable s = true ∧ tfind (reqCode r) s.evt.nonces = some n ∧ n.expired = false ∧ timeAt t s < n.drawn + 10000000000 ∧ tgets 0
      0 32 s.evt.response = hmacSha256 (clearKey s) (otpMessage s r n type ((otpRecord s type).1 + 1) (otpData s r))) ∧
    (∃ (s : State) (t : Nat) (r : Requester) (type : Nat), callerOff s = false ∧ (r = .host ∨ r = .ccp) ∧ type < 8 ∧ lockedOut
      (atTime t s) = false ∧ s.boot.otpJob = none) ∧
    (∃ (s : State) (j : OtpJob), callerOff s = false ∧ s.boot.otpJob = some j ∧ j.toBoard = false) ∧
    (∃ (s : State) (j : OtpJob), callerOff s = false ∧ s.boot.otpJob = some j ∧ j.toBoard = true) :=
  ⟨⟨up, by decide +kernel⟩,
   ⟨{ withNonce 1 with evt := { (withNonce 1).evt with response := tputs 0 0 (toLe 32 (otpTag .host 6).toNat) [] } }, 5, .host, 6,
     nonce, by decide +kernel⟩,
   ⟨up, 5, .host, 3, by decide +kernel⟩,
   ⟨{ up with boot := { up.boot with otpJob := some ⟨6, 1, slotImage 6 1 [], .host, false⟩ } }, ⟨6, 1, slotImage 6 1 [], .host,
     false⟩, by decide +kernel⟩,
   ⟨{ up with boot := { up.boot with otpJob := some ⟨6, 1, slotImage 6 1 [], .host, true⟩ } }, ⟨6, 1, slotImage 6 1 [], .host,
     true⟩, by decide +kernel⟩⟩

theorem witness_ShutdownSteps :
    (∃ (s : State) (r : Requester), callerOff s = false ∧ (r = .host ∨ r = .ccp) ∧ 2 ≤ s.boot.state ∧ s.led.state ≠ 5 ∧ s.tab.state
      = 0 ∧ s.ctxs = [] ∧ s.boot.shutdown = 0) ∧
    (∃ (s : State), callerOff s = false ∧ s.boot.shutdown = 1 ∧ s.boot.zeroising = none ∧ allEmpty s = true) ∧
    (∃ (s : State) (t : Nat), callerOff s = false ∧ s.boot.shutdown = 1 ∧ s.boot.zeroising = none ∧ s.boot.shutStart + 100000000 ≤
      timeAt t s) ∧
    (∃ (s : State), callerOff s = false ∧ s.boot.shutdown = 2 ∧ slicesOver s = true) :=
  ⟨⟨{ up with ctxs := [] }, .host, by decide +kernel⟩,
   ⟨{ up with boot := { up.boot with shutdown := 1 } }, by decide +kernel⟩,
   ⟨{ up with boot := { up.boot with shutdown := 1 } }, 200000000, by decide +kernel⟩,
   ⟨{ up with boot := { up.boot with shutdown := 2, slicesBegan := 0, sliceStart := 20000000000 } }, by decide +kernel⟩⟩

theorem witness_ResetAndPeerRequests :
    (∃ (s : State) (r : Requester) (level : Nat) (index : Nat) (queue : Nat), callerOff s = false ∧ (r = .host ∨ r = .ccp) ∧ level <
      8 ∧ index < 256 ∧ queue < 4) ∧
    (∃ (s : State) (r : Requester), callerOff s = false ∧ (r = .host ∨ r = .ccp)) ∧
    (∃ (s : State) (r : Requester) (chip : ChipId) (seq : BitVec 16), callerOff s = false ∧ (r = .host ∨ r = .ccp) ∧ tfind (2 *
      chip.toNat) s.sync.advice ≠ some seq) :=
  ⟨⟨up, .host, 1, 3, 0, by decide +kernel⟩,
   ⟨up, .host, by decide +kernel⟩,
   ⟨{ up with sync := { up.sync with down := [6], advice := [(12, 1)] } }, .host, 6, 2, by decide +kernel⟩⟩

theorem witness_SyncUnitCommands :
    (∃ (s : State) (r : Requester) (ctx : CtxId) (x : Ctx) (e : SealEntry), callerOff s = false ∧ (r = .host ∨ r = .ccp) ∧ ctx ≠ 0 ∧
      runningCtx s ctx.toNat = some x ∧ rearmBusy x = false ∧ sealEntryOf s ctx.toNat = some e) ∧
    (∃ (s : State) (r : Requester) (ring : Fin 2), callerOff s = false ∧ (r = .host ∨ r = .ccp) ∧ wlOn s ring.val = false) ∧
    (∃ (s : State) (v : Word), callerOff s = false ∧ s.cfg.hostGen = 1 ∧ v.getLsbD 31 = true ∧ s.tab.state = 2 ∧ (bankCore s
      (v.toNat % 8192)).isSome = true) ∧
    (∃ (s : State) (v : Word), callerOff s = false ∧ s.cfg.hostGen = 1 ∧ v.getLsbD 31 = true ∧ s.tab.state ≠ 2) ∧
    (∃ (s : State) (r : Requester) (b : Byte),
      let d := memRead s ((tget 0 (reqCode r) s.cfg.barAddr : DWord).toNat / 64 * 64) 576
      let ctx := fieldLe 0 2 d % 4096
      callerOff s = false ∧ (r = .host ∨ r = .ccp) ∧ s.led.state = 1 ∧ (barrier s b.toNat).state = 0 ∧ descFieldsOk d = true ∧
      (runningCtx s ctx).isSome = true ∧ descValid s ctx d = true) ∧
    (∃ (s : State) (r : Requester), callerOff s = false ∧ (r = .host ∨ r = .ccp)) :=
  ⟨⟨up, .host, 1, ctx1, ⟨1, 1, 5, true, 10⟩, by decide +kernel⟩,
   ⟨up, .host, 1, by decide +kernel⟩,
   ⟨{ up with tab := { up.tab with state := 2 } }, 0x80010005, by decide +kernel⟩,
   ⟨up, 0x80010005, by decide +kernel⟩,
   ⟨{ up with mem := tputs 0 4096 (padTo 576 ([1, 0, 0, 0, 0, 0, 0, 0, 0, 0, 0, 0, 0, 0, 0, 0, 3])) [], cfg := { up.cfg with barAddr := [(1, 4096)] } },
     .host, 3, by decide +kernel⟩,
   ⟨up, .host, by decide +kernel⟩⟩

theorem witness_RegisterWrites :
    (∃ (s : State), callerOff s = true) ∧
    (∃ (s : State) (r : Requester), callerOff s = false ∧ (r = .host ∨ r = .ccp)) ∧
    (∃ (s : State) (r : Requester), callerOff s = false ∧ (r = .host ∨ r = .ccp)) ∧
    (∃ (s : State) (r : Requester), callerOff s = false ∧ (r = .host ∨ r = .ccp)) :=
  ⟨⟨State.reset, by decide +kernel⟩,
   ⟨up, .host, by decide +kernel⟩,
   ⟨up, .host, by decide +kernel⟩,
   ⟨up, .host, by decide +kernel⟩⟩

theorem witness_TapNegotiation :
    (∃ (s : State) (c : Core) (mask : Byte), coreInReset s c.val = false ∧ (station s c.val).tapReady = false ∧ (s.boot.mapped =
      false ∨ inService s c.val = false ∨ (∃ v, 1 ≤ v ∧ v ≤ 3 ∧ s.cfg.floors.1 ≤ v ∧ mask.getLsbD (v - 1) = true))) ∧
    (∃ (s : State) (c : Core), coreInReset s c.val = false ∧ (station s c.val).tapVer ≠ 0 ∧ (station s c.val).tapSettled = true) :=
  ⟨⟨{ withSt (fun t => { t with tapReady := false }) with boot := { up.boot with mapped := false } }, 0, 7, ⟨by decide +kernel,
     by decide +kernel, .inl rfl⟩⟩,
   ⟨withSt (fun t => { t with tapReady := false }), 0, by decide +kernel⟩⟩

theorem witness_OperationsStart :
    (∃ (s : State) (t : Nat) (c : Core) (stamp : Stamp) (fill : Nat) (o : OpStart),
      let start := min stamp.time (coreTime (atTime t s) c.val)
      let number := takeNumber stamp.together o.queue (station s c.val)
      let tag := BitVec.ofNat 32 (c.val * 2 ^ 24 + number.1)
      isInserted (station s c.val) o = false ∧ fill < 64 ∧ canStartAt s c.val o.queue.val start = true ∧ (∀ x ∈ (station s c.val).cus,
      x.inserted = false → x.tag ≠ tag)) ∧
    (∃ (k : Station), k.cycle = (0, 0)) ∧
    (∃ (k : Station) (m : BitVec 4) (q : Queue) (r : Queue), k.cycle = (0, 0) ∧ q ≠ r ∧ m.getLsbD q.val = true ∧ m.getLsbD r.val =
      true) ∧
    (∃ (s : State) (t : Nat) (c : Core) (stamp : Stamp) (fill : Nat) (o : OpStart),
      let start := min stamp.time (coreTime (atTime t s) c.val)
      isInserted (station s c.val) o = true ∧ fill < 64 ∧ inService s c.val = true ∧ coreInReset s c.val = false ∧ s.tab.state = 0 ∧
      (station s c.val).tapReady = true ∧ (∀ x ∈ (station s c.val).cus, x.inserted = true → x.op.queue = o.queue → x.start ≠ start)) ∧
    (∃ (s : State) (t : Nat) (c : Core) (q : Queue) (cause : BitVec 4), canStartAt s c.val q.val (timeAt t s) = true ∧ 1 ≤
      cause.toNat ∧ cause.toNat ≤ 5) :=
  ⟨⟨up, 5, 3, ⟨1, 1⟩, 3, op0, by decide +kernel⟩,
   ⟨st, by decide +kernel⟩,
   ⟨st, 3, 1, 0, by decide +kernel⟩,
   ⟨up, 5, 3, ⟨1, 1⟩, 3, { op0 with inserted := true }, by decide +kernel⟩,
   ⟨up, 5, 3, 1, 2, by decide +kernel⟩⟩

theorem witness_OperationRecords :
    (∃ (s : State) (c : Core) (q : Queue) (opid : BitVec 16) (fill : Nat) (k : Cu), fill < 64 ∧ hears s c.val (recordPort q.val
      false) = true ∧ 2 ≤ (station s c.val).tapVer ∧ opOf s c.val q opid = some k) ∧
    (∃ (s : State) (c : Core) (q : Queue) (opid : BitVec 16) (fill : Nat) (k : Cu), fill < 64 ∧ hears s c.val (recordPort q.val
      true) = true ∧ 2 ≤ (station s c.val).tapVer ∧ 2 ≤ q.val ∧ opOf s c.val q opid = some k) ∧
    (∃ (s : State) (c : Core) (q : Queue) (opid : BitVec 16) (role : Byte) (fill : Nat) (k : Cu), fill < 64 ∧ hears s c.val
      (recordPort q.val true) = true ∧ (station s c.val).tapVer = 3 ∧ 2 ≤ q.val ∧ role.toNat ≤ 2 ∧ opOf s c.val q opid = some k) :=
  ⟨⟨holds [cu0], 0, 0, 9, 3, cu0, by decide +kernel⟩,
   ⟨holds [mover], 0, 2, 9, 3, mover, by decide +kernel⟩,
   ⟨holds [mover], 0, 2, 9, 1, 3, mover, by decide +kernel⟩⟩

theorem witness_DataArrives :
    (∃ (s : State) (c : Core) (b : Beat) (fill : Nat) (k : Cu) (d : OpDesc), hears s c.val 4 = true ∧ fill < 64 ∧ beatParityOk b =
      true ∧ beatOwner s c.val 4 b = some k ∧ only k (station s c.val) ∧ orderBreach (station s c.val).tapVer 4 b k = false ∧
      (k.descs.find? fun d => (d.role == 3 || d.role == 4) && decide (d.res.toNat ≤ 1)) = some d) ∧
    (∃ (s : State) (c : Core) (b : Beat) (fill : Nat) (k : Cu), hears s c.val 0 = true ∧ fill < 64 ∧ beatParityOk b = true ∧
      beatOwner s c.val 0 b = some k ∧ only k (station s c.val) ∧ orderBreach (station s c.val).tapVer 0 b k = false ∧ b.kind.val = 0)
      ∧
    (∃ (s : State) (c : Core) (p : Fin 6) (b : Beat) (k : Cu), hears s c.val p.val = true ∧ beatOwner s c.val p.val b = some k ∧
      only k (station s c.val) ∧ k.inserted = false ∧ k.gap = 0 ∧ k.pending = false ∧ k.reprise = false) :=
  ⟨⟨holds [{ mover with phase := 2, descs := [{ role := 3, res := 0, len := 4096, addr := 128 }] }], 0,
     { beat with lanes := [{ lane with data := 3, parity := 0 }, { lane with valid := false }], offset := 1 }, 3,
     { mover with phase := 2, descs := [{ role := 3, res := 0, len := 4096, addr := 128 }] },
     { role := 3, res := 0, len := 4096, addr := 128 }, by unfold only; decide +kernel⟩,
   ⟨holds [{ cu0 with phase := 2 }], 0, beat, 3, { cu0 with phase := 2 }, by unfold only; decide +kernel⟩,
   ⟨holds [cu0], 0, 0, { beat with lanes := [{ lane with parity := 1 }] }, cu0, by unfold only; decide +kernel⟩⟩

theorem witness_OperationsEnd :
    (∃ (s : State) (c : Core) (q : Queue) (opid : BitVec 16) (sectors : Word) (fill : Nat) (k : Cu), fill < 64 ∧ clusterInReset s
      (c.val / 16) = false ∧ (station s c.val).tapReady = true ∧ s.tab.state = 0 ∧ opOf s c.val q opid = some k ∧ retireBreach
      (station s c.val).tapVer k sectors.toNat = false ∧ retiresEarly (station s c.val) k = false ∧ only k (station s c.val) ∧
      k.inserted = false ∧ (∀ x ∈ (station s c.val).cus, x.tag = k.tag → x = k) ∧ k.gap = 0 ∧ k.waive = 0 ∧ k.poison = false ∧
      k.reprise = false ∧ k.pending = false ∧ pendingCount (station s c.val) < 128) ∧
    (∃ (s : State) (c : Core) (q : Queue) (opid : BitVec 16) (sectors : Word) (fill : Nat) (k : Cu), fill < 64 ∧ clusterInReset s
      (c.val / 16) = false ∧ (station s c.val).tapReady = true ∧ opOf s c.val q opid = some k ∧ (retireBreach (station s c.val).tapVer
      k sectors.toNat = true ∨ retiresEarly (station s c.val) k = true) ∧ only k (station s c.val) ∧ k.inserted = false ∧ k.gap = 0 ∧
      k.verdict = none ∧ k.poison = false ∧ k.reprise = false ∧ k.pending = false) ∧
    (∃ (s : State) (c : Core) (q : Queue) (opid : BitVec 16) (fill : Nat) (k : Cu), fill < 64 ∧ clusterInReset s (c.val / 16) =
      false ∧ (station s c.val).tapReady = true ∧ opOf s c.val q opid = some k ∧ k.inserted = true ∧ only k (station s c.val) ∧ (k.use
      = .copy ∨ k.use = .kit)) ∧
    (∃ (s : State) (c : Core) (q : Queue) (opid : BitVec 16) (fill : Nat) (k : Cu), fill < 64 ∧ opOf s c.val q opid = some k ∧
      (k.inserted = false ∨ k.use = .copy ∨ k.use = .kit)) ∧
    (∃ (s : State) (c : Core) (q : Queue) (opid : BitVec 16) (fill : Nat), fill < 64 ∧ opOf s c.val q opid = none ∧ (station s
      c.val).abandoned.contains (q, opid) = true) ∧
    (∃ (s : State) (c : Core) (q : Queue) (opid : BitVec 16) (fill : Nat), fill < 64 ∧ opOf s c.val q opid = none ∧ (station s
      c.val).abandoned.contains (q, opid) = false ∧ hears s c.val (recordPort q.val true) = true ∧ (∀ x ∈ (station s c.val).cus,
      x.op.queue = q → x.retire.isSome = true)) :=
  ⟨⟨holds [begun], 0, 0, 9, 0, 3, begun, by unfold only; decide +kernel⟩,
   ⟨holds [cu0], 0, 0, 9, 0, 3, cu0, by unfold only; decide +kernel⟩,
   ⟨holds [{ cu0 with inserted := true }], 0, 0, 9, 3, { cu0 with inserted := true }, by unfold only; decide +kernel⟩,
   ⟨holds [cu0], 0, 0, 9, 3, cu0, by decide +kernel⟩,
   ⟨withSt fun t => { t with abandoned := [(0, 9)] }, 0, 0, 9, 3, by decide +kernel⟩,
   ⟨withSt fun t => { t with slots := [(0, { fig := fig0, state := 2, bind := [], broken := false })] }, 0, 0, 9, 3,
     by decide +kernel⟩⟩

theorem witness_VerdictsGiven :
    (∃ (s : State) (c : Core) (tag : Word) (cycles : Nat) (k : Cu), awaiting s c.val tag = some k ∧ cycles ≤ 180) ∧
    (∃ (s : State) (c : Core) (tag : Word) (cycles : Nat) (k : Cu), awaiting s c.val tag = some k ∧ 180 ≤ cycles ∧ k.late = false) ∧
    (∃ (s : State) (c : Core) (tag : Word) (cycles : Nat) (k : Cu), awaiting s c.val tag = some k ∧ 1024 ≤ cycles ∧ k.poison = false
      ∧ k.gap = 0 ∧ k.waive = 0) :=
  ⟨⟨holds [waiting], 0, 9, 100, waiting, by decide +kernel⟩,
   ⟨holds [waiting], 0, 9, 200, waiting, by decide +kernel⟩,
   ⟨holds [waiting], 0, 9, 1024, waiting, by decide +kernel⟩⟩

theorem witness_SelfChecks :
    (∃ (s : State) (c : Core), clusterInReset s (c.val / 16) = false) ∧
    (∃ (s : State) (c : Core) (key : Nat) (rest : List Nat), (station s c.val).retests = key :: rest) ∧
    (∃ (s : State) (c : Core), (station s c.val).stopReq = true ∧ (∀ k ∈ (station s c.val).cus, k.retire.isSome = true) ∧ (∀ x ∈
      (station s c.val).queues, x.2.wait = none) ∧ (∀ i a, tfind i s.adj.slots = some a → a.core = c → a.queue.val = 0 → a.needH =
      true → a.hOut.isSome ∨ a.closing.isSome)) ∧
    (∃ (s : State) (c : Core), ((station s c.val).stopReq = false ∨ queuesIdle (station s c.val) = false)) :=
  ⟨⟨up, 3, by decide +kernel⟩,
   ⟨withSt fun t => { t with retests := [3, 4] }, 0, 3, [4], by decide +kernel⟩,
   ⟨withSt fun t => { t with stopReq := true }, 0, ⟨by decide +kernel, by decide +kernel, by decide +kernel, fun _ _ h => nomatch
     (show (none : Option Adj) = some _ from h)⟩⟩,
   ⟨up, 0, by decide +kernel⟩⟩

theorem witness_AdjudicationDecides :
    (∃ (s : State) (d : Core) (core : Core) (q : Queue) (opid : BitVec 16) (tag : Word) (fill : Nat) (start : Nat) (i : Nat) (m :
      Bool) (w : ExecName) (k : Cu) (a : Adj), fill < 64 ∧ clusterInReset s (d.val / 16) = false ∧ (station s d.val).tapReady = true ∧
      opOf s d.val q opid = some k ∧ only k (station s d.val) ∧ k.inserted = true ∧ q.val ≤ 1 ∧ k.use = .exec core tag start m w ∧
      adjSlotOf s core tag start m = some i ∧ tfind i s.adj.slots = some a ∧ a.queue.val ≤ 1) ∧
    (∃ (s : State) (i : Fin 8) (out : ExecOutcome) (a : Adj) (cu : Core) (cv : Core), callerOff s = false ∧ tfind i.val s.adj.slots
      = some a ∧ a.closing = none ∧ a.u = some cu ∧ a.v = some cv ∧ cu ≠ cv ∧ a.uOut = none ∧ a.vOut = none ∧ outcomeOfExec a .u true
      = some out ∧ out.gave = true) ∧
    (∃ (s : State) (i : Fin 8) (out : ExecOutcome) (first : ExecOutcome) (a : Adj) (cu : Core) (cv : Core), callerOff s = false ∧
      tfind i.val s.adj.slots = some a ∧ a.closing = none ∧ a.opening ≤ 1 ∧ a.queue.val ≤ 1 ∧ a.u = some cu ∧ a.v = some cv ∧ cu ≠ cv
      ∧ a.uOut = some first ∧ a.vOut = none ∧ outcomeOfExec a .v true = some out ∧ out.gave = true ∧ first.fails = false ∧ out.fails =
      false) ∧
    (∃ (s : State) (t : Nat) (i : Fin 8) (a : Adj), callerOff s = false ∧ s.tab.state = 0 ∧ tfind i.val s.adj.slots = some a ∧
      a.closing = none ∧ a.slotted + 5000000 ≤ timeAt t s) :=
  ⟨⟨executing, 4, 0, 0, 9, 9, 3, 500, 0, false, .u, execU, adj0, by unfold only; decide +kernel⟩,
   ⟨judging (ran .u outc adj0), 0, outc, ran .u outc adj0, 4, 8, by decide +kernel⟩,
   ⟨judging (ran .v outc { adj0 with uOut := some outc }), 0, outc, outc, ran .v outc { adj0 with uOut := some outc }, 4, 8,
     by decide +kernel⟩,
   ⟨judging adj0, 90000000, 0, adj0, by decide +kernel⟩⟩

theorem witness_WaitsEnd :
    (∃ (s : State) (ctx : CtxId) (tc : Nat), callerOff s = false ∧ (containment s ctx.toNat).entry.tc = some tc ∧ allAcked
      (containment s ctx.toNat) = true) ∧
    (∃ (s : State) (t : Nat) (c : Core) (e : Fin 4) (p : Pin), s.tab.state = 0 ∧ tfind e.val (station s c.val).pins = some p ∧
      p.loaded + p.paused + 20000000 ≤ timeAt t s) :=
  ⟨⟨{ up with hz := { up.hz with contained := [(1, { entry := { tc := some 800 }, acked := BitVec.allOnes 38, waiting := [(0, 9)] })] } },
     1, 800, by decide +kernel⟩,
   ⟨withSt fun t => { t with pins := [(1, { tag := 4, ranges := [(100, 64)], sources := [], loaded := 700, held := 0 })] },
     90000000, 0, 1, { tag := 4, ranges := [(100, 64)], sources := [], loaded := 700, held := 0 }, by decide +kernel⟩⟩

theorem witness_Replays :
    (∃ (s : State) (c : Core) (tag : Word) (k : Capsule), capsuleOf s c.val tag = some k ∧ k.state = 0 ∧ k.retire ≠ 0 ∧ k.verdict =
      none) ∧
    (∃ (s : State) (c : Core) (tag : Word) (k : Capsule), callerOff s = false ∧ s.tab.state = 0 ∧ capsuleOf s c.val tag = some k ∧
      k.state = 1 ∧ k.verdict = none ∧ replayOf s c.val tag = none ∧ s.adj.replays.length < 64 ∧ isNext s k = true ∧ capsuleCrcOk s
      c.val k = true) ∧
    (∃ (s : State) (d : Core) (core : Core) (tag : Word) (fill : Nat) (o : OpStart) (n : Notice) (k : Capsule), fill < 64 ∧
      inService s d.val = true ∧ coreInReset s d.val = false ∧ s.tab.state = 0 ∧ (station s d.val).tapReady = true ∧ noticeFor
      (station s d.val) o.queue = some n ∧ n.use = .replay core tag ∧ capsuleOf s core.val tag = some k) ∧
    (∃ (s : State) (t : Nat) (c : Core) (tag : Word) (cause : BitVec 4) (k : Capsule), callerOff s = false ∧ capsuleOf s c.val tag =
      some k ∧ k.verdict = none ∧ k.retire ≠ 0 ∧ (cause = 2 ∧ s.tab.state = 0 ∧ k.limitFrom + 1900000 ≤ timeAt t s) ∨ (cause = 4 ∧ 2 ≤
      k.attempts ∧ replayOf s c.val tag = none)) :=
  ⟨⟨withSt fun t => { t with capsules := [{ cap0 with state := 0 }] }, 0, 9, { cap0 with state := 0 }, by decide +kernel⟩,
   ⟨replaying, 0, 9, cap1, by decide +kernel⟩,
   ⟨insertDue, 8, 0, 9, 3, { op0 with queue := 1, inserted := true }, ⟨1, [], .replay 0 9, none⟩, cap2, by decide +kernel⟩,
   ⟨withSt fun t => { t with capsules := [cap0] }, 90000000, 0, 9, 2, cap0, by decide +kernel⟩⟩

theorem witness_RepriseComparison :
    (∃ (s : State) (d : Core) (core : Core) (q : Queue) (opid : BitVec 16) (tag : Word) (fill : Nat) (k : Cu) (r : Replay), fill <
      64 ∧ clusterInReset s (d.val / 16) = false ∧ (station s d.val).tapReady = true ∧ opOf s d.val q opid = some k ∧ only k (station
      s d.val) ∧ k.inserted = true ∧ q.val ≤ 1 ∧ k.use = .replay core tag ∧ replayOf s core.val tag = some r) ∧
    (∃ (s : State) (c : Core) (tag : Word) (results : List Byte) (r : Replay) (k : Capsule), callerOff s = false ∧ replayOf s c.val
      tag = some r ∧ r.results = some results ∧ r.discarded = false ∧ capsuleOf s c.val tag = some k ∧ k.verdict = none) :=
  ⟨⟨replayRuns, 8, 0, 0, 9, 9, 3, replayCu, replay0, by unfold only; decide +kernel⟩,
   ⟨replayed { replay0 with results := some [] }, 0, 9, [], { replay0 with results := some [] }, cap1, by decide +kernel⟩⟩

theorem witness_RehearsalRuns :
    (∃ (s : State) (t : Nat) (c : Core), gapOpen (atTime t s) c.val = true ∧ (station s c.val).reh.state = 0 ∧ (station s
      c.val).reh.rehMode = false ∧ (station s c.val).reh.sig = none ∧ (station s c.val).reh.recheck = none) ∧
    (∃ (s : State) (t : Nat) (c : Core) (k : Kit), gapOpen (atTime t s) c.val = true ∧ (station s c.val).reh.state = 2 ∧ (station s
      c.val).reh.rehMode = false ∧ (station s c.val).reh.sig = none ∧ (station s c.val).reh.recheck = none ∧ (station s
      c.val).reh.image = some k ∧ k.id ∉ s.led.badKits) ∧
    (∃ (s : State) (t : Nat) (c : Core) (k : Kit), (station s c.val).reh.rehMode = true ∧ overBudget (atTime t s) c.val = false ∧
      (station s c.val).reh.image = some k) ∧
    (∃ (s : State) (t : Nat) (c : Core), overBudget (atTime t s) c.val = true) :=
  ⟨⟨up, 900000000000, 0, by decide +kernel⟩,
   ⟨withSt fun t => { t with reh := { (rehearsing 2) with rehMode := false, image := some kit } }, 30000, 0, kit,
     by decide +kernel⟩,
   ⟨withSt fun t => { t with reh := rehearsing 1 }, 5, 0, kit, by decide +kernel⟩,
   ⟨withSt fun t => { t with reh := rehearsing 1 }, 900000, 0, by decide +kernel⟩⟩

theorem witness_RehearsalLateness :
    ∃ (s : State) (t : Nat) (c : Core) (k : Kit), callerOff s = false ∧ inService s c.val = true ∧ (station s c.val).reh.lateDone =
      false ∧ (station s c.val).reh.state = 0 ∧ nextKit s c.val = some k ∧ (station s c.val).reh.lastDone + 2 * rehInterval s ≤ timeAt
      t s :=
  ⟨up, 9000000000000, 0, kit, by decide +kernel⟩

theorem witness_RehearsalRechecks :
    (∃ (s : State) (t : Nat) (began : Nat) (sig : Nat) (c : Core) (runner : Core) (k : Kit), callerOff s = false ∧ (station s
      c.val).reh.state = 3 ∧ (station s c.val).reh.image = some k ∧ (station s c.val).reh.recheck = some began ∧ timeAt t s < began +
      60 * second ∧ (station s runner.val).reh.sig = some sig ∧ (station s runner.val).reh.runFor = some c) ∧
    (∃ (s : State) (t : Nat) (began : Nat) (c : Core) (k : Kit), (station s c.val).reh.state = 3 ∧ (station s c.val).reh.image =
      some k ∧ (station s c.val).reh.recheck = some began ∧ began + 60 * second ≤ timeAt t s) :=
  ⟨⟨rechecking { (rehearsing 3) with sig := some 0x1234, runFor := some 0 }, 5, 900, 0x1234, 0, 0, kit, by decide +kernel⟩,
   ⟨rechecking (rehearsing 3), 90000000000, 900, 0, kit, by decide +kernel⟩⟩

theorem witness_HorizonCommands :
    (∃ (s : State) (cl : Cluster), callerOff s = false ∧ clusterInReset s cl.val = false ∧ s.tab.state < 4) ∧
    (∃ (s : State) (cl : Cluster), callerOff s = false ∧ clusterInReset s cl.val = false ∧ s.tab.state < 4) ∧
    (∃ (s : State), callerOff s = false ∧ s.hz.vh < clusterMin s) ∧
    (∃ (s : State), callerOff s = false ∧ clusterMin s ≤ s.hz.vh) ∧
    (∃ (s : State) (t : Nat), callerOff s = false ∧ s.hz.stalled = false ∧ s.hz.since + 1000000 ≤ timeAt t s) :=
  ⟨⟨up, 0, by decide +kernel⟩,
   ⟨up, 0, by decide +kernel⟩,
   ⟨{ up with hz := { up.hz with clusters := (List.range 16).map fun c => (c, 950 + c) } }, by decide +kernel⟩,
   ⟨up, by decide +kernel⟩,
   ⟨up, 9000000, by decide +kernel⟩⟩

theorem witness_HorizonAdvances :
    (∃ (s : State), callerOff s = false) ∧
    (∃ (s : State) (t : Nat), callerOff s = false ∧ s.hz.stalled = false ∧ s.hz.since + 1000000 ≤ timeAt t s) :=
  ⟨⟨{ up with hz := { up.hz with clusters := (List.range 16).map fun c => (c, 950 + c) } }, by decide +kernel⟩,
   ⟨up, 9000000, by decide +kernel⟩⟩

theorem witness_GatePoints :
    (∃ (s : State), callerOff s = false) ∧
    (∃ (s : State), callerOff s = false) ∧
    (∃ (s : State) (t : Nat) (g : Gate), (gate s g.val).closed = 0 ∧ (gate s g.val).opened = true ∧ (gate s g.val).heard + 1000 <
      timeAt t s) ∧
    (∃ (s : State) (g : Gate) (i : ItemIn), pointTakes g.val i.kind = true ∧ i.kit = false ∧ i.poisoned = 0 ∧ i.last = true ∧ (gate
      s g.val).poisoned = [] ∧ (gate s g.val).items = [] ∧ (gate s g.val).waiting = [] ∧ i.data.length ≤ 32768) ∧
    (∃ (s : State) (g : Gate) (i : ItemIn), pointTakes g.val i.kind = true ∧ i.kit = false ∧ i.poisoned = 0 ∧ (gate s
      g.val).poisoned = [] ∧ (∀ k ∈ (gate s g.val).items, sameTransfer i k = true → k.whole.isSome = true) ∧ ((gate s g.val).waiting ≠
      [] ∨ gateRoom g.val (gate s g.val) true i.data.length = false)) ∧
    (∃ (s : State) (g : Gate) (i : ItemIn), pointTakes g.val i.kind = true ∧ i.kit = false ∧ 0 < i.poisoned ∧ (gate s
      g.val).poisoned = []) :=
  ⟨⟨{ up with hz := { up.hz with contained := [(1, { entry := { tc := some 800 } })] } }, by decide +kernel⟩,
   ⟨up, by decide +kernel⟩,
   ⟨up, 5000, 4, by decide +kernel⟩,
   ⟨up, 4, gitem, by decide +kernel⟩,
   ⟨{ up with hz := { up.hz with gates := [(4, { closed := 0, waiting := [sig] })] } }, 4, gitem, by decide +kernel⟩,
   ⟨up, 4, { gitem with poisoned := 2 }, by decide +kernel⟩⟩

theorem witness_StepSealed :
    ∃ (s : State) (ctx : CtxId) (x : Ctx) (e : SealEntry) (q : Nat × Nat × Nat), callerOff s = false ∧ runningCtx s ctx.toNat = some
      x ∧ sealEntryOf s ctx.toNat = some e ∧ requestOf x x.sealed = some q ∧ stepRetired s ctx.toNat x.sealed x = true ∧ vhPassed s
      q.2.2 x.tz = true ∧ reprisesIn s ctx.toNat x.sealed x = true ∧ noIncident x x.sealed = true :=
  ⟨{ up with ctxs := [(1, { ctx1 with tz := some 600, requests := [(0, 1, 500)] })] }, 1,
     { ctx1 with tz := some 600, requests := [(0, 1, 500)] }, ⟨1, 1, 5, true, 10⟩, (0, 1, 500), by decide +kernel⟩

theorem witness_SyncSignals :
    (∃ (s : State) (t : Nat) (c : Core) (q : Queue) (name : Word),
      let o := nameObject name
      canStartSync (atTime t s) c.val q.val = true ∧ isLocal s name = true ∧ accessStatus s c.val name = none ∧ nextTraveller s c.val
      q.val name = none ∧ sealQuiet s o) ∧
    (∃ (s : State) (t : Nat) (c : Core) (q : Queue) (name : Word), canStartSync (atTime t s) c.val q.val = true ∧ isLocal s name =
      true ∧ accessStatus s c.val name = none) ∧
    (∃ (s : State) (t : Nat) (op : Nat) (c : Core) (q : Queue) (name : Word) (status : Nat), 1 ≤ op ∧ op ≤ 4 ∧ canStartSync (atTime
      t s) c.val q.val = true ∧ isLocal s name = true ∧ accessStatus s c.val name = some status) ∧
    (∃ (s : State) (t : Nat) (op : Nat) (c : Core) (q : Queue) (name : Word),
      let now := coreTime (atTime t s) c.val
      1 ≤ op ∧ op ≤ 4 ∧ canStartSync (atTime t s) c.val q.val = true ∧ isLocal s name = false ∧ nameOk name = true ∧ routeVer s
      (nameChip name) = 2 ∧ routeUp s (nameChip name) = true ∧ retryHeld s (nameChip name) = false ∧ isDown s (nameChip name) = false
      ∧ (gate s 37).items = [] ∧ (gate s 37).waiting = [] ∧ (gate s 37).closed = 0 ∧ (gate s 37).opened = true ∧ covers (tget {}
      (ctxOfCore s c.val) (gate s 37).entries) now = false) :=
  ⟨⟨up, 5, 0, 0, objName 5 5, by decide +kernel⟩,
   ⟨withSt (fun t => { t with watches := [(2, { watch with travelling := true })] }), 5, 0, 0, objName 5 5, by decide +kernel⟩,
   ⟨up, 5, 1, 0, 0, objName 5 9, 6, by decide +kernel⟩,
   ⟨up, 5, 1, 0, 0, objName 6 5, ⟨by decide, by decide, by decide +kernel, by decide +kernel, by decide +kernel, (by decide +kernel
     : ∀ p : Fin 36, (fport up p.val).settled = 2) _, (by decide +kernel : ∀ p : Fin 36, ((fport up p.val).width != 0) = true) _,
     (by decide +kernel : ∀ p : Fin 36, ((fport up p.val).retry.any fun k => k.2.1 == 6 && k.2.2.2) = false) _, by decide +kernel⟩⟩⟩

theorem witness_WaitsStart :
    (∃ (s : State) (t : Nat) (cond : Nat) (c : Core) (q : Queue) (name : Word) (n : Word) (timeout : BitVec 24) (w : Nat) (i :
      Instr), (cond = 0 ∧ i = .syncWaitEq t c q name n timeout) ∨ (cond = 1 ∧ i = .syncWaitGe t c q name n timeout) ∨ (cond = 2 ∧ i =
      .syncWaitFlag t c q name timeout) ∧ canStartSync (atTime t s) c.val q.val = true ∧ freeSlot s c.val = some w) ∧
    (∃ (s : State) (t : Nat) (c : Core) (q : Queue) (name : Word) (n : Word) (timeout : BitVec 24) (i : Instr), (i = .syncWaitEq t c
      q name n timeout ∨ i = .syncWaitGe t c q name n timeout ∨ i = .syncWaitFlag t c q name timeout) ∧ canStartSync (atTime t s)
      c.val q.val = true ∧ isLocal s name = true ∧ freeSlot s c.val = none) ∧
    (∃ (s : State) (t : Nat) (c : Core) (q : Queue) (name : Word), canStartSync (atTime t s) c.val q.val = true ∧ isLocal s name =
      true) ∧
    (∃ (s : State) (t : Nat) (c : Core) (q : Queue) (cond : BitVec 2) (name : Word) (raddr : DWord) (w : Nat), canStartSync (atTime
      t s) c.val q.val = true ∧ isLocal s name = false ∧ nameOk name = true ∧ routeVer s (nameChip name) = 2 ∧ routeUp s (nameChip
      name) = true ∧ isDown s (nameChip name) = false ∧ cond ≠ 3 ∧ raddr.toNat % 16 = 0 ∧ freeSlot s c.val = some w) :=
  ⟨⟨up, 5, 0, 0, 0, objName 5 5, 1, 10, 0, .syncWaitEq 5 0 0 (objName 5 5) 1 10, by decide +kernel⟩,
   ⟨withSt (fun t => { t with watches := (List.range 16).map fun w => (w, watch) }), 5, 0, 0, objName 5 5, 1, 10, .syncWaitEq 5 0 0
     (objName 5 5) 1 10, by decide +kernel⟩,
   ⟨up, 5, 0, 0, objName 5 5, by decide +kernel⟩,
   ⟨up, 5, 0, 0, 1, objName 6 5, 64, 0, ⟨by decide +kernel, by decide +kernel, by decide +kernel, (by decide +kernel : ∀ p : Fin 36,
     (fport up p.val).settled = 2) _, (by decide +kernel : ∀ p : Fin 36, ((fport up p.val).width != 0) = true) _, by decide +kernel,
     by decide, by decide, by decide +kernel⟩⟩⟩

theorem witness_WatchesEnd :
    (∃ (s : State) (c : Core) (w : Fin 16), (watchOf s c.val w.val).valid = true ∧ (watchOf s c.val w.val).travelling = true ∧
      accessStatus s c.val (watchOf s c.val w.val).name = none ∧ isLocal s (watchOf s c.val w.val).name = true ∧ nextTraveller s c.val
      (watchOf s c.val w.val).queue (watchOf s c.val w.val).name = some w.val ∧ (∀ y ∈ (station s c.val).cancels, y.1 ≠ w.val)) ∧
    (∃ (s : State) (c : Core) (w : Fin 16), (watchOf s c.val w.val).valid = true ∧ (watchOf s c.val w.val).travelling = true) ∧
    (∃ (s : State) (c : Core) (w : Fin 16) (r : Release), s.tab.state = 0 ∧ nextRelease s c.val w.val = some r ∧ releaseFits s c.val
      w.val r = true) ∧
    (∃ (s : State) (c : Core) (w : Fin 16) (r : Release), s.tab.state = 0 ∧ nextRelease s c.val w.val = some r ∧ releaseFits s c.val
      w.val r = false) ∧
    (∃ (s : State) (t : Nat) (c : Core) (w : Fin 16), s.tab.state = 0 ∧ (watchOf s c.val w.val).valid = true ∧ (watchOf s c.val
      w.val).barrier = none ∧ (watchOf s c.val w.val).expires ≤ coreTime (atTime t s) c.val ∧ isLocal s (watchOf s c.val w.val).name =
      true) ∧
    (∃ (s : State) (t : Nat) (c : Core) (w : Fin 16), s.tab.state = 0 ∧ (watchOf s c.val w.val).valid = true ∧ (watchOf s c.val
      w.val).barrier = none ∧ (watchOf s c.val w.val).expires ≤ coreTime (atTime t s) c.val ∧ isLocal s (watchOf s c.val w.val).name =
      false) ∧
    (∃ (s : State) (c : Core) (w : Fin 16) (x : Nat × Word × Word), (station s c.val).cancels.find? (fun y => y.1 == w.val &&
      isLocal s y.2.1) = some x) :=
  ⟨⟨withSt (fun t => { t with watches := [(2, { watch with travelling := true })] }), 0, 2, by decide +kernel⟩,
   ⟨withSt (fun t => { t with watches := [(2, { watch with travelling := true })] }), 0, 2, by decide +kernel⟩,
   ⟨{ withSt (fun t => { t with watches := [(2, watch)] }) with sync := { up.sync with releases := [⟨party 5 0 0 2 0, objName 5 5, 1, 1, none, true⟩] } },
     0, 2, ⟨party 5 0 0 2 0, objName 5 5, 1, 1, none, true⟩, by decide +kernel⟩,
   ⟨{ up with sync := { up.sync with releases := [⟨party 5 0 0 2 0, objName 5 5, 1, 1, none, true⟩] } }, 0, 2, ⟨party 5 0 0 2 0,
     objName 5 5, 1, 1, none, true⟩, by decide +kernel⟩,
   ⟨withSt (fun t => { t with watches := [(2, watch)] }), 1100, 0, 2, by decide +kernel⟩,
   ⟨withSt (fun t => { t with watches := [(2, { watch with name := objName 6 5 })] }), 1100, 0, 2, by decide +kernel⟩,
   ⟨withSt (fun t => { t with cancels := [(2, objName 5 5, party 5 0 0 2 0)] }), 0, 2, (2, objName 5 5, party 5 0 0 2 0),
     by decide +kernel⟩⟩

theorem witness_BarrierGenerations :
    (∃ (s : State) (t : Nat) (c : Core) (q : Queue) (b : Byte) (w : Nat) (l : Nat), canStartSync (atTime t s) c.val q.val = true ∧
      freeSlot s c.val = some w ∧ arriveStatus s c.val b.toNat = none ∧ logOf s c.val = some l ∧ (barrier s b.toNat).sealMode = false)
      ∧
    (∃ (s : State) (t : Nat) (c : Core) (q : Queue), canStartSync (atTime t s) c.val q.val = true) ∧
    (∃ (s : State) (t : Nat) (c : Core) (w : Fin 16) (b : Nat), s.tab.state = 0 ∧ (watchOf s c.val w.val).valid = true ∧ (watchOf s
      c.val w.val).barrier = some b ∧ (watchOf s c.val w.val).expires ≤ coreTime (atTime t s) c.val ∧ s.sync.releases = []) ∧
    (∃ (s : State) (port : Port) (m : SyncMsg), takesMessages s port ∧ m.crc = msgCrc 5 m) ∧
    (∃ (s : State) (port : Port) (m : SyncMsg) (p : Word), takesMessages s port ∧ m.crc = msgCrc 6 m ∧ barrierCurrent s m = true ∧
      (barrier s (barIndex m.name)).state = 2 ∧ (barrier s (barIndex m.name)).parent = some p ∧ barChip p = partyChip m.party ∧
      (barrier s (barIndex m.name)).sealMode = false ∧ (barrier s (barIndex m.name)).mask ≠ 0 ∧ (barrier s (barIndex m.name)).recounts
      = [] ∧ (barrier s (barIndex m.name)).release = none) :=
  ⟨⟨withBar bar, 5, 0, 0, 3, 0, 0, by decide +kernel⟩,
   ⟨up, 5, 0, 0, by decide +kernel⟩,
   ⟨withSt (fun t => { t with watches := [(2, { watch with barrier := some 3 })] }), 1100, 0, 2, 3, by decide +kernel⟩,
   ⟨withBar { bar with children := [0x603] }, 0, sealMsg 5 { msg with name := barName 5 3, party := party 6 0 0 0 2, arg := 0 },
     by unfold takesMessages; decide +kernel⟩,
   ⟨withBar { bar with state := 2, arrived := 3, parent := some 0x603 }, 0, sealMsg 6
     { msg with name := barName 5 3, party := party 6 0 0 0 2, arg := 0 }, 0x603, by unfold takesMessages; decide +kernel⟩⟩

theorem witness_MessagesTaken :
    (∃ (s : State) (type : Nat) (port : Port) (m : SyncMsg), 1 ≤ type ∧ type ≤ 7 ∧ takesMessages s port ∧ m.crc ≠ msgCrc type m) ∧
    (∃ (s : State) (type : Nat) (port : Port), 1 ≤ type ∧ type ≤ 7 ∧ s.rst.naking = true ∧ (fport s port.val).width ≠ 0) ∧
    (∃ (s : State) (type : Nat) (port : Port), 1 ≤ type ∧ type ≤ 7 ∧ (fport s port.val).width = 0) ∧
    (∃ (s : State) (port : Port) (m : SyncMsg), takesMessages s port ∧ m.crc = msgCrc 1 m ∧ (arrivalOf s m.party).held = [] ∧ (∀ x ∈
      s.sync.arrivals, carryWaits x.2 = false) ∧ m.sub.toNat % 16 = 1 ∧ nameOk m.name = true ∧ isLocal s m.name = true ∧ objectStatus
      s (nameObject m.name) = 1 ∧ sealQuiet s (nameObject m.name)) ∧
    (∃ (s : State) (port : Port) (m : SyncMsg), takesMessages s port ∧ m.crc = msgCrc 2 m ∧ (arrivalOf s m.party).held = [] ∧ (∀ x ∈
      s.sync.arrivals, carryWaits x.2 = false) ∧ 5 ≤ m.sub.toNat % 16 ∧ m.sub.toNat % 16 ≤ 7 ∧ nameOk m.name = true ∧ isLocal s m.name
      = true ∧ objectStatus s (nameObject m.name) = 1 ∧ bankSubs s (nameObject m.name) < 256 ∧ condHolds (m.sub.toNat % 16 - 5) m.arg
      (object s (nameObject m.name)).value = false) ∧
    (∃ (s : State) (port : Port) (m : SyncMsg), takesMessages s port ∧ m.crc = msgCrc 3 m ∧ (arrivalOf s m.party).held = [] ∧ (∀ x ∈
      s.sync.arrivals, carryWaits x.2 = false) ∧ isLocal s m.name = true) ∧
    (∃ (s : State) (port : Port) (m : SyncMsg), takesMessages s port ∧ m.crc = msgCrc 7 m ∧ (arrivalOf s m.party).held = [] ∧ (∀ x ∈
      s.sync.arrivals, carryWaits x.2 = false) ∧ tableFull s m.party = false) ∧
    (∃ (s : State) (port : Port) (m : SyncMsg),
      let c := partyCore m.party
      let w := partySlot m.party
      let k := watchOf s c w
      takesMessages s port ∧ m.crc = msgCrc 4 m ∧ s.tab.state = 0 ∧ partyChip m.party = s.boot.chip ∧ m.sub.toNat % 16 ≠ 2 ∧ k.barrier
      = none ∧ nextRelease s c w = none ∧ releaseFits s c w
      { party := m.party, name := m.name, status := m.sub.toNat % 16, value := m.arg, guard := some m.name } = true) ∧
    (∃ (s : State) (port : Port) (m : SyncMsg), takesMessages s port ∧ m.crc = msgCrc 4 m ∧ partyChip m.party = s.boot.chip ∧
      m.sub.toNat % 16 = 2) :=
  ⟨⟨up, 1, 0, { sealMsg 1 msg with crc := msgCrc 1 msg + 1 }, by unfold takesMessages; decide +kernel⟩,
   ⟨{ up with rst := { up.rst with naking := true } }, 3, 0, by decide +kernel⟩,
   ⟨{ up with sync := { up.sync with ports := [] } }, 3, 0, by decide +kernel⟩,
   ⟨up, 0, sealMsg 1 msg, by unfold takesMessages; decide +kernel⟩,
   ⟨up, 0, sealMsg 2 { msg with sub := 6, arg := 2 }, by unfold takesMessages; decide +kernel⟩,
   ⟨{ up with sync := { up.sync with objs := [(5, { assigned := true, ctx := 1, subs := [⟨party 6 0 0 0 0, 0, 9⟩, ⟨party 6 1 0 0 0, 0, 9⟩] })] } },
     0, sealMsg 3 msg, by unfold takesMessages; decide +kernel⟩,
   ⟨up, 0, sealMsg 7 { msg with tally := 4 }, by unfold takesMessages; decide +kernel⟩,
   ⟨withSt (fun t => { t with watches := [(2, { watch with name := objName 6 5 })], queues := [(0, { wait := some 2 })] }), 0,
     sealMsg 4 { msg with name := objName 6 5, party := party 5 0 0 2 0 }, by unfold takesMessages; decide +kernel⟩,
   ⟨withSt (fun t => { t with cancels := [(2, objName 6 5, party 5 0 0 2 0)] }), 0, sealMsg 4
     { msg with sub := 2, name := objName 6 5, party := party 5 0 0 2 0 }, by unfold takesMessages; decide +kernel⟩⟩

theorem witness_FabricTraffic :
    (∃ (s : State) (port : Port), s.rst.naking = false ∧ callerOff s = false ∧ (fport s port.val).width ≠ 0) ∧
    (∃ (s : State) (t : Nat) (p : Word) (h : HeldMsg) (r : List HeldMsg), callerOff s = false ∧ (arrivalOf s p).held = h :: r ∧
      h.type = 1 ∧ h.stalled = false ∧ h.arrived + 100000 ≤ timeAt t s) ∧
    (∃ (s : State) (core : Core) (queue : Queue) (chip : ChipId) (k : GItem) (m : SyncMsg), (gate s 37).items = [k] ∧ (gate s
      37).waiting = [] ∧ k.core = core ∧ k.queue = queue ∧ k.dest = chip ∧ k.kind = .signal ∧ k.msg = some (1, m) ∧ (queueOf s
      core.val queue.val).syncOps.any (fun o => o.opid == k.transfer) = true ∧ (gate s 37).closed = 0 ∧ (gate s 37).opened = true ∧
      k.whole.isSome = true ∧ k.gated = false ∧ covers (tget {} (ctxOfCore s core.val) (gate s 37).entries) k.start = false ∧ isDown s
      chip = false ∧ routeVer s chip = 1 ∧ routeUp s chip = true ∧ retryHeld s chip = false) ∧
    (∃ (s : State) (chip : ChipId), isDown s chip = false) ∧
    (∃ (s : State) (t : Nat) (port : Port) (request : BitVec 16) (x : Nat × ChipId × Nat × Bool), (fport s port.val).retry.find?
      (fun y => y.1 == request.toNat) = some x ∧ x.2.2.1 ≤ timeAt t s) ∧
    (∃ (s : State) (p : Port), callerOff s = false ∧ (fport s p.val).disabled = false ∧ portBad s p.val = false ∧ s.led.state ≠ 5) :=
  ⟨⟨up, 0, by decide +kernel⟩,
   ⟨{ up with sync := { up.sync with arrivals := [(arrivalKey (party 6 0 0 0 0), { arrived := 3, claim := 0, held := [⟨1, { sealMsg 1 msg with tally := 4 }, 900, false, 0⟩] })] } },
     900000, party 6 0 0 0 0, ⟨1, { sealMsg 1 msg with tally := 4 }, 900, false, 0⟩, [], by decide +kernel⟩,
   ⟨sending, 0, 0, 6, sig, msg, ⟨rfl, rfl, rfl, rfl, rfl, rfl, rfl, by decide +kernel, rfl, rfl, by decide +kernel, rfl,
     by decide +kernel, by decide +kernel, (by decide +kernel : ∀ p : Fin 36, (fport sending p.val).settled = 1) _, (by decide +kernel
     : ∀ p : Fin 36, ((fport sending p.val).width != 0) = true) _, (by decide +kernel : ∀ p : Fin 36, ((fport sending p.val).retry.any
     fun k => k.2.1 == 6 && k.2.2.2) = false) _⟩⟩,
   ⟨up, 6, by decide +kernel⟩,
   ⟨{ up with sync := { up.sync with ports := [(3, { port2 with retry := [(77, 6, 900, false)] })] } }, 5, 3, 77, (77, 6, 900,
     false), by decide +kernel⟩,
   ⟨up, 3, by decide +kernel⟩⟩

theorem witness_WorkListItems :
    ∃ (s : State) (ring : Fin 2) (l : List Byte), nextItem s ring.val = some l ∧ (ring.val = 0 ∨ nextItem s 0 = none) ∧ inCapsules s
      (itemAddr s ring.val + 1) 1 = false ∧ inCapsules s (wlBase s ring.val + 4) 4 = false :=
  ⟨{ ringUp (item 1 1 0 []) with ctxs := [] }, 0, item 1 1 0 [], by decide +kernel⟩

theorem witness_MissesAndSnapshots :
    (∃ (s : State) (t : Nat) (c : Core) (q : Queue) (x : Cu), s.tab.state = 0 ∧ clusterInReset s (c.val / 16) = false ∧ overdueOp
      (atTime t s) c.val q.val = some x) ∧
    (∃ (s : State) (t : Nat) (c : Core) (q : Queue) (o : SyncOp), s.tab.state = 0 ∧ clusterInReset s (c.val / 16) = false ∧
      overdueOp (atTime t s) c.val q.val = none ∧ overdueSync (atTime t s) c.val q.val = some o) ∧
    (∃ (s : State), callerOff s = false) ∧
    (∃ (s : State) (snap : Snapshot) (slot : Nat), callerOff s = false ∧ s.crash.buffer = some (snap, slot) ∧ slot < 40 ∧ snap.evtOf
      = none ∧ s.crash.redo = false) :=
  ⟨⟨holds [cu0], 90000000, 0, 0, cu0, by decide +kernel⟩,
   ⟨sending, 90000000000, 0, 0, ⟨4, 1, 500, 0, false, 0⟩, by decide +kernel⟩,
   ⟨up, by decide +kernel⟩,
   ⟨{ up with crash := { up.crash with buffer := some (snap0, 0) } }, snap0, 0, by decide +kernel⟩⟩

theorem witness_ResetSteps :
    (∃ (s : State) (seq : Word) (l : Level), activeOf s seq = some l ∧ l.phase = 1 ∧ (∀ x ∈ s.hz.contained, x.2.resets.contains seq
      = true → allAcked x.2 = true)) ∧
    (∃ (s : State) (seq : Word) (l : Level), activeOf s seq = some l ∧ l.phase = 2) ∧
    (∃ (s : State) (seq : Word) (l : Level), activeOf s seq = some l ∧ l.phase = 3) ∧
    (∃ (s : State) (seq : Word) (l : Level), activeOf s seq = some l ∧ l.phase = 4 ∧ callerOff s = false ∧ levelReady s l = true) ∧
    (∃ (s : State) (t : Nat) (seq : Word) (l : Level), activeOf s seq = some l ∧ l.start + levelDeadline l.level ≤ timeAt t s ∧ seq
      ≠ s.rst.seq + 1) :=
  ⟨⟨resetting 1 1, 1, lvl 1 1, by decide +kernel⟩,
   ⟨resetting 0 2, 1, lvl 0 2, by decide +kernel⟩,
   ⟨{ resetting 1 3 with rst := { (resetting 1 3).rst with coresIn := 1 } }, 1, lvl 1 3, by decide +kernel⟩,
   ⟨resetting 0 4, 1, lvl 0 4, by decide +kernel⟩,
   ⟨{ resetting 1 2 with rst := { (resetting 1 2).rst with seq := 3 } }, 90000000, 1, lvl 1 2, by decide +kernel⟩⟩

theorem witness_TempoSteps :
    (∃ (s : State), callerOff s = false) ∧
    (∃ (s : State) (t : Nat) (p : TempoPolicy), tempoPolicy s = some p ∧ s.tempo.began + p.evalS * second ≤ timeAt t s ∧ s.tab.state
      = 0 ∧ callerOff s = false) ∧
    (∃ (s : State) (t : Nat) (d : Cluster) (p : TempoPolicy), tempoPolicy s = some p ∧ (domain s d.val).chosen = true ∧ (∀ k, k <
      d.val → (domain s k).chosen = false) ∧ s.tempo.lastDescent + p.spacingMs * 1000000 ≤ timeAt t s ∧ s.tab.state = 0 ∧ callerOff s
      = false ∧ (domain s d.val).cmd = none) ∧
    (∃ (s : State), callerOff s = false) ∧
    (∃ (s : State) (t : Nat) (d : Cluster) (c : AvsCmd), (domain s d.val).cmd = some c ∧ callerOff s = false ∧ c.since + c.settle ≤
      timeAt t s) ∧
    (∃ (s : State), callerOff s = false) :=
  ⟨⟨up, by decide +kernel⟩,
   ⟨up, 90000000000, (tempo0), by decide +kernel⟩,
   ⟨{ tempoUp with tempo := { tempoUp.tempo with doms := [(0, { chosen := true, negotiated := true })] } }, 90000000000, 0, tempo0,
     by decide +kernel⟩,
   ⟨up, by decide +kernel⟩,
   ⟨{ tempoUp with tempo := { tempoUp.tempo with doms := [(0, { cmd := some avs0 })] } }, 90000000, 0, avs0, by decide +kernel⟩,
   ⟨tempoUp, by decide +kernel⟩⟩

theorem witness_LedgerSteps :
    (∃ (s : State) (t : Nat) (p : LedgerPolicy), ledgerPolicy s = some p ∧ s.led.running = true ∧ s.led.began + 60 * second ≤ timeAt
      t s ∧ callerOff s = false) ∧
    (∃ (s : State) (t : Nat) (p : LedgerPolicy), ledgerPolicy s = some p ∧ draining s = true ∧ s.tab.state = 0 ∧ callerOff s = false
      ∧ s.led.e + s.led.drainHeld + p.drainMs * 1000000 ≤ timeAt t s) ∧
    (∃ (s : State), draining s = true ∧ drainedNow s = true ∧ callerOff s = false ∧ s.cfg.active ≠ none) :=
  ⟨⟨up, 90000000000, chart.ledger, by decide +kernel⟩,
   ⟨{ up with led := { up.led with state := 2 } }, 90000000000, chart.ledger, by decide +kernel⟩,
   ⟨{ up with ctxs := [], led := { up.led with state := 2 } }, by decide +kernel⟩⟩

theorem witness_StepRunsFront :
    ∃ (s : State), s.pending = [] :=
  ⟨up, by decide +kernel⟩

theorem witness_EveryStepKeepsInvariant :
    ∃ (s : State) (t : State), step s = .next t :=
  ⟨{ up with pending := [.vhBroadcast 1100] }, _, rfl⟩

theorem witness_EveryStepKeepsGate :
    ∃ (s : State) (t : State), step s = .next t ∧ s.pending.head? ≠ some .supplyLoss :=
  ⟨{ up with pending := [.vhBroadcast 1100] }, _, ⟨rfl, by decide⟩⟩

theorem witness_Frames :
    ∃ (c : Instr) (s : State) (rs : List (Nat × Nat)), stores s c = some rs :=
  ⟨.fabricSectorCommit 5 0 7 ⟨false, 300⟩ ⟨sector, true⟩, up, [(256, 64)], by decide +kernel⟩

end Sys2Proof.Tests
end

section
/-! SUPPORT. SET, CLEAR, ADD and SUB (R309 to R315). The UNDERFLOW of a SUB need not be the only event of its step: when the
object is host-mapped (R322), its host write passes gate point 36, and the GATE record of that release may go out behind the GAP
of an earlier trace drop, which records TRACE_DROP too (R440). -/

namespace Sys2Proof.Proofs.SyncSignals

open Sys2Proof.Machine Sys2Proof.Safety

/-! ### What `records` says of the occurrence counters -/

/-- R412: only `countUp` moves an occurrence counter; putting a record into its FIFO moves none. -/
@[simp] theorem fifoPut_counts (now : Nat) (ev : Ev) (e : Recorder) : (fifoPut now ev e).counts = e.counts := by
  unfold fifoPut
  split <;> split <;> rfl

@[simp] theorem admitEv_counts (now : Nat) (ev : Ev) (e : Recorder) : (admitEv now ev e).counts = e.counts := by
  unfold admitEv
  split
  · split
    · rfl
    · exact fifoPut_counts ..
  · exact fifoPut_counts ..

/-- R412: where exactly one occurrence is recorded, the counter of every other code stands. -/
theorem records_keeps_other_counts {code source : BitVec 16} {p1 p2 p3 : Nat} {s t : State} (h : records code source p1 p2 p3 s t)
    {k : Nat} (hk : k ≠ countIndex code) : tget 0 k t.evt.counts = tget 0 k s.evt.counts := by
  rw [h, admitEv_counts]
  exact Laws.tget_tput_ne 0 hk ..

/-! ### A chip that owes a GAP -/

/-- A charter in AUDIT mode, whose context 1 has the logical cores 0 to 3. -/
def auditCharter : Charter :=
  { serial := 1, keygen := 1, partition := [(1, 0x0F)], figures := [], coverage := ⟨2, 0, 0, 0⟩, templates := [], guards := []
    reset := { startL1 := false, oosCount := 3, repeatMs := 1000, oosWindowS := 60, floorUs := 0 }, limits := []
    topology := { chip := 5, degradedOk := true, minStacks := 1, ports := [] }, kits := [], tempo := none
    ledger := { alpha0 := 1, beta0 := 1000, fMatrix := 60, fVector := 20, fMover := 10, fResidual := 10, eVf := 50, eR := 50
                rehRefS := 600, suspectCount := 3, stationCount := 3, windowS := 3600, drainMs := 1000, carry := false, target := 0
                fmChip := 0, fmAddr := 0 }
    seals := [], numerics := [], floors := (1, 1, 1), fixed := [] }

/-- Chip 5 serves under that charter. Object 6 of context 1 is a COUNT object of value 3, mapped to the host, whose gate point is
open. GATE records are enabled and go to the trace buffer; it was full when a record was dropped at 500, and has been read out. -/
def gapOwed : State :=
  { State.reset with
    now := 1000
    cfg := { active := some auditCharter, serial := 1, state := 4, epoch := 1 }
    stations := [(0, { tapReady := true, tapVer := 3, tapSettled := true, epoch := 1, cov := auditCharter.coverage })]
    hz := { vh := 900, gates := [(36, { opened := true, heard := 900, vh := 900 })] }
    ctxs := [(1, { timeoutUs := 1000, seal_ := none, guards := [], cores := 0x0F })]
    led := { state := 1 }
    sync := { objs := [(6, { assigned := true, count := true, value := 3, host := true, hostAddr := 0x1000, ctx := 1 })] }
    rst := { callerIn := false, coresIn := 0, clustersIn := 0 }
    trace := { ctl := 0xC8000042, wr := 2 ^ 18, rd := 2 ^ 18, tseq := 2 ^ 18 + 1, drops := 1, pending := some (1, 500, 2 ^ 18, 8192) }
    boot := { pwrOk := true, stage := 9, state := 2, locked := true, ccp := true, mapped := true, map := List.range 16, chip := 5
              keyStore := true, zeroised := false } }

/-- The command: core 0 subtracts 5 from object 6, whose value is 3. -/
def underflowingSub : Instr := .syncSub 1000 0 ⟨0, 0⟩ (objName 5 6) 5

theorem gapOwed_canStartSync : canStartSync (atTime 1000 gapOwed) 0 0 = true := by decide +kernel

theorem gapOwed_isLocal : isLocal gapOwed (objName 5 6) = true := by decide +kernel

theorem gapOwed_accessStatus : accessStatus gapOwed 0 (objName 5 6) = none := by decide +kernel

theorem gapOwed_nextTraveller : nextTraveller gapOwed 0 0 (objName 5 6) = none := by decide +kernel

theorem gapOwed_sealQuiet (o : Nat) : sealQuiet gapOwed o := .inr fun _ _ => rfl

theorem gapOwed_object : (object gapOwed (nameObject (objName 5 6))).count = true ∧
    (object gapOwed (nameObject (objName 5 6))).value.toNat < (5 : Word).toNat := by decide +kernel

/-- R322, R440: the host write of the changed object leaves gate point 36, and the GAP ahead of its GATE record counts TRACE_DROP. -/
theorem underflowingSub_counts_traceDrop :
    ∃ u, exec underflowingSub gapOwed = .next u ∧ tget 0 (countIndex 0xE001) u.evt.counts = 1 :=
  ⟨_, rfl, by decide +kernel⟩

/-- Refutes O45: at a SUB below zero the statement lets the recorder take UNDERFLOW alone, and this one counts TRACE_DROP as well. -/
theorem not_syncSignals : ¬ Obligations.SyncSignals := by
  unfold Obligations.SyncSignals
  rintro ⟨hlocal, -⟩
  obtain ⟨-, -, -, u, hu, -, -, -, hbelow⟩ := hlocal gapOwed 1000 0 0 0 (objName 5 6) 5 gapOwed_canStartSync gapOwed_isLocal
    gapOwed_accessStatus gapOwed_nextTraveller (gapOwed_sealQuiet _)
  obtain ⟨-, -, hrecords⟩ := hbelow gapOwed_object.1 gapOwed_object.2
  have hstands := records_keeps_other_counts hrecords (k := countIndex 0xE001) (by decide)
  obtain ⟨v, hv, hcounted⟩ := underflowingSub_counts_traceDrop
  obtain rfl : u = v := Host.Outcome.next.inj (hu.symm.trans hv)
  rw [hcounted] at hstands
  exact absurd hstands (by decide)

end Sys2Proof.Proofs.SyncSignals
end

section
/-! SUPPORT. The occurrence counters as REG_READ shows them (R422). Each change of MODE is recorded (R512), the first transfer
makes MODE SDR, and R412 counts that NEGOTIATED before the transfer's command acts: the REG_READ that is the first transfer of
all shows the counter of NEGOTIATED with the occurrence of its own settlement. -/

namespace Sys2Proof.Proofs.RegisterViews

open Sys2Proof.Machine Sys2Proof.Safety

/-- The occurrence counter of NEGOTIATED, and its native offset (R412, R514). -/
def negotiatedIndex : Nat := countIndex 0xA006
def negotiatedOffset : Nat := 0x011000 + 4 * negotiatedIndex

/-- R412, R512: the first transfer changes MODE, and the occurrence is counted. -/
theorem noteTransfer_counts_negotiated {s : State} (hmode : s.i3c.mode = 0) :
    tget 0 negotiatedIndex (noteTransfer s).evt.counts = satAdd 0xFFFFFF (tget 0 negotiatedIndex s.evt.counts) 1 := by
  simp [noteTransfer, setMode, recordMode, occur, mkEv, hmode, countUp, negotiatedIndex, SyncSignals.admitEv_counts]

/-- R422: below saturation the register is the count alone. -/
theorem evtCount_of_lt {s : State} {i : Nat} (hcount : tget 0 i s.evt.counts < 0xFFFFFF) : evtCount s i = tget 0 i s.evt.counts := by
  simp [evtCount, b2n, hcount.ne]

/-- R422, R489: a REG_READ of that one word answers with the count, whether or not the caller is there. -/
theorem regRead_negotiatedOffset {s : State} (hcount : tget 0 negotiatedIndex s.evt.counts < 0xFFFFFF) :
    regRead negotiatedOffset 1 s = answer 0 (toLe 4 (tget 0 negotiatedIndex s.evt.counts)) s := by
  have hdk : inDk negotiatedOffset = true := by decide
  have haligned : negotiatedOffset % 4 = 0 := by decide
  have hread : readLatched .bc negotiatedOffset s = (BitVec.ofNat 32 (evtCount s negotiatedIndex), s) := rfl
  have hword : (BitVec.ofNat 32 (evtCount s negotiatedIndex)).toNat = tget 0 negotiatedIndex s.evt.counts := by
    rw [evtCount_of_lt hcount, BitVec.toNat_ofNat, Nat.mod_eq_of_lt (by omega)]
  simp [regRead, haligned, hdk, readWords, hread, hword]

/-- R488, R512: a frame whose CRC is right is noted as a transfer before its command acts. -/
theorem command_of_frameOk {cmd : Nat} {tag : Byte} {arg : List Byte} {crc : Word} (act : State → State) {s : State}
    (hpwr : s.boot.pwrOk = true) (hcrc : frameOk (BitVec.ofNat 8 cmd) tag arg crc = true) :
    command cmd tag arg crc act s = act (updI3c (fun i => { i with tag := tag, resp := none }) (noteTransfer s)) := by
  simp [command, hpwr, hcrc]

/-- R487: a frame with its right CRC. -/
theorem exists_frameOk (cmd tag : Byte) (arg : List Byte) : ∃ crc, frameOk cmd tag arg crc = true :=
  ⟨_, beq_self_eq_true _⟩

/-- A register word shows one value only. -/
theorem shows_unique {s : State} {o v w : Nat} (hv : shows s o v) (hw : shows s o w) : toLe 4 v = toLe 4 w := by
  obtain ⟨crc, hcrc⟩ := exists_frameOk 0x02 0 (toLe 4 o ++ [1])
  obtain ⟨u, hu, hrv⟩ := hv 0 0 crc hcrc
  obtain ⟨u', hu', hrw⟩ := hw 0 0 crc hcrc
  obtain rfl : u = u' := Host.Outcome.next.inj (hu.symm.trans hu')
  simpa [responds] using hrv.symm.trans hrw

/-- The REG_READ that is the first transfer of all shows one occurrence of NEGOTIATED more than there were. -/
theorem firstTransfer_shows_itself {s : State} (hpwr : s.boot.pwrOk = true) (hmode : s.i3c.mode = 0)
    (hcount : tget 0 negotiatedIndex s.evt.counts + 1 < 0xFFFFFF) :
    shows s negotiatedOffset (tget 0 negotiatedIndex s.evt.counts + 1) := by
  intro t tag crc hcrc
  have hoffset : (BitVec.ofNat 32 negotiatedOffset).toNat = negotiatedOffset := by decide
  refine ⟨_, rfl, ?_⟩
  have hcounted : tget 0 negotiatedIndex (noteTransfer (atTime t s)).evt.counts = tget 0 negotiatedIndex s.evt.counts + 1 := by
    rw [noteTransfer_counts_negotiated (s := atTime t s) hmode, satAdd, Laws.atTime_evt, Nat.min_eq_right hcount.le]
  rw [hoffset, command_of_frameOk (s := atTime t s) _ hpwr hcrc]
  change responds 0 _ (regRead negotiatedOffset 1 _)
  rw [regRead_negotiatedOffset (by simpa [hcounted] using hcount)]
  simp [responds, answer, hcounted]

/-- The chip as a rising PWR_OK leaves it, before any transfer to the target (R448, R512). -/
def poweredOn : State := powerOn State.reset

/-- One command from reset reaches it. -/
theorem pwrOkRise_reset : exec .pwrOkRise State.reset = .next poweredOn := rfl

/-- Refutes O9: with MODE 0 the read that is to show the counter of NEGOTIATED raises it from 0 to 1 before it answers. -/
theorem not_registerViews : ¬ Obligations.RegisterViews := by
  unfold Obligations.RegisterViews
  rintro ⟨hcounts, -⟩
  have hzero : tget 0 negotiatedIndex poweredOn.evt.counts = 0 := rfl
  have hclaimed := hcounts poweredOn negotiatedIndex rfl (by decide) (by rw [hzero]; decide)
  have hshown := firstTransfer_shows_itself (s := poweredOn) rfl rfl (by rw [hzero]; decide)
  rw [hzero] at hclaimed hshown
  exact absurd (shows_unique hclaimed hshown) (by decide)

end Sys2Proof.Proofs.RegisterViews
end

section
/-! SUPPORT. The host's register generation (R91, R93, R501, R502): what an offer settles, what a Function Level Reset leaves, and
what the windows show of it (R505, R521 to R523). -/

namespace Sys2Proof.Proofs.HostGeneration

open Sys2Proof.Machine Sys2Proof.Safety

/-! ### The record of a settlement -/

/-- R29: a unit's stamp is of the timebase and of the clusters' replicas alone. -/
theorem stampOf_congr {s t : State} (hnow : t.now = s.now) (hreplicas : t.replicas = s.replicas) (src : BitVec 16) :
    stampOf t src = stampOf s src := by
  simp only [stampOf, replica, hnow, hreplicas]

/-- R409, R412: `occur` records its one occurrence. -/
theorem records_occur (code source : BitVec 16) (p1 p2 p3 : Nat) (s : State) :
    records code source p1 p2 p3 s (occur code source p1 p2 p3 s) := by
  have hstamp := stampOf_congr (Laws.occur_now code source p1 p2 p3 s) (Laws.occur_replicas code source p1 p2 p3 s) source
  unfold records
  rw [hstamp, Laws.occur_now, Laws.occur_boot]
  exact Laws.occurEv_evt ..

/-- R92: the settlement as it stands is recorded, for class 5. -/
theorem records_recordHostGen (s : State) :
    records 0xA006 0x200A 5 0 (s.cfg.hostGen + 256 * s.cfg.floors.2.2) s (recordHostGen s) :=
  records_occur ..

@[simp] theorem recordHostGen_cfg (s : State) : (recordHostGen s).cfg = s.cfg := Laws.occur_cfg ..

/-! ### An offer (R91, R502) and a Function Level Reset (R501) -/

/-- R91: G2 when it is offered and the floor admits it. -/
theorem settleHostGen_of_g2 {o : BitVec 3} {floor : Nat} (hoffer : o.getLsbD 1 = true) (hfloor : floor ≤ 2) :
    settleHostGen o floor = 2 := if_pos ⟨hoffer, hfloor⟩

/-- R91: G1 when it is the highest offered and the floor admits it. -/
theorem settleHostGen_of_g1 {o : BitVec 3} {floor : Nat} (hg2 : o.getLsbD 1 = false) (hg1 : o.getLsbD 0 = true)
    (hfloor : floor ≤ 1) : settleHostGen o floor = 1 := by
  rw [settleHostGen, if_neg (fun h => absurd h.1 (by rw [hg2]; decide)), if_pos ⟨hg1, hfloor⟩]

/-- R502: nothing settles when no generation offered is at or above the floor. -/
theorem settleHostGen_of_none {o : BitVec 3} {floor : Nat}
    (hnone : 2 < floor ∨ (o.getLsbD 1 = false ∧ (o.getLsbD 0 = false ∨ 1 < floor))) : settleHostGen o floor = 0 := by
  have hg2 : ¬ (o.getLsbD 1 = true ∧ floor ≤ 2) := by grind
  have hg1 : ¬ (o.getLsbD 0 = true ∧ floor ≤ 1) := by grind
  rw [settleHostGen, if_neg hg2, if_neg hg1]

/-- The OFFER bits of a word written to PHL_CFG_HOST_GEN (R502). -/
def offerBits (v : Word) : BitVec 3 := BitVec.ofNat 3 v.toNat

theorem offerBits_getLsbD (v : Word) {i : Nat} (hi : i < 3) : (offerBits v).getLsbD i = v.getLsbD i := by
  simp [offerBits, hi]

/-- R5: bit 2 of an offer is held for G3, and the other two bits are kept. -/
theorem offerBits_and_three (v : Word) : (offerBits v &&& 3).toNat = v.toNat % 4 := by
  have hmask : ((offerBits v).toNat &&& 3) = (offerBits v).toNat % 4 := Nat.and_two_pow_sub_one_eq_mod _ 2
  have hbits : (offerBits v).toNat = v.toNat % 8 := BitVec.toNat_ofNat ..
  change ((offerBits v).toNat &&& 3) = v.toNat % 4
  omega

/-- R502: what an offer that the caller takes leaves in the configuration, recorded or not. -/
theorem hostGenOffer_cfg {r : Requester} {v : Word} {s : State} (hup : callerOff s = false) (hr : r = .host ∨ r = .ccp) :
    (hostGenOffer r v s).cfg =
      { s.cfg with hostOffer := offerBits v &&& 3, hostGen := settleHostGen (offerBits v) s.cfg.floors.2.2 } := by
  have hheard : (r == .host || r == .ccp) = true := by rcases hr with rfl | rfl <;> rfl
  have htaken : ¬ (callerOff s = true ∨ (!(r == .host || r == .ccp)) = true) := by simp [hup, hheard]
  rw [hostGenOffer, if_neg htaken]
  change (if offerBits v = 0 then _ else recordHostGen _).cfg = _
  split
  · rfl
  · exact recordHostGen_cfg _

/-- R501: a Function Level Reset clears the register and records. -/
theorem functionReset_of_callerOn {s : State} (hup : callerOff s = false) :
    functionReset s = recordHostGen (updCfg (fun c => { c with hostOffer := 0, hostGen := 0 }) s) :=
  if_neg (by simp [hup])

/-- R502: the command of an offer settles the highest generation offered at or above the floor. -/
theorem exec_hostGenOffer {s : State} (t : Nat) {r : Requester} (v : Word) (hup : callerOff s = false)
    (hr : r = .host ∨ r = .ccp) :
    ∃ u, exec (.hostGenOffer t r v) s = .next u ∧
      u.cfg.hostGen = settleHostGen (offerBits v) s.cfg.floors.2.2 ∧ u.cfg.hostOffer.toNat = v.toNat % 4 ∧
      onlyChanges [.now, .cfg, .evt, .tab] s u := by
  have hcfg := hostGenOffer_cfg (v := v) (s := atTime t s) hup hr
  exact ⟨hostGenOffer r v (atTime t s), rfl, by rw [hcfg]; rfl, by rw [hcfg]; exact offerBits_and_three v,
    Laws.hostGenOffer_only rfl r v _ (Laws.atTime_only rfl t s (Laws.only_refl _ s))⟩

/-- R501: the command of a Function Level Reset withdraws the offer and records version 0. -/
theorem exec_functionLevelReset {s : State} (t : Nat) (hup : callerOff s = false) :
    ∃ u, exec (.functionLevelReset t) s = .next u ∧ u.cfg = { s.cfg with hostOffer := 0, hostGen := 0 } ∧
      records 0xA006 0x200A 5 0 (256 * s.cfg.floors.2.2) s u := by
  refine ⟨functionReset (atTime t s), rfl, ?_⟩
  rw [functionReset_of_callerOn (s := atTime t s) hup]
  refine ⟨recordHostGen_cfg _, ?_⟩
  have hrecords := records_recordHostGen (updCfg (fun c => { c with hostOffer := 0, hostGen := 0 }) (atTime t s))
  rwa [Laws.updCfg_cfg, Nat.zero_add] at hrecords

/-! ### REG_READ of PHL_CFG_HOST_GEN -/

/-- R17: a word that is no half of a latching register is read as it stands. -/
theorem readLatched_of_not_latches {o : Nat} (r : Requester) (s : State) (hlow : latches o = false) (hhigh : latches (o - 4) = false) :
    readLatched r o s = (readWord s r o, s) := by
  simp [readLatched, hlow, hhigh]

/-- R8: `n` bytes show a number modulo 256 to the `n`. -/
theorem toLe_mod (n v : Nat) : toLe n (v % 256 ^ n) = toLe n v := by
  induction n generalizing v with
  | zero => rfl
  | succ n ih =>
    have hbyte : BitVec.ofNat 8 (v % 256 ^ (n + 1)) = BitVec.ofNat 8 v := by
      apply BitVec.eq_of_toNat_eq
      simp only [BitVec.toNat_ofNat]
      exact Nat.mod_mod_of_dvd v (Dvd.intro_left (256 ^ n) rfl)
    have hrest : v % 256 ^ (n + 1) / 256 = v / 256 % 256 ^ n := by
      rw [Nat.pow_succ', Nat.mod_mul_right_div_self]
    rw [toLe, toLe, hbyte, hrest, ih]

/-- R489: a REG_READ of one aligned word that does not latch answers its bytes, while the caller hears it. -/
theorem regRead_one {o : Nat} {s : State} (hlive : callerDead s = false) (haligned : o % 4 = 0) (hlow : latches o = false)
    (hhigh : latches (o - 4) = false) : regRead o 1 s = answer 0 (toLe 4 (readWord s .bc o).toNat) s := by
  simp [regRead, haligned, hlive, readWords, readLatched_of_not_latches .bc s hlow hhigh]

/-- R502: the word of PHL_CFG_HOST_GEN. -/
theorem readWord_hostGen (s : State) (r : Requester) :
    readWord s r 0x000020 = BitVec.ofNat 32 (s.cfg.hostGen * 256 + s.cfg.hostOffer.toNat) := rfl

/-- R512: noting a transfer touches the target and the recorder alone. -/
theorem noteTransfer_frame (s : State) : onlyChanges [.evt, .tab, .i3c] s (noteTransfer s) :=
  Laws.noteTransfer_only rfl s (Laws.only_refl _ s)

@[simp] theorem noteTransfer_cfg (s : State) : (noteTransfer s).cfg = s.cfg := (noteTransfer_frame s).2 .cfg (by decide)
@[simp] theorem noteTransfer_rst (s : State) : (noteTransfer s).rst = s.rst := (noteTransfer_frame s).2 .rst (by decide)
@[simp] theorem noteTransfer_led (s : State) : (noteTransfer s).led = s.led := (noteTransfer_frame s).2 .led (by decide)

theorem callerIn_of_callerOn {s : State} (hup : callerOff s = false) : s.rst.callerIn = false := (Bool.or_eq_false_iff.1 hup).1

/-- R489, R502: REG_READ shows SETTLED and OFFER. -/
theorem shows_hostGen {s : State} (hup : callerUp s) : shows s 0x000020 (s.cfg.hostGen * 256 + s.cfg.hostOffer.toNat) := by
  obtain ⟨hpwr, hon, hled⟩ := hup
  intro t tag crc hcrc
  refine ⟨_, rfl, ?_⟩
  have hlive (f : I3c → I3c) : callerDead (updI3c f (noteTransfer (atTime t s))) = false := by
    simp [callerDead, callerIn_of_callerOn hon, hled]
  change responds 0 _ (command 0x02 tag (toLe 4 0x000020 ++ [1]) crc (regRead 0x000020 1) (atTime t s))
  rw [RegisterViews.command_of_frameOk (s := atTime t s) _ hpwr hcrc, regRead_one (hlive _) rfl rfl rfl, readWord_hostGen, Laws.updI3c_cfg,
    noteTransfer_cfg, Laws.atTime_cfg, BitVec.toNat_ofNat]
  exact congrArg (fun bytes => some (0, bytes)) (toLe_mod 4 _)

/-! ### The windows -/

/-- R505: with the caller in reset both windows read all ones. -/
theorem windowRead_of_callerIn {s : State} (r : Requester) (o : Nat) (hin : s.rst.callerIn = true) :
    windowRead r o s = (BitVec.allOnes 32, s) := if_pos hin

/-- R521: without G1 the G1 window reads as zero. -/
theorem windowRead_g1_unsettled {s : State} (o : Nat) (hup : callerOff s = false) (hgen : s.cfg.hostGen ≠ 1) :
    windowRead .hostG1 o s = (0, s) := by
  simp [windowRead, callerIn_of_callerOn hup, hgen]

/-- R521: with G1 settled, an offset that stands for no native register shows the G1 window's own word. -/
theorem windowRead_g1_own {s : State} {o : Nat} (hup : callerOff s = false) (hgen : s.cfg.hostGen = 1) (hown : g1Alias o = none) :
    windowRead .hostG1 o s = (BitVec.ofNat 32 (g1Word s o), s) := by
  simp [windowRead, callerIn_of_callerOn hup, hgen, hown]

/-- R8: `n` bytes spell a number below 256 to the `n`. -/
theorem leNat_lt (l : List Byte) : leNat l < 256 ^ l.length := by
  induction l with
  | nil => exact Nat.one_pos
  | cons b l ih =>
    have hb := b.isLt
    rw [leNat, List.length_cons, Nat.pow_succ]
    omega

/-- R474: STEPPING is one byte. -/
theorem stepping_lt (s : State) : leNat (identBytes s 22 1) < 256 :=
  calc leNat (identBytes s 22 1) < 256 ^ (identBytes s 22 1).length := leNat_lt _
    _ ≤ 256 ^ 1 := Nat.pow_le_pow_right (by decide) (List.length_take_le ..)

/-- R522: PHL_G1_ID shows PART and GEN above STEPPING. -/
theorem g1Word_id (s : State) : (BitVec.ofNat 32 (g1Word s 0x0000)).toNat / 256 = 0x025601 := by
  have hstepping := stepping_lt s
  have hword : g1Word s 0x0000 = 0x0256 * 2 ^ 16 + 2 ^ 8 + leNat (identBytes s 22 1) := if_pos rfl
  rw [hword, BitVec.toNat_ofNat]
  omega

/-- R8: bit `k` of the number whose bits are `f 0` to `f (n - 1)`. -/
theorem testBit_sum_bits (f : Nat → Bool) {n k : Nat} (hk : k < n) :
    ((List.range n).map fun i => b2n (f i) * 2 ^ i).sum.testBit k = f k := by
  induction n generalizing f k with
  | zero => omega
  | succ n ih =>
    have hlow : b2n (f 0) = (f 0).toNat := by cases f 0 <;> rfl
    have hhigh : ((List.range n).map fun i => b2n (f (i + 1)) * 2 ^ (i + 1)).sum
        = 2 * ((List.range n).map fun i => b2n (f (i + 1)) * 2 ^ i).sum := by
      rw [← List.sum_map_mul_left]
      simp only [Nat.pow_succ', Nat.mul_left_comm]
    have hsum : ((List.range (n + 1)).map fun i => b2n (f i) * 2 ^ i).sum
        = 2 * ((List.range n).map fun i => b2n (f (i + 1)) * 2 ^ i).sum + (f 0).toNat := by
      rw [List.range_succ_eq_map, List.map_cons, List.sum_cons, List.map_map, ← hhigh, ← hlow, Nat.pow_zero, Nat.mul_one, Nat.add_comm]
      rfl
    rw [hsum]
    cases k with
    | zero => cases f 0 <;> simp [Nat.testBit_zero, Nat.add_mod]
    | succ k =>
      have hbit := (f 0).toNat_lt
      have hhalf (m : Nat) : (2 * m + (f 0).toNat) / 2 = m := by omega
      rw [Nat.testBit_succ, hhalf, ih _ (by omega)]

/-- R523: the words of PHL_G1_FLAGS stand for no native register. -/
theorem g1Alias_flags (w : Nat) : g1Alias (0x8000 + w) = none := by
  unfold g1Alias
  grind

/-- R523: bit o of PHL_G1_FLAGS is the flag of object o. -/
theorem g1Word_flags {o : Nat} (s : State) (ho : o < 8192) :
    (BitVec.ofNat 32 (g1Word s (0x8000 + o / 32 * 4))).getLsbD (o % 32) = g1Flag s o := by
  have hbit : o % 32 < 32 := Nat.mod_lt _ (by decide)
  have hword : g1Word s (0x8000 + o / 32 * 4)
      = ((List.range 32).map fun i => b2n (g1Flag s (o / 32 * 4 * 8 + i)) * 2 ^ i).sum := by
    rw [g1Word, if_neg (by omega), if_neg (by omega), if_pos (by omega), Nat.add_sub_cancel_left]
  have hobject : o / 32 * 4 * 8 + o % 32 = o := by omega
  rw [BitVec.getLsbD_ofNat, hword, testBit_sum_bits (fun i => g1Flag s (o / 32 * 4 * 8 + i)) hbit, hobject]
  simp [hbit]

/-- Settles O8: an offer settles by `settleHostGen`, a Function Level Reset clears, and each read shows the register. -/
theorem hostGeneration : Obligations.HostGeneration := by
  unfold Obligations.HostGeneration
  refine ⟨fun s t r v hup hr => ?offer, fun s t hup => exec_functionLevelReset t hup, fun s hup => shows_hostGen hup,
    fun s r o hin => windowRead_of_callerIn r o hin, fun s o hup hgen => windowRead_g1_unsettled o hup hgen,
    fun s hup hgen => ⟨?ident, fun o ho _ => ?flags⟩, rfl, rfl⟩
  case offer =>
    obtain ⟨u, hu, hgen, hoffer, honly⟩ := exec_hostGenOffer t v hup hr
    rw [← offerBits_getLsbD v (i := 0) (by decide), ← offerBits_getLsbD v (i := 1) (by decide)]
    exact ⟨u, hu, fun hg2 hfloor => hgen.trans (settleHostGen_of_g2 hg2 hfloor),
      fun hg2 hg1 hfloor => hgen.trans (settleHostGen_of_g1 hg2 hg1 hfloor),
      fun hnone => hgen.trans (settleHostGen_of_none hnone), hoffer, honly⟩
  case ident =>
    rw [windowRead_g1_own hup hgen rfl]
    exact ⟨g1Word_id s, rfl⟩
  case flags =>
    rw [windowRead_g1_own hup hgen (g1Alias_flags _)]
    exact g1Word_flags s ho

end Sys2Proof.Proofs.HostGeneration
end
